-- ==== Sys2Proof/Word.lean ====
section
/-!
DEFINITION. The word types, the numbers of the module's units, and the sparse table every array of units is kept in.
-/
namespace Sys2Proof

/-- A byte of memory (R7). -/
abbrev Byte := BitVec 8

/-- A 64-bit register or packet word (R10, R277). -/
abbrev Word := BitVec 64

/-- A 32-bit datum of the vector engine or of an accumulator. -/
abbrev Half := BitVec 32

/-- A sparse array of units: pairs of a number and a value, the numbers strictly rising, a number that is not listed
holding the unit's reset value. -/
abbrev Table (α : Type) := List (Nat × α)

/-- A die site, row × 5 + column (R12). -/
abbrev Site := Fin 25
/-- A global tensor-core index (R13). -/
abbrev CoreId := Fin 1024
/-- A global cluster index (R13). -/
abbrev ClusterId := Fin 128
/-- A sector number (R334). -/
abbrev SectorId := Fin 16
/-- A fabric port index, 8 × bank + n (R34). -/
abbrev PortId := Fin 32
/-- A collective engine (R259). -/
abbrev EngineId := Fin 64
/-- A PCIe/CXL port (R168). -/
abbrev PcieId := Fin 8
/-- A tier-0 stack (R167). -/
abbrev StackId := Fin 80
/-- An edge die: 0 N, 1 W, 2 E, 3 S (R34, R168). -/
abbrev EdId := Fin 4
/-- A caching agent, 0 to 385 (R198). -/
abbrev AgentId := Fin 386
/-- A memory-bearing die index, 0 to 19 (R167). -/
abbrev MdId := Fin 20
/-- A staged set (R46). -/
abbrev SetId := Fin 4
/-- A thread group of the vector engine (R127). -/
abbrev GroupId := Fin 32
/-- A physical address (R22). -/
abbrev PAddr := BitVec 56

/-- Who issues a command or owns an object: a sector, or the Keeper's management function (R300). -/
inductive Issuer where
  | sector (s : SectorId)
  | mgmt
  deriving DecidableEq, Repr

/-- A Synocra queue: a cluster sequencer's queue (R270), a management queue (R402), or the Keeper's store of commands that other
modules sent (R405). -/
inductive QRef where
  | csq (q : Fin 16384)
  | mq (m : Fin 64)
  | remote
  deriving DecidableEq, Repr

/-- A reset domain (the table of reset domains, R31; R384, R399). -/
inductive Domain where
  | core (c : CoreId)
  | cluster (c : ClusterId)
  | td (s : Site)
  | engine (e : EngineId)
  | port (p : PortId)
  | stack (s : StackId)
  | edge (d : EdId)
  /-- The harbour domain of a die whose slice is the failing unit (R31, R215): a module fault. -/
  | slice (d : MdId)
  | moduleWarm
  | moduleCold
  deriving DecidableEq, Repr

end Sys2Proof
end

