-- ==== Sys2Proof/Syntax.lean ====
section
/-!
DEFINITION. The commands the block takes: one constructor for each row of the opcode table, with the row's operands.
An operand that the spec leaves to the outside (a tag that checks out or not, a training result, a measured figure) is an
operand of the row it decides.
-/
namespace Sys2Proof

/-- A scalar register s0 to s31 (R71). -/
abbrev Reg := Fin 32

/-- The operand fields of TWAIT and TTEST (R73). -/
structure TwaitArgs where
  tokA : Fin 64
  cntA : BitVec 8
  tokB : Fin 64
  cntB : BitVec 8
  crd : Fin 32
  cntC : BitVec 8
  deriving DecidableEq, Repr

/-- The operand fields of the move class (R71). -/
structure MoveArgs where
  sa : Reg
  sl : Reg
  tile : BitVec 22
  peer : Fin 8
  post : Bool
  token : Fin 64
  deriving DecidableEq, Repr

/-- The operand fields of the matrix class (R71). -/
structure MatArgs where
  aBase : BitVec 14
  bBase : BitVec 14
  kReg : Reg
  acc : Fin 4
  fmt : BitVec 4
  auxReg : Reg
  flags : BitVec 8
  deriving DecidableEq, Repr

/-- The operand fields of the vector class (R71, R135). A K1 kernel's 6-bit names stand in the low bits (R164). -/
structure VecArgs where
  dst : BitVec 10
  src1 : BitVec 10
  src2 : BitVec 10
  src3 : BitVec 10
  maskOp : BitVec 4
  mod : BitVec 8
  deriving DecidableEq, Repr

/-- The operand fields of the chain class (R151). -/
structure ChainArgs where
  desc : BitVec 14
  source : BitVec 2
  acc : Fin 4
  clear : Bool
  deriving DecidableEq, Repr

/-- Where an engine instruction stands when its core stops at an interrupt boundary (R85, R87): the steps or rows
completed, and the instruction's kind, 0 none, 1 matrix, 2 COMPRESS, 3 EXPAND. -/
structure EngineProgress where
  count : BitVec 32
  kind : BitVec 3
  deriving DecidableEq, Repr

/-- A packet of a queue: the queue and the ring index of the packet's first entry. -/
structure PktRef where
  q : QRef
  ix : BitVec 32
  deriving DecidableEq, Repr

/-- A move under way: the n-th of the moves a core's mover holds, or the command of a packet on a cluster's movers
(R76, R294). -/
inductive MoveRef where
  | core (c : CoreId) (n : Nat)
  | cmd (p : PktRef)
  deriving DecidableEq, Repr

/-- A link flit (R219): its bytes 0 to 9, its payload field of 238 bytes, its CRC. -/
structure Flit where
  hdr : BitVec 80
  payload : List Byte
  crc : Word
  deriving DecidableEq, Repr

/-- A transport packet: its 32-byte header and its payload (R244). -/
structure TPkt where
  w0 : Word
  w1 : Word
  w2 : Word
  w3 : Word
  payload : List Byte
  deriving DecidableEq, Repr

/-- What the body of a received link packet turns out to be (R225, R226, R228): a tag that is not valid under the key R228 names, an
SPDM message, or the transport packet that its ciphertext opens to under that key. -/
inductive LinkBody where
  | refused
  | spdm
  | opened (t : TPkt)
  deriving DecidableEq, Repr

/-- An Ethernet frame with a UDP datagram as received (R234 to R236): its length in bytes, the addresses and the destination port
of its datagram, the words of its shim, and its flits. -/
structure Datagram where
  length : Nat
  dst : BitVec 128
  src : BitVec 128
  udpPort : BitVec 16
  shim0 : Word
  shim1 : Word
  flits : List Flit
  deriving DecidableEq, Repr

/-- A beacon flit (R34). -/
structure BeaconFlit where
  bt : Word
  masterId : BitVec 24
  idHash : BitVec 32
  hop : BitVec 10
  traceable : Bool
  deriving DecidableEq, Repr


/-- Who sends a memory request (R169): a PD core by its agent number, a tensor core's mover, a collective engine, an adapter of a
PCIe/CXL port, a Keeper core, the guest die. -/
inductive Requester where
  | pd (a : AgentId)
  | core (c : CoreId)
  | engine (e : EngineId)
  | pcie (p : PcieId)
  | kd
  | guest
  deriving DecidableEq, Repr

/-- A level whose queue occupancy is averaged (R196): a slice, a stack or DDR5 controller, an output port of a router. -/
inductive HotLevel where
  | slice (md : MdId)
  | controller (k : Fin 96)
  | router (site : Site) (port : Fin 4)
  deriving DecidableEq, Repr

/-- The operations a home performs on 4 or 8 bytes (R186). -/
inductive AtomOp where
  | add | addF32 | addBf16x2 | minS | maxS | minU | maxU | minF32 | maxF32 | swap | cas
  deriving DecidableEq, Repr

/-- The operations of REDUCE_INTO (R186). -/
inductive RedOp where
  | sum | max | min
  deriving DecidableEq, Repr

/-- What a PD or Keeper core does to a line it owns (R209, R308): LR, SC, an AMO, or the 64 zero bytes of CBO.ZERO. -/
inductive CoreAct where
  | lr | sc | swap | add | xor | and | or | min | max | minu | maxu | zero
  deriving DecidableEq, Repr

/-- A core's operation: on 8 bytes or 4, at an offset in its line, with an operand. -/
structure CoreOp where
  act : CoreAct
  wide : Bool
  off : Fin 128
  value : Word
  deriving DecidableEq, Repr

/-- How an SPDM request reaches the Lantern (R347): the DOE of a port's function, the management endpoint, a fabric link. -/
inductive SpdmPath where
  | doe (port : PcieId) (fn : Fin 17)
  | endpoint
  | link (p : PortId)
  deriving DecidableEq, Repr

/-- An SPDM request, as far as it acts on the module (R347, R348): GET_MEASUREMENTS with its session, a session opened with or
without mutual authentication, a session ended, or any other message. -/
inductive SpdmReq where
  | other (code : BitVec 8)
  | measurements (index : BitVec 8) (session : Option (BitVec 32))
  | openSession (id : BitVec 32) (authed : Bool)
  | endSession (id : BitVec 32)
  /-- The versions, the capabilities, the algorithms; a certificate slot; the hybrid signature, asked for under a vendor ID. -/
  | version | capabilities | algorithms
  | certificate (slot : BitVec 8)
  | hybrid (vendor : BitVec 16)
  deriving DecidableEq, Repr

/-- A PCIe/CXL link as it trained, or went down (R316, R424): whether its PE_REFCLK toggles, its rate, width and protocol codes, whether
every required IDE stream is established, flit mode, the devices enumerated. -/
structure LinkReport where
  up : Bool
  ownClock : Bool
  rate : BitVec 3
  width : BitVec 5
  protocol : BitVec 2
  ide : Bool
  devices : BitVec 4
  deriving DecidableEq, Repr

/-- What a TD or PD would draw, in mW, were none of its clusters or cores to go above a point and none above the point it demands: one
number for each point from 0 on (R362, R370). -/
structure DieDraw where
  site : Site
  draw : List Nat
  deriving DecidableEq, Repr

/-- What the power controller measures at a tick (R362, R370, R379, R380): the input power over the last tick in W, junction temperatures that
changed, the draw of each TD and PD at each point, and the draw of everything else in mW. -/
structure PowerSample where
  inputW : BitVec 16
  rest : Nat
  temps : List (Site × BitVec 8)
  dies : List DieDraw
  deriving DecidableEq, Repr

/-- A die's draw with no cluster or core above a point; a list that ends sooner stays at its last entry. -/
def DieDraw.at (d : DieDraw) (point : Nat) : Nat := d.draw.getD point (d.draw.getLastD 0)

/-- The module's draw with no cluster or core above a point. -/
def PowerSample.total (x : PowerSample) (point : Nat) : Nat := x.dies.foldl (fun a d => a + d.at point) x.rest

/-- D: what the demanded points would draw (R370). -/
def PowerSample.demand (x : PowerSample) : Nat := x.total 31

/-- An image as the boot ROM or the Keeper reads it from boot flash (R343, R344): its header's fields; whether its reserved bytes are 0;
whether the hash of its body and the hash of its two public keys (against the fused root hash of ROOT_KEY_INDEX) are equal, and whether
each signature is valid; the SHA-384 of header bytes 0 to 79, its measurement. -/
structure ImageReport where
  magic : BitVec 32
  hdrVersion : BitVec 8
  component : BitVec 8
  svn : BitVec 32
  version : BitVec 32
  member : BitVec 8
  archGen : BitVec 8
  steppingMin : BitVec 16
  rootKey : BitVec 8
  reservedZero : Bool
  bodyOk : Bool
  keysOk : Bool
  ecdsaOk : Bool
  mldsaOk : Bool
  digest : BitVec 384
  deriving DecidableEq, Repr

/-- What a phase of a start finds (R343, R395, R437, R446). Phase 1: the Keeper's image of set NEXT and of the other set, none
where the flash holds none; whether MGMT_REFCLK is absent (R428). Phase 3: whether REFCLK_FAB and REFCLK_PCIE are absent; failing lanes by edge, direction and module, and stack channels held out. Phase 4:
PD cores that fail, and whether another test does. Phase 5: stacks that fail to train. Phase 6: the sequencer, platform and edge images;
the set's FEATURE_LEVEL; the devices enumerated, port and bytes, the guest's as port 8. -/
structure BootReport where
  images : List (Option ImageReport)
  level : BitVec 16
  noMgmt : Bool
  noFab : Bool
  noPcie : Bool
  lanes : List (Fin 40 × Bool × Fin 24 × List (Fin 66))
  channels : List (Fin 2560)
  cores : List (Fin 384)
  failed : Bool
  untrained : List (Fin 80)
  hdm : List (Fin 9 × Nat)
  deriving DecidableEq, Repr

/-- Who writes a control-block register: a sector, platform firmware in M-mode on a PD core (R339), or the management function
through a port: 0 to 7 the function 0 there, 8 the management endpoint (R300, R402). -/
inductive RegWriter where
  | sector (s : SectorId)
  | firmware (a : Fin 384)
  | mgmt (port : Fin 9)
  deriving DecidableEq, Repr

/-- Where a memory request of a host falls (R320, R324): in BAR0 or BAR2 of a function, at an offset or a bus address, or in none. -/
inductive BarTarget where
  | bar0 (fn : Fin 17) (off : Word)
  | bar2 (fn : Fin 17) (addr : Word)
  | none
  deriving DecidableEq, Repr

/-- What a configuration request does (R320, R324): a read of the header, a write of the command register's memory-space and bus-master
enables, a write of the MSI-X enable, a write of a word of the BARs. -/
inductive CfgAccess where
  | read (off : BitVec 12)
  | command (mse bme : Bool)
  | msix (enable : Bool)
  | bar (i : Fin 4) (v : BitVec 32)
  deriving DecidableEq, Repr

/-- A PCIe AtomicOp (R324). -/
inductive PcieAtomic where
  | fetchAdd | swap | cas
  deriving DecidableEq, Repr
/-- A command of the block: a row of the opcode table. -/
inductive Instr where
  /-- Scalar instruction that has no effect (R72). -/
  | nop (core : CoreId)
  /-- Ends the kernel once every earlier instruction and move has completed; the core goes IDLE, and the launch reply is written when the last core of the mask ends (R69). -/
  | endKernel (core : CoreId)
  /-- Loads the sign-extended immediate into s[D] (R72). -/
  | li (core : CoreId) (d : Reg) (imm : BitVec 32)
  /-- Loads the immediate into the upper 32 bits of s[D] and keeps the lower 32 bits (R72). -/
  | lih (core : CoreId) (d : Reg) (imm : BitVec 32)
  /-- Sets s[D] = s[A] + s[B], wrapping on 64 bits (R72). -/
  | add (core : CoreId) (d : Reg) (a : Reg) (b : Reg)
  /-- Sets s[D] = s[A] - s[B], wrapping on 64 bits (R72). -/
  | sub (core : CoreId) (d : Reg) (a : Reg) (b : Reg)
  /-- Sets s[D] to the low 64 bits of s[A] x s[B] (R72). -/
  | mul (core : CoreId) (d : Reg) (a : Reg) (b : Reg)
  /-- Scalar bitwise AND (R72). -/
  | and (core : CoreId) (d : Reg) (a : Reg) (b : Reg)
  /-- Scalar bitwise OR (R72). -/
  | or (core : CoreId) (d : Reg) (a : Reg) (b : Reg)
  /-- Scalar bitwise XOR (R72). -/
  | xor (core : CoreId) (d : Reg) (a : Reg) (b : Reg)
  /-- Shifts s[A] left by s[B][5:0] (R72). -/
  | shl (core : CoreId) (d : Reg) (a : Reg) (b : Reg)
  /-- Shifts s[A] logically right by s[B][5:0] (R72). -/
  | shr (core : CoreId) (d : Reg) (a : Reg) (b : Reg)
  /-- Shifts s[A] arithmetically right by s[B][5:0] (R72). -/
  | sra (core : CoreId) (d : Reg) (a : Reg) (b : Reg)
  /-- Sets s[D] = s[A] + IMM (R72). -/
  | addi (core : CoreId) (d : Reg) (a : Reg) (imm : BitVec 32)
  /-- Branches by IMM instructions if s[A] equals s[B] (R72). -/
  | beq (core : CoreId) (a : Reg) (b : Reg) (imm : BitVec 32)
  /-- Branches by IMM instructions if s[A] differs from s[B] (R72). -/
  | bne (core : CoreId) (a : Reg) (b : Reg) (imm : BitVec 32)
  /-- Branches by IMM instructions if s[A] is less than s[B], signed (R72). -/
  | blt (core : CoreId) (a : Reg) (b : Reg) (imm : BitVec 32)
  /-- Branches by IMM instructions if s[A] is less than s[B], unsigned (R72). -/
  | bltu (core : CoreId) (a : Reg) (b : Reg) (imm : BitVec 32)
  /-- Always branches by IMM instructions (R72). -/
  | jmp (core : CoreId) (imm : BitVec 32)
  /-- Decrements s[D] and branches if the result is not 0 (R72). -/
  | loop (core : CoreId) (d : Reg) (imm : BitVec 32)
  /-- Loads 8 bytes of tile memory into s[D], or faults with TILE_RANGE (R72). -/
  | lds (core : CoreId) (d : Reg) (a : Reg) (imm : BitVec 32)
  /-- Stores s[B] to 8 bytes of tile memory, or faults with TILE_RANGE (R72). -/
  | sts (core : CoreId) (a : Reg) (b : Reg) (imm : BitVec 32)
  /-- Reads the module's current beacon time into s[D] (R72). -/
  | rdbt (core : CoreId) (d : Reg)
  /-- Waits until every earlier instruction and move has completed with its writes visible (R72). -/
  | fence (core : CoreId)
  /-- Faults the kernel with code TRAP and TRAP_VALUE = IMM[7:0] (R72). -/
  | trap (core : CoreId) (imm : BitVec 32)
  /-- Stalls issue until the named token and credit counters hold their counts, then subtracts every count at once (R60). -/
  | twait (core : CoreId) (t : TwaitArgs)
  /-- A stalled TWAIT finds its counts met, consumes them and the core returns from WAITING to RUNNING (R88). -/
  | twaitMet (core : CoreId)
  /-- Sends a post of INCR to the token address TARGET once earlier instructions and move writes are visible (R61). -/
  | tpost (core : CoreId) (target : BitVec 18) (incr : BitVec 16) (nomw : Bool)
  /-- Like TPOST, with target and increment taken from s[A]; faults with BAD_POST on a zero INCR or a reserved credit address (R73). -/
  | tposts (core : CoreId) (a : Reg) (nomw : Bool)
  /-- Reads a counter of the running bank into s[D] without consuming it (R73). -/
  | tread (core : CoreId) (d : Reg) (counter : BitVec 6) (kind : Bool)
  /-- Sets s[D] to 1 if the TWAIT terms would pass now, without consuming (R73). -/
  | ttest (core : CoreId) (t : TwaitArgs) (d : Reg)
  /-- Posts arriving at a counter in one cycle are summed and added after any TWAIT subtraction of that cycle (R62). -/
  | postArrive (target : BitVec 18) (n : Nat)
  /-- Queues a move of s[SL] bytes from physical memory into tile memory (R74). -/
  | mvin (core : CoreId) (v : MoveArgs)
  /-- Queues a move of s[SL] bytes from tile memory to physical memory (R74). -/
  | mvout (core : CoreId) (v : MoveArgs)
  /-- Queues a tile-to-tile move to a peer core of the same cluster (R74). -/
  | mvt (core : CoreId) (v : MoveArgs)
  /-- Queues the move list whose first descriptor is at s[SA] (R74). -/
  | mlist (core : CoreId) (v : MoveArgs)
  /-- A 4 KiB block of a move completes with its writes visible, which is an interrupt boundary of the mover (R78). -/
  | moveBlockDone (mover : MoveRef) (block : Nat)
  /-- Every write of a move or descriptor is visible, so the move completes and posts its token when POST is set (R78). -/
  | moveComplete (mover : MoveRef)
  /-- Performs K rank-1 steps of a matrix multiply-accumulate into an accumulator tile set (R102). -/
  | mma (core : CoreId) (x : MatArgs)
  /-- Loads a tile set from a tile-memory stream, optionally adding it to the tile (R104). -/
  | accLoad (core : CoreId) (x : MatArgs)
  /-- Stores a tile set to a tile-memory stream, converting it, optionally with stochastic rounding (R104). -/
  | accStore (core : CoreId) (x : MatArgs)
  /-- Writes +0 to every element of a tile set (R104). -/
  | accZero (core : CoreId) (x : MatArgs)
  /-- Runs a fused chain of 1 to 8 element-wise stages from an accumulator tile set or a tile stream to a sink, with an optional row reduction (R155). -/
  | chain (core : CoreId) (x : ChainArgs)
  /-- Vector add (R137). -/
  | vadd (core : CoreId) (v : VecArgs)
  /-- Vector subtract (R137). -/
  | vsub (core : CoreId) (v : VecArgs)
  /-- Vector multiply (R137). -/
  | vmul (core : CoreId) (v : VecArgs)
  /-- Vector fused multiply-add, rounded once (R138). -/
  | vfma (core : CoreId) (v : VecArgs)
  /-- Vector minimum (R137). -/
  | vmin (core : CoreId) (v : VecArgs)
  /-- Vector maximum (R137). -/
  | vmax (core : CoreId) (v : VecArgs)
  /-- Vector absolute value (R137). -/
  | vabs (core : CoreId) (v : VecArgs)
  /-- Vector negation (R137). -/
  | vneg (core : CoreId) (v : VecArgs)
  /-- Vector bitwise AND (R137). -/
  | vand (core : CoreId) (v : VecArgs)
  /-- Vector bitwise OR (R137). -/
  | vor (core : CoreId) (v : VecArgs)
  /-- Vector bitwise XOR (R137). -/
  | vxor (core : CoreId) (v : VecArgs)
  /-- Vector left shift (R137). -/
  | vshl (core : CoreId) (v : VecArgs)
  /-- Vector logical right shift (R137). -/
  | vshr (core : CoreId) (v : VecArgs)
  /-- Vector arithmetic right shift (R137). -/
  | vsra (core : CoreId) (v : VecArgs)
  /-- Vector integer division; a zero divisor faults with ARITH (R138). -/
  | vdiv (core : CoreId) (v : VecArgs)
  /-- Vector integer remainder; a zero divisor faults with ARITH (R138). -/
  | vrem (core : CoreId) (v : VecArgs)
  /-- Vector compare into a predicate (R137). -/
  | vcmp (core : CoreId) (v : VecArgs)
  /-- Vector select under a predicate (R137). -/
  | vsel (core : CoreId) (v : VecArgs)
  /-- Writes each thread's global thread index (R137). -/
  | vtid (core : CoreId) (v : VecArgs)
  /-- Vector move with the bits unchanged (R137). -/
  | vmov (core : CoreId) (v : VecArgs)
  /-- Converts integers to FP32 (R139). -/
  | vcvtf (core : CoreId) (v : VecArgs)
  /-- Converts FP32 to integers with saturation (R139). -/
  | vcvti (core : CoreId) (v : VecArgs)
  /-- Packs two FP32 values into a BF16 or FP16 pair, optionally with stochastic rounding (R139). -/
  | vpack (core : CoreId) (v : VecArgs)
  /-- Widens the low half of a pair to FP32 (R139). -/
  | vunpkl (core : CoreId) (v : VecArgs)
  /-- Widens the high half of a pair to FP32 (R139). -/
  | vunpkh (core : CoreId) (v : VecArgs)
  /-- Vector base-2 exponential (R159). -/
  | vexp2 (core : CoreId) (v : VecArgs)
  /-- Vector base-2 logarithm (R159). -/
  | vlog2 (core : CoreId) (v : VecArgs)
  /-- Vector reciprocal (R159). -/
  | vrcp (core : CoreId) (v : VecArgs)
  /-- Vector reciprocal square root (R159). -/
  | vrsqrt (core : CoreId) (v : VecArgs)
  /-- Vector square root (R159). -/
  | vsqrt (core : CoreId) (v : VecArgs)
  /-- Vector sin(pi x) (R159). -/
  | vsinpi (core : CoreId) (v : VecArgs)
  /-- Vector cos(pi x) (R159). -/
  | vcospi (core : CoreId) (v : VecArgs)
  /-- Vector hyperbolic tangent (R159). -/
  | vtanh (core : CoreId) (v : VecArgs)
  /-- Vector sigmoid (R159). -/
  | vsigmoid (core : CoreId) (v : VecArgs)
  /-- Vector shuffle within a group (R137). -/
  | vshfl (core : CoreId) (v : VecArgs)
  /-- Reduces over the written threads of a group in canonical order (R140). -/
  | vred (core : CoreId) (v : VecArgs)
  /-- Inclusive prefix sum over the written threads of a group (R140). -/
  | vscan (core : CoreId) (v : VecArgs)
  /-- Loads one 256-byte vector per group from tile memory (R145). -/
  | vld (core : CoreId) (v : VecArgs)
  /-- Stores the written threads of one vector per group to tile memory (R145). -/
  | vst (core : CoreId) (v : VecArgs)
  /-- Gathers 4 bytes per thread from tile memory (R146). -/
  | vgather (core : CoreId) (v : VecArgs)
  /-- Scatters 4 bytes per thread to tile memory (R146). -/
  | vscatter (core : CoreId) (v : VecArgs)
  /-- Vector atomic add in physical memory, with combining within a group (R147). -/
  | vatomAdd (core : CoreId) (v : VecArgs)
  /-- Vector atomic minimum in physical memory (R147). -/
  | vatomMin (core : CoreId) (v : VecArgs)
  /-- Vector atomic maximum in physical memory (R147). -/
  | vatomMax (core : CoreId) (v : VecArgs)
  /-- Vector atomic swap in physical memory (R147). -/
  | vatomSwap (core : CoreId) (v : VecArgs)
  /-- Vector atomic compare-and-swap in physical memory (R147). -/
  | vatomCas (core : CoreId) (v : VecArgs)
  /-- Pushes the mask and ANDs in a predicate; faults with ARITH on a full stack (R143). -/
  | vpush (core : CoreId) (v : VecArgs)
  /-- Sets the mask to top AND NOT current; faults with ARITH on an empty stack (R143). -/
  | velse (core : CoreId) (v : VecArgs)
  /-- Restores the mask from the top and pops; faults with ARITH on an empty stack (R143). -/
  | vpop (core : CoreId) (v : VecArgs)
  /-- Sets G, STRIDE and SHARED_BASE and resets every group's masks (R131). -/
  | vcfg (core : CoreId) (v : VecArgs)
  /-- Sets the atomic base address (R137). -/
  | vabase (core : CoreId) (v : VecArgs)
  /-- Loads a shared or absolute operand slot from tile memory, in operand-cache mode only (R137). -/
  | vlds (core : CoreId) (v : VecArgs)
  /-- Sets a scalar to 1 if any active thread of any group has the predicate and its mask set (R137). -/
  | vany (core : CoreId) (v : VecArgs)
  /-- Sets a scalar to the number of active threads with the predicate set (R137). -/
  | vcount (core : CoreId) (v : VecArgs)
  /-- Packs selected elements row by row and writes the count (R149). -/
  | compress (core : CoreId) (v : VecArgs)
  /-- Packs the indices of selected elements and writes the count (R149). -/
  | compressIdx (core : CoreId) (v : VecArgs)
  /-- Scatters packed values back to their selected positions and writes the count (R149). -/
  | expand (core : CoreId) (v : VecArgs)
  /-- Every engine of a stopping core reaches its interrupt boundary and the core begins its save (R82). -/
  | preemptStopped (core : CoreId) (prog : EngineProgress)
  /-- The stop bound of 4,096 cycles plus 1 microsecond expires, the preemption fails and the core domain is reset (R88). -/
  | preemptStopTimeout (core : CoreId)
  /-- The save area has been written; SAVED is set and the preempting kernel starts (R82). -/
  | saveDone (core : CoreId)
  /-- The saved context has been read back and the kernel resumes from its boundaries (R84). -/
  | restoreDone (core : CoreId)
  /-- Writes the producer index of a command ring, combining with earlier writes and waking the sequencer (R275). -/
  | csqBellSq (q : QRef) (pi : BitVec 32)
  /-- Writes the consumer index of a reply ring, freeing reply slots (R276). -/
  | csqBellRq (q : QRef) (ci : BitVec 32)
  /-- A fetched packet whose entries have all been read is checked for LEN and SEQ and accepted, or the queue goes to ERROR (R278). -/
  | packetAccept (q : QRef) (host : Option (List Word))
  /-- An accepted packet is dispatched, after any FENCE_BEFORE wait, and checked in order (R299). -/
  | packetDispatch (p : PktRef)
  /-- After a reply is visible, the queue's 4-byte notification write is issued (R282). -/
  | queueNotify (q : QRef)
  /-- Replies held for an unreachable ring are written in order once it can be reached again (R281). -/
  | heldReplyWrite (q : QRef)
  /-- The drain limit of a disabling queue expires and every command still running is aborted (R291). -/
  | drainMsExpiry (q : QRef)
  /-- Creates a queue from its configuration in the DISABLED state (R290). -/
  | queueCreate (p : PktRef)
  /-- Raises the queue fence, drains its commands and leaves it DISABLED (R291). -/
  | queueDisable (p : PktRef)
  /-- Enables a DISABLED queue, or holds the enable during a shutdown (R290). -/
  | queueEnable (p : PktRef)
  /-- Frees a DISABLED queue, or an ERROR queue with nothing in flight (R290). -/
  | queueDestroy (p : PktRef)
  /-- Creates a sector with its resources and first queue, effective at a module-local instant (R335). -/
  | sectorCreate (p : PktRef)
  /-- Drains, de-keys and scrubs a sector, then frees it (R334). -/
  | sectorTeardown (p : PktRef)
  /-- Adds resources of one kind to a sector, or releases them (R305). -/
  | sectorAssign (p : PktRef)
  /-- Checks a kernel image and copies it into a kernel-store slot, or frees the slot (R65). -/
  | kernelLoad (p : PktRef)
  /-- Launches a kernel on the cores of a mask, optionally preempting (R68). -/
  | kernelLaunch (p : PktRef)
  /-- Preempts the named cores and holds them for the issuing queue, or releases that hold (R81). -/
  | kernelPreempt (p : PktRef)
  /-- Sends a post to a token address from the sequencer, with an optional generation check (R61). -/
  | tokenPost (p : PktRef)
  /-- Runs one copy descriptor on the cluster's movers from START_BLOCK (R294). -/
  | move (p : PktRef)
  /-- Runs a move list on the cluster's movers from START_BLOCK (R294). -/
  | moveList (p : PktRef)
  /-- Runs one fill descriptor on the cluster's movers from START_BLOCK (R294). -/
  | fill (p : PktRef)
  /-- Issues zero-length reads on the named PCIe/CXL ports behind the sector's earlier writes (R305). -/
  | flushVisible (p : PktRef)
  /-- Checks a plan image and copies it into an engine's plan store (R260). -/
  | planLoad (p : PktRef)
  /-- Starts the loaded plan on an engine with initial index and peer registers (R264). -/
  | planStart (p : PktRef)
  /-- Admits or refuses a booking of slots on the egress port towards DST (R254). -/
  | book (p : PktRef)
  /-- Ends a live booking at the next frame boundary (R258). -/
  | unbook (p : PktRef)
  /-- Allocates the lowest EMPTY staged set to the issuer (R46). -/
  | stageBegin (p : PktRef)
  /-- Appends masked register writes to a staged set (R46). -/
  | stageWrite (p : PktRef)
  /-- Validates a staged set against the live state (R47). -/
  | stageCheck (p : PktRef)
  /-- Arms a checked set for apply instant I (R49). -/
  | applyAt (p : PktRef)
  /-- Empties a staged set, or withdraws an armed one before its final check (R48). -/
  | stageDiscard (p : PktRef)
  /-- Creates or removes a region-table entry of the issuer's sector (R172). -/
  | regionSet (p : PktRef)
  /-- Installs a mooring entry (R190). -/
  | mooringSet (p : PktRef)
  /-- Stops new matches of a mooring and replies once its matched requests complete (R190). -/
  | mooringClear (p : PktRef)
  /-- Sets or clears PRESERVE and sets LABEL on a region entry (R191). -/
  | preserveMark (p : PktRef)
  /-- Unwraps a model key blob under an SPDM session and installs it, or clears the slot (R349). -/
  | sealedKeyInstall (p : PktRef) (tagOk : Bool)
  /-- Decrypts and verifies model chunks in order into sector memory (R350). -/
  | sealedLoad (p : PktRef)
  /-- Writes operating points for phase tags of a sector's phase table (R359). -/
  | phaseTable (p : PktRef)
  /-- Sets the idle phase of clusters at a module-local instant (R360). -/
  | phaseSet (p : PktRef)
  /-- Runs an online test of a cluster, tier-0 channel, die-to-die lane or fabric port (R394). -/
  | testRun (p : PktRef)
  /-- Maps out a cluster, stages a stack or channel map-out, repairs a die-to-die lane, or marks a fabric-port lane BAD (R305). -/
  | mapOut (p : PktRef)
  /-- Arms, acknowledges or disarms a watermark notice entry (R410). -/
  | noticeArm (p : PktRef)
  /-- The first tick 64 ticks after dispatch arrives and SECTOR_CREATE, SECTOR_ASSIGN or PHASE_SET takes effect (R301). -/
  | moduleLocalInstant (p : PktRef)
  /-- The Keeper serves a waiting Keeper-bound command in its round-robin turn (R338). -/
  | keeperCommandServe
  /-- BT reaches I minus 32 ticks and the armed sets are checked again, emptying any set with a conflict (R50). -/
  | stageFinalCheck
  /-- BT reaches I and every target unit takes all its writes from the set at one point (R51). -/
  | stageApply
  /-- Every target has taken its writes, the APPLY_AT reply is written and the set becomes EMPTY (R48). -/
  | stageApplyDone
  /-- At each tick the master sends a beacon flit on every trained port (R34). -/
  | beaconTick
  /-- A beacon flit is received and drives upstream selection, estimate, forwarding and the lock state machine (R40). -/
  | beaconFlit (port : PortId) (f : BeaconFlit) (ns : BitVec 10)
  /-- Eight consecutive ticks without a flit move a LOCKED follower to HOLDOVER (R40). -/
  | beaconFlitAbsence
  /-- ERROR_BOUND passes 250 ns or 65,536 ticks of flit absence expire, so the follower goes FREE and abandons armed sets (R40). -/
  | holdoverTimeout
  /-- A rising edge on PPS_IN feeds the master's reference lock (R37). -/
  | ppsEdge (offset : Int) (tenMhz : Bool)
  /-- A PTP Sync exchange feeds the master's reference lock (R37). -/
  | ptpSync (offset : Int)
  /-- 4 s without Sync, 3 missing PPS edges or loss of 10 MHz count as reference lost (R37). -/
  | referenceLoss
  /-- A write of MASTER or SOURCE enters or leaves the master role or changes its reference (R43). -/
  | bcnCtrlWrite (master : Bool) (source : BitVec 2)
  /-- Clearing BCN_STATUS.MASTER_CONFLICT re-enters the master role while MASTER is 1 (R37). -/
  | masterConflictClear
  /-- At each tick the power controller evaluates limits and ramp allowance and sets operating points (R370). -/
  | powerTick (x : PowerSample)
  /-- The TD voltage has settled and a waiting raise takes effect at the next tick (R361). -/
  | voltageSettled (site : Site)
  /-- An isophase vote message arrives and is forwarded once, with duplicates dropped (R364). -/
  | vote
  /-- At the vote's effective tick every member lowers its ceiling to the voted value (R364). -/
  | voteEffective
  /-- At a management-epoch boundary a joined member raises the ceiling by RISE_STEP unless a vote blocked it (R365). -/
  | isophaseRise
  /-- An assertion of a REG_ALERT_N line forces its rail group within 500 ns (R369). -/
  | regAlert (line : Fin 16)
  /-- A line released for 1 ms continuously ends the forcing of its group at the next tick (R369). -/
  | alertHoldoffEnd (line : Fin 16)
  /-- A supply droop beyond threshold stretches the affected domain's clocks while it lasts (R367). -/
  | droop (site : Site)
  /-- A write of PWR_MOD_CTRL.REQ ON leaves STANDBY or is held pending (R373). -/
  | powerOnRequest
  /-- A write of PWR_MOD_CTRL.REQ OFF powers the module down or is held pending (R373). -/
  | powerOffRequest
  /-- PWR_WARN_N low for 1 microsecond starts hold entry, or pauses the start before memory training (R373). -/
  | pwrWarnAssert
  /-- PWR_WARN_N released for RESUME_DELAY starts resume or continues a paused start (R373). -/
  | pwrWarnRelease
  /-- Hold entry completes and the module is in HOLD at no more than 350 W (R375). -/
  | holdEntryDone
  /-- Rails, stacks and clocks have returned and every stopped unit continues (R377). -/
  | resumeDone
  /-- Power-down turns the last rails off and the module enters STANDBY (R436). -/
  | railsOff
  /-- A rail group reports good during POWERING_UP (R435). -/
  | railGroupGood (line : Fin 16)
  /-- Every die is out of reset and the module enters RUN (R373). -/
  | diesOutOfReset
  /-- A rail group not good in 500 ms, or a die not out of reset by 3 s, returns the module to STANDBY (R435). -/
  | poweringUpTimeout
  /-- A junction at 115 degrees turns off every rail but the KD's and drives THERMTRIP_N low (R432). -/
  | thermtrip
  /-- Input below 38 V for 50 microseconds is a power loss and every rail but the KD's turns off (R433). -/
  | undervoltage
  /-- Input at or above 40 V for 100 ms starts a cold start (R433). -/
  | inputReturn
  /-- MOD_RESET_N goes low and the reply flush runs (R434). -/
  | modResetAssert
  /-- MOD_RESET_N held low for 500 ms turns every rail but the KD's off and holds the KD in reset (R434). -/
  | modResetLong
  /-- MOD_RESET_N released starts a warm or a cold restart (R434). -/
  | modResetRelease
  /-- PERST_N asserted disables management queue 0 with replies held and clears MSI-X state (R434). -/
  | mgmtPerst
  /-- A warm module restart begins: reply flush, then the warm boot phases (R437). -/
  | warmRestart
  /-- A cold module restart begins (R437). -/
  | coldRestart
  /-- A start phase completes and KPR_BOOT_STATUS.PHASE advances (R437). -/
  | bootPhaseComplete (r : BootReport)
  /-- A warm restart that has not reached first-sector-ready in 25 s escalates to a cold restart (R392). -/
  | warmRestartTimeout
  /-- A write of RESTART 0b01 requests a warm restart (R438). -/
  | kprBootCtrlWarm
  /-- A write of RESTART 0b10 requests a cold restart (R438). -/
  | kprBootCtrlCold
  /-- A request is decoded at its router against the region table and goes to its channel, or faults (R171). -/
  | memRequest (r : Requester) (pa : PAddr) (n : Fin 4097) (write : Option (List Byte))
  /-- A request waiting on its sector's token bucket proceeds once enough has refilled (R180). -/
  | regulatedRelease (ctl : Fin 96) (sector : SectorId) (content : Nat)
  /-- A processor read for sharing reaches the home and is served by one chosen source (R205). -/
  | readMiss (agent : AgentId) (pa : PAddr)
  /-- A processor read for ownership invalidates other copies and receives M (R205). -/
  | readForOwnership (agent : AgentId) (pa : PAddr)
  /-- An S holder's upgrade to M is ordered at the home (R204). -/
  | upgrade (agent : AgentId) (pa : PAddr)
  /-- A writeback from M or O reaches the home and is acknowledged (R201). -/
  | writeback (agent : AgentId) (pa : PAddr)
  /-- A clean eviction notice from E or S reaches the home and is acknowledged (R201). -/
  | cleanEviction (agent : AgentId) (pa : PAddr)
  /-- A snoop arrives at a caching agent and is answered, including for a line in its eviction buffer (R213). -/
  | snoop (agent : AgentId) (pa : PAddr) (evicting : Bool)
  /-- A snoop answer reaches the home, which completes the transaction (R213). -/
  | snoopAnswer (agent : AgentId) (pa : PAddr)
  /-- The home's acknowledgement frees the agent's eviction buffer entry (R201). -/
  | evictionAck (agent : AgentId) (pa : PAddr)
  /-- A non-caching agent's read is served at the home (R206). -/
  | noncachingRead (r : Requester) (pa : PAddr) (n : Fin 129)
  /-- A non-caching full-line write invalidates every copy and writes per its hint (R206). -/
  | fullLineWrite (r : Requester) (pa : PAddr) (data : List Byte) (hint : BitVec 16)
  /-- A non-caching partial write merges with current bytes and invalidates every copy (R206). -/
  | partialWrite (r : Requester) (pa : PAddr) (data : List Byte) (hint : BitVec 16)
  /-- An atomic operation runs at the home slice after recalling processor copies (R186). -/
  | homeAtomic (r : Requester) (op : AtomOp) (wide : Bool) (pa : PAddr) (v : Word) (c : Word)
  /-- A 128-byte REDUCE_INTO combines elements at the home slice (R186). -/
  | reduceInto (r : Requester) (op : RedOp) (wide : Bool) (pa : PAddr) (data : List Byte)
  /-- A processor AMO, LR or SC obtains the line in E or M and runs in its own cache (R209). -/
  | processorAmo (agent : AgentId) (pa : PAddr) (act : CoreAct) (wide : Bool) (value : Word)
  /-- The 128-cycle reservation window of an LR ends and held snoops are answered (R209). -/
  | lrWindowEnd (agent : AgentId)
  /-- Cleans the whole 128-byte line holding the block (R308). -/
  | cboClean (agent : AgentId) (pa : PAddr)
  /-- Flushes the whole 128-byte line holding the block (R308). -/
  | cboFlush (agent : AgentId) (pa : PAddr)
  /-- Is performed as CBO.FLUSH (R308). -/
  | cboInval (agent : AgentId) (pa : PAddr)
  /-- Writes zeros to the named 64 bytes only (R308). -/
  | cboZero (agent : AgentId) (pa : PAddr)
  /-- A snoop unanswered for 50 microseconds is a coherence protocol error (R214). -/
  | snoopTimeout (agent : AgentId) (pa : PAddr)
  /-- A caching agent's request unserved for 200 microseconds is a coherence protocol error (R214). -/
  | requestUnservedTimeout (agent : AgentId) (pa : PAddr)
  /-- A coherence protocol error ends the coherent domain; the Tender stops agents, poisons owned lines and warm-restarts (R215). -/
  | coherenceError (failing : Option MdId)
  /-- A write beat arrives at the home; a full-enable beat commits at once (R389). -/
  | burstBeat (r : Requester) (burst : Nat) (pa : PAddr) (enables : BitVec 128) (data : List Byte)
  /-- A valid end marker commits a burst's partial beats (R389). -/
  | burstEndMarker (r : Requester) (burst : Nat) (valid : Bool)
  /-- Partial beats without an end marker for 200 microseconds are discarded and recorded (R389). -/
  | burstDiscard (r : Requester) (burst : Nat)
  /-- A stack reports loss of contents; LOSS and LOST are set and reads return poison (R193). -/
  | stackLoss (stack : StackId)
  /-- A stack reports a device fault, which recovers the memory stack domain (R383). -/
  | stackDeviceFault (stack : StackId)
  /-- Patrol scrub visits DDR5 lines once in 24 hours (R313). -/
  | patrolScrub (pa : PAddr)
  /-- At each epoch a level's average occupancy is compared with HOT_MARK and COLD_MARK (R196). -/
  | hotHomeSample (level : HotLevel) (avg : BitVec 8) (others : BitVec 8)
  /-- At each management epoch every telemetry source is sampled into KPR_LEVEL (R409). -/
  | telemetrySample (moved : List (SectorId × BitVec 32 × BitVec 32))
  /-- Writing ENABLE 1 moves a DISABLED port to PROBE, or holds the enable during a shutdown (R224). -/
  | fabPortEnable (port : PortId)
  /-- Writing ENABLE 0 shuts the port down to DISABLED (R224). -/
  | fabPortDisable (port : PortId)
  /-- Writing RESET starts a port reset with DOWN_REASON 1 (R224). -/
  | fabPortReset (port : PortId)
  /-- Writing RETRAIN starts a retrain from ACTIVE (R224). -/
  | fabPortRetrain (port : PortId)
  /-- The partner's probe pattern is seen and capability sets are exchanged (R224). -/
  | probePatternSeen (port : PortId)
  /-- Capability sets agree and the generation is chosen (R224). -/
  | capabilityAgreed (port : PortId) (partnerMax : BitVec 2) (offer : BitVec 2) (k1 : Bool)
  /-- Equalisation ends with a usable lane group, or none, disabling the port (R224). -/
  | equalizeDone (port : PortId) (failing : BitVec 8)
  /-- Lanes are deskewed, FEC locked and the one-way delay measured (R224). -/
  | alignDone (port : PortId) (delay : BitVec 24)
  /-- Flits run both ways and the Keeper starts SPDM (R224). -/
  | linkMgmtDone (port : PortId) (partner : PortId) (idHash : BitVec 384)
  /-- Keys are installed in both directions and every VC opens (R224). -/
  | keysInstalled (port : PortId)
  /-- SPDM fails or policy refuses the partner and the port enters REFUSED (R224). -/
  | authRefused (port : PortId) (policy : Bool)
  /-- The REFUSED backoff expires and SPDM restarts (R224). -/
  | authBackoffExpiry (port : PortId)
  /-- A training state's timeout returns the port to PROBE, or RETRAIN's to RESET (R224). -/
  | portStateTimeout (port : PortId)
  /-- After 200 ms, a 10 ms probe window opens once per second (R224). -/
  | probeWindow (port : PortId)
  /-- A retrain equalises and aligns and resends unacknowledged flits (R224). -/
  | retrainDone (port : PortId) (delay : BitVec 24)
  /-- Loss of FEC lock on an active lane for 1 microsecond sends the port to RETRAIN (R224). -/
  | fecLockLoss (port : PortId)
  /-- The port fence completes, BAD marks clear and the port probes again (R224). -/
  | portResetDone (port : PortId)
  /-- A DATA flit is received, checked and delivered in order, or discarded with a NAK (R219). -/
  | dataFlit (port : PortId) (f : Flit)
  /-- An IDLE flit is received, carrying ACK and credit returns (R219). -/
  | idleFlit (port : PortId) (f : Flit)
  /-- A NAK is received and every unacknowledged flit is resent (R223). -/
  | nakFlit (port : PortId) (f : Flit)
  /-- LINK_DOWN flits are received and the port resets with DOWN_REASON 6 (R224). -/
  | linkDown (port : PortId)
  /-- No ACK progress for 4 microseconds resends every unacknowledged flit (R223). -/
  | ackProgressTimeout (port : PortId)
  /-- A VC starved of credits for CREDIT_TO resets the port with DOWN_REASON 2 (R232). -/
  | creditToExpiry (port : PortId) (vc : Fin 6)
  /-- A link packet is checked against counter and epoch and delivered or dropped (R228). -/
  | linkPacket (port : PortId) (x : LinkBody)
  /-- Eight hours after an epoch's first packet the transmitter moves to the next epoch (R227). -/
  | keyEpochTimer (port : PortId)
  /-- At each epoch a port compares error counts with thresholds and steps down if degraded (R229). -/
  | portEpochCheck (port : PortId) (corrected : List Nat) (uncorrectable : Nat)
  /-- An IPv6 neighbour solicitation for LOCAL_IP is answered (R235). -/
  | neighbourSolicitation (port : PortId) (target : BitVec 128)
  /-- An Ethernet-mode datagram carrying a shim and flits, or a probe, is received (R236). -/
  | udpDatagram (port : PortId) (d : Datagram)
  /-- A PFC MAC control frame is consumed and applied, or dropped as malformed (R235). -/
  | pfcFrame (port : PortId) (hold : Bool)
  /-- A transport packet entering an ED is looked up and routed or delivered locally (R240). -/
  | transportLookup (ed : EdId)
  /-- A packet waiting 1 ms with no listed port ACTIVE is dropped as NO_ROUTE (R242). -/
  | routeWaitTimeout (ed : EdId)
  /-- A WRITE packet is accepted, written and counted in its arrival counter, or refused (R245). -/
  | writePacket (ed : EdId)
  /-- A REDUCE packet's lines are applied as REDUCE_INTO at their homes (R266). -/
  | reducePacket (ed : EdId)
  /-- A SIGNAL packet posts to a core token or engine counter (R244). -/
  | signalPacket (ed : EdId)
  /-- An ACK bitmap acknowledges packets of a flow at the sender (R249). -/
  | ackPacket (ed : EdId)
  /-- A NACK fails the sender's step with its REASON (R250). -/
  | nackPacket (ed : EdId)
  /-- 2 microseconds after an unacknowledged packet the receiver sends an ACK (R249). -/
  | ackDelayTimer (src : BitVec 24) (srcAgent : Fin 65) (dstAgent : Fin 65)
  /-- A packet without ACK or NACK for RESEND_US is resent (R250). -/
  | resendTimer (agent : Fin 65) (dst : BitVec 24) (dstAgent : Fin 65) (seq : BitVec 32)
  /-- A packet unacknowledged for XPORT_TO fails its step with XPORT_TIMEOUT (R250). -/
  | xportToExpiry (agent : Fin 65) (dst : BitVec 24) (dstAgent : Fin 65) (seq : BitVec 32)
  /-- A flow's receive state is forgotten after 2 s without traffic (R248). -/
  | flowStateExpiry (src : BitVec 24) (srcAgent : Fin 65) (dstAgent : Fin 65)
  /-- At a booking-frame boundary capacity changes, revocations, unbookings and new bookings take effect (R256). -/
  | frameBoundary
  /-- Plan step that sends LADDR's bytes to the peer as WRITE packets (R262). -/
  | send (e : EngineId)
  /-- Plan step that sends bytes as REDUCE packets (R262). -/
  | planReduceInto (e : EngineId)
  /-- Plan step that waits for an arrival counter, subtracts LEN and optionally posts (R262). -/
  | recv (e : EngineId)
  /-- Plan step that waits for an engine token counter and subtracts (R262). -/
  | waitToken (e : EngineId)
  /-- Plan step that posts to a core token or engine counter, locally or at the peer (R262). -/
  | planSignal (e : EngineId)
  /-- Plan step that waits until local BT reaches the named time (R262). -/
  | waitBeacon (e : EngineId)
  /-- Plan step that updates an index register and branches while its counter is not 0 (R262). -/
  | planLoop (e : EngineId)
  /-- The condition a waiting RECV, WAIT_TOKEN or WAIT_BEACON awaits is met and the step completes (R262). -/
  | planWaitMet (e : EngineId)
  /-- Every packet of a SEND or REDUCE_INTO is acknowledged and the step completes (R262). -/
  | transferComplete (e : EngineId) (num : Nat)
  /-- A step not complete STEP_TO after starting fails and the engine faults (R263). -/
  | stepTimeout (e : EngineId) (step : Fin 256)
  /-- A write of EDG_CE_POST adds INCR to an engine token counter (R265). -/
  | edgCePost (e : EngineId) (counter : Fin 16) (incr : BitVec 16)
  /-- An inbound memory request on an endpoint port is served by BAR0, a mooring or refused (R324). -/
  | inboundEndpointRequest (port : Fin 9) (rid : BitVec 16) (t : BarTarget) (tag : BitVec 14) (n : Fin 4097) (write : Option (List Byte))
  /-- A configuration request to a present function is served (R324). -/
  | configRequest (port : Fin 9) (fn : Fin 17) (tag : BitVec 14) (a : CfgAccess)
  /-- A PCIe AtomicOp through a mooring is performed at the home (R324). -/
  | atomicop (p : PcieId) (rid : BitVec 16) (addr : Word) (tag : BitVec 14) (op : PcieAtomic) (size : Nat) (v : Word) (c : Word)
  /-- An inbound request on an adapter root port is translated by mooring or IOMMU and decoded (R325). -/
  | inboundAdapterRequest (p : PcieId) (rid : BitVec 16) (addr : Word) (tag : BitVec 14) (n : Fin 4097) (write : Option (List Byte))
  /-- An IOTLB miss is walked by the serving PD's IOMMU instance (R312). -/
  | iotlbMissWalk (p : PcieId) (rid : BitVec 16) (page : BitVec 52) (result : Option (BitVec 44 × Bool))
  /-- A request in a port's aperture leaves as a configuration or memory request (R318). -/
  | apertureRequest (r : Requester) (pa : PAddr) (n : Fin 4097) (write : Option (List Byte))
  /-- An upstream completion arrives; one with an old GENERATION is discarded (R327). -/
  | pcieCompletion (p : PcieId) (tag : BitVec 14) (success : Bool) (data : List Byte)
  /-- Clearing bus master enable withdraws upstream requests and holds replies (R327). -/
  | bmeClear (port : Fin 9) (fn : Fin 17)
  /-- Setting bus master enable returns access and writes held replies (R328). -/
  | bmeSet (port : Fin 9) (fn : Fin 17)
  /-- Clearing memory space enable makes bells and BAR2 unsupported (R327). -/
  | mseClear (port : Fin 9) (fn : Fin 17)
  /-- An FLR fences and scrubs the sector's state and removes non-preserved regions (R329). -/
  | functionLevelReset (port : Fin 9) (fn : Fin 17)
  /-- A conventional reset or link down fences and scrubs, keeping regions (R329). -/
  | conventionalReset (port : Fin 9)
  /-- A function's reset completes and READY is set (R322). -/
  | functionResetDone (sector : SectorId)
  /-- Creates or enables the attached sector's admin queue (R322). -/
  | adminEnable (sector : SectorId)
  /-- Disables the admin queue without a reply (R322). -/
  | adminDisable (sector : SectorId)
  /-- Unmasking a vector sends its pending notification (R323). -/
  | msixUnmask (port : Fin 9) (fn : Fin 17) (vec : Fin 2048)
  /-- A sector restarts its PD cores through SBI SRST (R332). -/
  | sbiSrst (sector : SectorId)
  /-- An SPDM request is received on DOE, MCTP or the MGMT VC and answered (R347). -/
  | spdmMessage (path : SpdmPath) (req : SpdmReq)
  /-- A core without progress for TND_CORE_STALL.MS raises CORE_STALL (R381). -/
  | coreProgressWdt (core : CoreId)
  /-- Sequencer firmware silent for 10 ms while holding work raises SEQ_HANG (R381). -/
  | seqHeartbeatWdt (cluster : ClusterId)
  /-- A watched command unreplied for CMD_LIMIT_S raises a cluster fault (R381). -/
  | cmdWdt (p : PktRef)
  /-- An unanswered transaction tag times out with the outcome of its target (R382). -/
  | txnTimeout (r : Requester) (tag : Nat)
  /-- The Tender silent for 10 ms causes the hardware Foghorn to force a warm restart (R392). -/
  | tenderHeartbeatWdt
  /-- A detector reports a fault; the Tender fences and recovers, queues, absorbs or escalates (R391). -/
  | faultReport (d : Domain)
  /-- A domain's drain limit ends; owed replies are written and generations incremented (R384). -/
  | recoveryDrainEnd
  /-- The domain is reset and restored, the fence lifts and the next queued recovery starts (R384). -/
  | recoveryResetDone
  /-- Writing COUNT frees the oldest error records (R398). -/
  | tndErrAck (site : Site) (count : BitVec 7)
  /-- Setting ARMED injects a fault at once, or schedules it (R400). -/
  | tndInjectArm (site : Site) (value : Word)
  /-- A scheduled injection's BT arrives and the fault fires (R400). -/
  | injectFire (site : Site)
  /-- Creates and enables, enables or holds an enable of a management queue (R421). -/
  | kprMqEnable (n : Fin 64)
  /-- Disables a management queue without a reply (R421). -/
  | kprMqDisable (n : Fin 64)
  /-- Frees a management queue (R421). -/
  | kprMqDestroy (n : Fin 64)
  /-- A COMMAND message runs a Synocra packet as the remote management function (R404). -/
  | command
  /-- A REPLY message is written as the fabric-bound queue's reply, or dropped if late (R405). -/
  | reply
  /-- A HELLO sets the link's feature level or refuses the partner (R419). -/
  | hello
  /-- An acknowledged COMMAND without REPLY in REMOTE_TO is replied FENCED (R405). -/
  | remoteToExpiry (id : BitVec 32)
  /-- Erases a 64 KiB sector of the inactive flash window (R416). -/
  | fwErase (sector : Fin 1024)
  /-- Checks all four inactive images and sets INACTIVE_OK (R416). -/
  | fwVerify
  /-- Confirms a trial boot (R417). -/
  | fwConfirm
  /-- A write to the inactive boot-flash window programs bytes and clears INACTIVE_OK (R416). -/
  | flashWindowWrite (off : Fin 67108864) (data : List Byte)
  /-- A trial boot unconfirmed for CONFIRM_S starts a warm restart on the other set (R417). -/
  | confirmTimeout
  /-- Setting KPR_FW_ACTIVATE.PLATFORM makes cores restarted later run the new platform image (R418). -/
  | platformActivate
  /-- Sequencers resume on the new image by I plus 2 ms (R418). -/
  | sequencerActivateDone
  /-- Advances anti-rollback fuses to the running SVN (R345). -/
  | secSvnCommit (components : BitVec 4)
  /-- KPR_HOST_CTRL ACTION 1 restarts a sector's PD cores (R332). -/
  | hostCoreRestart (sector : SectorId)
  /-- KPR_HOST_CTRL ACTION 2 performs a sector reset with a core restart (R332). -/
  | hostSectorReset (sector : SectorId)
  /-- Binds a management-endpoint SPDM session to a sector (R347). -/
  | kprSessionBind (id : BitVec 32) (sector : SectorId)
  /-- A teardown's non-deferred scrub completes and the sector becomes FREE (R353). -/
  | scrubComplete (sector : SectorId)
  /-- A tier-1 or tier-2 fill completes and the resource can be owned again (R353). -/
  | deferredFillDone (n : Nat)
  /-- TAP instruction driving the connector pins, only in STANDBY (R448). -/
  | extest
  /-- TAP boundary-scan sample and preload (R448). -/
  | samplePreload (pins : Nat) (preload : Nat)
  /-- TAP instruction that returns 0x1725_0767 (R448). -/
  | idcode
  /-- Routes the TAP through a die's IEEE 1838 wrapper, when unlocked (R448). -/
  | dieSelect (site : Site)
  /-- IEEE 1500 access to the selected die's core wrappers, when unlocked (R448). -/
  | wrapper
  /-- Delivers an unlock token; acceptance destroys every key and unlocks debug (R354). -/
  | unlock (token : ImageReport) (identity : BitVec 384) (nonce : Nat)
  /-- TAP bypass (R448). -/
  | bypass
  /-- Writing READMIT restarts guest-die admission from SIDEBAND (R449). -/
  | readmit
  /-- Edges answer sideband detection and the guest's capabilities are read (R449). -/
  | guestSidebandAnswer (edges : BitVec 4)
  /-- The 100 ms sideband window ends with or without an answering edge (R449). -/
  | guestSidebandTimeout
  /-- A common rate, width and protocol is fixed (R449). -/
  | guestNegotiated (rate : BitVec 3) (protocol : BitVec 2) (coherent : Bool)
  /-- Mainband trains on at least one module and attestation starts (R449). -/
  | guestTrained (modules : Fin 73)
  /-- SPDM attestation passes and the guest is ADMITTED (R450). -/
  | guestAttested (passed : Bool) (root : BitVec 384) (meas : BitVec 384)
  /-- An admission state's timeout or failure refuses the guest (R449). -/
  | guestStateTimeout
  /-- A guest fault fences the four guest edges (R452). -/
  | guestFault
  /-- The guest's fence drain completes and admission restarts from SIDEBAND (R449). -/
  | guestFenceDrained
  /-- A guest streaming READ message is decoded under the guest's sector (R453). -/
  | guestRead (tag : BitVec 12) (gen : BitVec 8) (sound : Bool) (beats : BitVec 4) (pa : PAddr)
  /-- A guest streaming WRITE message with beats and end marker (R453). -/
  | guestWrite (tag : BitVec 12) (gen : BitVec 8) (sound : Bool) (pa : PAddr) (beats : List (BitVec 128 × List Byte)) (valid : Bool)
  /-- A guest streaming ATOMIC message performed at the home (R453). -/
  | guestAtomic (tag : BitVec 12) (gen : BitVec 8) (sound : Bool) (aop : BitVec 4) (wide : Bool) (pa : PAddr) (v : Word) (c : Word)
  /-- A guest streaming POST message posting to a token counter (R453). -/
  | guestPost (tag : BitVec 12) (gen : BitVec 8) (sound : Bool) (target : BitVec 18) (incr : BitVec 16)
  /-- A write to a register without behaviour of its own sets its RW fields, or is ignored and recorded if malformed (R8). -/
  | registerWrite (w : RegWriter) (site : Site) (off : BitVec 32) (size : Nat) (value : Word)
  /-- At run time die-to-die lanes of a module fail, so the module runs on spares or is disabled, and an edge that loses all its modules causes a warm restart (R18). -/
  | dieToDieLaneFailure (edge : Fin 40) (back : Bool) (module : Fin 24) (lanes : List (Fin 66))
  /-- A read beat, write acknowledgement or completion of a memory transaction arrives back at its requester and frees its tag (R387). -/
  | memoryCompletion (r : Requester) (tag : Nat)
  /-- An MMA, ACC_LOAD, ACC_STORE or ACC_ZERO finishes with its tile set final, releasing dependent instructions and queue space (R124). -/
  | matrixInstructionComplete (core : CoreId)
  /-- A fused chain writes its last sink value and reduction outputs and completes (R157). -/
  | chainCompletion (core : CoreId)
  /-- A group instruction is performed by every active group with its writes done and retires, or an engine instruction finishes (R128). -/
  | vectorInstructionComplete (core : CoreId)
  /-- The dirty lines of a way removed from a sector have been written back, so the way can take new lines again (R184). -/
  | wayClean (md : MdId) (way : Fin 16)
  /-- An online test finishes, and TEST_RUN is replied with success or TEST_FAILED (R394). -/
  | testDone (p : PktRef) (patterns : Nat) (fault : Option (BitVec 16))
  /-- Verification of the inactive image set ends, setting INACTIVE_OK and reporting its feature level (R416). -/
  | fwVerifyDone (images : List ImageReport) (level : BitVec 16)
  /-- Edge firmware has activated, so collective engines and port management resume after their pause of at most 2 ms (R418). -/
  | edgeActivateDone
  /-- A sealed-model chunk has been decrypted and its GCM tag checked, so the load moves to the next chunk or fails with AUTH_TAG (R350). -/
  | sealedChunkDone (p : PktRef) (tagOk : Bool)
  /-- An SPDM session whose heartbeat (30 s period) lapses ends (R347). -/
  | spdmHeartbeatTimeout (id : BitVec 32)
  /-- A REG_ALERT_N line is released, clearing its ASSERTED bit and starting its 1 ms hold-off (R369). -/
  | regAlertRelease (line : Fin 16)
  /-- A supply droop ends and the stretched clocks of the affected domain return to full speed (R367). -/
  | droopEnd (site : Site)
  /-- A link on an adapter-root or memory-root PCIe/CXL port comes up or goes down, raising its AER and link-state source and changing LINK_UP (R311). -/
  | pcieLinkStateEvent (p : PcieId) (l : LinkReport)
  /-- PERST_N is released and the management endpoint link returns, so the held replies of management queue 0 are written (R434). -/
  | mgmtPerstRelease
  /-- TRST_N is driven low, resetting the TAP and ending EXTEST (R448). -/
  | trstNAssert
  /-- 2 s after a module restart began, the EDs may again originate transport packets (R388). -/
  | originationHoldoffEnd
  deriving DecidableEq, Repr

end Sys2Proof
end

