-- ==== Sys2Proof/Decode.lean ====
section
/-!
DEFINITION. The command that a word of the opcode table's bits spells. The table gives no row any bits: this block's commands are
accesses, packets and events, and what their words hold is taken apart by the meanings themselves (Machine/Packets.lean for command
packets, Machine/RegWrite.lean for register writes, Machine/Transport.lean for transport packets).
-/
namespace Sys2Proof

/-- The command that the table's bits of a word spell: none, since no row has bits. -/
def decodeTableWord (nbits w : Nat) : Option Instr :=
  match nbits, w with
  | _, _ => none

end Sys2Proof
end

