-- ==== Sys2Proof/Config.lean ====
section
/-!
DEFINITION. What the spec leaves free: constants without a body, so that no proof can see what they are. Each is one value
the manual states no value for; a claim about it holds whatever it is.
-/
namespace Sys2Proof.Config

/-- A fresh free value: the n-th the machine takes (log entry 3). -/
opaque freeWord : Nat → Word

/-- A byte of memory with undefined contents (R458): of the storage epoch and the location in it (log entry 4). -/
opaque undefByte : Nat → Nat → Byte

/-- A 32-bit word of undefined contents (R458), of an accumulator tile or of operand SRAM (log entry 4). -/
opaque undefHalf : Nat → Nat → Half

/-- Which result a function with a bound gives for an input (R159, R161): a position within the bound, in 2^25 steps (log
entry 7). -/
opaque pick : Nat → Half → Nat

/-- Which of several outcomes the spec allows the module takes, of a choice's number and the choice's subject (log entry 8). -/
opaque choose : Nat → Nat → Nat

/-- The set of its snoop filter that a line falls into, modulo 32,768 (R207; log entry 25). -/
opaque filterSet : Nat → Nat

/-- The set of its slice that a line falls into, modulo 65,536 (R183; log entry 24). -/
opaque sliceSet : Nat → Nat

/-- The SHA-384 digest of words in little-endian bytes (R348; log entry 28). -/
opaque digest : List Word → BitVec 384

/-- Byte k of the AES-256-GCM keystream of a key under an IV (R349, R350; log entry 28): key, IV, byte. -/
opaque gcmStream : List Byte → List Byte → Nat → Byte

/-- The digest of the boot ROM, measurement 1 (R348; log entry 28). -/
opaque romDigest : BitVec 384

/-- The unlock nonce that the Lantern draws at the n-th start of the module, 48 bytes (R354; log entry 28). -/
opaque unlockNonce : Nat → BitVec 384

/-- Byte k of HKDF-Expand with SHA-384 of a session's export master secret and an info string (R226, R349; log entry 28). -/
opaque hkdf : Nat → List Byte → Nat → Byte

/-- Byte k of what AES-256-GCM makes of a plaintext, the ciphertext and then the tag (R226; log entry 28): key, IV, additional data,
plaintext, byte. -/
opaque gcm : List Byte → List Byte → List Byte → List Byte → Nat → Byte

end Sys2Proof.Config
end

