-- ==== Sys2Proof/Machine/Bits.lean ====
section
/-!
DEFINITION. Bit fields, little-endian bytes and saturating counts (R7).
-/
namespace Sys2Proof.Machine

/-- Bits [hi:lo] of a word, as a number. -/
def bits (w : Word) (hi lo : Nat) : Nat := (w.toNat >>> lo) % 2 ^ (hi + 1 - lo)

/-- One bit of a word. -/
def bit (w : Word) (i : Nat) : Bool := w.getLsbD i

/-- A flag as the number a register shows. -/
def flag (b : Bool) : Nat := if b then 1 else 0

/-- A word made of fields, each given as (lowest bit, width, value); a value too wide for its field is cut to it. -/
def pack : List (Nat × Nat × Nat) → Word
  | [] => 0
  | (lo, width, v) :: rest => BitVec.ofNat 64 ((v % 2 ^ width) <<< lo) ||| pack rest

/-- A count that stops at its field's largest value. -/
def satAdd (a b limit : Nat) : Nat := min limit (a + b)

/-- The bytes of a number, least significant first (R7). -/
def bytesOf : Nat → Nat → List Byte
  | 0, _ => []
  | n + 1, v => BitVec.ofNat 8 v :: bytesOf n (v / 256)

/-- The number that bytes hold, least significant first (R7). -/
def numOf : List Byte → Nat
  | [] => 0
  | b :: rest => b.toNat + 256 * numOf rest

/-- The 8 bytes of a word. -/
def wordBytes (w : Word) : List Byte := bytesOf 8 w.toNat

/-- The word held by bytes. -/
def bytesWord (bs : List Byte) : Word := BitVec.ofNat 64 (numOf bs)

/-- A byte string cut into words, a short last word filled with zero bytes. -/
def wordsOf : Nat → List Byte → List Word
  | 0, _ => []
  | n + 1, bs => bytesWord (bs.take 8) :: wordsOf n (bs.drop 8)

/-- Word i of a packet or descriptor; past its end 0. -/
def wordAt (ws : List Word) (i : Nat) : Word := ws.getD i 0

/-- The bytes of a number, the highest first. -/
def bigBytes (k n : Nat) : List Byte := (bytesOf k n).reverse

/-- The bytes of an ASCII string. -/
def asciiBytes (s : String) : List Byte := s.toList.map (fun c => BitVec.ofNat 8 c.toNat)

/-- The bits set in a number, ascending, below a bound. -/
def bitsSet (n bound : Nat) : List Nat := (List.range bound).filter (fun i => n.testBit i)

/-- The number with the bits of a list set. -/
def maskOf (l : List Nat) : Nat := l.foldl (fun a i => a ||| 1 <<< i) 0

/-- How many bits of a number are set, below a bound. -/
def popCount (n bound : Nat) : Nat := (bitsSet n bound).length

/-- A masked write: the bits where mask is 1 take the value (R303). -/
def maskedWrite (old mask value : Word) : Word := (old &&& ~~~mask) ||| (value &&& mask)

/-- Division rounding up; 0 for a divisor of 0. -/
def ceilDiv (a b : Nat) : Nat := if b = 0 then 0 else (a + b - 1) / b

/-- A two's-complement field of the given width, read as an integer. -/
def signedOf (width v : Nat) : Int :=
  if v % 2 ^ width < 2 ^ (width - 1) then (v % 2 ^ width : Nat) else (v % 2 ^ width : Nat) - (2 ^ width : Nat)

/-- An integer as a two's-complement field of the given width. -/
def unsignedOf (width : Nat) (v : Int) : Nat := (v % (2 ^ width : Nat)).toNat

end Sys2Proof.Machine
end

