-- ==== Sys2Proof/Machine/State.lean ====
section
/-!
DEFINITION. What the module holds: plain data, one structure per unit, the values after reset, and the reasons a step
can stop. Arrays of units are sparse tables; a number that is not listed holds the unit's reset value.
-/
namespace Sys2Proof.Machine

/-- What the package fuses fix at assembly, and the modules fitted (R3, R6, R166). No command changes it. -/
structure Part where
  /-- KPR_PART_ID.STACK_GIB: 0x40 or 0x30. -/
  stackGib : BitVec 8
  fabricGenMax : BitVec 4
  guestSite : Bool
  stepping : BitVec 16
  /-- The DDR5 module on each channel of PD0 to PD3, in GiB; 0 for none (R166, R168). -/
  dimm0 : Nat
  dimm1 : Nat
  dimm2 : Nat
  dimm3 : Nat
  /-- The PDs whose modules run at 8,800 MT/s (R313). -/
  dimmSlow : BitVec 4
  /-- The SHA-384 hash of the identity key (R34, R346). -/
  idHash : BitVec 384
  /-- SEC_LANTERN_STATE's fused fields, and KPR_PATROL.FUSED_REPAIRS at shipment (R355, R447). -/
  hybridRequired : Bool
  rootRevoked : BitVec 4
  identityHybrid : Bool
  deriving DecidableEq, Repr

/-- What leaves the module, the newest first: the model's own record of outputs, for statements to speak of. -/
inductive Out where
  /-- A beacon flit on a port (R34). -/
  | beacon (port : Nat) (f : List Nat)
  /-- Bytes written to a host's memory through a PCIe/CXL port, or through the management endpoint (port 8) (R272, R403). -/
  | hostWrite (port : Nat) (addr : Word) (data : List Byte)
  /-- A 4-byte write to an IMSIC file (R282). -/
  | imsic (addr : Word) (data : BitVec 32)
  /-- APLIC source of a PD raised (R311). -/
  | aplic (site source : Nat)
  /-- MSI-X vector of a function (R323). -/
  | msix (port fn vector : Nat)
  /-- A flit on a fabric port (R219). -/
  | flit (port : Nat) (f : Flit)
  /-- An Ethernet frame on a fabric port, without preamble and FCS: a datagram of flits, or a probe (R236). -/
  | frame (port : Nat) (data : List Byte)
  /-- A priority-based flow-control frame for priority PCP on a fabric port (R234, R235, R238): its transmission held, or released. -/
  | pfc (port : Nat) (hold : Bool)
  /-- The answer to a neighbour solicitation: LOCAL_MAC and LOCAL_IP (R235). -/
  | neighbour (port mac ip : Nat)
  /-- A link packet sent on a port: its virtual channel, its counter, its transport packet (R220, R226); its flits follow. -/
  | packet (port vc : Nat) (ctr : Word) (pkt : TPkt)
  /-- A completion to a PCIe requester: its port, its tag, 0 success, 1 unsupported request, 2 poisoned data, 3 completer
  abort, 4 retry of a configuration request; and its data. -/
  | completion (port tag status : Nat) (data : List Byte)
  /-- A request that leaves through a PCIe/CXL port (R289, R318): the function whose requester ID it carries; 0 a configuration request, 1 a
  memory request, 2 a zero-length read; its bus address, its tag, its length, the bytes it writes. -/
  | aperture (port fn kind addr tag n : Nat) (write : Option (List Byte))
  /-- An answer to SPDM, I3C, the TAP or a guest: a code of the interface and its fields. -/
  | answer (kind : Nat) (fields : List Nat)
  /-- A pin of the connector driven to a level. -/
  | pin (name : Nat) (level : Bool)
  /-- A home's answer to a non-caching agent: the address, and the bytes read or an atomic's old value (R186, R206). -/
  | served (pa : Nat) (data : List Byte)
  /-- What an LR, SC or AMO gives its core (R209): the caching agent, and the old value, or 0 for an SC that succeeded. -/
  | coreResult (agent : Nat) (value : Nat)
  /-- An access-fault or machine-check to a PD core (R24, R171, R393): the core, the cause, the address. -/
  | coreFault (agent cause : Nat) (addr : Nat)
  deriving DecidableEq, Repr

/-! ## Memory -/

/-- What a storage holds where nothing is listed: zero (a scrubbed storage, R352), or undefined contents of an epoch of
its own (R458). -/
inductive Fill where
  | zero
  | undef (epoch : Nat)
  deriving DecidableEq, Repr

/-- A byte storage: a tile memory, the burst buffer, the boot flash. -/
structure Mem where
  fill : Fill
  cells : List Host.Cell
  deriving DecidableEq, Repr

/-- A storage of 32-bit words: accumulator tiles, operand SRAM. -/
structure WMem where
  fill : Fill
  words : Table Half
  deriving DecidableEq, Repr

/-! ## Tensor cores (chapter 3) -/

/-- The states of a core (R88, R89). -/
inductive CoreSt where
  | idle | running | waiting | stopping | saving | restoring | faulted | fenced
  deriving DecidableEq, Repr

/-- A kernel image as a kernel-store slot holds it (R65 to R67). -/
structure KImage where
  /-- MODES: bit 0 register mode, bit 1 operand-cache mode. -/
  modes : BitVec 2
  k1 : Bool
  wide : Bool
  entry : Nat
  argCount : Nat
  tileLive : Word
  creditMask : BitVec 32
  creditInit : List Nat
  insns : List Word
  deriving DecidableEq, Repr

/-- A descriptor under way (R78): its 8 words, its index, the blocks of the descriptors before it; its blocks that are complete,
numbered from 0, and the bytes of blocks whose reads have issued and whose writes have not. -/
structure MovePart where
  desc : List Word
  index : Nat
  base : Nat
  done : List Nat
  read : List (Nat × List Byte)
  deriving DecidableEq, Repr

/-- A move on a mover (R74, R77, R78): a core's own move, or a command's. -/
structure MoveJob where
  /-- The number of the move among those its core has queued; 0 for a command. -/
  serial : Nat
  /-- PC of the instruction that queued the move (R77). -/
  pc : Nat
  /-- The descriptors that have started and are not complete, in order. -/
  parts : List MovePart
  /-- A list's next descriptor, which has not started: its physical address, its index, the blocks before it. -/
  next : Option (Nat × Nat × Nat)
  /-- The blocks of the descriptors that have started. -/
  total : Nat
  /-- The post after the list's last descriptor (R74): POST and TOKEN of an MLIST, as a token address. -/
  listPost : Option Nat
  deriving DecidableEq, Repr

/-- A post on its way to a counter (R61): its token address, its increment, the sector it comes from. -/
structure Post where
  target : BitVec 18
  incr : Nat
  sector : Option SectorId
  deriving DecidableEq, Repr

/-- A post that its core has not sent yet (R61): it waits for the moves before a serial, and for the matrix, the vector and the chain
instructions issued before it. -/
structure HeldPost where
  moves : Nat
  mat : Nat
  vec : Nat
  chain : Nat
  post : Post
  deriving DecidableEq, Repr

/-- A thread group of the vector engine (R127, R142). -/
structure Group where
  mask : Word
  /-- The mask stack, top first, at most 16 entries. -/
  stack : List Word
  /-- Predicates p1 to p7, by number. -/
  preds : Table Word
  deriving DecidableEq, Repr

/-- The operands and masks of the vector engine besides its SRAM (R131, R137). -/
structure VecState where
  g : Nat
  stride : Nat
  sharedBase : Nat
  atomicBase : PAddr
  groups : Table Group
  /-- The thread-group PCs (R83, R128): the entries of the vector queue that each group has passed since the launch. -/
  pcs : Table Nat
  deriving DecidableEq, Repr

/-- The instructions of the matrix class (R97). -/
inductive MatOp where
  | mma | load | store | zero
  deriving DecidableEq, Repr

/-- An auxiliary descriptor (R105). -/
structure Aux where
  meta_ : Nat
  g : Nat
  kOff : Nat
  scratch : Nat
  stream : Nat
  reseed : Bool
  seed : Word
  deriving DecidableEq, Repr

/-- An instruction in the matrix queue (R75, R85, R86, R96, R105, R121): the PC it was issued at, the scalar registers it names as they were
then, tile memory as it was at issue; the rank-1 steps it has completed, the stack of a REPRO sum, top first, each entry its size in
blocks (the values stand in SCRATCH), and the descriptor of an instruction that runs, as it was when its first step began. -/
structure MatJob where
  pc : Nat
  op : MatOp
  args : MatArgs
  k : Nat
  aux : Word
  tile : Mem
  done : Nat
  stack : List Nat
  desc : Option Aux := none
  deriving DecidableEq, Repr

/-- A COMPRESS, COMPRESS_IDX or EXPAND in the vector queue (R75, R85, R149, R150): the PC it was issued at, OP and the fill flag, the
bases, ROWS and COUNT_ADDR of its scalar registers; the rows completed and the running count. -/
structure PackJob where
  pc : Nat
  op : Nat
  fill : Bool
  dst : Nat
  src : Nat
  pred : Nat
  rows : Nat
  count : Nat
  row : Nat
  run : Nat
  deriving DecidableEq, Repr

/-- TDC_RESUME_PROGRESS (R87). -/
structure ResumeProgress where
  count : BitVec 32
  kind : BitVec 3
  moveBlocks : BitVec 20
  moveActive : Bool
  deriving DecidableEq, Repr

/-- TDC_CORE_FAULT (R89). -/
structure CoreFault where
  code : BitVec 8
  trapValue : BitVec 8
  pc : BitVec 15
  valid : Bool
  deriving DecidableEq, Repr

/-- What a preemption keeps of a kernel besides the data its save area holds (R83): the core state record and the engine
control record, whose byte layout the spec does not give. -/
structure Saved where
  pc : Nat
  s : Table Word
  progress : ResumeProgress
  slot : Nat
  bank : Bool
  opCache : Bool
  prio : Nat
  launch : Option PktRef
  kernel : Option KImage
  vec : VecState
  sr : Table Word
  moves : List MoveJob
  heldPosts : List HeldPost
  wait : Option TwaitArgs
  mat : List MatJob
  pack : Option PackJob
  vecQ : Nat
  chainQ : Nat
  matDone : Nat
  vecDone : Nat
  chainDone : Nat
  nextMove : Nat
  fenceWait : Bool
  endWait : Bool
  /-- The physical address of the save area it was written to. -/
  base : Nat
  /-- A token or credit counter of its bank passed 65,535 while it was saved (R63). -/
  overflow : Bool
  deriving DecidableEq, Repr

/-- A launch that waits for the core, or for which the core is stopping (R68, R81). -/
structure LaunchWait where
  pkt : PktRef
  words : List Word
  prio : Nat
  /-- The kernel in the slot at dispatch (R305, R306). -/
  image : KImage
  deriving DecidableEq, Repr

/-- A tensor core (R54, R88, R89). -/
structure TCore where
  st : CoreSt
  slot : Nat
  bank : Bool
  opCache : Bool
  gen : BitVec 8
  sector : Option SectorId
  /-- s1 to s31; s0 always reads 0 and is not kept (R68). -/
  s : Table Word
  pc : Nat
  fault : CoreFault
  progress : ResumeProgress
  saveBase : BitVec 40
  saveValid : Bool
  /-- Token counters: bank × 64 + k (R58). -/
  tokens : Table Nat
  /-- Credit counters: bank × 32 + k (R58). -/
  credits : Table Nat
  tile : Mem
  /-- Accumulator tiles: ((array × 4 + tile) × 16 + row) × 64 + column (R92). -/
  acc : WMem
  /-- Operand SRAM: slot × 64 + thread (R131). -/
  sram : WMem
  kernel : Option KImage
  launch : Option PktRef
  prio : Nat
  /-- The matrix queue, the oldest first (R75). -/
  mat : List MatJob
  /-- Vector instructions and chains in the vector and chain queue (R75, R128); the newest vector instruction, where it is a COMPRESS or
  EXPAND that is not performed. -/
  vecQ : Nat
  chainQ : Nat
  pack : Option PackJob
  /-- Instructions of each kind that have left the queues since the launch. -/
  matDone : Nat
  vecDone : Nat
  chainDone : Nat
  moves : List MoveJob
  nextMove : Nat
  heldPosts : List HeldPost
  /-- FENCE or END waits for what is outstanding (R69, R72). -/
  fenceWait : Bool
  endWait : Bool
  wait : Option TwaitArgs
  saved : Option Saved
  /-- Launches that wait for the core, the earliest dispatched first (R68, R84). -/
  queue : List LaunchWait
  /-- The KERNEL_PREEMPT for whose queue the core is held (R81). -/
  hold : Option PktRef
  /-- What the core is stopping or saving for: a launch, or none for KERNEL_PREEMPT. -/
  preemptFor : Option LaunchWait
  /-- Stochastic-rounding streams 0 to 3 (R118). -/
  sr : Table Word
  vec : VecState
  deriving DecidableEq, Repr

/-- A cluster and its sequencer (R54, R90, R296). -/
structure Cluster where
  sector : Option SectorId
  /-- SECTOR_c of TDC_CLUSTER_SECTOR: the owner last set; a warm reset leaves the field and ends the ownership (R90, R334). -/
  shown : Option SectorId
  /-- The kernel store's 32 slots (R65). -/
  slots : Table (Option KImage)
  mappedOut : Bool
  gen : BitVec 8
  accepted : Nat
  replied : Nat
  fenced : Bool
  /-- Awaiting its scrub after a release or teardown: it cannot be owned (R334, R352). -/
  dirty : Bool
  opPoint : Nat
  demand : Nat
  idlePhase : Nat
  gated : Bool
  /-- The queue whose packet was dispatched last, for the turns of R285. -/
  turn : Nat
  /-- The model's own: packets dispatched so far, by which commands of one slot act in dispatch order (R306). -/
  dispatches : Nat := 0
  deriving DecidableEq, Repr

/-! ## Synocra queues (chapters 10, 11, 16) -/

/-- The states of a queue (R290, R297). -/
inductive QSt where
  | free | enabled | disabling | disabled | error | fenced
  deriving DecidableEq, Repr

/-- How far an accepted packet has come: accepted; dispatched to the Keeper and waiting for its turn (R338); dispatched
and free to act; acting, with its reply still owed. -/
inductive Stage where
  | accepted | keeper | dispatched | running
  deriving DecidableEq, Repr

/-- What a command that is acting keeps until its reply. -/
inductive Work where
  | none
  /-- Waits for its module-local instant (R301). -/
  | instant (bt : Word)
  /-- A launch: cores named, cores that reached END, cores ended otherwise, cores that faulted with their codes, and whether a
  saved context was lost. -/
  | launch (mask ended lost : BitVec 8) (faulted : List (Nat × Nat)) (ctx : Bool)
  /-- KERNEL_PREEMPT: cores preempted, cores found idle, cores still held. -/
  | preempt (preempted idle held : BitVec 8)
  /-- MOVE, MOVE_LIST, FILL: the descriptor under way, and the first block to run. -/
  | move (job : MoveJob) (start : Nat)
  | plan (e : EngineId)
  | booking (ed : EdId) (record : Nat)
  | apply (s : SetId)
  /-- Ended, its reply waiting for the zero-length reads of R289: STATUS, DETAIL, PROGRESS. -/
  | flushing (status detail progress : Nat)
  /-- A drain, scrub or test whose end is a command of its own. -/
  | busy (a b : Nat)
  deriving DecidableEq, Repr

/-- A packet that is accepted and not yet replied (R278, R281). -/
structure Flight where
  ix : BitVec 32
  words : List Word
  stage : Stage
  /-- Its completion point for FENCE_BEFORE has passed though no reply is written (R284). -/
  past : Bool
  progress : Nat
  work : Work
  /-- The PCIe/CXL ports that carried its writes, each with the last address written through it (R289). -/
  ports : List (Nat × Nat)
  /-- The BT at which an APPLY_AT took effect, while its reply is owed (R51). -/
  effect : Option Word
  /-- The BT of its dispatch (R301), its place in the order of dispatches (R306), and for a KERNEL_LAUNCH the kernel that its slot held then
  (R305). -/
  at_ : Word := 0
  order : Nat := 0
  image : Option KImage := none
  /-- A fence has written its reply; its work outside the fenced domain goes on without one (R293). -/
  answered : Bool := false
  deriving DecidableEq, Repr

/-- A reply (R280); its packet's index, and whether the packet's completion point had passed before (R284). -/
structure Reply where
  ix : BitVec 32
  past : Bool
  tag : BitVec 32
  seq : BitVec 16
  status : BitVec 16
  detail : BitVec 16
  progress : Word
  bt : Word
  notify : Bool
  deriving DecidableEq, Repr

/-- A queue of a cluster sequencer, or a management queue (R270, R297, R403). -/
structure Queue where
  st : QSt
  ringLog2 : Nat
  replyLog2 : Nat
  prioCap : Nat
  admin : Bool
  host : Bool
  checkSeq : Bool
  inFlightMax : Nat
  notifyEn : Bool
  ring : Word
  reply : Word
  fetch : BitVec 32
  producer : BitVec 32
  replyPi : BitVec 32
  replyCi : BitVec 32
  error : Nat
  gen : BitVec 8
  notifyAddr : Word
  notifyData : BitVec 32
  drainMs : Nat
  /-- SEQ of the last accepted packet since the queue was created or enabled (R278). -/
  lastSeq : Option (BitVec 16)
  flights : List Flight
  /-- The reply store (R281). -/
  held : List Reply
  /-- The function generation at the time of holding (R328). -/
  heldGen : BitVec 8
  notifyPending : Bool
  /-- A reply in a ring behind a PCIe/CXL port that no zero-length read has followed: the port and the reply's address; and whether a
  notification waits for such a read (R282, R289). -/
  replyPort : Option (Nat × Nat)
  notifyWait : Bool
  /-- The state before a fence (R290). -/
  before : QSt
  /-- QUEUE_DISABLE packets owed a reply, and the held enable: its packet if a packet asked for it, and the FETCH it gives
  (R291, R292, R421). -/
  disables : List PktRef
  enable : Option (Option PktRef × Option (BitVec 32))
  /-- Commands aborted at DRAIN_MS (R291, R305). -/
  aborted : Nat
  deriving DecidableEq, Repr

/-! ## Beacon unit and staged sets (chapter 2) -/

/-- The beacon unit's states (R44). -/
inductive BcnSt where
  | acquiring | locked | holdover | free | masterLocked | masterHoldover | masterFree
  deriving DecidableEq, Repr

/-- What the beacon unit knows of a fabric port: its measured delay (R35, R45), and the last flit heard on it with the
ticks since. -/
structure BcnPort where
  delay : BitVec 24
  valid : Bool
  heard : Option BeaconFlit
  quiet : Nat
  deriving DecidableEq, Repr

/-- An event that the beacon unit evaluates at the next tick boundary (R37, R40). -/
inductive BcnEvent where
  /-- A flit received on a port, and its error: estimate - local BT when it arrived. -/
  | flit (port : PortId) (f : BeaconFlit) (err : Int)
  /-- An offset, reference time - BT, measured by a PTP Sync (source 2) or a PPS edge with the 10 MHz input present (source 1). -/
  | reference (source : BitVec 2) (offset : Int)
  /-- The reference is lost. -/
  | lost
  /-- MASTER became a value, or MASTER_CONFLICT was cleared under it. -/
  | role (master : Bool)
  deriving DecidableEq, Repr

/-- The beacon unit (R37, R40, R43 to R45). -/
structure Beacon where
  master : Bool
  source : BitVec 2
  st : BcnSt
  conflict : Bool
  traceable : Bool
  hop : BitVec 10
  upstream : Option PortId
  stepCount : Nat
  bt : Word
  offset : Int
  errBound : Nat
  masterId : BitVec 24
  ports : Table BcnPort
  events : List BcnEvent
  /-- Consecutive flits with |error| of at most 20 ns, and above 100 ns (R40). -/
  good : Nat
  bad : Nat
  /-- ACQUIRING has had its first flit (R40). -/
  acquired : Bool
  /-- Ticks without a flit from the upstream port. -/
  quiet : Nat
  /-- ERROR_BOUND grows: its value when it began to, ticks since, and ticks since flits stopped (R40). -/
  growing : Bool
  boundBase : Nat
  grown : Nat
  absent : Nat
  /-- A flit that waits for the next boundary of a stepped count: the port it came by (R34). -/
  late : List (Nat × BeaconFlit)
  /-- The role's one step is taken; a step waits until no set is ARMED (R37). -/
  stepped : Bool
  stepWaiting : Option Int
  /-- The reference's last offsets, newest first, at most 16 (R37). -/
  refs : List Int
  /-- Other masters heard and recorded in this role (R36). -/
  others : List (Nat × Nat)
  /-- LOCKED, or a master, since it was last FREE; and so at the frame boundary at which the frame under way began: its slots are
  honoured while both hold (R42). -/
  slotsDue : Bool
  slotsOn : Bool
  deriving DecidableEq, Repr

/-- The states of a staged set (R48, R52). -/
inductive SetSt where
  | empty | opened | checked | armed | applying
  deriving DecidableEq, Repr

/-- An entry of a staged set: a masked register write, or a MAP_OUT (R46, R194). -/
inductive StageEntry where
  | write (addr : PAddr) (mask value : Word)
  /-- kind 1 tier-0 stack, 2 tier-0 channel, 3 tier-1 channel. -/
  | mapOut (kind target : Nat)
  deriving DecidableEq, Repr

/-- A staged set (R46, R48, R52). -/
structure StagedSet where
  st : SetSt
  owner : Option Issuer
  entries : List StageEntry
  firstConflict : Option Nat
  instant : Word
  /-- The packet whose APPLY_AT armed the set. -/
  apply : Option PktRef
  finalChecked : Bool
  /-- The apply met a fenced target: its site; and the entries applied (R51). -/
  fencedSite : Option Nat
  applied : Nat
  deriving DecidableEq, Repr

/-! ## Event log and error records (chapters 15, 16) -/

/-- An event-log record (R408). -/
structure EventRec where
  cls : BitVec 8
  sub : BitVec 8
  site : BitVec 5
  data0 : BitVec 32
  data1 : Word
  bt : Word
  seq : BitVec 32
  deriving DecidableEq, Repr

/-- An error record (R396). -/
structure ErrRec where
  cls : Nat
  sev : Nat
  injected : Bool
  sector : Option SectorId
  gen : BitVec 8
  unit : Nat
  code : Nat
  addr : Nat
  bt : Word
  detail : Nat
  count : Nat
  deriving DecidableEq, Repr

/-- A die's error ring (R396, R398). -/
structure ErrRing where
  recs : Table (Option ErrRec)
  pending : Nat
  oldest : Nat
  lost : Nat
  written : Nat
  deriving DecidableEq, Repr

/-! ## The memory pool (chapter 6) and coherence (chapter 7) -/

/-- A region-table entry: MEM_REGION_W0 to W3 (R170), and the channel list it had when it was last written (R177). -/
structure Region where
  w0 : Word
  w1 : Word
  w2 : Word
  w3 : Word
  chans : List Nat
  deriving DecidableEq, Repr

/-- A mooring entry's four words (R189). -/
structure Mooring where
  w0 : Word
  w1 : Word
  w2 : Word
  w3 : Word
  deriving DecidableEq, Repr

/-- A stack controller, or a DDR5 controller (R182). -/
structure Controller where
  /-- 0 training, 1 running, 2 self-refresh. -/
  st : Nat
  loss : Bool
  chOut : BitVec 32
  /-- Sector that owns each channel (R334), a channel not listed being unowned; and channels awaiting a scrub. -/
  owner : Table (Option SectorId)
  dirty : BitVec 32
  /-- Injections the controller keeps until the next read of a line: the line, its address, and whether the error is
  uncorrectable (R400). -/
  inject : List (Nat × Nat × Bool)
  /-- The stack lost its contents (R193): the lines written in full since. -/
  lost : Option (List Nat)
  /-- The 1 µs window of BT that priority reads were counted in last, and the bytes of it, by channel × 64 + sector × 4 + stream
  (R181). -/
  prioWindow : Nat
  prioUsed : Table Nat
  /-- Lines that an injected error poisoned: what consumes them records INJECTED (R400). -/
  injPoison : List Nat := []
  deriving DecidableEq, Repr

/-- A hot-home record: HOT_EPOCHS, LAST_AVG, HOT (R197). -/
structure HotStat where
  epochs : Nat
  lastAvg : Nat
  hot : Bool
  deriving DecidableEq, Repr

/-- A line a slice holds (R183, R184): the sector and the way it is allocated in; its bytes that memory does not hold yet, by offset, so
that a line with any is dirty; and whether its other bytes were read from memory, as they are but for a line written while its stack
is fenced (R385). -/
structure SliceLine where
  sector : SectorId
  way : Nat
  cells : Table Byte
  filled : Bool
  deriving DecidableEq, Repr

/-- The states a caching agent holds a line in (R200); invalid lines are not listed. -/
inductive LineSt where
  | modified | owned | exclusive | shared
  deriving DecidableEq, Repr

/-- A line in a caching agent: its state and its 128 bytes. -/
structure CacheLine where
  st : LineSt
  data : List Byte
  deriving DecidableEq, Repr

/-- A line whose eviction its agent has sent (R201, R213): its data still to be applied at the home, arrived there,
acknowledged by it. -/
structure Eviction where
  line : CacheLine
  owed : Bool
  arrived : Bool
  acked : Bool
  deriving DecidableEq, Repr

/-- A request for a line at its home (R203 to R206): a processor's read for sharing, for ownership with the operation it
performs then, an upgrade, a CBO.CLEAN or CBO.FLUSH; a non-caching agent's read, write under a hint, atomic operation,
REDUCE_INTO. -/
inductive HomeReq where
  | read (a : AgentId)
  | own (a : AgentId) (op : Option CoreOp)
  | upgrade (a : AgentId) (op : Option CoreOp)
  | clean (a : AgentId) (inval : Bool)
  | ncRead (r : Requester) (n : Nat)
  | write (r : Requester) (data : List Byte) (hint : Nat)
  | atomic (r : Requester) (op : AtomOp) (size v c : Nat)
  | reduce (r : Requester) (op : RedOp) (wide : Bool) (data : List Byte)
  /-- A burst's beat with partial enables (R389). -/
  | beat (r : Requester) (enables : BitVec 128) (data : List Byte)
  deriving DecidableEq, Repr

/-- A request at its home: the line it was decoded to (R172), its physical address, the sector and the region entry it was decoded
for. -/
structure HomeWait where
  line : Nat
  pa : Nat
  sector : Option SectorId
  entry : Option Nat
  req : HomeReq
  /-- Its place among the requests that wait (R203); the model's own. -/
  stamp : Nat := 0
  deriving DecidableEq, Repr

/-- How an agent answers a snoop (R205, R213): as the line's owner, as a sharer, without a copy, with a writeback in flight, with
a clean eviction in flight. -/
inductive SnoopAns where
  | owner | sharer | none | writeback | clean
  deriving DecidableEq, Repr

/-- A home's open transaction on a line (R203 to R205, R213): the request; the agents whose answer has not reached the home;
those that hold the snoop back under an LR window; the answers on their way; the owner that answered; the writebacks it waits
for; the dirty data that an agent gave up, and whether some holder supplies the line, so that memory is not read. -/
structure HomeTxn where
  wait : HomeWait
  waitFor : List Nat
  held : List Nat
  answers : List (Nat × SnoopAns)
  owner : Option Nat
  wbWait : List Nat
  carried : Option CacheLine
  supplied : Bool
  /-- The agents snooped so far, whose answers are asked for once (R214). -/
  snooped : List Nat := []
  deriving DecidableEq, Repr

/-- A beat of a write burst (R389): the line and the entry it was decoded to (R172), an address, its byte enables and its data. -/
structure BurstBeat where
  line : Nat
  entry : Option Nat
  pa : Nat
  enables : BitVec 128
  data : List Byte
  deriving DecidableEq, Repr

/-- A write burst on the mesh whose end marker has not arrived (R389), with its beats of partial enables. -/
structure Burst where
  req : Requester
  id : Nat
  sector : Option SectorId
  beats : List BurstBeat
  deriving DecidableEq, Repr

/-- An entry of a snoop filter (R207): a line that some agent holds, and the vector bits that stand for its sharers from a fifth one on: bit
k for the PD cores 4k to 4k + 3, bit 96 for the Keeper pairs. -/
structure FilterEntry where
  line : Nat
  groups : Nat
  deriving DecidableEq, Repr

/-- A shared-cache slice and its snoop filter (R183, R184, R207, R208): md's. -/
structure Slice where
  /-- Lines the slice holds, by line number. -/
  lines : Table (Option SliceLine)
  /-- The replacement tree of each set: 15 bits, bit 2^k - 1 + i the node i of level k, 1 towards the higher ways (R184). -/
  plru : Table Nat
  /-- Ways removed from a sector whose dirty lines are not all written back yet (R184). -/
  cleaning : BitVec 16
  hot : HotStat
  backInval : Nat
  hintApplied : Nat
  hintDropped : Nat
  /-- Open transactions, by line, and requests that wait for one, the oldest first (R203). -/
  txns : Table (Option HomeTxn)
  waiting : List HomeWait
  /-- The filter's entries in the order they were made, the oldest first (R207). -/
  filter : List FilterEntry
  deriving DecidableEq, Repr

/-- A PD core as the module sees it (R309, R332, R334); the Keeper's two pairs, as agents 384 and 385, have a window and a reservation here
too (R198, R209). -/
structure PdCore where
  owner : Option SectorId
  running : Bool
  /-- Held out of service by its boot test until a cold restart (R395). -/
  heldOut : Bool
  /-- Awaiting its scrub (R352). -/
  dirty : Bool
  /-- The line of an LR whose window is open, and whether the reservation still stands (R209). -/
  window : Option Nat
  reservation : Option Nat
  deriving DecidableEq, Repr

/-- What a request that is answered as soon as it is served does (R185, R453): a guest's read of lines, its write in beats, with a valid end
marker or none; an atomic operation of the guest or of an adapter. -/
inductive TxnAct where
  | read (beats : Nat)
  | write (beats : List BurstBeat) (valid : Bool)
  | atomic (op : AtomOp) (size v c : Nat)
  deriving DecidableEq, Repr

/-- A transaction in flight (R169, R172, R387): its requester, its tag, the region entry and the mooring it was decoded under,
its cells, the bytes it writes or has read, whether it still waits for its line or on its sector's token bucket (R180, R203), and the
generation of the requester's domain when it left. -/
structure Txn where
  req : Requester
  tag : Nat
  sector : Option SectorId
  entry : Option Nat
  mooring : Option Nat
  cells : List Nat
  write : Option (List Byte)
  data : List Byte
  poison : Bool
  waiting : Bool
  gen : BitVec 8
  /-- The hint of the mooring it came through, and the tag under which an adapter or host sent it. -/
  hint : Nat
  outerTag : Nat
  /-- Its physical address, and the stream a read of it takes, 0 for none (R181). -/
  pa : Nat
  prio : Nat
  /-- The sites it passes to its home (R179). -/
  route : List Nat
  /-- What it does where it is answered as soon as it is served. -/
  act : Option TxnAct
  /-- Its place among the requests that wait (R203); the model's own. -/
  stamp : Nat := 0
  deriving DecidableEq, Repr

/-- A request that waits for a tag of its requester (R169). -/
structure TagWait where
  req : Requester
  sector : Option SectorId
  mooring : Option Nat
  hint : Nat
  outerTag : Option Nat
  pa : Nat
  n : Nat
  write : Option (List Byte)
  act : Option TxnAct
  deriving DecidableEq, Repr

/-! ## Sectors, hosts (chapters 12, 13) -/

/-- A sector (R334, R335, R355). -/
structure Sector where
  /-- SEC_SECTOR.STATE: 0 FREE, 1 CREATING, 2 ACTIVE, 3 RESETTING, 4 DRAINING, 5 SCRUBBING, 6 PRESERVED. -/
  st : Nat
  attached : Bool
  hostPort : Nat
  firstQueue : Nat
  /-- The SECTOR_TEARDOWN packets owed a reply, the packet of a SECTOR_CREATE held during the teardown, and when the keys
  were destroyed (R292, R353). -/
  teardowns : List PktRef
  create : Option PktRef
  keysGone : Word
  /-- Channels reserved for preserved entries (R192). -/
  reserved : List Nat
  pkey : Nat
  /-- The words of its SECTOR_CREATE, with the masks now owned (R333, R348). -/
  words : List Word
  /-- The reset under way: 0 none, 1 function-level, 2 conventional, 3 a sector reset with a core restart (R329, R332). -/
  resetKind : Nat
  /-- A function-level or sector reset is among what the reset under way does (R330). -/
  flr : Bool := false
  deriving DecidableEq, Repr

/-- A PCIe function: a sector's on a port, or the management function (R316, R320, R322). -/
structure Fn where
  active : Bool
  bme : Bool
  mse : Bool
  withdrawn : Bool
  resetting : Bool
  ready : Bool
  gen : BitVec 8
  bar2Log2 : Nat
  adminCfg : Word
  adminRing : Word
  adminReply : Word
  adminMisc : Word
  msixEnable : Bool
  /-- Masked vectors' bits cleared, and pending bits, by vector. -/
  unmasked : List Nat
  /-- The MSI-X table's addresses, at 2 × vector, and data, at 2 × vector + 1. -/
  msixTable : Table Word
  pendingVec : List Nat
  /-- The bus addresses of BAR0 and BAR2, as the host programmed them (R320). -/
  bar0 : Word := 0
  bar2 : Word := 0
  deriving DecidableEq, Repr

/-! ## Fabric ports (chapter 8) and transport (chapter 9) -/

/-- The states of a fabric port (R224), in the order of FAB_PORT_STATUS.STATE (R238). -/
inductive PortSt where
  | disabled | probe | speed | equalize | align | linkMgmt | auth | active | retrain | reset | refused
  deriving DecidableEq, Repr

/-- A link packet waiting for credits or retry-buffer space on a port (R221, R222). -/
structure LinkOut where
  vc : Nat
  pkt : TPkt
  /-- The sector whose traffic it is (R253). -/
  sector : Option SectorId
  /-- A BOOKED packet has met a slot of its booking with VOLUME to spare, and keeps that precedence until it is sent (R253, R255). -/
  admitted : Bool
  deriving DecidableEq, Repr

/-- A DATA flit in the retry buffer (R221): its FSEQ, its PSTART and its payload. -/
structure SentFlit where
  fseq : BitVec 16
  start : Nat
  payload : List Byte
  deriving DecidableEq, Repr

/-- A link packet in a receive buffer (R220, R222): its header word, and its body and tag as they came. -/
structure RxPkt where
  hdr : Word
  bytes : List Byte
  deriving DecidableEq, Repr

/-- A fabric port (R217 to R238). -/
structure Port where
  st : PortSt
  /-- ENABLE written 0: the shutdown under way ends in DISABLED (R224, R292). -/
  shutting : Bool
  deferred : Bool
  /-- MODE and GEN_MAX in force since the last reset (R233). -/
  ethernet : Bool
  /-- The FAB_ETH_ registers in force (R238), by offset. -/
  eth : Table Word
  genMax : Nat
  gen : Nat
  /-- 0 x2, 1 x4, 2 x8, 3 none. -/
  width : Nat
  group : Nat
  /-- The width and group a step-down chose, for the end of the retrain (R230). -/
  nextLanes : Option (Nat × Nat)
  downReason : Nat
  generation : BitVec 8
  k1Partner : Bool
  partnerPort : Nat
  partnerValid : Bool
  /-- The SHA-384 hash of the partner's identity key (R225, R238). -/
  partnerHash : BitVec 384
  /-- What the partner's certificate chain and measurements show in SPDM (R407): a chain that ends at an unrevoked Izore root, DEBUG_UNLOCKED,
  SVN_FUSED of each component. -/
  partnerRoot : Bool := false
  partnerUnlocked : Bool := false
  partnerSvn : Table Nat := []
  /-- FAB_ERR_CNT: the last epoch's counts, and the counts since module reset. -/
  uncorr : Nat
  retry : Nat
  retrains : Nat
  stepdowns : Nat
  /-- Resends in the epoch under way (R229). -/
  runRetry : Nat
  authFail : Nat
  /-- AUTH_FAIL counted in the epoch under way (R232). -/
  runAuth : Nat
  replay : Nat
  malformed : Nat
  authRefusals : Nat
  /-- SYM_CORR of each lane, last epoch, and the BAD marks. -/
  symCorr : Table Nat
  bad : BitVec 8
  /-- The next FSEQ to send, the retry buffer, the FSEQ expected, whether a NAK is outstanding (R221, R223). -/
  nextFseq : BitVec 16
  unacked : List SentFlit
  expected : BitVec 16
  naked : Bool
  /-- Resends in a row that began at one FSEQ (R223). -/
  resendAt : BitVec 16
  resendRun : Nat
  /-- Credits available on each virtual channel (R222). -/
  credits : Table Nat
  /-- Frames that wait while priority flow control holds the port, oldest first, and whether this port holds its partner (R234, R235, R238). -/
  heldFrames : List (List Byte) := []
  holds : Bool := false
  /-- Bytes of the link packet under way, the packets received and not yet passed on, the credits each virtual channel's receive
  buffer holds, and those freed and not yet returned (R219, R222). -/
  rxPart : List Byte
  rx : List RxPkt
  rxUsed : Table Nat
  rxFreed : Table Nat
  waiting : List LinkOut
  /-- Bytes each sector has sent outside bookings in the frame under way, and the sector served last in the round robin (R253). -/
  sent : Table Nat
  turn : Nat
  open_ : Bool
  /-- The session, whose export master secret is a free value of this number, and whether this module is its requester (R225,
  R226). -/
  session : Nat
  requester : Bool
  txCtr : Word
  /-- The next counter moves to a new epoch with the next packet (R227). -/
  epochDue : Bool
  rxExpected : Word
  rxEpoch : BitVec 32
  /-- The next backoff in s, and failed attempts (R224). -/
  backoff : Nat
  attempts : Nat
  absentLogged : Bool
  /-- MGMT link packets since a BT, while no keys are installed (R232). -/
  mgmtSince : Nat
  mgmtCount : Nat
  /-- Causes logged in the epoch under way (R232). -/
  logged : List Nat
  /-- The capacity that SLOT_CAP was computed for changed (R256). -/
  capChanged : Bool
  /-- Sectors with traffic on the port in the frame under way (R256). -/
  traffic : List SectorId
  /-- PFC holds priority PCP (R235). -/
  paused : Bool
  /-- Injected corrected errors on a lane for one epoch (R400). -/
  injectLane : Option Nat
  deriving DecidableEq, Repr

/-- A transport packet at the ED where it enters, or waiting there for a route (R240, R242): the port it came by, none for one
of the module's own; its virtual channel; the sector that sends it. -/
structure Entering where
  ed : Nat
  port : Option PortId
  vc : Nat
  sector : Option SectorId
  pkt : TPkt
  deriving DecidableEq, Repr

/-- A packet sent and not acknowledged (R248 to R250): its transfer and place in it; the packet itself for the Keeper's. -/
structure TxPkt where
  seq : Nat
  transfer : Nat
  index : Nat
  pkt : TPkt
  deriving DecidableEq, Repr

/-- A flow as its sender holds it (R248). Agent 0 to 63 an engine, 64 the Keeper. -/
structure TxFlow where
  src : Nat := 0
  agent : Nat
  dst : Nat
  dstAgent : Nat
  gen : BitVec 8
  next : Nat
  unacked : List TxPkt
  /-- Messages of the Keeper that wait for room in the flow (R248). -/
  backlog : List (List Word)
  deriving DecidableEq, Repr

/-- A flow as its receiver holds it (R248, R249): the first SEQ not received, those received beyond it, packets since the last
ACK, and where its packets enter. -/
structure RxFlow where
  src : Nat
  srcAgent : Nat
  dstAgent : Nat
  gen : BitVec 8
  base : Nat
  got : List Nat
  since : Nat
  ed : Nat
  deriving DecidableEq, Repr

/-- A booking record (R254, R258). -/
structure Booking where
  port : Nat
  sector : SectorId
  bookId : BitVec 16
  volume : Nat
  mask : Word
  start : Nat
  admitBt : Nat
  served : Nat
  /-- Bytes sent in a slot, and the tick that the slot is (R253). -/
  used : Nat
  usedAt : Nat
  dst : Nat
  pkt : Option PktRef
  unbook : List PktRef
  /-- It ends at the next frame boundary with this STATUS (R257, R258, R291). -/
  ending : Option Nat
  deriving DecidableEq, Repr

/-- An ED's transport unit (R256, R269). -/
structure EdState where
  noRoute : Nat
  hopExpired : Nat
  pkeyDrop : Nat
  demoted : Nat
  slotCap : Table Nat
  floorScale : Table Nat
  books : Table (Option Booking)
  deriving DecidableEq, Repr

/-! ## Collective engines (chapter 9) -/

/-- The states of an engine (R265). -/
inductive EngSt where
  | idle | running | waiting | faulted | fenced
  deriving DecidableEq, Repr

/-- A SEND or REDUCE_INTO in flight (R262, R263). -/
structure Transfer where
  num : Nat
  step : Nat
  reduce : Bool
  redOp : Nat
  redFmt : Nat
  laddr : Nat
  raddr : Nat
  len : Nat
  chan : Nat
  dst : Nat
  dstAgent : Nat
  booked : Bool
  bookId : Nat
  /-- Packets sent so far. -/
  sent : Nat
  deriving DecidableEq, Repr

/-- A collective engine (R259 to R265). -/
structure Engine where
  st : EngSt
  step : Nat
  gen : BitVec 8
  sector : Option SectorId
  faultCode : Nat
  faultStep : Nat
  faultValid : Bool
  /-- The plan store: STEP_TO, and the steps, four words each. -/
  stepTo : Nat
  steps : List (List Word)
  tokens : Table Nat
  arrive : Table Nat
  x : Table Nat
  p : Table Nat
  /-- LOOP counters, by step (R262). -/
  loops : Table Nat
  transfers : List Transfer
  nextTransfer : Nat
  startBt : Nat
  executed : Nat
  plan : Option PktRef
  /-- PLAN_STARTs that wait for the running plan to end (R264). -/
  queue : List (PktRef × List Word)
  /-- The plan failed and waits for its transfers (R263). -/
  failing : Bool
  deriving DecidableEq, Repr

/-! ## The Tender (chapter 15) -/

/-- The Tender (R384, R388, R391, R399). -/
structure Tender where
  /-- 0 idle, 1 to 7 the step of R384. -/
  step : Nat
  current : Option Domain
  queue : List Domain
  /-- Domains whose entry points refuse new work: the one under recovery, and those queued. -/
  fenced : List Domain
  recoveries : Nat
  escalations : Nat
  forced : Nat
  last : Word
  /-- It signals no more, after an injected or a real stop (R392). -/
  stopped : Bool
  /-- Increments of generation tags within the last 1,000 ms, with their BT (R388); a warm restart's are one entry. -/
  increments : List (Domain × Nat)
  /-- Domains that are fenced for a fault that was injected (R400). -/
  injected : List Domain := []
  deriving DecidableEq, Repr

/-- An injection scheduled on a die's TND_INJECT (R398, R400): its site, and its fields. -/
structure Injection where
  cls : Nat
  unit : Nat
  addr : Nat
  bt : Word
  deriving DecidableEq, Repr

/-- A command that the Keeper sent to another module for a fabric-bound queue (R405): its CMD_ID, its packet, its flow's node and
SEQ, and whether it is acknowledged. -/
structure RemoteCmd where
  id : BitVec 32
  pkt : PktRef
  dst : Nat
  seq : Nat
  acked : Bool
  deriving DecidableEq, Repr

/-! ## Keys, sessions, firmware (chapters 13, 16) -/

/-- A key slot (R340, R341, R355); PRESERVED follows from the region table. -/
structure KeySlot where
  valid : Bool
  retained : Bool
  epoch : Nat
  deriving DecidableEq, Repr

/-- A model slot of a sector (R349, R350): its unwrapped key, as a number of 256 bits. -/
structure Model where
  modelId : Word
  maxChunks : Nat
  key : List Byte
  session : BitVec 32
  deriving DecidableEq, Repr

/-- An SPDM responder session (R347): who it belongs to, and whether it was opened with mutual authentication; the fabric port that it came by,
if any, which it belongs to alone; and the number of its export master secret (R349). -/
structure Session where
  id : BitVec 32
  owner : Issuer
  authed : Bool
  link : Option PortId := none
  ems : Nat := 0
  deriving DecidableEq, Repr

/-- A tier-1 channel, or a tier-2 range in 2 MiB granules, that a scrub has still to fill (R353). -/
inductive Fill2 where
  | channel (ch : Nat)
  | granules (base n : Nat)
  deriving DecidableEq, Repr

/-- What a die's SEC_ and PWR_ blocks hold (R356, R380): firmware verified, key caches loaded, TJ_C, LIMIT, DROOP_EVENTS and the
running count, VOLT_POINT and the voltage a raise waits for, and whether a change of LIMIT is recorded in this epoch (R457). -/
structure Die where
  fw : Bool
  keys : Bool
  tj : Nat
  limit : Nat
  droops : Nat
  droopRun : Nat
  stretched : Bool
  volt : Nat
  wanted : Nat
  logged : Bool
  deriving DecidableEq, Repr

/-- A verified image of a set (R344, R416): its SVN, VERSION and the digest of its header. -/
structure Image where
  svn : Nat
  version : Nat
  digest : BitVec 384
  deriving DecidableEq, Repr

/-- The firmware state (R416 to R419, R421): BOOTED; RUN_SET; INACTIVE_OK; the levels; whether this boot is a trial, and
confirmed; a FW_VERIFY under way; the pauses of R418. Boot flash 0 and 1 by set; images by set × 4 + component - 1. -/
structure Firmware where
  booted : Bool
  runSet : BitVec 4
  inactiveOk : Bool
  level : Nat
  inactiveLevel : Nat
  trial : Bool
  verifying : Bool
  seqPause : Bool
  edgePause : Bool
  platformNew : Bool
  flashA : Mem
  flashB : Mem
  images : Table (Option Image)
  deriving DecidableEq, Repr

/-! ## Power and start-up (chapters 14, 17) -/

/-- PWR_MOD_STATUS.STATE (R379). -/
inductive PwrSt where
  | standby | poweringUp | run | poweringDown | holdEntry | hold | resuming
  deriving DecidableEq, Repr

/-- A request that waits as PENDING (R374, R379). -/
inductive PwrReq where
  | on | off | hold | release
  deriving DecidableEq, Repr

/-- A vote that takes effect at a tick (R364): its CEILING, and the resulting ceiling its voter computed. -/
structure Vote where
  tick : Nat
  ceiling : Nat
  result : Nat
  /-- A detached module rejoins by it, adopting the result (R366). -/
  adopt : Bool
  deriving DecidableEq, Repr

/-- The power controller and its pins (R363 to R377, R379). -/
structure Power where
  st : PwrSt
  pending : Option PwrReq
  paused : Bool
  inputW : Nat
  /-- The allowance A, in mW (R370). -/
  allow : Nat
  /-- A has begun to rise from a quiescent draw (R371). -/
  ramping : Bool
  holdCount : Nat
  /-- REG_ALERT_N lines asserted; groups forced; ALERT_COUNT. -/
  asserted : BitVec 16
  forced : BitVec 16
  alerts : Nat
  /-- Forcing that an alert in the hold state left for resume (R369). -/
  laterForced : BitVec 16
  ceiling : Nat
  /-- MEMBER: 0 none, 1 joined, 2 detached. -/
  member : Nat
  votesSent : Nat
  lateVotes : Nat
  votes : List Vote
  /-- Votes seen: origin node and VOTE_SEQ (R406). -/
  seen : List (Nat × Nat)
  nextVote : Nat
  /-- The tick of the last vote that took effect, and the CEILING and tick of the last vote posted (R365). -/
  lastEffect : Option Nat
  posted : Option (Nat × Nat)
  /-- THERMTRIP_N driven low (R432). -/
  thermtrip : Bool
  deriving DecidableEq, Repr

/-- The start of the module (R434 to R438, R446): KPR_BOOT_STATUS, a restart that is requested and has not begun, the reset pins,
and the edges whose loss a warm start patrols (R18). -/
structure Boot where
  phase : Nat
  kind : Nat
  cause : Nat
  /-- In ns. -/
  elapsed : Nat
  /-- The time CSR of the PD cores (R309): 1 GHz from cold reset; it never steps. -/
  time : Nat
  count : Nat
  thermtripSeen : Bool
  undervoltSeen : Bool
  /-- The restart requested: cold or warm, and its cause. -/
  request : Option (Bool × Nat)
  modResetLow : Bool
  modResetLong : Bool
  perstLow : Bool
  warnLow : Bool
  railsGood : BitVec 16
  /-- The module waits in STANDBY after an OFF, a THERMTRIP or a refused ON (R435); the input was lost (R433). -/
  parked : Bool
  lost : Bool
  /-- The reference clocks absent at the start: REFCLK_FAB, REFCLK_PCIE, MGMT_REFCLK (R428). -/
  noFab : Bool
  noPcie : Bool
  noMgmt : Bool
  /-- The boot stopped before first-sector-ready (R343, R395), or at a lost edge (R18). -/
  stopped : Bool
  patrol : List Nat
  deriving DecidableEq, Repr

/-- KPR_PATROL's figures (R447). -/
structure Patrol where
  lanesFailed : Nat
  fused : Nat
  run : Bool
  channelsHeld : Nat
  deriving DecidableEq, Repr

/-- A die-to-die module in one direction (R17, R444, R445): the lanes out of use, repaired in the fused map and in the soft map;
whether it is disabled. -/
structure LaneMap where
  fused : List Nat
  soft : List Nat
  disabled : Bool
  deriving DecidableEq, Repr

/-! ## Management, test and guest dies (chapters 16, 18) -/

/-- One watermark of a notice entry (R411, R412, R415). -/
structure Mark where
  armed : Bool
  fired : Bool
  mark : Nat
  crossings : Nat
  extreme : Nat
  bt : Word
  deriving DecidableEq, Repr

/-- A notice entry (R415). -/
structure Notice where
  source : Nat
  owner : Issuer
  up : Mark
  down : Mark
  current : Nat
  /-- Its copy in the sector's notice page is still to be written (R203, R414). -/
  stale : Bool := false
  deriving DecidableEq, Repr

/-- A COMMAND of another module that runs here (R405): its place in the Keeper's store, and who sent it. -/
structure Incoming where
  ix : BitVec 32
  src : Nat
  cmdId : BitVec 32
  queue : Nat
  deriving DecidableEq, Repr

/-- The TAP (R448): its instruction, the site of DIE_SELECT, the boundary register. -/
structure Tap where
  ir : BitVec 8
  site : Nat
  boundary : Nat
  deriving DecidableEq, Repr

/-- The guest site (R449 to R456). STATE numbers as SEC_GUEST_STATE. -/
structure Guest where
  st : Nat
  edges : BitVec 4
  protocol : Nat
  rate : Nat
  gen : BitVec 8
  reason : Nat
  modules : Nat
  malformed : Nat
  /-- Malformed messages in the epoch under way (R452). -/
  malformedRun : Nat
  admissions : Nat
  refusals : Nat
  deriving DecidableEq, Repr

/-! ## PCIe/CXL ports (chapter 12) -/

/-- A PCIe/CXL port (R314 to R317): the running mode, its link, its aperture. -/
structure PciePort where
  mode : Nat
  linkUp : Bool
  rate : Nat
  width : Nat
  protocol : Nat
  ideActive : Bool
  flit : Bool
  devices : Nat
  aptBase : Nat
  aptGib : Nat
  /-- The function whose waiting request went out last (R337). -/
  turn : Nat := 0
  deriving DecidableEq, Repr

/-- A translation an ED port holds (R312): the port, the requester ID, the bus page and the physical page, and whether it may be
written. -/
structure Iotlb where
  port : PcieId
  rid : Nat
  page : Nat
  phys : Nat
  write : Bool
  deriving DecidableEq, Repr

/-- An inbound request of an adapter that waits for a walk of the IOMMU (R312, R325). -/
structure AdapterReq where
  port : PcieId
  rid : Nat
  addr : Nat
  n : Nat
  write : Option (List Byte)
  tag : Nat
  deriving DecidableEq, Repr

/-- What a zero-length read is for (R289, R305): the reply of a command, or a notification. -/
inductive FlushFor where
  | cmd (p : PktRef)
  | notify (q : QRef)
  deriving DecidableEq, Repr

/-- A request that left through an aperture and is not answered (R289, R318, R327): its port, its tag, its function, that function's
generation, its requester, its address and length; and what a zero-length read is for. -/
structure Upstream where
  port : Nat
  /-- None while it waits for a tag (R314). -/
  tag : Option Nat
  fn : Nat
  gen : BitVec 8
  req : Requester
  pa : Nat
  n : Nat
  write : Option (List Byte)
  flush : Option FlushFor
  /-- The region entry it was decoded under (R172). -/
  entry : Option Nat
  deriving DecidableEq, Repr

/-! ## Values after reset -/

/-- TDC_CORE_FAULT at reset (R89). -/
def CoreFault.reset : CoreFault := { code := 0, trapValue := 0, pc := 0, valid := false }

/-- TDC_RESUME_PROGRESS at reset (R87). -/
def ResumeProgress.reset : ResumeProgress := { count := 0, kind := 0, moveBlocks := 0, moveActive := false }

/-- A thread group at launch (R127): all threads on, no saved masks, predicates cleared. -/
def Group.reset : Group := { mask := BitVec.allOnes 64, stack := [], preds := [] }

/-- The vector engine at launch (R127, R131). DESIGN CHOICE before a launch (log entry 5). -/
def VecState.reset : VecState := { g := 32, stride := 32, sharedBase := 1024, atomicBase := 0, groups := [], pcs := [] }

/-- A scrubbed storage (R68, R352). -/
def Mem.zero : Mem := { fill := .zero, cells := [] }

/-- A scrubbed storage of words (R68, R352). -/
def WMem.zero : WMem := { fill := .zero, words := [] }

/-- The state a stochastic-rounding stream has after a reset of its core (R118). -/
def srSeed : Word := 0x9E3779B97F4A7C15#64

/-- A tensor core at reset (R68, R88, R89). -/
def TCore.reset : TCore :=
  { st := .idle, slot := 0, bank := false, opCache := false, gen := 0, sector := none, s := [], pc := 0,
    fault := CoreFault.reset, progress := ResumeProgress.reset, saveBase := 0, saveValid := false, tokens := [],
    credits := [], tile := Mem.zero, acc := WMem.zero, sram := WMem.zero, kernel := none, launch := none, prio := 0,
    mat := [], vecQ := 0, chainQ := 0, pack := none, matDone := 0, vecDone := 0, chainDone := 0, moves := [], nextMove := 0, heldPosts := [], fenceWait := false, endWait := false,
    wait := none, saved := none, queue := [], hold := none, preemptFor := none, sr := [], vec := VecState.reset }

/-- A cluster at reset (R90, R296, R380). -/
def Cluster.reset : Cluster :=
  { sector := none, shown := none, slots := [], mappedOut := false, gen := 0, accepted := 0, replied := 0, fenced := false,
    dirty := false, opPoint := 0, demand := 0, idlePhase := 0, gated := false, turn := 0 }

/-- A queue at reset (R297). -/
def Queue.reset : Queue :=
  { st := .free, ringLog2 := 0, replyLog2 := 0, prioCap := 0, admin := false, host := false, checkSeq := false,
    inFlightMax := 0, notifyEn := false, ring := 0, reply := 0, fetch := 0, producer := 0, replyPi := 0, replyCi := 0,
    error := 0, gen := 0, notifyAddr := 0, notifyData := 0, drainMs := 0, lastSeq := none, flights := [], held := [], heldGen := 0,
    notifyPending := false, replyPort := none, notifyWait := false, before := .free, disables := [], enable := none, aborted := 0 }

/-- A fabric port's delay at reset (R45). -/
def BcnPort.reset : BcnPort := { delay := 0, valid := false, heard := none, quiet := 0 }

/-- The beacon unit at reset (R43 to R45). -/
def Beacon.reset : Beacon :=
  { master := false, source := 0, st := .acquiring, conflict := false, traceable := false, hop := 0x3FF, upstream := none,
    stepCount := 0, bt := 0, offset := 0, errBound := 0xFFFF, masterId := 0, ports := [], events := [], good := 0, bad := 0,
    acquired := false, quiet := 0, growing := false, boundBase := 25, grown := 0, absent := 0, late := [], stepped := false,
    stepWaiting := none, refs := [], others := [], slotsDue := false, slotsOn := false }

/-- A staged set at reset (R52). -/
def StagedSet.reset : StagedSet :=
  { st := .empty, owner := none, entries := [], firstConflict := none, instant := 0, apply := none, finalChecked := false,
    fencedSite := none, applied := 0 }

/-- A die's error ring at reset (R398). -/
def ErrRing.reset : ErrRing := { recs := [], pending := 0, oldest := 0, lost := 0, written := 0 }

/-- A region-table entry at reset (R170). -/
def Region.reset : Region := { w0 := 0, w1 := 0, w2 := 0, w3 := 0, chans := [] }

/-- A mooring entry at reset (R189). -/
def Mooring.reset : Mooring := { w0 := 0, w1 := 0, w2 := 0, w3 := 0 }

/-- A memory controller at reset (R182). -/
def Controller.reset : Controller :=
  { st := 0, loss := false, chOut := 0, owner := [], dirty := 0, inject := [], lost := none, prioWindow := 0,
    prioUsed := [] }

/-- A hot-home record at reset (R197). -/
def HotStat.reset : HotStat := { epochs := 0, lastAvg := 0, hot := false }

/-- The fuses of KWT25-H64-F3-G0-C, stepping 1, with no DDR5 module fitted. DESIGN CHOICE (log entry 1). -/
def Part.reset : Part :=
  { stackGib := 0x40, fabricGenMax := 3, guestSite := false, stepping := 1, dimm0 := 0, dimm1 := 0, dimm2 := 0, dimm3 := 0, dimmSlow := 0,
    idHash := 0, hybridRequired := false, rootRevoked := 0, identityHybrid := false }

/-- A sector at reset (R355). -/
def Sector.reset : Sector :=
  { st := 0, attached := false, hostPort := 0, firstQueue := 0, teardowns := [], create := none, keysGone := 0, reserved := [],
    pkey := 0, words := [], resetKind := 0 }

/-- A PCIe function at reset (R316, R322); BAR2_LOG2 is 30. -/
def Fn.reset : Fn :=
  { active := false, bme := false, mse := false, withdrawn := false, resetting := false, ready := false, gen := 0,
    bar2Log2 := 30, adminCfg := 0, adminRing := 0, adminReply := 0, adminMisc := 0, msixEnable := false, unmasked := [], msixTable := [],
    pendingVec := [] }

/-- A slice at reset (R184, R197, R208). -/
def Slice.reset : Slice :=
  { lines := [], plru := [], cleaning := 0, hot := HotStat.reset, backInval := 0, hintApplied := 0, hintDropped := 0, txns := [],
    waiting := [], filter := [] }

/-- A PD core at reset (R309): halted and unowned. -/
def PdCore.reset : PdCore :=
  { owner := none, running := false, heldOut := false, dirty := false, window := none, reservation := none }


/-- A fabric port at reset (R224, R238). -/
def Port.reset : Port :=
  { st := .disabled, shutting := false, deferred := false, ethernet := false, eth := [], genMax := 3, gen := 0, width := 3,
    group := 0, nextLanes := none, downReason := 0, generation := 0, k1Partner := false, partnerPort := 0,
    partnerValid := false, partnerHash := 0, uncorr := 0, retry := 0, retrains := 0, stepdowns := 0, runRetry := 0,
    authFail := 0, runAuth := 0, replay := 0, malformed := 0, authRefusals := 0, symCorr := [], bad := 0,
    nextFseq := 0, unacked := [], expected := 0, naked := false, resendAt := 0, resendRun := 0, credits := [],
    rxPart := [], rx := [], rxUsed := [], rxFreed := [], waiting := [], sent := [], turn := 0, open_ := false, session := 0,
    requester := false, txCtr := 0, epochDue := false, rxExpected := 0, rxEpoch := 0, backoff := 1, attempts := 0,
    absentLogged := false, mgmtSince := 0, mgmtCount := 0, logged := [], capChanged := false, traffic := [], paused := false,
    injectLane := none }

/-- An ED's transport unit at reset (R269). -/
def EdState.reset : EdState :=
  { noRoute := 0, hopExpired := 0, pkeyDrop := 0, demoted := 0, slotCap := [], floorScale := [], books := [] }

/-- A collective engine at reset (R265). -/
def Engine.reset : Engine :=
  { st := .idle, step := 0, gen := 0, sector := none, faultCode := 0, faultStep := 0, faultValid := false, stepTo := 0,
    steps := [], tokens := [], arrive := [], x := [], p := [], loops := [], transfers := [], nextTransfer := 1, startBt := 0,
    executed := 0, plan := none, queue := [], failing := false }

/-- The Tender at reset (R399). -/
def Tender.reset : Tender :=
  { step := 0, current := none, queue := [], fenced := [], recoveries := 0, escalations := 0, forced := 0, last := 0,
    stopped := false, increments := [] }

/-- A key slot at reset (R355). -/
def KeySlot.reset : KeySlot := { valid := false, retained := false, epoch := 0 }

/-- A die's SEC_ and PWR_ state at reset (R356, R380). -/
def Die.reset : Die :=
  { fw := false, keys := false, tj := 0, limit := 0, droops := 0, droopRun := 0, stretched := false, volt := 0, wanted := 0,
    logged := false }

/-- The firmware state at reset (R421). What the boot flashes hold is not the spec's: undefined contents (log entry 4). -/
def Firmware.reset : Firmware :=
  { booted := false, runSet := 0, inactiveOk := false, level := 0, inactiveLevel := 0, trial := false, verifying := false,
    seqPause := false, edgePause := false, platformNew := false, flashA := { fill := .undef 1, cells := [] },
    flashB := { fill := .undef 2, cells := [] }, images := [] }

/-- The power controller at reset (R379). -/
def Power.reset : Power :=
  { st := .standby, pending := none, paused := false, inputW := 0, allow := 0, ramping := false, holdCount := 0, asserted := 0, forced := 0,
    alerts := 0, laterForced := 0, ceiling := 0, member := 0, votesSent := 0, lateVotes := 0, votes := [], seen := [],
    nextVote := 0, lastEffect := none, posted := none, thermtrip := false }

/-- The start-up state at reset (R438). -/
def Boot.reset : Boot :=
  { phase := 0, kind := 0, cause := 0, elapsed := 0, time := 0, count := 0, thermtripSeen := false, undervoltSeen := false,
    request := none, modResetLow := false, modResetLong := false, perstLow := false, warnLow := false, railsGood := 0,
    parked := false, lost := false, noFab := false, noPcie := false, noMgmt := false, stopped := false, patrol := [] }

/-- KPR_PATROL at reset (R447). -/
def Patrol.reset : Patrol := { lanesFailed := 0, fused := 0, run := false, channelsHeld := 0 }

/-- A die-to-die module at reset (R444): no lane repaired. DESIGN CHOICE for the fused map (log entry 1). -/
def LaneMap.reset : LaneMap := { fused := [], soft := [], disabled := false }

/-- The TAP at reset (R448): IDCODE, as IEEE 1149.1 has it. PRESUMED (log entry 26). -/
def Tap.reset : Tap := { ir := 0x02, site := 0, boundary := 0 }

/-- The guest site at reset (R456). -/
def Guest.reset : Guest :=
  { st := 0, edges := 0, protocol := 0, rate := 0, gen := 0, reason := 0, modules := 0, malformed := 0, malformedRun := 0,
    admissions := 0, refusals := 0 }

/-- A PCIe/CXL port at reset (R316). -/
def PciePort.reset : PciePort :=
  { mode := 0, linkUp := false, rate := 0, width := 0, protocol := 0, ideActive := false, flit := false, devices := 0,
    aptBase := 0, aptGib := 0 }

/-- A footprint that a scrub has filled with zeros (R352): on some channels, device offsets from one to another, as they read under a key slot's
contents of an epoch. -/
structure ZeroFill where
  key : Nat
  epoch : Nat
  lo : Nat
  hi : Nat
  chans : List Nat
  deriving DecidableEq, Repr

/-! ## Interrupts of the processor dies (R310 to R312) -/

/-- A domain of a PD's APLIC: interrupts enabled; each source's configuration; the sources pending and enabled; each source's target; the message
sent last without a source. -/
structure Aplic where
  ie : Bool
  source : Table Nat
  pending : List Nat
  enabled : List Nat
  target : Table Nat
  extempore : Nat
  deriving DecidableEq, Repr

/-- A domain at reset (log entry 122). -/
def Aplic.reset : Aplic := { ie := false, source := [], pending := [], enabled := [], target := [], extempore := 0 }

/-- The interrupt state of the PDs. -/
structure Aia where
  /-- The identities pending in each IMSIC file: core × 16, with 0 for the S-level file, 1 to 7 for the guest files, 8 for the M-level file. -/
  files : Table (List Nat)
  /-- The APLIC domains: PD × 2, M-level, and the next, S-level. -/
  domains : Table Aplic
  /-- The 8-byte words of the IOMMU instances' pages: port × 8192 + word. -/
  iommu : Table Word
  deriving DecidableEq, Repr

/-- Nothing pending, nothing configured. -/
def Aia.reset : Aia := { files := [], domains := [], iommu := [] }

/-! ## The module -/

/-- Everything the module holds but the queue of waiting commands. -/
structure Mod where
  part : Part
  /-- RW registers of the control blocks, by site × 2^32 + offset (R26); a register that is not listed holds its reset value. -/
  regs : Table Word
  cores : Table TCore
  clusters : Table Cluster
  posts : List Post
  dram : List Host.Cell
  poison : List Nat
  regions : Table Region
  moorings : Table Mooring
  controllers : Table Controller
  /-- The ranges of the tier-2 window from its base: a device's or an aperture's port and length, 8 the guest's, or 9 for a gap (R168, R317,
  R454). -/
  hdm : List (Nat × Nat)
  /-- Lines in caching agents, by agent × 2^60 + line, and lines in their eviction buffers (R200, R201). -/
  caches : Table CacheLine
  evictions : Table Eviction
  slices : Table Slice
  pdCores : Table PdCore
  sectors : Table Sector
  /-- Functions: port × 32 + function number; port 8 is the management endpoint (R320, R402). -/
  fns : Table Fn
  queues : Table Queue
  mqs : Table Queue
  /-- The path a bound management queue was bound by, and the sector of a relay (R404). -/
  mqPath : Table Nat
  mqSector : Table (Option SectorId)
  /-- The management queue whose packet was dispatched last (R285). -/
  mqTurn : Nat
  ports : Table Port
  eds : Table EdState
  engines : Table Engine
  /-- The routing tables that all four EDs hold alike (R241). -/
  groupRoute : Table Word
  memberRoute : Table Word
  /-- Packets entering an ED, packets waiting for a port, packets delivered locally. -/
  inbox : List Entering
  routeWait : List Entering
  arrived : List Entering
  txFlows : List TxFlow
  rxFlows : List RxFlow
  /-- The EDs originate no transport packet until 2 s after a module restart (R388). -/
  holdoff : Bool
  tender : Tender
  /-- Armed injections, by site (R400). -/
  injections : Table (Option Injection)
  /-- TND_GEN: site × 8, its DIE tag, and × 8 + 1 + k, stack k's (R387, R398). -/
  dieGens : Table Nat
  remotes : List RemoteCmd
  nextCmd : BitVec 32
  /-- Transactions in flight, the oldest first. -/
  txns : List Txn
  /-- Requests without a free tag, the oldest first (R169). -/
  tagWait : List TagWait
  /-- Token-bucket contents in bytes, by controller × 16 + sector, full where not listed (R180). -/
  buckets : Table (Option Nat)
  /-- Hot-home records of controllers and of router ports, site × 4 + port (R197). -/
  ctlHot : Table HotStat
  rtrHot : Table HotStat
  /-- A coherence protocol error is reported and its Tender steps have not run (R214, R215); bursts without their end markers. -/
  cohError : Bool
  bursts : List Burst
  /-- Keeper-bound commands in the order they reached the Keeper, and the next turn: a sector, 16 the management function
  (R338). -/
  keeperQueue : List PktRef
  keeperTurn : Nat
  /-- Key slots (R340), model slots by sector × 8 + slot, SPDM sessions. -/
  keySlots : Table KeySlot
  models : Table (Option Model)
  sessions : List Session
  /-- SEC_SCRUB.LAST_US and the fills that are pending (R353). -/
  scrubLast : Nat
  fills : List Fill2
  /-- DEBUG_UNLOCKED, BOOT_IMAGE, ROOT_KEY_INDEX; starts of the module, which number the unlock nonces (R354). -/
  unlocked : Bool
  bootImage : Bool
  rootIndex : Nat
  starts : Nat
  /-- The anti-rollback fuses and the SVNs running, by component (R345). -/
  svnFused : Table Nat
  svnRunning : Table Nat
  measurements : Table (BitVec 384)
  dies : Table Die
  /-- HARBOUR_UP, COMPUTE_UP, EDGE_LOST (R28). -/
  harbourUp : BitVec 25
  computeUp : BitVec 25
  edgeLost : Bool
  fw : Firmware
  power : Power
  boot : Boot
  patrol : Patrol
  /-- Die-to-die modules, by (edge × 2 + direction) × 24 + module. -/
  lanes : Table LaneMap
  levels : Table Nat
  notices : Table (Option Notice)
  incoming : List Incoming
  remoteQ : Queue
  nextIncoming : BitVec 32
  tap : Tap
  guest : Guest
  pcie : Table PciePort
  iotlb : List Iotlb
  adapterWait : List AdapterReq
  upstream : List Upstream
  aia : Aia
  /-- Footprints that read zero where nothing has been written since (R352). -/
  zeros : List ZeroFill
  /-- Feature levels of the fabric links, by port (R419). -/
  linkLevels : Table Nat
  beacon : Beacon
  sets : Table StagedSet
  errs : Table ErrRing
  events : Table (Option EventRec)
  nextSeq : BitVec 32
  overwritten : Nat
  keyEpochs : Table Nat
  reports : List Domain
  /-- Reported domains whose fault was injected (R400). -/
  injectedReports : List Domain
  out : List Out
  free : Nat
  deriving DecidableEq, Repr

/-- The module right after reset, as the spec says, before anything has started: every register at its cold-reset value. -/
def Mod.reset : Mod :=
  { part := Part.reset, regs := [], cores := [], clusters := [], posts := [], dram := [], poison := [], regions := [],
    moorings := [], controllers := [], hdm := [], caches := [], evictions := [], slices := [], pdCores := [], sectors := [],
    fns := [], queues := [], mqs := [], mqPath := [], mqSector := [], mqTurn := 0, ports := [], eds := [], engines := [],
    groupRoute := [], memberRoute := [], inbox := [], routeWait := [], arrived := [], txFlows := [], rxFlows := [],
    holdoff := false, tender := Tender.reset, injections := [], dieGens := [], remotes := [], nextCmd := 0, txns := [], tagWait := [],
    buckets := [], ctlHot := [], rtrHot := [], cohError := false, bursts := [], keeperQueue := [], keeperTurn := 0,
    keySlots := [], models := [], sessions := [], scrubLast := 0, fills := [], unlocked := false, bootImage := false,
    rootIndex := 0, starts := 0, svnFused := [], svnRunning := [], measurements := [], dies := [], harbourUp := 0,
    computeUp := 0, edgeLost := false, fw := Firmware.reset, power := Power.reset, boot := Boot.reset, patrol := Patrol.reset,
    lanes := [], levels := [], notices := [], incoming := [], remoteQ := Queue.reset, nextIncoming := 0, tap := Tap.reset,
    guest := Guest.reset, pcie := [], iotlb := [], adapterWait := [], upstream := [], aia := Aia.reset, zeros := [], linkLevels := [], beacon := Beacon.reset,
    sets := [], errs := [], events := [], nextSeq := 0, overwritten := 0, keyEpochs := [], reports := [], injectedReports := [], out := [], free := 0 }

/-- The block: the module, and the commands that wait, first in, first out. -/
structure State extends Mod where
  pending : List Instr
  deriving DecidableEq, Repr

/-- The block right after reset: no command waits. -/
def State.reset : State := { toMod := Mod.reset, pending := [] }

/-- Why the block stops with a fault. No command raises one: every fault the spec gives is an effect on the state. -/
inductive Fault where
  /-- Raised by no command; kept so that the type is inhabited. Safe. -/
  | none
  deriving DecidableEq, Repr

/-- Why a command has no meaning. -/
inductive Refusal where
  /-- A command the model does not give a meaning yet, by its mnemonic. Safe. -/
  | notModelled (mnemonic : String)
  deriving DecidableEq, Repr

end Sys2Proof.Machine
end

