-- ==== Sys2Proof/Machine/Table.lean ====
section
/-!
DEFINITION. Reading and writing a sparse table. A write keeps the numbers strictly rising and lists no value equal to the
unit's reset value, so equal arrays are equal data.
-/
namespace Sys2Proof.Machine

/-- The value listed for a number, if any. -/
def Table.find {α : Type} (t : Table α) (k : Nat) : Option α :=
  match t with
  | [] => none
  | (k', v) :: rest => if k' = k then some v else Table.find rest k

/-- The value at a number: the listed one, else the reset value. -/
def Table.get {α : Type} (dflt : α) (t : Table α) (k : Nat) : α := (Table.find t k).getD dflt

/-- The table with a number no longer listed. -/
def Table.erase {α : Type} (t : Table α) (k : Nat) : Table α :=
  match t with
  | [] => []
  | (k', v) :: rest => if k' = k then Table.erase rest k else (k', v) :: Table.erase rest k

/-- A pair put before the first larger number. -/
def Table.insert {α : Type} (t : Table α) (k : Nat) (v : α) : Table α :=
  match t with
  | [] => [(k, v)]
  | (k', v') :: rest => if k < k' then (k, v) :: (k', v') :: rest else (k', v') :: Table.insert rest k v

/-- The table with a value at a number, whatever the value. -/
def Table.put {α : Type} (t : Table α) (k : Nat) (v : α) : Table α := Table.insert (Table.erase t k) k v

/-- The table with a value at a number; the reset value is not listed. -/
def Table.set {α : Type} [DecidableEq α] (dflt : α) (t : Table α) (k : Nat) (v : α) : Table α :=
  if v = dflt then Table.erase t k else Table.put t k v

/-- The table with the unit of a number changed by a function. -/
def Table.upd {α : Type} [DecidableEq α] (dflt : α) (t : Table α) (k : Nat) (f : α → α) : Table α :=
  Table.set dflt t k (f (Table.get dflt t k))

/-- Every listed unit changed by a function of its number; a unit that becomes the reset value is no longer listed. -/
def Table.mapAll {α : Type} [DecidableEq α] (dflt : α) (t : Table α) (f : Nat → α → α) : Table α :=
  (t.map (fun p => (p.1, f p.1 p.2))).filter (fun p => p.2 ≠ dflt)

/-- The numbers strictly rise, all above a lower bound that a first number need not meet. -/
def Table.rising {α : Type} : Table α → Bool
  | [] => true
  | [_] => true
  | (k, _) :: (k', v') :: rest => decide (k < k') && Table.rising ((k', v') :: rest)

/-- The canonical form: numbers strictly rising, no listed value equal to the reset value. -/
def Table.wf {α : Type} [DecidableEq α] (dflt : α) (t : Table α) : Bool :=
  Table.rising t && t.all (fun p => decide (p.2 ≠ dflt))

end Sys2Proof.Machine
end

