-- ==== Sys2Proof/Machine/Access.lean ====
section
/-!
DEFINITION. Reading and writing one unit of the module, and where units stand on the die grid (R12, R13, R25, R167).
-/
namespace Sys2Proof.Machine
open Sys2Proof

/-- The outcome of a command that goes on with a changed module; the queue of waiting commands stays. -/
def State.go (s : State) (m : Mod) : Host.Outcome State Fault Refusal := .next { s with toMod := m }

/-! ## The grid -/

/-- The site of TD n (R12). -/
def tdSite (n : Nat) : Nat := [0, 1, 3, 4, 5, 7, 9, 11, 13, 15, 17, 19, 20, 21, 23, 24].getD n 0
/-- The site of ED e: N, W, E, S (R12, R34). -/
def edSite (e : Nat) : Nat := [2, 10, 14, 22].getD e 2
/-- The site of PD p (R12). -/
def pdSite (p : Nat) : Nat := [6, 8, 16, 18].getD p 6
/-- The site of the KD (R12). -/
def kdSite : Nat := 12
/-- The site of memory-bearing die md (R167). -/
def mdSite (md : Nat) : Nat := [0, 1, 3, 4, 5, 6, 7, 8, 9, 11, 13, 15, 16, 17, 18, 19, 20, 21, 23, 24].getD md 0
/-- The position of a site in a list of sites. -/
def siteIndex (l : List Nat) (site : Nat) : Option Nat :=
  if l.idxOf site < l.length then some (l.idxOf site) else none
/-- The TD number of a site. -/
def siteTd (site : Nat) : Option Nat := siteIndex ((List.range 16).map tdSite) site
/-- The ED number of a site. -/
def siteEd (site : Nat) : Option Nat := siteIndex ((List.range 4).map edSite) site
/-- The PD number of a site. -/
def sitePd (site : Nat) : Option Nat := siteIndex ((List.range 4).map pdSite) site
/-- The memory-bearing die index of a site. -/
def siteMd (site : Nat) : Option Nat := siteIndex ((List.range 20).map mdSite) site
/-- The memory-bearing die index of PD p. -/
def pdMd (p : Nat) : Nat := [5, 7, 12, 14].getD p 5

/-- The base of a site's control block (R25). -/
def cbBase (site : Nat) : Nat := 0xFFF00000000000 + site * 0x100000000

/-- The die of a core, and its index there (R13). -/
def coreSite (c : Nat) : Nat := tdSite (c / 64)
/-- The die of a cluster. -/
def clusterSite (c : Nat) : Nat := tdSite (c / 8)
/-- The die of a fabric port. -/
def portSite (p : Nat) : Nat := edSite (p / 8)
/-- The die of a collective engine. -/
def engineSite (e : Nat) : Nat := edSite (e / 16)
/-- The die of a stack. -/
def stackSite (s : Nat) : Nat := mdSite (s / 4)

/-- The number TND_STATE.KIND gives a domain (R399). -/
def domainKind : Domain → Nat
  | .core _ => 0 | .cluster _ => 1 | .td _ => 2 | .engine _ => 3 | .port _ => 4 | .stack _ => 5 | .edge _ => 6
  | .slice _ => 7 | .moduleWarm => 7 | .moduleCold => 8

/-- The site of a domain (R399); a module's is the KD's. -/
def domainSite : Domain → Nat
  | .core c => coreSite c | .cluster c => clusterSite c | .td s => s | .engine e => engineSite e | .port p => portSite p
  | .stack s => stackSite s | .edge d => edSite d | .slice d => mdSite d | .moduleWarm => kdSite | .moduleCold => kdSite

/-! ## Fences (R382 to R385) -/

/-- The Tender fences a domain that contains core i. -/
def Mod.coreFenced (m : Mod) (i : Nat) : Bool :=
  m.tender.fenced.any (fun d => match d with
    | .core c => c.val == i
    | .cluster c => c.val == i / 8
    | .td s => s.val == tdSite (i / 64)
    | _ => false)

/-- The Tender fences a domain that contains cluster i. -/
def Mod.clusterFenced (m : Mod) (i : Nat) : Bool :=
  m.tender.fenced.any (fun d => match d with
    | .cluster c => c.val == i
    | .td s => s.val == tdSite (i / 8)
    | _ => false)

/-- The Tender fences the edge domain of ED e. -/
def Mod.edgeFenced (m : Mod) (e : Nat) : Bool :=
  m.tender.fenced.any (fun d => match d with
    | .edge x => x.val == e
    | _ => false)

/-- The Tender fences a domain that contains engine e. -/
def Mod.engineFenced (m : Mod) (e : Nat) : Bool :=
  m.edgeFenced (e / 16) || m.tender.fenced.any (fun d => match d with
    | .engine x => x.val == e
    | _ => false)

/-- The Tender fences stack s. -/
def Mod.stackFenced (m : Mod) (s : Nat) : Bool :=
  m.tender.fenced.any (fun d => match d with
    | .stack x => x.val == s
    | _ => false)

/-! ## The hold (R375 to R377) -/

/-- Engines issue, sequencers dispatch and arriving operations are served: not between the assertion of PWR_WARN_N and the end of
the resume (R375, R376). -/
def Mod.working (m : Mod) : Bool := m.power.st != .holdEntry && m.power.st != .hold && m.power.st != .resuming

/-- Blocks and accesses that are in flight still complete: they do during the hold entry, and the module is then still (R375). -/
def Mod.moversRun (m : Mod) : Bool := m.power.st != .hold && m.power.st != .resuming

/-! ## Units -/

/-- Core i. -/
def Mod.core (m : Mod) (i : Nat) : TCore := Table.get TCore.reset m.cores i
/-- Core i replaced. -/
def Mod.setCore (m : Mod) (i : Nat) (c : TCore) : Mod := { m with cores := Table.set TCore.reset m.cores i c }
/-- Core i changed. -/
def Mod.updCore (m : Mod) (i : Nat) (f : TCore → TCore) : Mod := m.setCore i (f (m.core i))
/-- Cluster i. -/
def Mod.cluster (m : Mod) (i : Nat) : Cluster := Table.get Cluster.reset m.clusters i
/-- Cluster i replaced. -/
def Mod.setCluster (m : Mod) (i : Nat) (c : Cluster) : Mod := { m with clusters := Table.set Cluster.reset m.clusters i c }
/-- Cluster i changed. -/
def Mod.updCluster (m : Mod) (i : Nat) (f : Cluster → Cluster) : Mod := m.setCluster i (f (m.cluster i))
/-- A queue. -/
def Mod.queue (m : Mod) (q : QRef) : Queue :=
  match q with
  | .csq n => Table.get Queue.reset m.queues n
  | .mq n => Table.get Queue.reset m.mqs n
  | .remote => m.remoteQ
/-- A queue replaced. -/
def Mod.setQueue (m : Mod) (q : QRef) (v : Queue) : Mod :=
  match q with
  | .csq n => { m with queues := Table.set Queue.reset m.queues n v }
  | .mq n => { m with mqs := Table.set Queue.reset m.mqs n v }
  | .remote => { m with remoteQ := v }
/-- A queue changed. -/
def Mod.updQueue (m : Mod) (q : QRef) (f : Queue → Queue) : Mod := m.setQueue q (f (m.queue q))
/-- Fabric port i. -/
def Mod.port (m : Mod) (i : Nat) : Port := Table.get Port.reset m.ports i
/-- A die's SEC_ and PWR_ state. -/
def Mod.die (m : Mod) (site : Nat) : Die := Table.get Die.reset m.dies site
/-- A die's SEC_ and PWR_ state changed. -/
def Mod.updDie (m : Mod) (site : Nat) (f : Die → Die) : Mod := { m with dies := Table.upd Die.reset m.dies site f }
/-- A PCIe/CXL port. -/
def Mod.pciePort (m : Mod) (p : Nat) : PciePort := Table.get PciePort.reset m.pcie p
/-- A PCIe/CXL port changed. -/
def Mod.updPcie (m : Mod) (p : Nat) (f : PciePort → PciePort) : Mod := { m with pcie := Table.upd PciePort.reset m.pcie p f }
/-- A key slot. -/
def Mod.keySlot (m : Mod) (n : Nat) : KeySlot := Table.get KeySlot.reset m.keySlots n
/-- A staged set. -/
def Mod.set (m : Mod) (i : Nat) : StagedSet := Table.get StagedSet.reset m.sets i
/-- A staged set replaced. -/
def Mod.setSet (m : Mod) (i : Nat) (v : StagedSet) : Mod := { m with sets := Table.set StagedSet.reset m.sets i v }
/-- A region-table entry. -/
def Mod.region (m : Mod) (i : Nat) : Region := Table.get Region.reset m.regions i
/-- A region-table entry replaced. -/
def Mod.setRegion (m : Mod) (i : Nat) (v : Region) : Mod := { m with regions := Table.set Region.reset m.regions i v }
/-- A mooring entry. -/
def Mod.mooring (m : Mod) (i : Nat) : Mooring := Table.get Mooring.reset m.moorings i
/-- A mooring entry replaced. -/
def Mod.setMooring (m : Mod) (i : Nat) (v : Mooring) : Mod := { m with moorings := Table.set Mooring.reset m.moorings i v }
/-- A memory controller: 0 to 79 stacks, 80 to 95 DDR5 channels. -/
def Mod.ctl (m : Mod) (i : Nat) : Controller := Table.get Controller.reset m.controllers i
/-- A memory controller replaced. -/
def Mod.setCtl (m : Mod) (i : Nat) (v : Controller) : Mod :=
  { m with controllers := Table.set Controller.reset m.controllers i v }
/-- A die's error ring. -/
def Mod.err (m : Mod) (site : Nat) : ErrRing := Table.get ErrRing.reset m.errs site
/-- A die's error ring replaced. -/
def Mod.setErr (m : Mod) (site : Nat) (v : ErrRing) : Mod := { m with errs := Table.set ErrRing.reset m.errs site v }

/-- A slice. -/
def Mod.slice (m : Mod) (md : Nat) : Slice := Table.get Slice.reset m.slices md
/-- A slice replaced. -/
def Mod.setSlice (m : Mod) (md : Nat) (v : Slice) : Mod := { m with slices := Table.set Slice.reset m.slices md v }
/-- A PD core. -/
def Mod.pdCore (m : Mod) (i : Nat) : PdCore := Table.get PdCore.reset m.pdCores i
/-- A PD core replaced. -/
def Mod.setPdCore (m : Mod) (i : Nat) (v : PdCore) : Mod := { m with pdCores := Table.set PdCore.reset m.pdCores i v }
/-- A register of a site's control block, by offset, with its reset value. -/
def Mod.reg (m : Mod) (site off : Nat) (dflt : Word) : Word := (Table.find m.regs (site * 2 ^ 32 + off)).getD dflt
/-- A register of a site's control block written. -/
def Mod.setReg (m : Mod) (site off : Nat) (dflt v : Word) : Mod :=
  { m with regs := if v = dflt then Table.erase m.regs (site * 2 ^ 32 + off) else Table.put m.regs (site * 2 ^ 32 + off) v }

/-- A sector. -/
def Mod.sector (m : Mod) (i : Nat) : Sector := Table.get Sector.reset m.sectors i
/-- A sector replaced. -/
def Mod.setSector (m : Mod) (i : Nat) (v : Sector) : Mod := { m with sectors := Table.set Sector.reset m.sectors i v }
/-- A function of a PCIe/CXL port (port 8 the management endpoint). -/
def Mod.fn (m : Mod) (port fn : Nat) : Fn := Table.get Fn.reset m.fns (port * 32 + fn)
/-- A function replaced. -/
def Mod.setFn (m : Mod) (port fn : Nat) (v : Fn) : Mod := { m with fns := Table.set Fn.reset m.fns (port * 32 + fn) v }

/-- The local beacon time (R32, R45). -/
def Mod.bt (m : Mod) : Nat := m.beacon.bt.toNat

/-- An output recorded. -/
def Mod.emit (m : Mod) (o : Out) : Mod := { m with out := o :: m.out }

/-- A message to the guest (R453): the two words of its header, ADDR and AOP 0, and what follows. Of the header: OP, TAG, the present
GENERATION, and BEATS, POISON or ERR as fields. -/
def Mod.guestAnswer (m : Mod) (op tag : Nat) (fields : List (Nat × Nat × Nat)) (data : List Nat) : Mod :=
  m.emit (.answer 3 ((pack ([(0, 4, op), (4, 12, tag), (24, 8, m.guest.gen.toNat)] ++ fields)).toNat :: 0 :: data))

/-- ERR of a message to the guest (R453): 1 REGION_FAULT, 2 ADDRESS_ERROR, 3 MALFORMED. -/
def guestErr (n : Nat) : List (Nat × Nat × Nat) := [(32, 4, n)]

/-- The next free value, and the machine with it taken. -/
def Mod.takeFree (m : Mod) : Word × Mod := (Config.freeWord m.free, { m with free := m.free + 1 })

end Sys2Proof.Machine
end

