-- ==== Sys2Proof/Machine/Aia.lean ====
section
/-!
DEFINITION. The processor dies' interrupt files and interrupt controllers, in the layouts of the RISC-V Advanced Interrupt Architecture, and the
registers of their IOMMU instances (R310 to R312). What the rules leave to those specifications is log entries 122 and 123.
-/
namespace Sys2Proof.Machine
open Sys2Proof

/-! ## IMSIC files (R310) -/

/-- The IMSIC file whose page an address lies in: core × 16, with 0 for its S-level file, 1 to 7 for its guest files and 8 for its M-level file. -/
def imsicFile (pa : Nat) : Option Nat :=
  let off := (pa - cbBase 0) % 2 ^ 32
  if pa < cbBase 0 then none
  else
    match sitePd ((pa - cbBase 0) / 2 ^ 32) with
    | none => none
    | some pd =>
      if 0x7100000 ≤ off && off < 0x7160000 then some ((96 * pd + (off - 0x7100000) / 0x1000) * 16 + 8)
      else if 0x7200000 ≤ off && off < 0x7800000 && off % 0x10000 < 0x8000 then
        some ((96 * pd + (off - 0x7200000) / 0x10000) * 16 + off % 0x10000 / 0x1000)
      else none

/-- The identities of a file: 63 of an M-level file, 2,047 of another. -/
def imsicIds (file : Nat) : Nat := if file % 16 = 8 then 63 else 2047

/-- An identity becomes pending in a file. -/
def Mod.setPendingId (m : Mod) (file id : Nat) : Mod :=
  { m with aia := { m.aia with files := Table.upd [] m.aia.files file (fun l => if l.contains id then l else id :: l) } }

/-- A message-signalled interrupt: written to the first word of a file's page, it makes the identity pending that it names. -/
def Mod.sendMsi (m : Mod) (pa data : Nat) : Mod :=
  let m := m.emit (.imsic (BitVec.ofNat 64 pa) (BitVec.ofNat 32 data))
  match imsicFile pa with
  | some f => if pa % 0x1000 = 0 && 1 ≤ data && data ≤ imsicIds f then m.setPendingId f data else m
  | none => m

/-- The files of a core, cleared (R332, R352). -/
def Mod.clearFiles (m : Mod) (core : Nat) : Mod :=
  { m with aia := { m.aia with files := m.aia.files.filter (fun p => p.1 / 16 != core) } }

/-! ## APLIC domains (R310, R311) -/

/-- A domain of a PD: PD × 2, and one more for the S-level one. -/
def Mod.aplic (m : Mod) (k : Nat) : Aplic := Table.get Aplic.reset m.aia.domains k

/-- A domain replaced. -/
def Mod.setAplic (m : Mod) (k : Nat) (d : Aplic) : Mod := { m with aia := { m.aia with domains := Table.set Aplic.reset m.aia.domains k d } }

/-- A source of a domain is active: its mode is not inactive, it is not delegated on, and its parent delegates it here. -/
def Mod.sourceActive (m : Mod) (k i : Nat) : Bool :=
  let c := Table.get 0 (m.aplic k).source i
  decide (1 ≤ i) && decide (i < 64) && !(c / 1024 % 2 == 1) && c % 8 != 0 &&
    (k % 2 == 0 || Table.get 0 (m.aplic (k - 1)).source i / 1024 % 2 == 1)

/-- The file that a domain's target names: a core of its PD by its hart index, M-level from the M-level domain, else S-level or a guest's. -/
def aplicTarget (k target : Nat) : Nat :=
  let hart := target / 2 ^ 18 % 96
  if k % 2 = 0 then cbBase (pdSite (k / 2)) + 0x7100000 + hart * 0x1000
  else cbBase (pdSite (k / 2)) + 0x7200000 + hart * 0x10000 + target / 2 ^ 12 % 8 * 0x1000

/-- A source that is pending and enabled in a domain whose interrupts are enabled goes out as a message. -/
def Mod.forward (m : Mod) (k i : Nat) : Mod :=
  let d := m.aplic k
  if d.ie && d.pending.contains i && d.enabled.contains i && m.sourceActive k i then
    (m.setAplic k { d with pending := d.pending.erase i }).sendMsi (aplicTarget k (Table.get 0 d.target i)) (Table.get 0 d.target i % 2048)
  else m

/-- Every source of a domain that can go out does. -/
def Mod.forwardAll (m : Mod) (k : Nat) : Mod := (List.range 64).foldl (fun (m : Mod) (i : Nat) => m.forward k i) m

/-- A source of a domain becomes pending. -/
def Mod.pendSource (m : Mod) (k i : Nat) : Mod :=
  let d := m.aplic k
  if m.sourceActive k i && !d.pending.contains i then m.setAplic k { d with pending := i :: d.pending } else m

/-- An event of a PD's wired source: pending in the domain that has it, where its mode is one of a wire, and sent on (R311). -/
def Mod.raiseSource (m : Mod) (site i : Nat) : Mod :=
  let m := m.emit (.aplic site i)
  match sitePd site with
  | none => m
  | some pd =>
    let k := if Table.get 0 (m.aplic (2 * pd)).source i / 1024 % 2 = 1 then 2 * pd + 1 else 2 * pd
    if 4 ≤ Table.get 0 (m.aplic k).source i % 8 then (m.pendSource k i).forward k i else m

/-- A word of bits of a list of sources. -/
def sourceWord (l : List Nat) (w : Nat) : Nat := (List.range 32).foldl (fun a b => if l.contains (32 * w + b) then a + 2 ^ b else a) 0

/-- A 32-bit register of a domain read. -/
def Mod.readAplic (m : Mod) (k o : Nat) : Nat :=
  let d := m.aplic k
  if o = 0 then 0x80000004 + 256 * flag d.ie
  else if o < 256 then (if k % 2 = 0 || Table.get 0 (m.aplic (k - 1)).source (o / 4) / 1024 % 2 = 1 then Table.get 0 d.source (o / 4) else 0)
  else if o = 0x1BC4 && k % 2 = 0 then 0x80000000
  else if o = 0x1C00 || o = 0x1C04 then sourceWord (d.pending.filter (m.sourceActive k)) (o / 4 % 2)
  else if o = 0x1E00 || o = 0x1E04 then sourceWord (d.enabled.filter (m.sourceActive k)) (o / 4 % 2)
  else if o = 0x3000 then d.extempore
  else if 0x3004 ≤ o && o < 0x3100 then (if m.sourceActive k ((o - 0x3000) / 4) then Table.get 0 d.target ((o - 0x3000) / 4) else 0)
  else 0

/-- Sources enabled, or no longer. -/
def Aplic.enable (d : Aplic) (l : List Nat) (on : Bool) : Aplic :=
  { d with enabled := if on then (d.enabled ++ l).eraseDups else d.enabled.filter (fun i => !l.contains i) }

/-- The sources that a word of bits names. -/
def wordSources (w v : Nat) : List Nat := (bitsSet v 32).map (32 * w + ·)

/-- A source's configuration written: delegated from the M-level domain, or its mode. A source that becomes inactive is neither pending nor
enabled. -/
def Mod.configSource (m : Mod) (k i v : Nat) : Mod :=
  let d := m.aplic k
  let c := if k % 2 = 0 && v / 1024 % 2 = 1 then 1024 else if v / 1024 % 2 = 1 || v % 8 = 2 || v % 8 = 3 then 0 else v % 8
  let mine := k % 2 = 0 || Table.get 0 (m.aplic (k - 1)).source i / 1024 % 2 = 1
  if !mine then m
  else if c % 1024 = 0 then
    m.setAplic k { d with source := Table.set 0 d.source i c, pending := d.pending.erase i, enabled := d.enabled.erase i }
  else m.setAplic k { d with source := Table.set 0 d.source i c }

/-- A 32-bit register of a domain written. -/
def Mod.writeAplic (m : Mod) (k o v : Nat) : Mod :=
  let d := m.aplic k
  let active := fun (l : List Nat) => l.filter (m.sourceActive k)
  let clear := fun (l : List Nat) => m.setAplic k { d with pending := d.pending.filter (fun i => !l.contains i) }
  let m :=
    if o = 0 then m.setAplic k { d with ie := v / 256 % 2 == 1 }
    else if o < 256 then m.configSource k (o / 4) v
    else if o = 0x1C00 || o = 0x1C04 then (wordSources (o / 4 % 2) v).foldl (fun (m : Mod) (i : Nat) => m.pendSource k i) m
    else if o = 0x1CDC || o = 0x2000 then m.pendSource k v
    else if o = 0x1D00 || o = 0x1D04 then clear (wordSources (o / 4 % 2) v)
    else if o = 0x1DDC then clear [v]
    else if o = 0x1E00 || o = 0x1E04 then m.setAplic k (d.enable (active (wordSources (o / 4 % 2) v)) true)
    else if o = 0x1EDC then m.setAplic k (d.enable (active [v]) true)
    else if o = 0x1F00 || o = 0x1F04 then m.setAplic k (d.enable (wordSources (o / 4 % 2) v) false)
    else if o = 0x1FDC then m.setAplic k (d.enable [v] false)
    else if o = 0x3000 then
      (m.setAplic k { d with extempore := v / 2 ^ 18 % 2 ^ 14 * 2 ^ 18 + v % 2048 }).sendMsi (aplicTarget k (v / 2 ^ 18 % 2 ^ 14 * 2 ^ 18)) (v % 2048)
    else if 0x3004 ≤ o && o < 0x3100 && m.sourceActive k ((o - 0x3000) / 4) then
      m.setAplic k { d with target := Table.set 0 d.target ((o - 0x3000) / 4) (if k % 2 = 0 then v / 2 ^ 18 % 2 ^ 14 * 2 ^ 18 + v % 2048
                                                                              else v / 2 ^ 12 % 2 ^ 20 * 2 ^ 12 + v % 2048) }
    else m
  m.forwardAll k

/-! ## IOMMU registers (R310, R312) -/

/-- The capabilities that the options of R312 make: version 1.0; Sv39, Sv48 and Sv57 in both stages; flat MSI translation; ATS; wired
interrupts; performance monitor; physical addresses of 56 bits; process directories of 20 bits. -/
def iommuCaps : Word :=
  pack [(0, 8, 0x10), (9, 3, 7), (17, 3, 7), (22, 1, 1), (25, 1, 1), (28, 2, 1), (30, 1, 1), (32, 6, 56), (40, 1, 1)]

/-- An 8-byte word of a port's IOMMU page. -/
def Mod.readIommu (m : Mod) (port o : Nat) : Word :=
  if o / 8 = 0 then iommuCaps else Table.get 0 m.aia.iommu (port * 8192 + o / 8)

/-- Bytes of a port's IOMMU page written, under the mask of an access. -/
def Mod.writeIommu (m : Mod) (port o : Nat) (mask value : Word) : Mod :=
  if o / 8 = 0 then m
  else { m with aia := { m.aia with iommu := Table.upd 0 m.aia.iommu (port * 8192 + o / 8) (fun w => maskedWrite w mask value) } }

end Sys2Proof.Machine
end

