-- ==== Sys2Proof/Machine/Records.lean ====
section
/-!
DEFINITION. The event log (R408) and the dies' error records (R396, R397).
-/
namespace Sys2Proof.Machine
open Sys2Proof

/-- The number a register shows for an owner: 0 to 15, 16 for the management function (R52). -/
def issuerNum : Issuer → Nat
  | .sector s => s
  | .mgmt => 16

/-- The SECTOR field of a register or record: 0x1F for none. -/
def sectorNum : Option SectorId → Nat
  | some s => s
  | none => 0x1F

/-- One event-log record (R408): the oldest of the 4,096 is overwritten. -/
def Mod.logEvent (m : Mod) (cls sub site data0 : Nat) (data1 : Word) : Mod :=
  let i := m.nextSeq.toNat % 4096
  let r : EventRec := { cls := BitVec.ofNat 8 cls, sub := BitVec.ofNat 8 sub, site := BitVec.ofNat 5 site,
                        data0 := BitVec.ofNat 32 data0, data1 := data1, bt := m.beacon.bt, seq := m.nextSeq }
  { m with
    events := Table.set none m.events i (some r)
    nextSeq := m.nextSeq + 1
    overwritten := if (Table.get none m.events i).isSome then satAdd m.overwritten 1 0xFFFFFFFF else m.overwritten }

/-- What an error record is made of besides its time. -/
structure Fail where
  site : Nat
  cls : Nat
  sev : Nat
  unit : Nat
  code : Nat
  addr : Nat
  detail : Nat
  sector : Option SectorId
  injected : Bool
  deriving DecidableEq, Repr

/-- The generation tag of the domain that a unit of a die belongs to (R387, R396, R397): a tensor core's, a cluster's, a stack's, a
fabric port's, an engine's, the guest die's; the die's own for what stands on its compute or edge domain as a whole, and for a unit of
a harbour domain or a PD, which have no tag of their own (DESIGN CHOICE, log entry 101). -/
def Mod.unitGen (m : Mod) (site unit : Nat) : BitVec 8 :=
  let die : BitVec 8 := BitVec.ofNat 8 (Table.get 0 m.dieGens (site * 8))
  let k := unit % 0x100
  if m.part.guestSite && site == 18 then m.guest.gen
  else
    match unit / 0x100, siteTd site, siteEd site with
    | 0, some t, _ => (m.core (64 * t + k)).gen
    | 1, some t, _ => (m.cluster (8 * t + k)).gen
    | 2, _, _ => if k < 4 && (siteMd site).isSome then BitVec.ofNat 8 (Table.get 0 m.dieGens (site * 8 + 1 + k)) else die
    | 5, _, some e => (m.port (8 * e + k)).generation
    | 6, _, some e => (Table.get Engine.reset m.engines (16 * e + k)).gen
    | _, _, _ => die

/-- Whether a new occurrence merges into a record: same class, unit and code, written in the same management epoch (R396). -/
def ErrRec.merges (r : ErrRec) (f : Fail) (bt : Nat) : Bool :=
  r.cls == f.cls && r.unit == f.unit && r.code == f.code && r.bt.toNat / 1048576 == bt / 1048576

/-- The index of the unacknowledged record that a new occurrence merges into. -/
def ErrRing.mergeAt (r : ErrRing) (f : Fail) (bt : Nat) : Option Nat :=
  ((List.range r.pending).map (fun k => (r.oldest + k) % 64)).find? (fun i =>
    match Table.get none r.recs i with
    | some x => x.merges f bt
    | none => false)

/-- An error record written into its die's ring, merged or lost as R396 says; severities 2 and 3 are copied into the event
log, and a new record of a PD raises its APLIC source 1 (R311). -/
def Mod.record (m : Mod) (f : Fail) : Mod :=
  let ring := m.err f.site
  match ring.mergeAt f m.bt with
  | some i =>
    match Table.get none ring.recs i with
    | some x => m.setErr f.site { ring with recs := Table.set none ring.recs i (some { x with count := satAdd x.count 1 0xFFFF }) }
    | none => m
  | none =>
    if ring.pending ≥ 64 then m.setErr f.site { ring with lost := satAdd ring.lost 1 0xFFFF }
    else
      let i := (ring.oldest + ring.pending) % 64
      let r : ErrRec := { cls := f.cls, sev := f.sev, injected := f.injected, sector := f.sector,
                          gen := m.unitGen f.site f.unit,
                          unit := f.unit, code := f.code, addr := f.addr, bt := m.beacon.bt, detail := f.detail, count := 1 }
      let m := m.setErr f.site { ring with recs := Table.set none ring.recs i (some r), pending := ring.pending + 1,
                                           written := satAdd ring.written 1 0xFFFFFFFF }
      let m := if f.sev ≥ 2 then
          m.logEvent 0x04 f.cls f.site (f.unit % 65536 + (f.code % 65536) <<< 16)
            (pack [(0, 56, f.addr), (56, 4, f.sev), (60, 1, flag f.injected)])
        else m
      if (sitePd f.site).isSome then m.raiseSource f.site 1 else m

/-- The 32 bytes of an error record, as four words (R396). -/
def ErrRec.words (r : ErrRec) : List Word :=
  [pack [(0, 8, r.cls), (8, 4, r.sev), (12, 1, flag r.injected), (16, 5, sectorNum r.sector), (24, 8, r.gen.toNat),
         (32, 16, r.unit), (48, 16, r.code)],
   pack [(0, 56, r.addr)], r.bt, pack [(0, 16, r.detail), (16, 16, r.count)]]

/-- The 32 bytes of an event-log record, as four words (R408). -/
def EventRec.words (r : EventRec) : List Word :=
  [pack [(0, 8, r.cls.toNat), (8, 8, r.sub.toNat), (16, 5, r.site.toNat), (32, 32, r.data0.toNat)], r.data1, r.bt,
   pack [(0, 32, r.seq.toNat)]]

/-- A malformed or unassigned control-block access (R10, R27): recorded on the die that it addresses. R397 names no UNIT and no CODE for
it: 0x0800 (die-wide logic) and 0, whatever page it addresses (DESIGN CHOICE, log entry 101). -/
def Mod.malformed (m : Mod) (site addr size : Nat) (sector : Option SectorId) : Mod :=
  m.record { site := site, cls := 0x01, sev := 1, unit := 0x0800, code := 0, addr := addr, detail := size,
             sector := sector, injected := false }

/-- A domain reported to the Tender by a detector, which FAULT_REPORT answers (R391). -/
def Mod.report (m : Mod) (d : Domain) : Mod := { m with reports := m.reports ++ [d] }

/-- A domain reported for a fault that may be injected: the records that its report causes then say so (R400). -/
def Mod.reportAs (m : Mod) (d : Domain) (injected : Bool) : Mod :=
  if injected then { m.report d with injectedReports := m.injectedReports ++ [d] } else m.report d

end Sys2Proof.Machine
end

