-- ==== Sys2Proof/Machine/Memory.lean ====
section
/-!
DEFINITION. Storages, and the decode of a physical address against the region table (R166 to R175).
-/
namespace Sys2Proof.Machine
open Sys2Proof

/-! ## Byte and word storages -/

/-- A byte of a storage. -/
def Mem.read (m : Mem) (a : Nat) : Byte :=
  match Table.find m.cells a with
  | some b => b
  | none => match m.fill with
    | .zero => 0
    | .undef e => Config.undefByte e a

/-- A byte of a storage written. -/
def Mem.write (m : Mem) (a : Nat) (b : Byte) : Mem :=
  match m.fill with
  | .zero => { m with cells := Table.set 0 m.cells a b }
  | .undef _ => { m with cells := Table.put m.cells a b }

/-- n bytes from an address on. -/
def Mem.readN (m : Mem) (a : Nat) : Nat → List Byte
  | 0 => []
  | n + 1 => m.read a :: Mem.readN m (a + 1) n

/-- Bytes written from an address on. -/
def Mem.writeN (m : Mem) (a : Nat) : List Byte → Mem
  | [] => m
  | b :: rest => Mem.writeN (m.write a b) (a + 1) rest

/-- A little-endian number of n bytes (R7). -/
def Mem.readNum (m : Mem) (a n : Nat) : Nat := numOf (m.readN a n)

/-- A little-endian number of n bytes written (R7). -/
def Mem.writeNum (m : Mem) (a n v : Nat) : Mem := m.writeN a (bytesOf n v)

/-- The canonical form of a storage's cells. -/
def Mem.wf (m : Mem) : Bool :=
  match m.fill with
  | .zero => Table.wf 0 m.cells
  | .undef _ => Table.rising m.cells

/-- A word of a storage of words. -/
def WMem.read (m : WMem) (a : Nat) : Half :=
  match Table.find m.words a with
  | some w => w
  | none => match m.fill with
    | .zero => 0
    | .undef e => Config.undefHalf e a

/-- A word of a storage of words written. -/
def WMem.write (m : WMem) (a : Nat) (w : Half) : WMem :=
  match m.fill with
  | .zero => { m with words := Table.set 0 m.words a w }
  | .undef _ => { m with words := Table.put m.words a w }

/-! ## Channels (R166 to R168) -/

/-- The stack exists on this part (R167). -/
def Mod.stackFitted (m : Mod) (s : Nat) : Bool := s < 80 && !(m.part.guestSite && 56 ≤ s && s < 60)

/-- The capacity of the DDR5 module on a tier-1 channel, in bytes; 0 where none is fitted (R168). -/
def Mod.dimmBytes (m : Mod) (q : Nat) : Nat :=
  if m.part.guestSite && q ≥ 12 then 0
  else [m.part.dimm0, m.part.dimm1, m.part.dimm2, m.part.dimm3].getD (q / 4) 0 * 2 ^ 30

/-- The capacity of a channel: 0 to 2559 tier 0, 2560 to 2575 tier 1 (R166). -/
def Mod.chanBytes (m : Mod) (ch : Nat) : Nat :=
  if ch < 2560 then (if m.stackFitted (ch / 32) then m.part.stackGib.toNat * 2 ^ 25 else 0) else m.dimmBytes (ch - 2560)

/-- The controller of a channel, and the channel's bit there (R182). -/
def chanCtl (ch : Nat) : Nat × Nat := if ch < 2560 then (ch / 32, ch % 32) else (80 + (ch - 2560), 0)

/-- A channel is in service: fitted and not mapped out (R182, R194). -/
def Mod.chanInService (m : Mod) (ch : Nat) : Bool :=
  m.chanBytes ch > 0 && !(m.ctl (chanCtl ch).1).chOut.getLsbD (chanCtl ch).2

/-- The sector that owns a channel. -/
def Mod.chanOwner (m : Mod) (ch : Nat) : Option SectorId :=
  Table.get none (m.ctl (chanCtl ch).1).owner (chanCtl ch).2

/-- The mapped length of a tier (R23, R168, R194, R317); tier 2 is the sum of the ranges laid out at boot. -/
def Mod.mappedLength (m : Mod) (tier : Nat) : Nat :=
  if tier = 0 then ((List.range 2560).filter m.chanInService).foldl (fun a ch => a + m.chanBytes ch) 0
  else if tier = 1 then (((List.range 16).map (2560 + ·)).filter m.chanInService).foldl (fun a ch => a + m.chanBytes ch) 0
  else m.hdm.foldl (fun a p => a + p.2) 0

/-- The base of a tier's window (R22). -/
def tierBase (tier : Nat) : Nat := if tier = 0 then 0 else if tier = 1 then 0x80000000000 else 0x1000000000000

/-- The tier of an address that lies inside its tier's mapped length (R22, R23). -/
def Mod.tierOf (m : Mod) (pa : Nat) : Option Nat :=
  if pa < 0x50000000000 then (if pa < m.mappedLength 0 then some 0 else none)
  else if 0x80000000000 ≤ pa && pa < 0xC0000000000 then
    (if pa - 0x80000000000 < m.mappedLength 1 then some 1 else none)
  else if 0x1000000000000 ≤ pa && pa < 0x2000000000000 then
    (if pa - 0x1000000000000 < m.mappedLength 2 then some 2 else none)
  else none

/-! ## Region-table entries (R170) -/

namespace Region
/-- VALID. -/
def valid (r : Region) : Bool := bit r.w0 0
/-- TIER. -/
def tier (r : Region) : Nat := bits r.w0 2 1
/-- MODE. -/
def mode (r : Region) : Nat := bits r.w0 5 3
/-- GRAN. -/
def gran (r : Region) : Nat := bits r.w0 9 6
/-- SECTOR. -/
def sector (r : Region) : Nat := bits r.w0 14 10
/-- PRESERVE. -/
def preserve (r : Region) : Bool := bit r.w0 15
/-- PRIO. -/
def prio (r : Region) : Nat := bits r.w0 18 16
/-- KEY. -/
def key (r : Region) : Nat := bits r.w0 24 19
/-- LOST. -/
def lost (r : Region) : Bool := bit r.w0 25
/-- ANCHOR. -/
def anchor (r : Region) : Nat := bits r.w0 51 32
/-- The first physical address. -/
def base (r : Region) : Nat := bits r.w1 55 21 * 2097152
/-- The length in bytes. -/
def size (r : Region) : Nat := bits r.w2 27 0 * 2097152
/-- CH_OFF. -/
def chOff (r : Region) : Nat := bits r.w3 25 0
/-- LABEL. -/
def label (r : Region) : Nat := bits r.w3 63 32
/-- The entry covers a physical address. -/
def covers (r : Region) (pa : Nat) : Bool := r.valid && r.base ≤ pa && pa < r.base + r.size
end Region

/-- The memory-bearing dies of a quadrant (R173). -/
def quadrantSites (q : Nat) : List Nat :=
  [[0, 1, 5, 6, 7], [3, 4, 8, 9, 13], [11, 15, 16, 20, 21], [17, 18, 19, 23, 24]].getD q []

/-- The die set D of a region, as md numbers for tier 0 and PD numbers for tier 1 (R173). -/
def Region.dies (r : Region) : List Nat :=
  if r.tier = 0 then
    (List.range 20).filter (fun md =>
      match r.mode with
      | 0 => mdSite md == r.anchor
      | 1 => mdSite md / 5 == r.anchor
      | 2 => (quadrantSites r.anchor).contains (mdSite md)
      | 3 => true
      | 4 => r.anchor.testBit md
      | 5 => true
      | _ => false)
  else
    (List.range 4).filter (fun p =>
      match r.mode with
      | 0 => pdSite p == r.anchor
      | 3 => true
      | 4 => r.anchor.testBit p
      | 5 => true
      | _ => false)

/-- The channels of one stack position that a sector owns and that are in service, ascending. -/
def Mod.stackChans (m : Mod) (tier sector die pos : Nat) : List Nat :=
  let all := if tier = 0 then (List.range 32).map (fun k => (4 * die + pos) * 32 + k) else [2560 + 4 * die + pos]
  all.filter (fun ch => m.chanInService ch &&
    ((match m.chanOwner ch with | some s => s.val == sector | none => false) || (m.sector sector).reserved.contains ch))

/-- The channel list L of a region (R174). -/
def Mod.chanList (m : Mod) (r : Region) : List Nat :=
  (List.range (if r.tier = 0 then 32 else 1)).flatMap (fun t =>
    (List.range 4).flatMap (fun pos =>
      r.dies.filterMap (fun die => (m.stackChans r.tier r.sector die pos)[t]?)))

/-- The footprint of a region on each channel of a list of n (R175). -/
def Region.footprint (r : Region) (n : Nat) : Nat :=
  let s := 256 <<< r.gran
  ceilDiv (ceilDiv r.size (n * s) * s) 4096 * 4096

/-- The channel and device offset of a byte of a region, over a channel list (R175). -/
def Region.place (r : Region) (l : List Nat) (pa : Nat) : Option (Nat × Nat) :=
  let s := 256 <<< r.gran
  let o := pa - r.base
  let i := o / s
  let rr := i / l.length
  let j := i % l.length
  let j := if r.mode = 5 then (j + ((rr * 0x9E3779B1) % 2 ^ 32) >>> 16) % l.length else j
  (l[j]?).map (fun ch => (ch, r.chOff * 4096 + rr * s + o % s))

/-- The range of the tier-2 window that an offset lies in: its number and its port (R168, R317). -/
def hdmRange : List (Nat × Nat) → Nat → Nat → Option (Nat × Nat)
  | [], _, _ => none
  | (port, size) :: rest, k, o => if o < size then (if port < 9 then some (k, port) else none) else hdmRange rest (k + 1) (o - size)

/-- The device or aperture, as channel 2576 + port, and the offset of an address of tier 2 in its window (R168, R173). -/
def hdmPlace (l : List (Nat × Nat)) (o : Nat) : Option (Nat × Nat) := (hdmRange l 0 o).map (fun p => (2576 + p.2, o))

/-- A line's number: its channel, its key slot, and its place on the channel (R176, R342). A byte's cell is
128 × line + byte. -/
def lineNum (ch key off : Nat) : Nat := (ch * 64 + key) * 2 ^ 41 + off / 128

/-- The channel of a line. -/
def lineChan (line : Nat) : Nat := line / 2 ^ 41 / 64
/-- The key slot of a line. -/
def lineKey (line : Nat) : Nat := line / 2 ^ 41 % 64
/-- The device offset of a line. -/
def lineOff (line : Nat) : Nat := line % 2 ^ 41 * 128

/-- Why an access is answered without data (R24, R171, R327, R393). -/
inductive AccErr where
  | addressError
  | regionFault
  | poison
  | withdrawn
  deriving DecidableEq, Repr

/-- The valid entry that covers an address. -/
def Mod.entryAt (m : Mod) (pa : Nat) : Option (Nat × Region) := m.regions.find? (fun p => p.2.covers pa)

/-- The cell that a byte of a valid entry lies in. -/
def Mod.cellIn (m : Mod) (r : Region) (pa : Nat) : Option Nat :=
  (if r.tier = 2 then hdmPlace m.hdm (pa - tierBase 2) else r.place (m.chanList r) pa).map (fun p =>
    128 * lineNum p.1 r.key p.2 + p.2 % 128)

/-- The burst buffer an address lies in, and the byte there (R26, R268). -/
def burstOf (pa : Nat) : Option (Nat × Nat) :=
  match siteEd ((pa - cbBase 0) / 2 ^ 32) with
  | some e =>
    let off := (pa - cbBase 0) % 2 ^ 32
    if cbBase 0 ≤ pa && 0x08000000 ≤ off && off < 0x0C000000 then some (e, off - 0x08000000) else none
  | none => none

/-- An address of the control blocks outside the burst-buffer windows (R22, R25, R27). -/
def inBlocks (pa : Nat) : Bool := cbBase 0 ≤ pa && pa < cbBase 25 && (burstOf pa).isNone

/-- The cell that stands for a byte of a control block: nothing is kept there. A register answers aligned 8-byte accesses alone, which
REGISTER_WRITE, MEM_REQUEST and the movers' 8-byte rows make; any other access reads zeros and writes nothing (R10, R27). -/
def blockCell (pa : Nat) : Nat := 128 * lineNum 2700 0 (pa - cbBase 0) + (pa - cbBase 0) % 128

/-- A line of the control blocks. -/
def blockLine (line : Nat) : Bool := 2700 ≤ lineChan line

/-- An access of a unit to a control block that is no aligned 8-byte access of a register: recorded on the die it addresses (R10, R27). -/
def Mod.noteBlock (m : Mod) (sector : Option SectorId) (pa n : Nat) : Mod :=
  if inBlocks pa then m.malformed ((pa - cbBase 0) / 2 ^ 32) pa n sector else m

/-- EDG_BB_PART of a sector (R269), the same on all four EDs but for what a management write leaves. -/
def Mod.bbPart (m : Mod) (ed sector : Nat) : Word := m.reg (edSite ed) (0x300 + sector * 8) 0

/-- A byte of a burst buffer lies in a sector's area (R268); the Keeper reaches the whole window. -/
def Mod.burstOk (m : Mod) (sector : Option SectorId) (ed off : Nat) : Bool :=
  match sector with
  | some s =>
    let w := m.bbPart ed s
    decide (bits w 9 0 * 65536 ≤ off) && decide (off < (bits w 9 0 + bits w 26 16) * 65536)
  | none => true

/-- The cell of a burst-buffer byte: the buffers stand beside the channels, from number 2600. -/
def burstCell (ed off : Nat) : Nat := 128 * lineNum (2600 + ed) 0 off + off % 128

/-- The decode of a burst-buffer access (R268, R385): a fenced edge domain answers with an address error; the first 16 MiB read as
zeros and ignore writes, whoever asks (log entry 59). -/
def Mod.decodeBurst (m : Mod) (sector : Option SectorId) (ed off : Nat) : Except AccErr Nat :=
  if m.tender.fenced.any (fun d => match d with | .edge e => e.val == ed | _ => false) then .error .addressError
  else if off < 0x1000000 then .ok (blockCell (cbBase (edSite ed) + 0x8000000 + off))
  else if m.burstOk sector ed off then .ok (burstCell ed off) else .error .regionFault

/-- A line lies behind a port's aperture: its bytes are a host's or an adapter's (R317). -/
def Mod.outside (m : Mod) (line : Nat) : Bool :=
  2576 ≤ lineChan line && lineChan line < 2584 && (m.pciePort (lineChan line - 2576)).mode != 3

/-- A function can be reached by upstream requests (R327). -/
def Fn.reachable (f : Fn) : Bool := f.active && f.bme && !f.withdrawn && !f.resetting

/-- The OWNER of an adapter root port (R316). -/
def Mod.portOwner (m : Mod) (port : Nat) : Nat := bits (m.reg (edSite (port / 2)) (0x4800000 + port % 2 * 0x100000) 0x1F0C) 12 8

/-- A port carries memory requests: where IDE is required, only once its streams are established (R315). -/
def Mod.portTakes (m : Mod) (p : Nat) : Bool :=
  let c := m.reg (edSite (p / 2)) (0x4800000 + p % 2 * 0x100000) 0x1F0C
  !bit c 4 || (m.pciePort p).ideActive

/-- A PCIe port carries memory requests; the management endpoint, port 8, always does. -/
def Mod.portCarries (m : Mod) (p : Nat) : Bool := 8 ≤ p || m.portTakes p

/-- Why an aperture does not take a sector's request of an offset in it: its link is down, or carries configuration requests alone, an
adapter root's OWNER is another, an endpoint's function is not there or is withdrawn (R315, R318, R327). That a memory request which a port
does not carry for want of IDE completes as on a link that is down is the model's choice (log entry 112). -/
def Mod.apertureError (m : Mod) (port sector o : Nat) : Option AccErr :=
  let x := m.pciePort port
  if !x.linkUp || (!m.portTakes port && !(x.mode = 1 && o < 0x10000000)) then some .addressError
  else if x.mode = 1 then
    (if m.portOwner port = sector then none else some .addressError)
  else
    let f := m.fn port (1 + sector)
    if f.reachable then none else if f.active then some .withdrawn else some .addressError

/-- The decode of R27, R171 and R318: an error, or the cell. A requester of no sector is the Keeper, which any
valid entry serves (log entry 12). -/
def Mod.decode (m : Mod) (sector : Option SectorId) (pa : Nat) : Except AccErr Nat :=
  match m.tierOf pa with
  | none =>
    match burstOf pa with
    | some (ed, off) => m.decodeBurst sector ed off
    | none => if inBlocks pa then .ok (blockCell pa) else .error .addressError
  | some _ =>
    match m.entryAt pa with
    | none => .error .regionFault
    | some (_, r) =>
      if (match sector with | some s => s.val == r.sector | none => true) then
        match m.cellIn r pa with
        | some c =>
          if m.outside (c / 128) then
            match m.apertureError (lineChan (c / 128) - 2576) r.sector (pa - (m.pciePort (lineChan (c / 128) - 2576)).aptBase) with
            | some e => .error e
            | none => .ok c
          else .ok c
        | none => .error .regionFault
      else .error .regionFault

/-- The cells of n bytes; the first byte that does not decode decides the error. -/
def Mod.decodeN (m : Mod) (sector : Option SectorId) (pa : Nat) : Nat → Except AccErr (List Nat)
  | 0 => .ok []
  | n + 1 =>
    match m.decode sector pa with
    | .error e => .error e
    | .ok c =>
      match Mod.decodeN m sector (pa + 1) n with
      | .error e => .error e
      | .ok cs => .ok (c :: cs)

/-! ## Errors of accesses -/

/-- The class an access error is recorded under (R397). -/
def AccErr.cls : AccErr → Nat
  | .addressError => 0x02 | .regionFault => 0x03 | .poison => 0x07 | .withdrawn => 0

/-- The line of an address, whoever asks. -/
def Mod.lineAt (m : Mod) (pa : Nat) : Option Nat :=
  match m.entryAt pa with
  | some (_, r) => (m.cellIn r pa).map (· / 128)
  | none => none

/-- An injected error has led to the poison of an address: it poisoned the line, or its stack is fenced for an injected fault (R400). -/
def Mod.poisonInjected (m : Mod) (pa : Nat) : Bool :=
  match m.lineAt pa with
  | some line =>
    (m.poison.contains line && (m.ctl (chanCtl (lineChan line)).1).injPoison.contains line) ||
      m.tender.injected.any (fun d => match d with
        | .stack k => decide (lineChan line < 2560) && lineChan line / 32 == k.val
        | _ => false)
  | none => false

/-- An access error recorded on the requester's die; withdrawn access is no error (R24, R171, R327, R393). The record of poison that an
injection caused says so (R400). -/
def Mod.recordAccess (m : Mod) (site unit : Nat) (sector : Option SectorId) (e : AccErr) (pa : Nat) : Mod :=
  if e = .withdrawn then m else
  m.record { site := site, cls := e.cls, sev := 1, unit := unit, code := 0, addr := pa, detail := 0, sector := sector,
             injected := e == .poison && m.poisonInjected pa }

/-- The status class of an access error, and its DETAIL's meaning stands with each command (R302). -/
def AccErr.status : AccErr → Nat
  | .addressError => 0x0304 | .regionFault => 0x0303 | .poison => 0x0404 | .withdrawn => 0x0701

end Sys2Proof.Machine
end

