-- ==== Sys2Proof/Machine/Flows.lean ====
section
/-!
DEFINITION. The EDs' registers that transport reads, collective engines as units, and the sender's side of a flow (R239, R243,
R244, R248, R269).
-/
namespace Sys2Proof.Machine
open Sys2Proof

/-- An ED's transport unit. -/
def Mod.ed (m : Mod) (e : Nat) : EdState := Table.get EdState.reset m.eds e
/-- An ED's transport unit changed. -/
def Mod.updEd (m : Mod) (e : Nat) (f : EdState → EdState) : Mod := { m with eds := Table.upd EdState.reset m.eds e f }
/-- A collective engine. -/
def Mod.engine (m : Mod) (e : Nat) : Engine := Table.get Engine.reset m.engines e
/-- A collective engine replaced. -/
def Mod.setEngine (m : Mod) (e : Nat) (x : Engine) : Mod := { m with engines := Table.set Engine.reset m.engines e x }
/-- A collective engine changed. -/
def Mod.updEngine (m : Mod) (e : Nat) (f : Engine → Engine) : Mod := m.setEngine e (f (m.engine e))

/-- EDG_NODE_ID of an ED (R269). -/
def Mod.nodeReg (m : Mod) (ed : Nat) : Word := m.reg (edSite ed) 0x0000 0
/-- The module's node ID as an ED holds it; none while it is not assigned (R239). -/
def Mod.nodeId (m : Mod) (ed : Nat) : Option Nat := if bit (m.nodeReg ed) 24 then some (bits (m.nodeReg ed) 23 0) else none
/-- EDG_SECTOR_PKEY of a sector (R269). -/
def Mod.pkeyReg (m : Mod) (ed sector : Nat) : Word := m.reg (edSite ed) (0x100 + sector * 8) 0
/-- HOP_INIT (R243, R269). -/
def Mod.hopInit (m : Mod) (ed : Nat) : Nat := bits (m.reg (edSite ed) 0x0008 0x0000001400FA03FF#64) 9 0

/-! ## Sending (R242 to R244, R248 to R250) -/

/-- The header of a packet of the module's own (R244). -/
def mkPkt (dst src hops : Nat) (last : Bool) (kind seq gen pkey dstAgent addr chan ackSeq srcAgent red bookId : Nat)
    (payload : List Byte) : TPkt :=
  { w0 := pack [(0, 24, dst), (24, 24, src), (48, 10, hops), (59, 1, flag last), (60, 4, kind)]
    w1 := pack [(0, 32, seq), (32, 8, gen), (40, 16, pkey), (56, 7, dstAgent)]
    w2 := pack [(0, 56, addr), (56, 8, chan)]
    w3 := pack [(0, 32, ackSeq), (32, 7, srcAgent), (40, 3, red), (44, 16, bookId)]
    payload := payload }

/-- A packet of the module's own enters an ED for its lookup. -/
def Mod.enter (m : Mod) (ed vc : Nat) (sector : Option SectorId) (t : TPkt) : Mod :=
  { m with inbox := m.inbox ++ [{ ed := ed, port := none, vc := vc, sector := sector, pkt := t }] }

/-- The generation tag of a sender: an engine's, or the Keeper's 0 (R244, log entry 16). -/
def Mod.agentGen (m : Mod) (agent : Nat) : BitVec 8 := if agent < 64 then (m.engine agent).gen else 0

/-- The ED that an agent's packets enter. -/
def agentEd (agent : Nat) : Nat := if agent < 64 then agent / 16 else 0

/-- SRC of an agent's packets (R244). -/
def Mod.agentSrc (m : Mod) (agent : Nat) : Nat := (m.nodeId (agentEd agent)).getD 0

/-- The flow of a sender to a destination, under the node ID and the generation it now has (R248). -/
def Mod.txFlow (m : Mod) (agent dst dstAgent : Nat) : TxFlow :=
  (m.txFlows.find? (fun f => f.src == m.agentSrc agent && f.agent == agent && f.dst == dst && f.dstAgent == dstAgent &&
      f.gen == m.agentGen agent)).getD
    { src := m.agentSrc agent, agent := agent, dst := dst, dstAgent := dstAgent, gen := m.agentGen agent, next := 0, unacked := [], backlog := [] }

/-- A flow of a sender replaced; flows of an older generation are gone (R248). -/
def Mod.setTxFlow (m : Mod) (f : TxFlow) : Mod :=
  { m with txFlows := f :: m.txFlows.filter (fun g => !(g.src == f.src && g.agent == f.agent && g.dst == f.dst && g.dstAgent == f.dstAgent)) }

/-- The flow of a sender that holds a packet of a SEQ unacknowledged: the one it sends in now, or one under a node ID it had before. -/
def Mod.flowWith (m : Mod) (agent dst dstAgent seq : Nat) : TxFlow :=
  let f := m.txFlow agent dst dstAgent
  let has := fun (g : TxFlow) => g.unacked.any (fun u => u.seq == seq)
  if has f then f
  else (m.txFlows.find? (fun g => g.agent == agent && g.dst == dst && g.dstAgent == dstAgent && g.gen == m.agentGen agent && has g)).getD f

/-- A packet of a transfer is unacknowledged in some flow of its sender. -/
def Mod.transferOpen (m : Mod) (agent dst dstAgent num : Nat) : Bool :=
  m.txFlows.any (fun f => f.agent == agent && f.dst == dst && f.dstAgent == dstAgent && f.gen == m.agentGen agent &&
    f.unacked.any (fun u => u.transfer == num))

/-- A packet sent in its flow: numbered, remembered, and entered at the ED. -/
def Mod.sendFlow (m : Mod) (agent dst dstAgent vc : Nat) (sector : Option SectorId) (transfer index : Nat)
    (build : (seq : Nat) → (gen : Nat) → TPkt) (keep : Bool) : Mod :=
  let f := m.txFlow agent dst dstAgent
  let t := build f.next f.gen.toNat
  let kept : TPkt := if keep then t else { t with payload := [] }
  (m.setTxFlow { f with next := (f.next + 1) % 2 ^ 32,
                        unacked := f.unacked ++ [{ seq := f.next, transfer := transfer, index := index, pkt := kept }] }).enter
    (agentEd agent) vc sector t

/-! ## The Keeper's messages (R406) -/

/-- A MGMT message of the Keeper leaves in its flow. -/
def Mod.keeperPut (m : Mod) (dst : Nat) (ws : List Word) : Mod :=
  m.sendFlow 64 dst 64 0 none 0 0 (fun seq gen =>
    mkPkt dst ((m.nodeId 0).getD 0) (m.hopInit 0) true 5 seq gen 0 64 0 0 0 64 0 0 (ws.flatMap wordBytes)) true

/-- A MGMT message that the Keeper sends to another module under R248 to R250: its words, and the SEQ it takes. Behind 256
unacknowledged packets it waits (R248). -/
def Mod.keeperSend (m : Mod) (dst : Nat) (ws : List Word) : Mod × Nat :=
  let f := m.txFlow 64 dst 64
  (if f.unacked.length < 256 && f.backlog.isEmpty then m.keeperPut dst ws else m.setTxFlow { f with backlog := f.backlog ++ [ws] },
   (f.next + f.backlog.length) % 2 ^ 32)

/-- Messages that waited leave while the flow has room. -/
def Mod.keeperPump (m : Mod) (dst : Nat) : Nat → Mod
  | 0 => m
  | n + 1 =>
    let f := m.txFlow 64 dst 64
    match f.backlog with
    | ws :: rest =>
      if f.unacked.length < 256 then Mod.keeperPump ((m.setTxFlow { f with backlog := rest }).keeperPut dst ws) dst n else m
    | [] => m

end Sys2Proof.Machine
end

