-- ==== Sys2Proof/Machine/Flags.lean ====
section
/-!
DEFINITION. Number formats (R106 to R111), stochastic rounding (R118, R120), the canonical pairwise order (R121), and the
functions of R159 within their bounds. The engines raise no flags (R112).
-/
namespace Sys2Proof.Machine
open Sys2Proof

/-- A floating-point format: exponent bits and fraction bits (R106). -/
structure Fmt where
  eb : Nat
  fb : Nat
  deriving DecidableEq, Repr

/-- FP32. -/
def fp32 : Fmt := { eb := 8, fb := 23 }
/-- BF16. -/
def bf16 : Fmt := { eb := 8, fb := 7 }
/-- FP16. -/
def fp16 : Fmt := { eb := 5, fb := 10 }

/-- An operand or an exact result: a NaN, an infinity, or a signed magnitude mant × 2^exp. -/
inductive Fp where
  | nan
  | inf (neg : Bool)
  | fin (neg : Bool) (mant : Nat) (exp : Int)
  deriving DecidableEq, Repr

/-- The bias. -/
def Fmt.bias (f : Fmt) : Nat := 2 ^ (f.eb - 1) - 1
/-- The canonical NaN (R106). -/
def Fmt.nanBits (f : Fmt) : Nat := (2 ^ f.eb - 1) * 2 ^ f.fb + 2 ^ (f.fb - 1)
/-- An infinity. -/
def Fmt.infBits (f : Fmt) (neg : Bool) : Nat := flag neg * 2 ^ (f.eb + f.fb) + (2 ^ f.eb - 1) * 2 ^ f.fb
/-- A zero. -/
def Fmt.zeroBits (f : Fmt) (neg : Bool) : Nat := flag neg * 2 ^ (f.eb + f.fb)

/-- An operand as the units read it: a subnormal is a zero of its sign (R107). -/
def Fmt.read (f : Fmt) (x : Nat) : Fp :=
  let neg := x / 2 ^ (f.eb + f.fb) % 2 = 1
  let e := x / 2 ^ f.fb % 2 ^ f.eb
  let fr := x % 2 ^ f.fb
  if e = 2 ^ f.eb - 1 then (if fr = 0 then .inf neg else .nan)
  else if e = 0 then .fin neg 0 0
  else .fin neg (2 ^ f.fb + fr) ((e : Int) - f.bias - f.fb)

/-- Rounding to nearest, ties to even, at a format's precision with the exponent unbounded below: the mantissa of fb + 1 bits
and its exponent (R108 step 2). -/
def Fmt.roundMant (f : Fmt) (mant : Nat) (exp : Int) : Nat × Int :=
  let n := Nat.log2 mant + 1
  if n ≤ f.fb + 1 then (mant <<< (f.fb + 1 - n), exp - ((f.fb + 1 - n : Nat) : Int))
  else
    let sh := n - (f.fb + 1)
    let q := mant >>> sh
    let r := mant % 2 ^ sh
    let q := if r > 2 ^ (sh - 1) || (r = 2 ^ (sh - 1) && q % 2 = 1) then q + 1 else q
    if q = 2 ^ (f.fb + 1) then (2 ^ f.fb, exp + (sh : Int) + 1) else (q, exp + (sh : Int))

/-- A result placed in its destination (R108, R110). -/
def Fmt.write (f : Fmt) (x : Fp) : Nat :=
  match x with
  | .nan => f.nanBits
  | .inf neg => f.infBits neg
  | .fin neg mant exp =>
    if mant = 0 then f.zeroBits neg
    else
      let r := f.roundMant mant exp
      let e : Int := r.2 + (f.fb : Int) + (f.bias : Int)
      if e ≥ (2 ^ f.eb - 1 : Nat) then f.infBits neg
      else if e ≤ 0 then f.zeroBits neg
      else flag neg * 2 ^ (f.eb + f.fb) + e.toNat * 2 ^ f.fb + (r.1 - 2 ^ f.fb)

/-- A signed mantissa as an operand; an exact zero is +0 (R109). -/
def Fp.ofInt (v : Int) (exp : Int) : Fp := .fin (v < 0) v.natAbs exp

/-- The signed mantissa of a magnitude at a lower exponent. -/
def alignTo (neg : Bool) (mant : Nat) (exp low : Int) : Int :=
  let v : Int := (mant <<< (exp - low).toNat : Nat)
  if neg then -v else v

/-- The exact sum (R108 to R110). -/
def Fp.add (a b : Fp) : Fp :=
  match a, b with
  | .nan, _ => .nan
  | _, .nan => .nan
  | .inf s, .inf t => if s = t then .inf s else .nan
  | .inf s, _ => .inf s
  | _, .inf t => .inf t
  | .fin s x e, .fin t y g =>
    if x = 0 ∧ y = 0 then (if s = t then .fin s 0 0 else .fin false 0 0)
    else
      let low := min e g
      Fp.ofInt (alignTo s x e low + alignTo t y g low) low

/-- The exact product (R108 to R110). -/
def Fp.mul (a b : Fp) : Fp :=
  match a, b with
  | .nan, _ => .nan
  | _, .nan => .nan
  | .inf s, .inf t => .inf (s != t)
  | .inf s, .fin t y _ => if y = 0 then .nan else .inf (s != t)
  | .fin s x _, .inf t => if x = 0 then .nan else .inf (s != t)
  | .fin s x e, .fin t y g => .fin (s != t) (x * y) (e + g)

/-- The sign flipped. -/
def Fp.neg : Fp → Fp
  | .nan => .nan
  | .inf s => .inf (!s)
  | .fin s m e => .fin (!s) m e

/-- The sign cleared. -/
def Fp.abs : Fp → Fp
  | .nan => .nan
  | .inf _ => .inf false
  | .fin _ m e => .fin false m e

/-- −1, 0 or 1 as a is below, equal to or above b; none for a NaN. Zeros are equal (R111). -/
def Fp.cmp (a b : Fp) : Option Int :=
  match a, b with
  | .nan, _ => none
  | _, .nan => none
  | .inf s, .inf t => some (if s = t then 0 else if s then -1 else 1)
  | .inf s, _ => some (if s then -1 else 1)
  | _, .inf t => some (if t then 1 else -1)
  | .fin s x e, .fin t y g =>
    let low := min e g
    let d := alignTo s x e low - alignTo t y g low
    some (if d < 0 then -1 else if d = 0 then 0 else 1)

/-- The sign bit. -/
def Fp.isNeg : Fp → Bool
  | .nan => false
  | .inf s => s
  | .fin s _ _ => s

/-- Maximum: a NaN if either is one; −0 below +0 (R111). -/
def Fp.max (a b : Fp) : Fp :=
  match Fp.cmp a b with
  | none => .nan
  | some d => if d < 0 then b else if d = 0 then (if a.isNeg then b else a) else a

/-- Minimum: a NaN if either is one; −0 below +0 (R111). -/
def Fp.min (a b : Fp) : Fp :=
  match Fp.cmp a b with
  | none => .nan
  | some d => if d < 0 then a else if d = 0 then (if a.isNeg then a else b) else b

/-! ## Operations on bits -/

/-- A two-operand operation in a format, rounded once. -/
def Fmt.op2 (f : Fmt) (g : Fp → Fp → Fp) (a b : Nat) : Nat := f.write (g (f.read a) (f.read b))
/-- Addition. -/
def Fmt.add (f : Fmt) (a b : Nat) : Nat := f.op2 Fp.add a b
/-- Subtraction. -/
def Fmt.sub (f : Fmt) (a b : Nat) : Nat := f.op2 (fun x y => x.add y.neg) a b
/-- Multiplication. -/
def Fmt.mul (f : Fmt) (a b : Nat) : Nat := f.op2 Fp.mul a b
/-- a × b + c, rounded once. -/
def Fmt.fma (f : Fmt) (a b c : Nat) : Nat := f.write (((f.read a).mul (f.read b)).add (f.read c))
/-- Maximum. -/
def Fmt.max (f : Fmt) (a b : Nat) : Nat := f.op2 Fp.max a b
/-- Minimum. -/
def Fmt.min (f : Fmt) (a b : Nat) : Nat := f.op2 Fp.min a b

/-- FP32 to another format, or back: widening is exact (R104, R108, R139). -/
def convert (src dst : Fmt) (x : Nat) : Nat := dst.write (src.read x)

/-- FP32 addition on words. -/
def fadd (a b : Half) : Half := BitVec.ofNat 32 (fp32.add a.toNat b.toNat)

/-! ## Stochastic rounding -/

/-- A stream's next state (R118). -/
def srNext (x : Word) : Word :=
  let x := x ^^^ (x <<< 13)
  let x := x ^^^ (x >>> 7)
  x ^^^ (x <<< 17)

/-- The draw of d bits from a state (R118). -/
def srDraw (x : Word) (d : Nat) : Nat := x.toNat >>> (64 - d)

/-- A stochastic conversion of FP32 bits to BF16 or FP16, with the state just drawn (R120). -/
def srConvert (half : Bool) (state : Word) (x : Nat) : Nat :=
  let f := if half then fp16 else bf16
  match fp32.read x with
  | .nan => f.nanBits
  | .inf neg => f.infBits neg
  | .fin neg mant _ =>
    let x31 := if mant = 0 then 0 else x % 2 ^ 31
    let sign := flag neg * 2 ^ 15
    let d := if half then 13 else 16
    let u := x31 + srDraw state d
    if half then
      let e : Int := (u / 2 ^ 23 : Nat) - 127
      if e > 15 then f.infBits neg else if e < -14 then f.zeroBits neg
      else sign + (e + 15).toNat * 2 ^ 10 + u / 2 ^ 13 % 2 ^ 10
    else if u ≥ 0x7F800000 then f.infBits neg
    else if u / 2 ^ 23 = 0 then f.zeroBits neg
    else sign + u / 2 ^ 16

/-! ## The canonical pairwise order (R121) -/

/-- The largest power of two below n, for n of at least 2. -/
def powBelow (n : Nat) : Nat := 2 ^ Nat.log2 (n - 1)

/-- Terms combined in the canonical pairwise order; fuel is at least the number of terms. -/
def pairwise {α : Type} (op : α → α → α) (zero : α) : Nat → List α → α
  | _, [] => zero
  | _, [x] => x
  | 0, x :: _ => x
  | n + 1, xs => op (pairwise op zero n (xs.take (powBelow xs.length))) (pairwise op zero n (xs.drop (powBelow xs.length)))

/-- The canonical pairwise sum of FP32 bits. -/
def pairSum (xs : List Half) : Half := pairwise fadd 0 xs.length xs

/-! ## Functions (R159 to R161) -/

/-- Fixed-point numbers with 220 fraction bits. -/
def fixOne : Int := (2 ^ 220 : Nat)
/-- Product. -/
def fixMul (a b : Int) : Int := a * b / fixOne
/-- Quotient. -/
def fixDiv (a b : Int) : Int := if b = 0 then 0 else a * fixOne / b

/-- The sum of a power series by its terms' ratio x / k-th divisor: term, running sum, k. -/
def series (x : Int) (divisor : Nat → Int) : Nat → Nat → Int → Int → Int
  | 0, _, _, acc => acc
  | n + 1, k, term, acc =>
    let t := fixMul term x / divisor k
    series x divisor n (k + 1) t (acc + t)

/-- e^x for |x| of a few units. -/
def fixExp (x : Int) : Int := series x (fun k => (k : Int)) 90 1 fixOne fixOne

/-- arctanh z for |z| at most 1/3: the sum of z^(2k+1) / (2k+1). -/
def fixAtanh (z : Int) : Int :=
  ((List.range 80).foldl (fun (s : Int × Int) (k : Nat) =>
    (s.1 + s.2 / (2 * (k : Int) + 1), fixMul (fixMul s.2 z) z)) (0, z)).1

/-- The natural logarithm of m in [1, 2]. -/
def fixLn (m : Int) : Int := 2 * fixAtanh (fixDiv (m - fixOne) (m + fixOne))

/-- ln 2. -/
def fixLn2 : Int := fixLn (2 * fixOne)

/-- arctan (1 / n). -/
def fixAtanInv (n : Nat) : Int :=
  ((List.range 180).foldl (fun (s : Int × Int) (k : Nat) =>
    (s.1 + (if k % 2 = 0 then 1 else -1) * (s.2 / (2 * (k : Int) + 1)), s.2 / ((n * n : Nat) : Int))) (0, fixOne / (n : Int))).1

/-- π, by Machin's formula. -/
def fixPi : Int := 4 * (4 * fixAtanInv 5 - fixAtanInv 239)

/-- sin y for |y| at most π. -/
def fixSin (y : Int) : Int := series (-(fixMul y y)) (fun k => (2 * (k : Int)) * (2 * (k : Int) + 1)) 70 1 y y

/-- cos y for |y| at most π. -/
def fixCos (y : Int) : Int := series (-(fixMul y y)) (fun k => (2 * (k : Int) - 1) * (2 * (k : Int))) 70 1 fixOne fixOne

/-- A magnitude as a fixed-point number, bits below 2^−220 dropped. -/
def fixOf (neg : Bool) (mant : Nat) (exp : Int) : Int :=
  let v : Int := if exp + 220 ≥ 0 then (mant <<< (exp + 220).toNat : Nat) else (mant >>> (-(exp + 220)).toNat : Nat)
  if neg then -v else v

/-- 2^x for a fixed-point x, as a mantissa with 220 fraction bits in [1, 2) and a power of two. -/
def fixExp2 (x : Int) : Int × Int := (fixExp (fixMul (x % fixOne) fixLn2), x / fixOne)

/-- e^x as a mantissa and a power of two. -/
def fixExpE (x : Int) : Int × Int := fixExp2 (fixDiv x fixLn2)

/-- e^(−x) for x of at least 0, fixed point. -/
def fixExpNeg (x : Int) : Int :=
  let r := fixExpE (-x)
  r.1 / (2 ^ (-r.2).toNat : Nat)

/-- tanh y, fixed point. -/
def fixTanh (y : Int) : Int :=
  let e := fixExpNeg (2 * (y.natAbs : Int))
  let t := fixDiv (fixOne - e) (fixOne + e)
  if y < 0 then -t else t

/-- 1 / (1 + e^(−y)), fixed point. -/
def fixSigmoid (y : Int) : Int :=
  let e := fixExpNeg (y.natAbs : Int)
  if y < 0 then fixDiv e (fixOne + e) else fixDiv fixOne (fixOne + e)

/-- The unit in the last place of an FP32 result of a magnitude, as a power of two. -/
def ulpExp (mant : Nat) (exp : Int) : Int := (fp32.roundMant mant exp).2

/-- The functions of the vector class and the chains (R137, R154). -/
inductive Func where
  | exp2 | log2 | rcp | rsqrt | sqrt | sinpi | cospi | tanh | sigmoid | silu | gelu
  deriving DecidableEq, Repr

/-- A number of the function, for its free positions. -/
def Func.num : Func → Nat
  | .exp2 => 0 | .log2 => 1 | .rcp => 2 | .rsqrt => 3 | .sqrt => 4 | .sinpi => 5 | .cospi => 6 | .tanh => 7
  | .sigmoid => 8 | .silu => 9 | .gelu => 10

/-- A result within a bound of an exact value v × 2^e: the exact value moved by a free position within the bound and rounded,
or the exact value rounded where the rounding leaves the bound. ulps is the bound in units of the result's last place,
absExp the exponent of an absolute bound, which holds in its place where R159 gives one; SILU and GELU take the larger of the
two (log entry 7). -/
def within (fn : Func) (x : Half) (v e : Int) (ulps : Nat) (absExp : Option Int) : Nat :=
  let low := min (min e (ulpExp v.natAbs e - 30)) (absExp.elim e (· - 30))
  let s := fun (a : Int) (b : Int) => a * ((2 ^ (b - low).toNat : Nat) : Int)
  let exact := s v e
  let relative := s ulps (ulpExp v.natAbs e)
  let bound := match absExp with
    | none => relative
    | some a => if fn == .silu || fn == .gelu then max relative (s 1 a) else s 1 a
  let p : Int := (Config.pick fn.num x % 33554433 : Nat) - 16777216
  let y := fp32.write (Fp.ofInt (exact + bound * p / 16777216) low)
  let near : Bool := match fp32.read y with
    | .fin t my ey =>
      let l := min ey low
      decide (((alignTo t my ey l - exact * ((2 ^ (low - l).toNat : Nat) : Int)).natAbs : Int) ≤
        bound * ((2 ^ (low - l).toNat : Nat) : Int))
    | _ => false
  if near then y else fp32.write (Fp.ofInt v e)

/-- The integer square root, by Newton's steps from above. -/
def isqrtStep (n : Nat) : Nat → Nat → Nat
  | 0, x => x
  | k + 1, x => let y := (x + n / x) / 2
                if y < x then isqrtStep n k y else x

/-- The largest r with r × r at most n. -/
def isqrt (n : Nat) : Nat := if n = 0 then 0 else isqrtStep n 300 (2 ^ (Nat.log2 n / 2 + 1))

/-- The square root of a magnitude, enough bits and a last bit that tells an inexact root, so that rounding it is correct. -/
def sqrtMant (mant : Nat) (exp : Int) : Nat × Int :=
  let sh := if (exp - 120) % 2 = 0 then 120 else 121
  let n := mant <<< sh
  let r := isqrt n
  (2 * r + (if r * r = n then 0 else 1), (exp - (sh : Int)) / 2 - 1)

/-- A finite magnitude is an integer; its parity, true for odd. -/
def integerParity (mant : Nat) (exp : Int) : Option Bool :=
  if exp ≥ 1 then some false
  else
    let k := (-exp).toNat
    if mant % 2 ^ k = 0 then some (mant / 2 ^ k % 2 = 1) else none

/-- x mod 2, in (−1, 1], fixed point: the magnitude reduced exactly first. -/
def reduce2 (neg : Bool) (mant : Nat) (exp : Int) : Int :=
  let v := fixOf neg (if exp ≥ 1 then 0 else mant) exp
  let r := v % (2 * fixOne)
  if r > fixOne then r - 2 * fixOne else r

/-- The constant 1 as FP32 bits. -/
def oneBits : Nat := 0x3F800000

/-- A function of a finite nonzero operand (R159, R160). LOG2 of 1 is an exact 0, of which R159 and R160 give no sign: the model gives +0
(DESIGN CHOICE, log entry 128). -/
def Func.finite (fn : Func) (x : Half) (neg : Bool) (mant : Nat) (exp : Int) : Nat :=
  let v := fixOf neg mant exp
  match fn with
  | .exp2 =>
    match integerParity mant exp with
    | some _ =>
      let n : Int := if neg then -(fixOf false mant exp / fixOne) else fixOf false mant exp / fixOne
      fp32.write (.fin false 1 (if n > 1000 then 1000 else if n < -1000 then -1000 else n))
    | none => let r := fixExp2 v
              within fn x r.1 (r.2 - 220) 1 none
  | .log2 =>
    if neg then fp32.nanBits
    else
      let n := Nat.log2 mant
      let m : Int := fixOf false mant (-(n : Int))
      let r := fixDiv (fixLn m) fixLn2 + (exp + (n : Int)) * fixOne
      let e := exp + (n : Int)
      let small := e = -1 || e = 0 || (e = 1 && mant = 2 ^ n)
      if r = 0 then (if m = fixOne then fp32.zeroBits false else within fn x r (-220) 1 (some (-22)))
      else within fn x r (-220) 1 (if small then some (-22) else none)
  | .rcp =>
    let q : Int := ((2 ^ 200 / mant : Nat) : Int)
    within fn x (if neg then -q else q) (-exp - 200) 1 none
  | .rsqrt =>
    if neg then fp32.nanBits
    else
      let r := sqrtMant mant exp
      within fn x ((2 ^ 260 / r.1 : Nat) : Int) (-r.2 - 260) 1 none
  | .sqrt =>
    if neg then fp32.nanBits
    else
      let r := sqrtMant mant exp
      fp32.write (.fin false r.1 r.2)
  | .sinpi =>
    match integerParity mant exp with
    | some odd => fp32.zeroBits odd
    | none =>
      let r := reduce2 neg mant exp
      let y := fixSin (fixMul r fixPi)
      let near := r.natAbs < fixOne.natAbs / 1024 || (fixOne - (r.natAbs : Int)).natAbs < fixOne.natAbs / 1024
      within fn x y (-220) 2 (if near then some (-22) else none)
  | .cospi =>
    match integerParity mant exp with
    | some odd => if odd then oneBits + 2 ^ 31 else oneBits
    | none =>
      let r := reduce2 neg mant exp
      if r.natAbs * 2 = fixOne.natAbs then fp32.zeroBits false
      else
        let y := fixCos (fixMul r fixPi)
        let near := ((r.natAbs : Int) * 2 - fixOne).natAbs < fixOne.natAbs / 512
        within fn x y (-220) 2 (if near then some (-22) else none)
  | .tanh =>
    let small := v.natAbs < fixOne.natAbs / 8
    within fn x (fixTanh (if exp > 40 then (if neg then -200 * fixOne else 200 * fixOne) else v)) (-220) 2
      (if small then some (-24) else none)
  | .sigmoid =>
    let small := v.natAbs < fixOne.natAbs / 8
    within fn x (fixSigmoid (if exp > 40 then (if neg then -200 * fixOne else 200 * fixOne) else v)) (-220) 2
      (if small then some (-24) else none)
  | .silu =>
    let y := if exp > 40 then (if neg then 0 else v) else fixMul v (fixSigmoid v)
    if y = 0 then fp32.zeroBits neg else within fn x y (-220) 4 (some (-24))
  | .gelu =>
    let c1 : Int := 7978846 * fixOne / 10000000
    let c2 : Int := 44715 * fixOne / 1000000
    let y := if exp > 40 then (if neg then 0 else v)
      else fixMul v (fixOne + fixTanh (fixMul c1 (v + fixMul c2 (fixMul v (fixMul v v))))) / 2
    if y = 0 then fp32.zeroBits neg else within fn x y (-220) 4 (some (-24))

/-- A function of FP32 bits, with the special values of R160. -/
def Func.eval (fn : Func) (x : Half) : Half :=
  let one := oneBits
  BitVec.ofNat 32 <| match fp32.read x.toNat with
  | .nan => fp32.nanBits
  | .inf neg =>
    match fn with
    | .exp2 => if neg then 0 else fp32.infBits false
    | .log2 | .sqrt => if neg then fp32.nanBits else fp32.infBits false
    | .rcp => fp32.zeroBits neg
    | .rsqrt => if neg then fp32.nanBits else 0
    | .sinpi | .cospi => fp32.nanBits
    | .tanh => if neg then one + 2 ^ 31 else one
    | .sigmoid => if neg then 0 else one
    | .silu | .gelu => if neg then fp32.zeroBits true else fp32.infBits false
  | .fin neg mant exp =>
    if mant = 0 then
      match fn with
      | .exp2 | .cospi => one
      | .log2 => fp32.infBits true
      | .rcp | .rsqrt => fp32.infBits neg
      | .sqrt | .tanh | .sinpi | .silu | .gelu => fp32.zeroBits neg
      | .sigmoid => 0x3F000000
    else fn.finite x neg mant exp

end Sys2Proof.Machine
end

