-- ==== Sys2Proof/Machine/Home.lean ====
section
/-!
DEFINITION. The home of a line: which slice it is (R183), what it serves and where written lines rest (R184, R202, R206, R211, R212), the
snoop filter's entries (R207), what a non-caching access waits for (R180, R181, R203, R210), and the operations a home performs (R185, R186).
-/
namespace Sys2Proof.Machine
open Sys2Proof

/-! ## Homes -/

/-- The PD that is home to a tier-2 device's lines (R183). -/
def tier2Home (guest : Bool) (port : Nat) : Nat :=
  (if guest then [0, 1, 0, 2, 1, 1, 2, 2] else [0, 1, 0, 2, 1, 3, 2, 3]).getD port 0

/-- The memory-bearing die whose slice is a line's home (R183). -/
def Mod.homeOf (m : Mod) (line : Nat) : Nat :=
  let ch := lineChan line
  if ch < 2560 then ch / 128 else if ch < 2576 then pdMd ((ch - 2560) / 4) else pdMd (tier2Home m.part.guestSite (ch - 2576))

/-- SHC_WAYMASK of a sector at a slice (R184). -/
def Mod.wayMask (m : Mod) (md sector : Nat) : Word := m.reg (mdSite md) (0x03000100 + sector * 8) 0

/-- A sector owns the ways of its masks: a warm restart leaves the masks of a sector that it makes FREE or PRESERVED (R184, R334). -/
def Mod.holdsWays (m : Mod) (s : Nat) : Bool := (m.sector s).st != 0 && (m.sector s).st != 6

/-- The sector a line's data belong to (R177, R342). -/
def lineSector (line : Nat) : Option SectorId := if h : lineKey line / 4 < 16 then some ⟨lineKey line / 4, h⟩ else none

/-- A line of memory that agents may hold: not of a burst buffer, of a control block, or behind an aperture (R198, R268, R317). -/
def Mod.cacheable (m : Mod) (line : Nat) : Bool := lineChan line < 2600 && !m.outside line

/-- A line has an open transaction (R203). -/
def Mod.txnOn (m : Mod) (line : Nat) : Option HomeTxn := Table.get none (m.slice (m.homeOf line)).txns line

/-- A line's transaction opened, changed or closed. -/
def Mod.setTxn (m : Mod) (line : Nat) (t : Option HomeTxn) : Mod :=
  let md := m.homeOf line
  m.setSlice md { m.slice md with txns := Table.set none (m.slice md).txns line t }

/-! ## The home's view of a line -/

/-- A caching agent's copy of a line. -/
def cacheKey (agent line : Nat) : Nat := agent * 2 ^ 60 + line

/-- The listed copies of a line, with their agents. -/
def Mod.copies (m : Mod) (line : Nat) : List (Nat × CacheLine) :=
  (m.caches.filter (fun p => p.1 % 2 ^ 60 == line)).map (fun p => (p.1 / 2 ^ 60, p.2))

/-- A line is dirty against its home in this state (R200). -/
def LineSt.dirty (st : LineSt) : Bool := st == .modified || st == .owned

/-- Writebacks of a line whose data are still to be applied at the home, with their agents (R213). -/
def Mod.owedCopies (m : Mod) (line : Nat) : List (Nat × CacheLine) :=
  (m.evictions.filter (fun p => p.1 % 2 ^ 60 == line && p.2.owed)).map (fun p => (p.1 / 2 ^ 60, p.2.line))

/-- The copy that is dirty against the home (R200): in a cache, in a writeback on its way, or given up to the line's transaction. -/
def Mod.dirtyCopy (m : Mod) (line : Nat) : Option CacheLine :=
  match (m.copies line ++ m.owedCopies line).find? (fun p => p.2.st.dirty) with
  | some p => some p.2
  | none => (m.txnOn line).bind (·.carried)

/-- The line as its home slice holds it (R183). -/
def Mod.sliceLine (m : Mod) (line : Nat) : Option SliceLine := Table.get none (m.slice (m.homeOf line)).lines line

/-- A line's place in its slice. -/
def Mod.setSliceLine (m : Mod) (line : Nat) (l : Option SliceLine) : Mod :=
  let md := m.homeOf line
  m.setSlice md { m.slice md with lines := Table.set none (m.slice md).lines line l }

/-- A line lies in a footprint that a scrub has filled with zeros under the key's current contents (R352). -/
def Mod.zeroFilled (m : Mod) (line : Nat) : Bool :=
  m.zeros.any (fun z => z.key == lineKey line && z.epoch == Table.get 0 m.keyEpochs z.key && decide (z.lo ≤ lineOff line) &&
    decide (lineOff line < z.hi) && z.chans.contains (lineChan line))

/-- A byte as memory holds it: listed, or zero where a scrub has filled it, or undefined under the key's current contents (R176, R341, R352,
R458); of a burst buffer zero where nothing is listed; behind an aperture a free value of the moment (log entries 4, 27). -/
def Mod.dramByte (m : Mod) (cell : Nat) : Byte :=
  if m.outside (cell / 128) then Config.undefByte (2 ^ 64 + m.bt) cell
  else match Table.find m.dram cell with
  | some b => b
  | none =>
    let line := cell / 128
    if lineChan line ≥ 2600 || m.zeroFilled line then 0
    else Config.undefByte (2 ^ 65 + Table.get 0 m.keyEpochs (lineKey line)) cell

/-- A byte as the home serves it to a non-caching agent (R206): an agent's that is dirty, else the slice's, else memory's. -/
def Mod.homeByte (m : Mod) (cell : Nat) : Byte :=
  match m.dirtyCopy (cell / 128) with
  | some c => c.data.getD (cell % 128) 0
  | none => (((m.sliceLine (cell / 128)).bind (fun l => Table.find l.cells (cell % 128))).getD (m.dramByte cell))

/-- The bytes of a line as the home holds them. -/
def Mod.lineBytes (m : Mod) (line : Nat) : List Byte := (List.range 128).map (fun i => m.homeByte (128 * line + i))

/-- A line comes from memory: neither its slice nor an owner answers for it (R205, R206). -/
def Mod.fromMemory (m : Mod) (line : Nat) : Bool :=
  (m.sliceLine line).isNone && (m.dirtyCopy line).isNone && !(m.copies line).any (fun p => p.2.st == .exclusive)

/-- The stack of a line is fenced (R385). -/
def Mod.lineFenced (m : Mod) (line : Nat) : Bool := lineChan line < 2560 && m.stackFenced (lineChan line / 32)

/-- The bytes that a partial write of a line merges with come from memory: no M or O holder has them, nor the slice (R206). -/
def Mod.atMemory (m : Mod) (line : Nat) : Bool := (m.sliceLine line).isNone && (m.dirtyCopy line).isNone

/-- The stack of a line lost it, and it has not been written in full since (R193). -/
def Mod.lostLine (m : Mod) (line : Nat) : Bool :=
  lineChan line < 2560 && (match (m.ctl (chanCtl (lineChan line)).1).lost with
    | some written => !written.contains line
    | none => false)

/-- A line is marked as poison, or comes from a stack that lost it (R193, R393). -/
def Mod.spoiled (m : Mod) (line : Nat) : Bool := m.poison.contains line || (m.fromMemory line && m.lostLine line)

/-- A line of a fenced stack that its slice does not hold, or holds without all its bytes, is answered unavailable (R385). -/
def Mod.unavailable (m : Mod) (line : Nat) : Bool :=
  m.lineFenced line && (m.fromMemory line ||
    (m.dirtyCopy line).isNone && (match m.sliceLine line with | some l => !l.filled && l.cells.length != 128 | none => false))

/-- A line reads as poison (R193, R385, R393). -/
def Mod.poisoned (m : Mod) (line : Nat) : Bool := m.spoiled line || m.unavailable line

/-! ## Token buckets (R180, R182) -/

/-- MEM_REG of a sector at a controller (R182). -/
def Mod.memReg (m : Mod) (ctl sector : Nat) : Word :=
  if ctl < 80 then m.reg (mdSite (ctl / 4)) (0x2000000 + ctl % 4 * 0x100000 + 0x100 + sector * 8) 0x400000
  else m.reg (pdSite ((ctl - 80) / 4)) (0x2400000 + (ctl - 80) % 4 * 0x100000 + 0x100 + sector * 8) 0x400000

/-- The depth of a bucket in bytes; BURST 0 acts as 1. -/
def Mod.bucketDepth (m : Mod) (ctl sector : Nat) : Nat := max 1 (bits (m.memReg ctl sector) 31 16) * 1024

/-- The content of a bucket in bytes. -/
def Mod.bucket (m : Mod) (ctl sector : Nat) : Nat :=
  min (m.bucketDepth ctl sector) ((Table.get none m.buckets (ctl * 16 + sector)).getD (m.bucketDepth ctl sector))

/-- A bucket's content set. -/
def Mod.setBucket (m : Mod) (ctl sector n : Nat) : Mod := { m with buckets := Table.set none m.buckets (ctl * 16 + sector) (some n) }

/-- A sector is regulated at a controller (R182). -/
def Mod.regulated (m : Mod) (ctl sector : Nat) : Bool := bit (m.memReg ctl sector) 32

/-- n bytes of a line go out through its controller, counted in its sector's bucket (R180). -/
def Mod.countBack (m : Mod) (line n : Nat) : Mod :=
  match lineSector line with
  | some s =>
    let k := (chanCtl (lineChan line)).1
    if lineChan line < 2576 && m.regulated k s then m.setBucket k s (m.bucket k s - n) else m
  | none => m

/-! ## Copies taken -/

/-- An LR window on the line is open in some core (R209, R210). -/
def Mod.windowOn (m : Mod) (line : Nat) : Bool := m.pdCores.any (fun p => p.2.window == some line)

/-- The agents' reservations on a line are gone, with their windows (R209). -/
def Mod.dropReservations (m : Mod) (line : Nat) : Mod :=
  { m with pdCores := Table.mapAll PdCore.reset m.pdCores (fun _ (c : PdCore) =>
             if c.reservation == some line then { c with reservation := none, window := none } else c) }

/-- Nothing of a line is held for its transaction. -/
def Mod.dropCarried (m : Mod) (line : Nat) : Mod :=
  match m.txnOn line with
  | some t => if t.carried.isSome then m.setTxn line (some { t with carried := none }) else m
  | none => m

/-- Every processor copy of a line is gone, and what writebacks on their way hold is used (R206, R213). An agent whose dirty copy is taken
may have sent its writeback just before: the home will acknowledge that one, so an eviction stands for it (log entry 113). -/
def Mod.dropCopies (m : Mod) (line : Nat) : Mod :=
  let taken := m.caches.filter (fun p => p.1 % 2 ^ 60 == line && p.2.st.dirty)
  let used := m.evictions.map (fun p => if p.1 % 2 ^ 60 == line then (p.1, { p.2 with owed := false }) else p)
  let m := (m.dropReservations line).dropCarried line
  { m with caches := m.caches.filter (fun p => p.1 % 2 ^ 60 != line)
           evictions := taken.foldl (fun t p => Table.put t p.1 { line := p.2, owed := false, arrived := false, acked := true }) used }

/-! ## Bytes that rest in memory (R176, R193, R342) -/

/-- The bytes of cells written at the home. A byte written under one key leaves the line's bytes under every other key
undefined (R176, R342). -/
def putCells (d : List Host.Cell) : List Host.Cell → List Host.Cell
  | [] => d
  | (c, b) :: rest =>
    putCells (if lineChan (c / 128) ≥ 2600 then Table.set 0 d c b else Table.put d c b) rest

/-- The bytes a line holds under other keys are gone. -/
def dropOtherKeys (d : List Host.Cell) (line : Nat) : List Host.Cell :=
  d.filter (fun p => !(lineChan (p.1 / 128) == lineChan line && lineOff (p.1 / 128) == lineOff line &&
    lineKey (p.1 / 128) != lineKey line))

/-- The lines that cells lie in, each once. -/
def linesOf (cells : List Nat) : List Nat := (cells.map (· / 128)).eraseDups

/-- A line written in full to memory is no longer lost (R193). -/
def Mod.noteWritten (m : Mod) (line : Nat) : Mod :=
  let k := (chanCtl (lineChan line)).1
  match (m.ctl k).lost with
  | some w => if lineChan line < 2560 && !w.contains line then m.setCtl k { m.ctl k with lost := some (line :: w) } else m
  | none => m

/-- Bytes put over others. -/
def mergeCells (old new : Table Byte) : Table Byte := new.foldl (fun t p => Table.put t p.1 p.2) old

/-- The 128 bytes of a line, by offset. -/
def wholeLine (data : List Byte) : Table Byte := (List.range 128).map (fun i => (i, data.getD i 0))

/-- The bytes that the slice holds of a line's place under other keys are gone. -/
def Mod.dropSliceKeys (m : Mod) (line : Nat) : Mod :=
  let md := m.homeOf line
  m.setSlice md { m.slice md with lines := (m.slice md).lines.filter (fun p =>
    !(lineChan p.1 == lineChan line && lineOff p.1 == lineOff line && lineKey p.1 != lineKey line)) }

/-- Bytes of a line written to memory; whether the line is written in full. -/
def Mod.toMemory (m : Mod) (line : Nat) (new : Table Byte) (full : Bool) : Mod :=
  let m : Mod := { m with dram := putCells (dropOtherKeys m.dram line) (new.map (fun p => (128 * line + p.1, p.2))) }
  if full then m.noteWritten line else m

/-- The bytes that a slice holds of a line and memory does not, by offset. -/
def SliceLine.dirtyBytes (l : SliceLine) : Table Byte := (List.range 128).filterMap (fun i => (Table.find l.cells i).map (fun b => (i, b)))

/-- A slice's line is written back through its controller and stays, clean (R180, R184). -/
def Mod.cleanLine (m : Mod) (line : Nat) : Mod :=
  match m.sliceLine line with
  | some l =>
    if l.cells.isEmpty then m
    else ((m.countBack line l.cells.length).toMemory line l.dirtyBytes (l.filled || l.cells.length == 128)).setSliceLine line (some { l with cells := [] })
  | none => m

/-- Lines of slices written back, all or those of a stack. -/
def Mod.cleanSlices (m : Mod) (f : Nat → Bool) : Mod :=
  ((m.slices.flatMap (fun p => p.2.lines.map (·.1))).filter f).foldl Mod.cleanLine m

/-- Whatever the module holds of some lines is gone, in memory, slices, agents, writebacks and transactions: what is read there next is
undefined (R458). -/
def Mod.forget (m : Mod) (gone : Nat → Bool) : Mod :=
  { m with
    dram := m.dram.filter (fun p => !gone (p.1 / 128))
    caches := m.caches.filter (fun p => !gone (p.1 % 2 ^ 60))
    evictions := m.evictions.map (fun p => if gone (p.1 % 2 ^ 60) then (p.1, { p.2 with owed := false }) else p)
    slices := Table.mapAll Slice.reset m.slices (fun _ (x : Slice) =>
      { x with lines := x.lines.filter (fun p => !gone p.1)
               txns := x.txns.map (fun p => (p.1, p.2.map (fun t => if gone p.1 then { t with carried := none } else t))) }) }

/-! ## Ways (R183, R184) -/

/-- The set of its slice that a line falls into. -/
def lineSet (line : Nat) : Nat := Config.sliceSet line % 65536

/-- The line that a way of a set holds. -/
def Slice.atWay (x : Slice) (set way : Nat) : Option (Nat × SliceLine) :=
  x.lines.findSome? (fun p => match p.2 with
    | some l => if lineSet p.1 == set && l.way == way then some (p.1, l) else none
    | none => none)

/-- A tree after the use of a way: every node on its path points away from it. -/
def plruTouch (tree way : Nat) : Nat :=
  (List.range 4).foldl (fun t k =>
    let node := 2 ^ k - 1 + way / 2 ^ (4 - k)
    let high := way / 2 ^ (3 - k) % 2 == 1
    if t.testBit node == !high then t else t ^^^ 2 ^ node) tree

/-- The way a tree points to, among those that may be used: the levels left, and the path so far. -/
def plruVictim (tree : Nat) (usable : Nat → Bool) : Nat → Nat → Nat
  | 0, path => path
  | k + 1, path =>
    let side := if tree.testBit (2 ^ (3 - k) - 1 + path) then 1 else 0
    let has := (List.range (2 ^ k)).any (fun i => usable ((2 * path + side) * 2 ^ k + i))
    plruVictim tree usable k (2 * path + if has then side else 1 - side)

/-- A slice's replacement tree of a line's set after the use of a way. -/
def Slice.touch (x : Slice) (line way : Nat) : Slice :=
  { x with plru := Table.set 0 x.plru (lineSet line) (plruTouch (Table.get 0 x.plru (lineSet line)) way) }

/-- The way in which a line may be allocated at its home: of its sector's ways that are not being cleaned, an empty one, the lowest, else the
one that tree pseudo-LRU points to; a line of a fenced stack that is dirty is not replaced (R184, R385). -/
def Mod.allocWay (m : Mod) (line : Nat) : Option Nat :=
  match lineSector line with
  | none => none
  | some s =>
    let x := m.slice (m.homeOf line)
    let ways := (List.range 16).filter (fun w =>
      (m.wayMask (m.homeOf line) s).getLsbD w && !x.cleaning.getLsbD w &&
        (match x.atWay (lineSet line) w with
         | some p => p.2.cells.isEmpty || !m.lineFenced p.1
         | none => true))
    match ways.find? (fun w => (x.atWay (lineSet line) w).isNone) with
    | some w => some w
    | none => if ways.isEmpty then none else some (plruVictim (Table.get 0 x.plru (lineSet line)) ways.contains 4 0)

/-- A way of a set is empty: the line it held is written back where it was dirty. -/
def Mod.emptyWay (m : Mod) (md set way : Nat) : Mod :=
  match (m.slice md).atWay set way with
  | some p => (m.cleanLine p.1).setSliceLine p.1 none
  | none => m

/-- Bytes of a line put in its slice, as most recently used, where the slice holds the line or a way of it may: none where no way
may. -/
def Mod.toSlice (m : Mod) (line : Nat) (new : Table Byte) : Option Mod :=
  match m.sliceLine line with
  | some l =>
    let m := m.setSliceLine line (some { l with cells := mergeCells l.cells new })
    some (m.setSlice (m.homeOf line) ((m.slice (m.homeOf line)).touch line l.way))
  | none =>
    match lineSector line, m.allocWay line with
    | some s, some w =>
      let m := m.emptyWay (m.homeOf line) (lineSet line) w
      let m := m.setSliceLine line (some { sector := s, way := w, cells := new, filled := !m.lineFenced line })
      some (m.setSlice (m.homeOf line) ((m.slice (m.homeOf line)).touch line w))
    | _, _ => none

/-- Bytes of a line come to rest at its home (R212, R385): in the slice where it holds the line, where the line is to be allocated and has a way,
or where its stack is fenced; else in memory. -/
def Mod.rest (m : Mod) (line : Nat) (new : Table Byte) (alloc : Bool) : Mod :=
  let m := m.dropSliceKeys line
  if m.cacheable line && (alloc || (m.sliceLine line).isSome || m.lineFenced line) then
    (m.toSlice line new).getD (m.toMemory line new (new.length == 128))
  else m.toMemory line new (new.length == 128)

/-- A processor's dirty line comes to rest at its home: in a way of its slice where there is one, else through its controller in memory, counted
there (R180, R184, R213). -/
def Mod.restBack (m : Mod) (line : Nat) (data : List Byte) : Mod :=
  let kept := m.cacheable line && ((m.sliceLine line).isSome || (m.allocWay line).isSome)
  (if kept then m else m.countBack line 128).rest line (wholeLine data) true

/-- Every processor copy of a line recalled: dirty data come to rest at the home, as those of a writeback do (R185, R206, R213). -/
def Mod.recall (m : Mod) (line : Nat) : Mod :=
  match m.dirtyCopy line with
  | some c => (m.dropCopies line).restBack line c.data
  | none => m.dropCopies line

/-! ## The snoop filter (R207) -/

/-- Some agent holds the line, or its eviction is not acknowledged, or its transaction is open, which may hand it from one agent to
another (R201, R207). -/
def Mod.heldByAgent (m : Mod) (line : Nat) : Bool :=
  m.caches.any (fun p => p.1 % 2 ^ 60 == line) || (m.txnOn line).isSome || m.evictions.any (fun p => p.1 % 2 ^ 60 == line && !p.2.acked)

/-- The entries of a slice's filter in the order they were made: one is freed when no agent holds its line any more. -/
def Mod.filterEntries (m : Mod) (md : Nat) : List FilterEntry := (m.slice md).filter.filter (fun e => m.heldByAgent e.line)

/-- The vector bits of a line's entry, 0 while its sharers are recorded exactly. -/
def Mod.filterGroups (m : Mod) (line : Nat) : Nat :=
  ((m.filterEntries (m.homeOf line)).find? (fun e => e.line == line)).elim 0 (·.groups)

/-- A line's entry with other vector bits. -/
def Mod.setGroups (m : Mod) (line groups : Nat) : Mod :=
  let md := m.homeOf line
  m.setSlice md { m.slice md with filter := (m.slice md).filter.map (fun e => if e.line == line then { e with groups := groups } else e) }

/-- The entry that a new one for a line takes the place of: the oldest of a full set. -/
def Mod.filterVictim (m : Mod) (line : Nat) : Option Nat :=
  let live := m.filterEntries (m.homeOf line)
  if live.any (fun e => e.line == line) then none
  else
    let same := live.filter (fun e => Config.filterSet e.line % 32768 == Config.filterSet line % 32768)
    if same.length ≥ 16 then same.head?.map (·.line) else none

/-- A line gets an entry in its home's filter before an agent takes it; in a full set the oldest entry is back-invalidated. -/
def Mod.filterAdd (m : Mod) (line : Nat) : Mod :=
  let md := m.homeOf line
  let victim := m.filterVictim line
  let m := match victim with
    | some old => m.recall old
    | none => m
  let live := m.filterEntries md
  let x := m.slice md
  m.setSlice md { x with
    filter := if live.any (fun e => e.line == line) then live else live ++ [{ line := line, groups := 0 }]
    backInval := if victim.isSome then satAdd x.backInval 1 0xFFFFFFFF else x.backInval }

/-! ## Injected memory errors (R393, R400) -/

/-- The error of a line at its controller: the die, the unit, the line's owner and the stack's generation tag (R396, R397). -/
def Mod.ctlFail (m : Mod) (k cls sev line pa detail : Nat) : Fail :=
  let site := if k < 80 then stackSite k else pdSite ((k - 80) / 4)
  { site := site, cls := cls, sev := sev, unit := 0x0200 + k % 4, code := 0, addr := pa, detail := detail
    sector := lineSector line
    injected := true }

/-- A read of a line finds the error injected for it: recorded, and an uncorrectable one poisons the line. Which device or symbol a
corrected one names is free. -/
def Mod.findError (m : Mod) (line : Nat) : Mod :=
  let k := (chanCtl (lineChan line)).1
  match (m.ctl k).inject.find? (fun x => x.1 == line) with
  | none => m
  | some x =>
    let m := m.setCtl k { m.ctl k with inject := (m.ctl k).inject.erase x
                                       injPoison := if x.2.2 && !m.poison.contains line then line :: (m.ctl k).injPoison else (m.ctl k).injPoison }
    if x.2.2 then ({ m with poison := if m.poison.contains line then m.poison else line :: m.poison } : Mod).record (m.ctlFail k 0x06 1 line x.2.1 0)
    else m.takeFree.2.record (m.ctlFail k 0x05 0 line x.2.1 (m.takeFree.1.toNat % 65536))

/-- Lines are read at their home: those that come from their channels meet what was injected there, and the slice's are used (R184). -/
def Mod.channelRead (m : Mod) (lines : List Nat) : Mod :=
  lines.foldl (fun (m : Mod) (l : Nat) =>
    match m.sliceLine l with
    | some x => m.setSlice (m.homeOf l) ((m.slice (m.homeOf l)).touch l x.way)
    | none => if lineChan l < 2576 && m.fromMemory l then m.findError l else m) m

/-! ## Write hints (R211, R212) -/

/-- A HINT_TARGET of an assigned encoding (R211). -/
def hintOk (h : Nat) : Bool :=
  let kind := h / 2 ^ 14 % 4
  let t := h % 2 ^ 14
  if kind = 0 then t == 0 else if kind = 1 then t < 20 else kind == 2 && t / 2 ^ 9 == 0 && t % 128 < 96

/-- The caching agent a KIND 0b10 hint names (R198, R211). -/
def hintAgent (h : Nat) : Nat := 96 * (h / 128 % 4) + h % 128

/-- The named core can take the line: it is of the sector that owns the line's region, is there, and runs (R212). -/
def Mod.hintCore (m : Mod) (line h : Nat) : Bool :=
  let c := m.pdCore (hintAgent h)
  (lineSector line).isSome && c.owner == lineSector line && c.running && !c.heldOut

/-- Whether an L2 can free a way for a line within 100 ns: an empty L2 can; of one that holds lines the spec does not give the sets, so
that it is a free value (R212; log entries 3, 24). -/
def Mod.l2Room (m : Mod) (agent : Nat) : Bool × Mod :=
  if (m.caches.any (fun p => p.1 / 2 ^ 60 == agent)) then (bit m.takeFree.1 0, m.takeFree.2) else (true, m)

/-- A line just written is installed in an agent's L2 in M; neither the slice nor memory holds it (R212). -/
def Mod.intoL2 (m : Mod) (agent line : Nat) (new : Table Byte) : Mod :=
  let data := (List.range 128).map (fun i => (Table.find new i).getD (m.homeByte (128 * line + i)))
  let m := (m.filterAdd line).setSliceLine line none
  { m with caches := Table.put m.caches (cacheKey agent line) { st := .modified, data := data }
           evictions := m.evictions.filter (fun p => !(p.1 == cacheKey agent line && p.2.acked && !p.2.arrived)) }

/-- The count of hints applied, or dropped, at a line's home (R208). -/
def Mod.countHint (m : Mod) (line : Nat) (applied : Bool) : Mod :=
  let md := m.homeOf line
  let x := m.slice md
  m.setSlice md (if applied then { x with hintApplied := satAdd x.hintApplied 1 0xFFFFFFFF }
    else { x with hintDropped := satAdd x.hintDropped 1 0xFFFFFFFF })

/-- A line of a fenced stack, of which the slice holds nothing and can hold nothing: a write of it waits (R385). -/
def Mod.wayless (m : Mod) (line : Nat) : Bool := m.lineFenced line && (m.sliceLine line).isNone && (m.allocWay line).isNone

/-- The filter entry that a line needs before an agent takes it is another line's, which has an open transaction or an LR window, or dirty data
that have to wait for a stack (R203, R207, R209, R385). -/
def Mod.victimBusy (m : Mod) (line : Nat) : Bool :=
  match m.filterVictim line with
  | some old => (m.txnOn old).isSome || m.windowOn old || ((m.dirtyCopy old).isSome && m.wayless old)
  | none => false

/-- Bytes of a line just written are placed as the hint says (R212). Where the entry that the line needs cannot be had, the line is not
installed (DESIGN CHOICE, log entry 118). -/
def Mod.placeHint (m : Mod) (line : Nat) (new : Table Byte) (h : Nat) (full : Bool) : Mod :=
  let kind := h / 2 ^ 14 % 4
  if kind = 0 then m.rest line new (!full)
  else if kind = 1 then
    if h % 2 ^ 14 == m.homeOf line then (m.countHint line true).rest line new true else (m.countHint line false).rest line new (!full)
  else if m.hintCore line h then
    let r := m.l2Room (hintAgent h)
    if r.1 && !m.victimBusy line then (r.2.countHint line true).intoL2 (hintAgent h) line new else (r.2.countHint line false).rest line new (!full)
  else (m.countHint line false).rest line new (!full)

/-! ## Writes of non-caching agents (R202, R206) -/

/-- Some lines are poison no more. -/
def Mod.unpoison (m : Mod) (which : Nat → Bool) : Mod :=
  { m with poison := m.poison.filter (fun l => !which l)
           controllers := Table.mapAll Controller.reset m.controllers (fun _ c =>
             if c.injPoison.any which then { c with injPoison := c.injPoison.filter (fun l => !which l) } else c) }

/-- Bytes of a line written at its home by a non-caching agent (R206): the bytes of a partial write are put over the line as it is, every
copy is invalidated, and the line is placed. A full line clears poison; a partial one keeps it (R393). -/
def Mod.writeLine (m : Mod) (line : Nat) (bytes : List (Nat × Byte)) (hint : Nat) : Mod :=
  let bytes := mergeCells [] bytes
  let full := bytes.length == 128
  if !m.cacheable line then m.toMemory line bytes full
  else if full then
    ((m.dropCopies line).unpoison (· == line)).placeHint line bytes hint true
  else
    let m := if m.atMemory line && lineChan line < 2576 then m.findError line else m.channelRead [line]
    let new := match m.dirtyCopy line with
      | some c => mergeCells (wholeLine c.data) bytes
      | none => bytes
    let bad := m.lostLine line && m.atMemory line && !m.poison.contains line
    let m := m.dropCopies line
    ({ m with poison := if bad then line :: m.poison else m.poison } : Mod).placeHint line new hint false

/-- How a byte of an aperture goes out: 0 and a configuration address, or 1 and a bus address (R318). -/
def Mod.busOf (m : Mod) (port off : Nat) : Nat × Nat :=
  let x := m.pciePort port
  let o := tierBase 2 + off - x.aptBase
  let bus := bits (m.reg (edSite (port / 2)) (0x4800018 + port % 2 * 0x100000) 0) 63 30 * 2 ^ 30
  if x.mode = 1 && o < 0x10000000 then (0, o)
  else if x.mode = 1 then (1, (bus + o - 0x10000000) % 2 ^ 64)
  else (1, (bus + o) % 2 ^ 64)

/-- The function whose requester ID a request to an address behind a port carries: an endpoint's, that of the sector whose region the
address lies in; else the port's own (R318). -/
def Mod.outFn (m : Mod) (port pa : Nat) : Nat :=
  if (m.pciePort port).mode = 2 then
    match m.entryAt pa with
    | some e => 1 + e.2.sector
    | none => 0
  else 0

/-- A configuration address of the root port itself, which no request leaves the module for (R318). -/
def rootPort (b : Nat × Nat) : Bool := b.1 == 0 && b.2 < 4096

/-- Bytes written behind apertures leave the module, line by line, under their function; those of the root port's own registers do not
(R318, log entry 120). -/
def Mod.writeOutside (m : Mod) (cells : List (Nat × Byte)) : Mod :=
  (linesOf (cells.map (·.1))).foldl (fun (m : Mod) (line : Nat) =>
    let l := cells.filter (fun p => p.1 / 128 == line)
    let port := lineChan line - 2576
    let b := m.busOf port (lineOff line + (l.map (·.1)).headD 0 % 128)
    if rootPort b then m
    else m.emit (.aperture port (m.outFn port (tierBase 2 + lineOff line)) b.1 b.2 0 l.length (some (l.map (·.2))))) m

/-- Bytes written to cells by a non-caching agent, under a hint. Bytes of control blocks are kept nowhere. -/
def Mod.writeHinted (m : Mod) (cells : List Nat) (bs : List Byte) (hint : Nat) : Mod :=
  let all := (cells.zip bs).filter (fun p => !blockLine (p.1 / 128))
  let m := m.writeOutside (all.filter (fun p => m.outside (p.1 / 128)))
  let here := all.filter (fun p => !m.outside (p.1 / 128))
  (linesOf (here.map (·.1))).foldl (fun (m : Mod) (l : Nat) =>
    m.writeLine l ((here.filter (fun p => p.1 / 128 == l)).map (fun p => (p.1 % 128, p.2))) hint) m

/-- A burst's beat written at its home: the bytes that it enables (R389). -/
def Mod.writeBeat (m : Mod) (b : BurstBeat) : Mod :=
  let kept := (List.range 128).filter (fun i => b.enables.getLsbD i)
  m.writeHinted (kept.map (fun i => 128 * b.line + i)) (kept.map (fun i => b.data.getD i 0)) 0

/-- n bytes read by a non-caching agent of a sector (R171, R206, R393). -/
def Mod.readPhys (m : Mod) (sector : Option SectorId) (pa n : Nat) : Except AccErr (List Byte) :=
  match m.decodeN sector pa n with
  | .error e => .error e
  | .ok cells => if (linesOf cells).any m.poisoned then .error .poison else .ok (cells.map m.homeByte)

/-- A word read by a non-caching agent. -/
def Mod.readPhysNum (m : Mod) (sector : Option SectorId) (pa n : Nat) : Except AccErr Nat :=
  match m.readPhys sector pa n with
  | .error e => .error e
  | .ok bs => .ok (numOf bs)

/-! ## Priority streams (R181, R182) -/

/-- The cap of a priority stream at a channel's controller (R181, R182). -/
def Mod.prioCap (m : Mod) (ch sector stream : Nat) : Nat :=
  let off := 0x200 + sector * 0x20 + stream * 8
  let w := if ch < 2560 then m.reg (mdSite (ch / 128)) (0x2000000 + ch / 32 % 4 * 0x100000 + off) 0
           else m.reg (pdSite ((ch - 2560) / 4)) (0x2400000 + (ch - 2560) % 4 * 0x100000 + off) 0
  min 25 (bits w 4 0)

/-- The bytes a channel carries in 1 µs at its peak rate (R166, R181, R313). -/
def Mod.peakBytes (m : Mod) (ch : Nat) : Nat := if 2560 ≤ ch && m.part.dimmSlow.getLsbD ((ch - 2560) / 4) then 70400 else 102400

/-- A read of n bytes of a channel through a priority stream that its caps still hold in this 1 µs of BT, counted (R181). -/
def Mod.prioRead (m : Mod) (ch sector stream n : Nat) : Option Mod :=
  let k := (chanCtl ch).1
  let c := m.ctl k
  let used := if c.prioWindow = m.bt / 1000 then c.prioUsed else []
  let key := (chanCtl ch).2 * 64 + sector * 4 + stream
  let all := ((used.filter (fun p => p.1 / 64 == (chanCtl ch).2)).map (·.2)).sum
  if 100 * (Table.get 0 used key + n) ≤ m.prioCap ch sector stream * m.peakBytes ch && 4 * (all + n) ≤ m.peakBytes ch then
    some (m.setCtl k { c with prioWindow := m.bt / 1000, prioUsed := Table.set 0 used key (Table.get 0 used key + n) })
  else none

/-- The stream that a read of an address takes: its entry's PRIO, 0 for none (R181). -/
def Mod.prioAt (m : Mod) (pa : Nat) : Nat :=
  match m.tierOf pa, m.entryAt pa with
  | some _, some (_, r) => r.prio
  | _, _ => 0

/-- The bytes of cells that go through each controller: those of lines that neither a slice nor an owner answers for, but for priority reads
within their caps, which are counted there. -/
def Mod.throughCtl (m : Mod) (s : SectorId) (prio : Nat) (cells : List Nat) : Mod × List (Nat × Nat) :=
  ((linesOf cells).filter (fun l => lineChan l < 2576 && m.fromMemory l)).foldl (fun (x : Mod × List (Nat × Nat)) (l : Nat) =>
    let n := (cells.filter (· / 128 == l)).length
    let ch := lineChan l
    match (if prio = 0 then none else x.1.prioRead ch s (prio - 1) n) with
    | some m => (m, x.2)
    | none => (x.1, x.2 ++ [((chanCtl ch).1, n)])) (m, [])

/-- A request of a sector passes the buckets of its controllers, which it lowers: none where one of them holds too little. One larger than a full
bucket passes a full one (log entry 111). The Keeper's traffic is not counted (R180). -/
def Mod.charge (m : Mod) (sector : Option SectorId) (prio : Nat) (cells : List Nat) : Option Mod :=
  match sector with
  | none => some m
  | some s =>
    let r := m.throughCtl s prio cells
    ((r.2.map (·.1)).eraseDups.filter (fun k => m.regulated k s)).foldlM (fun (m : Mod) (k : Nat) =>
      let n := ((r.2.filter (·.1 == k)).map (·.2)).sum
      if m.bucket k s < min n (m.bucketDepth k s) then none else some (m.setBucket k s (m.bucket k s - n))) r.1

/-- An access inside a command, which does not wait: its buckets are lowered as far as they go (log entry 111). -/
def Mod.chargeAll (m : Mod) (sector : Option SectorId) (prio : Nat) (cells : List Nat) : Mod :=
  match sector with
  | none => m
  | some s =>
    let r := m.throughCtl s prio cells
    (r.2.filter (fun x => m.regulated x.1 s)).foldl (fun (m : Mod) (x : Nat × Nat) => m.setBucket x.1 s (m.bucket x.1 s - x.2)) r.1

/-! ## What an access waits for (R203, R210, R385) -/

/-- The place that a request takes among those that wait: behind all of them. -/
def Mod.nextStamp (m : Mod) : Nat :=
  ((m.txns.filter (·.waiting)).map (·.stamp) ++ m.slices.flatMap (fun p => p.2.waiting.map (·.stamp))).foldl max 0 + 1

/-- A request for a line is before one of a place: one is open, or waits (R203), or an LR window holds off accesses (R210). -/
def Mod.lineBusy (m : Mod) (line stamp : Nat) : Bool :=
  (m.txnOn line).isSome || (m.slice (m.homeOf line)).waiting.any (fun w => w.line == line && decide (w.stamp < stamp)) || m.windowOn line

/-- A request of a non-caching agent behind earlier ones: of its line, or, but for a priority read within its caps, in its sector's queue of a
controller (R180, R181, R203). -/
def Mod.behind (m : Mod) (earlier : List Txn) (sector : Option SectorId) (ahead : Bool) (cells : List Nat) : Bool :=
  let lines := linesOf cells
  let ctls := fun (ls : List Nat) => (ls.map (fun l => (chanCtl (lineChan l)).1)).filter (fun k => match sector with
    | some s => m.regulated k s
    | none => false)
  earlier.any (fun t => (linesOf t.cells).any lines.contains ||
    (!ahead && t.sector == sector && (ctls (linesOf t.cells)).any (ctls lines).contains))

/-- A read goes through its priority stream in full: its caps hold all of it (R181). -/
def Mod.withinCaps (m : Mod) (sector : Option SectorId) (prio : Nat) (cells : List Nat) : Bool :=
  match sector with
  | some s => prio != 0 && (m.throughCtl s prio cells).2.isEmpty
  | none => false

/-- A request of a non-caching agent that stands at a place is served now, its buckets lowered; or it waits (R180, R181, R203, R210, R385). -/
def Mod.pass (m : Mod) (stamp : Nat) (sector : Option SectorId) (prio : Nat) (write : Bool) (cells : List Nat) : Option Mod :=
  let earlier := m.txns.filter (fun t => t.waiting && decide (t.stamp < stamp))
  if (linesOf cells).any (m.lineBusy · stamp) || m.behind earlier sector (!write && m.withinCaps sector prio cells) cells ||
      (write && (linesOf cells).any m.wayless) then none
  else m.charge sector (if write then 0 else prio) cells

/-- A request that comes now is served now, or waits behind those that wait. -/
def Mod.passNow (m : Mod) (sector : Option SectorId) (prio : Nat) (write : Bool) (cells : List Nat) : Option Mod :=
  m.pass m.nextStamp sector prio write cells

/-- A request of a sector for n bytes of an address must wait for its lines or its buckets. -/
def Mod.holdsOff (m : Mod) (sector : Option SectorId) (write : Bool) (pa n : Nat) : Bool :=
  match m.decodeN sector pa n with
  | .ok cells => (m.passNow sector (m.prioAt pa) write cells).isNone
  | .error _ => false

/-- Parts of a list, each an address and a length, that must wait. -/
def Mod.partsWait (m : Mod) (sector : Option SectorId) (write : Bool) (parts : List (Nat × Nat)) : Bool :=
  parts.any (fun x => m.holdsOff sector write x.1 x.2)

/-- Bytes written by a non-caching agent of a sector: all of them, or none (R171, R206). -/
def Mod.writePhys (m : Mod) (sector : Option SectorId) (pa : Nat) (bs : List Byte) : Except AccErr Mod :=
  match m.decodeN sector pa bs.length with
  | .error e => .error e
  | .ok cells => .ok (((m.chargeAll sector 0 cells).writeHinted cells bs 0).noteBlock sector pa bs.length)

/-- The lines of n bytes of a sector are read; a read of a control block is noted there. -/
def Mod.touchRead (m : Mod) (sector : Option SectorId) (pa n : Nat) : Mod :=
  match m.decodeN sector pa n with
  | .ok cells => ((m.chargeAll sector (m.prioAt pa) cells).channelRead (linesOf cells)).noteBlock sector pa n
  | .error _ => m

/-! ## Atomic operations (R186) -/

/-- An operation that R186 defines on 4 bytes alone. -/
def fourOnly (op : AtomOp) : Bool :=
  match op with
  | .addF32 | .addBf16x2 | .minF32 | .maxF32 => true
  | _ => false

/-- The new value of m under operand v, and under comparand c for CAS, on size bytes (R186). -/
def atomApply (op : AtomOp) (size m v c : Nat) : Nat :=
  let w := 8 * size
  match op with
  | .add => (m + v) % 2 ^ w
  | .addF32 => fp32.add m v
  | .addBf16x2 => bf16.add (m % 65536) (v % 65536) + bf16.add (m / 65536) (v / 65536) * 65536
  | .minS => if signedOf w v < signedOf w m then v else m
  | .maxS => if signedOf w v > signedOf w m then v else m
  | .minU => if v < m then v else m
  | .maxU => if v > m then v else m
  | .minF32 => fp32.min m v
  | .maxF32 => fp32.max m v
  | .swap => v
  | .cas => if m = c then v else m

/-- An atomic operation on cells at their home: every copy is recalled, the operation is performed, and the old value is returned. Poison makes
it fail with the memory unchanged (R185, R186, R393). -/
def Mod.atomicAt (m : Mod) (cells : List Nat) (op : AtomOp) (size v c : Nat) : Except AccErr (Nat × Mod) :=
  if (linesOf cells).any m.poisoned then .error .poison
  else
    let old := numOf (cells.map m.homeByte)
    .ok (old, m.writeHinted cells (bytesOf size (atomApply op size old v c)) 0)

/-- An atomic operation at the home of its target, decoded for a sector (R171, R185). -/
def Mod.homeAtomic (m : Mod) (sector : Option SectorId) (op : AtomOp) (size pa v c : Nat) : Except AccErr (Nat × Mod) :=
  match m.decodeN sector pa size with
  | .error e => .error e
  | .ok cells =>
    match m.atomicAt cells op size v c with
    | .error e => .error e
    | .ok r => .ok (r.1, r.2.noteBlock sector pa size)

/-- One element of REDUCE_INTO. -/
def redApply (op : RedOp) (f : Fmt) (a b : Nat) : Nat :=
  match op with
  | .sum => f.add a b
  | .max => f.max a b
  | .min => f.min a b

/-- The 128 bytes of a line combined element by element: 32 FP32 or 64 BF16 (R186). -/
def reduceBytes (op : RedOp) (wide : Bool) : Nat → List Byte → List Byte → List Byte
  | 0, _, _ => []
  | n + 1, a, b =>
    let k := if wide then 4 else 2
    bytesOf k (redApply op (if wide then fp32 else bf16) (numOf (a.take k)) (numOf (b.take k))) ++
      reduceBytes op wide n (a.drop k) (b.drop k)

/-- REDUCE_INTO on the cells of a line at its home (R185, R186). -/
def Mod.reduceAt (m : Mod) (cells : List Nat) (op : RedOp) (wide : Bool) (data : List Byte) : Except AccErr Mod :=
  if (linesOf cells).any m.poisoned then .error .poison
  else .ok (m.writeHinted cells (reduceBytes op wide (if wide then 32 else 64) (cells.map m.homeByte) data) 0)

/-- REDUCE_INTO on a line decoded for a sector (R171, R185). -/
def Mod.reduceInto (m : Mod) (sector : Option SectorId) (op : RedOp) (wide : Bool) (pa : Nat) (data : List Byte) :
    Except AccErr Mod :=
  match m.decodeN sector pa 128 with
  | .error e => .error e
  | .ok cells =>
    match m.reduceAt cells op wide data with
    | .error e => .error e
    | .ok m => .ok (m.noteBlock sector pa 128)

end Sys2Proof.Machine
end

