-- ==== Sys2Proof/Machine/Scrub.lean ====
section
/-!
DEFINITION. Keys (R340, R341), what a scrub clears (R352, R353), and how a resource leaves its sector (R334, R336).
-/
namespace Sys2Proof.Machine
open Sys2Proof

/-! ## Keys -/

/-- The contents stored under a key slot are undefined from now on (R176, R341). -/
def Mod.newContents (m : Mod) (slot : Nat) : Mod := { m with keyEpochs := Table.upd 0 m.keyEpochs slot (· + 1) }

/-- A slot receives a fresh key (R340). -/
def Mod.genKey (m : Mod) (slot : Nat) : Mod :=
  let m := m.newContents slot
  { m with keySlots := Table.upd KeySlot.reset m.keySlots slot (fun k =>
             { valid := true, retained := false, epoch := satAdd k.epoch 1 0xFFFF }) }

/-- A slot's key is destroyed (R341). -/
def Mod.destroyKey (m : Mod) (slot : Nat) : Mod :=
  let m := m.newContents slot
  { m with keySlots := Table.upd KeySlot.reset m.keySlots slot (fun k => { k with valid := false, retained := false }) }

/-- A sector's model keys are destroyed (R341). -/
def Mod.dropModels (m : Mod) (sector : Nat) : Mod := { m with models := m.models.filter (fun p => p.1 / 8 != sector) }

/-- Every key slot and model key of a sector is destroyed (R341). -/
def Mod.dropKeys (m : Mod) (sector : Nat) : Mod :=
  ([0, 1, 2, 3].foldl (fun (m : Mod) (i : Nat) => m.destroyKey (4 * sector + i)) m).dropModels sector

/-- A valid PRESERVE entry names the slot (R341). -/
def Mod.slotPreserved (m : Mod) (slot : Nat) : Bool := m.regions.any (fun p => p.2.valid && p.2.preserve && p.2.key == slot)

/-! ## Scrubs (R352) -/

/-- A tensor core cleared: its owner, its generation and a fence on it stay. -/
def Mod.scrubCore (m : Mod) (id : Nat) : Mod :=
  m.updCore id (fun c => { TCore.reset with gen := c.gen, sector := c.sector, st := if m.coreFenced id then .fenced else .idle })

/-- A cluster's storage cleared: its cores, its kernel store. -/
def Mod.scrubCluster (m : Mod) (c : Nat) : Mod :=
  (List.range 8).foldl (fun (m : Mod) (k : Nat) => m.scrubCore (8 * c + k)) (m.updCluster c (fun x => { x with slots := [] }))

/-- A cluster's queues are FREE, with nothing held. -/
def Mod.clearQueues (m : Mod) (c : Nat) : Mod :=
  { m with queues := Table.mapAll Queue.reset m.queues (fun n (q : Queue) =>
             if n / 128 = c then { Queue.reset with gen := q.gen } else q) }

/-- A collective engine cleared: its owner and its generation stay. -/
def Mod.scrubEngine (m : Mod) (e : Nat) : Mod :=
  m.updEngine e (fun x => { Engine.reset with gen := x.gen, sector := x.sector, st := if m.engineFenced e then .fenced else .idle })

/-- A PD core cleared and halted; its L2 is invalidated without writeback. -/
def Mod.scrubPd (m : Mod) (a : Nat) : Mod :=
  let m := (m.clearFiles a).setPdCore a { PdCore.reset with owner := (m.pdCore a).owner, heldOut := (m.pdCore a).heldOut }
  { m with caches := m.caches.filter (fun p => p.1 / 2 ^ 60 != a), evictions := m.evictions.filter (fun p => p.1 / 2 ^ 60 != a) }

/-- A sector's lines in a slice are gone, what was dirty there with them, and its entries of the slice's snoop filter. -/
def Mod.scrubWays (m : Mod) (md sector : Nat) : Mod :=
  let x := m.slice md
  m.setSlice md { x with
    lines := x.lines.filter (fun p => match p.2 with
      | some l => l.sector.val != sector
      | none => true)
    filter := x.filter.filter (fun e => lineKey e.line / 4 != sector) }

/-- Bytes of a list of lines' channels are gone: what is read there next is undefined under its key (R341, R458); a fill clears
poison. -/
def Mod.scrubChannel (m : Mod) (ch : Nat) : Mod :=
  { (m.forget (fun line => lineChan line == ch)).unpoison (fun l => lineChan l == ch) with
    zeros := m.zeros.map (fun z => { z with chans := z.chans.filter (· != ch) }) }

/-- A burst-buffer range is zero. -/
def Mod.scrubBurst (m : Mod) (lo hi : Nat) : Mod :=
  { m with dram := m.dram.filter (fun p =>
             let line := p.1 / 128
             !(lineChan line ≥ 2600 && lo ≤ lineOff line && lineOff line < hi)) }

/-- A region's footprint is zero-filled: under the key that it had, for as long as that is its slot's, its bytes read zero (R352). Under another
they are undefined (R341, R458). -/
def Mod.scrubFootprint (m : Mod) (r : Region) : Mod :=
  let l := m.chanList r
  let lo := r.chOff * 4096
  let hi := lo + r.footprint l.length
  let base := r.base - tierBase 2
  let inside := fun (line : Nat) =>
    if r.tier = 2 then
      lineKey line == r.key && (match hdmPlace m.hdm base with
        | some p => lineChan line == p.1 && p.2 ≤ lineOff line && lineOff line < p.2 + r.size
        | none => false)
    else l.contains (lineChan line) && lo ≤ lineOff line && lineOff line < hi
  let zero : ZeroFill := match (if r.tier = 2 then hdmPlace m.hdm base else none) with
    | some p => { key := r.key, epoch := Table.get 0 m.keyEpochs r.key, lo := p.2, hi := p.2 + r.size, chans := [p.1] }
    | none => { key := r.key, epoch := Table.get 0 m.keyEpochs r.key, lo := lo, hi := hi, chans := l }
  { (m.forget inside).unpoison inside with zeros := zero :: m.zeros }

/-! ## Release -/

/-- A cluster belongs to a sector, or to none; its cores with it (R336). -/
def Mod.ownCluster (m : Mod) (c : Nat) (s : Option SectorId) : Mod :=
  (List.range 8).foldl (fun (m : Mod) (k : Nat) => m.updCore (8 * c + k) (fun x => { x with sector := s }))
    (m.updCluster c (fun x => { x with sector := s, shown := s }))

/-- A channel belongs to a sector, or to none. -/
def Mod.ownChannel (m : Mod) (ch : Nat) (s : Option SectorId) : Mod :=
  let k := chanCtl ch
  let x := m.ctl k.1
  m.setCtl k.1 { x with owner := Table.set none x.owner k.2 s }

/-- A channel awaits its fill, or does no more (R353). -/
def Mod.markChannel (m : Mod) (ch : Nat) (dirty : Bool) : Mod :=
  let k := chanCtl ch
  let x := m.ctl k.1
  let b : BitVec 32 := BitVec.ofNat 32 (1 <<< k.2)
  m.setCtl k.1 { x with dirty := if dirty then x.dirty ||| b else x.dirty &&& ~~~b }

/-- A cluster leaves its sector, scrubbed. -/
def Mod.freeCluster (m : Mod) (c : Nat) : Mod := ((m.scrubCluster c).clearQueues c).ownCluster c none

/-- A channel leaves its sector: a tier-0 channel scrubbed, a tier-1 channel with its fill pending (R353). -/
def Mod.freeChannel (m : Mod) (ch : Nat) : Mod :=
  let m := (m.scrubChannel ch).ownChannel ch none
  if ch < 2560 then m else { m.markChannel ch true with fills := m.fills ++ [.channel (ch - 2560)] }

/-- A PD core leaves its sector, scrubbed. -/
def Mod.freePd (m : Mod) (a : Nat) : Mod :=
  let m := m.scrubPd a
  m.setPdCore a { m.pdCore a with owner := none }

/-- An engine leaves its sector, scrubbed. -/
def Mod.freeEngine (m : Mod) (e : Nat) : Mod := (m.scrubEngine e).updEngine e (fun x => { x with sector := none })

/-- A register of a control block written whole, in all the dies of a list. -/
def Mod.setRegs (m : Mod) (sites : List Nat) (off : Nat) (dflt v : Word) : Mod :=
  sites.foldl (fun (m : Mod) (s : Nat) => m.setReg s off dflt v) m

/-- The masks a SECTOR_CREATE or a SECTOR_ASSIGN gives, as lists (R303): kind 0 clusters, 1 PD cores, 2 and 3 channels, 4
engines, 5 ways as 16 × md + way; the mask's first word. -/
def maskList (ws : List Word) (kind first : Nat) : List Nat :=
  let width := [128, 384, 2560, 16, 64, 320].getD kind 0
  (List.range width).filter (fun i => (wordAt ws (first + i / 64)).getLsbD (i % 64))

/-- The queues of a cluster that are listed. -/
def Mod.clusterQueues (m : Mod) (c : Nat) : List (Nat × Queue) := m.queues.filter (fun p => p.1 / 128 == c)

/-- The point of a phase of a sector (R359). -/
def Mod.phasePoint (m : Mod) (s phase : Nat) : Nat :=
  bits (m.reg kdSite (0x60100 + s * 16 + phase / 8 * 8) 0x1B1B1B1B1B1B1B1B) (8 * (phase % 8) + 4) (8 * (phase % 8))

/-- PHASE. -/
def pktPhase (ws : List Word) : Nat := bits (wordAt ws 0) 27 24

/-- The phases of the commands dispatched to a cluster and not yet replied, which are those of its kernels too (R360). -/
def Mod.clusterPhases (m : Mod) (c : Nat) : List Nat :=
  (m.clusterQueues c).flatMap (fun q => (q.2.flights.filter (fun f => f.stage != .accepted)).map (fun f => pktPhase f.words))

/-- A cluster's demand as of now, and whether its clocks are gated (R360). One that no sector owns has no phase table: it demands point 27,
which every table entry holds before a sector writes it (R359; log entry 126). -/
def Mod.demandOf (m : Mod) (c : Nat) : Nat × Bool :=
  match (m.cluster c).sector, m.clusterPhases c with
  | none, _ => (27, true)
  | some s, [] => (m.phasePoint s (m.cluster c).idlePhase, true)
  | some s, l => ((l.map (m.phasePoint s)).foldl max 0, false)

/-- A cluster's queues are all disabled, or free (R334). -/
def Mod.clusterQuiet (m : Mod) (c : Nat) : Bool := (m.clusterQueues c).all (fun p => p.2.st == .disabled || p.2.st == .free)

/-- The clusters of a sector. -/
def Mod.sectorClusters (m : Mod) (s : Nat) : List Nat :=
  (List.range 128).filter (fun c => match (m.cluster c).sector with | some x => x.val == s | none => false)

/-- The engines of a sector. -/
def Mod.sectorEngines (m : Mod) (s : Nat) : List Nat :=
  (List.range 64).filter (fun e => match (m.engine e).sector with | some x => x.val == s | none => false)

/-- The PD cores of a sector. -/
def Mod.sectorPds (m : Mod) (s : Nat) : List Nat :=
  (List.range 384).filter (fun a => match (m.pdCore a).owner with | some x => x.val == s | none => false)

/-- The channels of a sector: 0 to 2559 tier 0, 2560 to 2575 tier 1. -/
def Mod.sectorChans (m : Mod) (s : Nat) : List Nat :=
  (List.range 2576).filter (fun ch => match m.chanOwner ch with | some x => x.val == s | none => false)

/-- A sector's state changes; the change is recorded (R457). -/
def Mod.sectorState (m : Mod) (s st opcode : Nat) : Mod :=
  let x := m.sector s
  (m.setSector s { x with st := st }).logEvent 0x08 st kdSite (s % 16 + x.st % 8 * 16) (BitVec.ofNat 64 opcode)

/-- A DRAINING sector whose queues are all DISABLED and whose engines are fenced: its keys go, and it is SCRUBBING (R334). -/
def Mod.settleSector (m : Mod) (s : Nat) : Mod :=
  if (m.sector s).st = 4 && (m.sectorClusters s).all m.clusterQuiet && (m.sectorEngines s).all (fun e => (m.engine e).st == .fenced)
  then
    let m := (m.dropKeys s).sectorState s 5 0x021
    m.setSector s { m.sector s with keysGone := m.beacon.bt }
  else m

end Sys2Proof.Machine
end

