-- ==== Sys2Proof/Machine/Ops.lean ====
section
/-!
DEFINITION. The operations that commands share: replies and their rings, the end of a command, the end of a shutdown, posts.
-/
namespace Sys2Proof.Machine
open Sys2Proof

/-! ## Packets (R277) -/

/-- OPC. -/
def pktOpc (ws : List Word) : Nat := bits (wordAt ws 0) 11 0
/-- PRIO. -/
def pktPrio (ws : List Word) : Nat := bits (wordAt ws 0) 15 12
/-- LEN. -/
def pktLen (ws : List Word) : Nat := bits (wordAt ws 0) 23 16
/-- TAG. -/
def pktTag (ws : List Word) : BitVec 32 := BitVec.ofNat 32 (bits (wordAt ws 0) 63 32)
/-- SEQ. -/
def pktSeq (ws : List Word) : BitVec 16 := BitVec.ofNat 16 (bits (wordAt ws 1) 15 0)
/-- FENCE_BEFORE. -/
def pktFence (ws : List Word) : Bool := bit (wordAt ws 1) 16
/-- NOTIFY. -/
def pktNotify (ws : List Word) : Bool := bit (wordAt ws 1) 17
/-- ORDERED_VISIBLE. -/
def pktOrdered (ws : List Word) : Bool := bit (wordAt ws 1) 18

/-- Commands that the Keeper serves in its rounds (R338). -/
def keeperBound (opc : Nat) : Bool :=
  [0x400, 0x401, 0x402, 0x403, 0x404, 0x500, 0x501, 0x502, 0x503, 0x601, 0x022, 0x700, 0x802].contains opc

/-- The packet at an index of a queue, if it is accepted and not yet replied. -/
def Mod.flight (m : Mod) (p : PktRef) : Option Flight := (m.queue p.q).flights.find? (fun f => f.ix == p.ix)

/-- A packet's record changed. -/
def Mod.updFlight (m : Mod) (p : PktRef) (f : Flight → Flight) : Mod :=
  m.updQueue p.q (fun q => { q with flights := q.flights.map (fun x => if x.ix == p.ix then f x else x) })

/-- The sector a queue belongs to (R270, R300); none for the management function. -/
def Mod.queueSector (m : Mod) (q : QRef) : Option SectorId :=
  match q with
  | .csq n => (m.cluster (n / 128)).sector
  | .mq _ => none
  | .remote => none

/-- The issuer of a queue's packets (R300); none where the cluster is unowned. -/
def Mod.issuer (m : Mod) (q : QRef) : Option Issuer :=
  match q with
  | .csq n => (m.cluster (n / 128)).sector.map Issuer.sector
  | .mq _ => some .mgmt
  | .remote => some .mgmt

/-- The number a reply's QUEUE field and QUEUE_DISABLE carry (R270, R280). -/
def queueNum : QRef → Nat
  | .csq n => n
  | .mq n => n
  | .remote => 0

/-! ## Replies (R280 to R282) -/

/-- The sector a queue's rings in device memory are decoded for (R171, R272, R404); the Keeper's own rings are decoded for
no sector. -/
def Mod.ringSector (m : Mod) (q : QRef) : Option SectorId :=
  match q with
  | .csq n => (m.cluster (n / 128)).sector
  | .mq n => Table.get none m.mqSector n.val
  | .remote => none

/-- The function a host queue is reached through, reachable or not (R272, R402). -/
def Mod.queueFn (m : Mod) (q : QRef) : Option (Nat × Nat) :=
  match q with
  | .csq n =>
    match (m.cluster (n / 128)).sector with
    | none => none
    | some s => if (m.sector s).attached then some ((m.sector s).hostPort, 1 + s.val) else none
  | .mq n => some (if n.val = 0 then 8 else if n.val ≤ 8 then n.val - 1 else Table.get 8 m.mqPath n.val, 0)
  | .remote => none

/-- The path a host ring of a queue is reached by: PCIe/CXL port and function; port 8 is the management endpoint (R272,
R402). None while the host cannot be reached, or its port carries no memory requests (R315). -/
def Mod.hostPath (m : Mod) (q : QRef) : Option (Nat × Nat) :=
  match m.queueFn q with
  | some (port, fn) => if (m.fn port fn).reachable && m.portCarries port then some (port, fn) else none
  | none => none

/-- A queue's rings are within reach: a device ring always is, a host ring while its function is (R281). -/
def Mod.ringReachable (m : Mod) (q : QRef) : Bool := !(m.queue q).host || (m.hostPath q).isSome

/-- The four words of a reply entry at an index of its ring (R280). -/
def Reply.entry (r : Reply) (qnum replyLog2 : Nat) (index : BitVec 32) : List Word :=
  [pack [(0, 32, r.tag.toNat), (32, 16, r.seq.toNat), (48, 16, r.status.toNat)],
   pack [(0, 16, r.detail.toNat), (16, 14, qnum), (31, 1, if index.toNat / 2 ^ replyLog2 % 2 = 0 then 1 else 0)],
   r.progress, r.bt]

/-- The PCIe/CXL port that a line of tier 2 lies behind (R168, R317). -/
def portOf (line : Nat) : Option Nat := if 2576 ≤ lineChan line && lineChan line < 2584 then some (lineChan line - 2576) else none

/-- The parts of a reply entry in the order they are written: words 0, 2 and 3, then word 1 (R280), each with its offset. -/
def entryParts (ws : List Word) : List (Nat × List Byte) :=
  [(0, wordBytes (wordAt ws 0)), (16, wordBytes (wordAt ws 2) ++ wordBytes (wordAt ws 3)), (8, wordBytes (wordAt ws 1))]

/-- The parts of an entry written to device memory, one after the other. -/
def Mod.writeEntry (m : Mod) (sector : Option SectorId) (addr : Nat) : List (Nat × List Byte) → Except AccErr Mod
  | [] => .ok m
  | (off, bs) :: rest =>
    match m.writePhys sector (addr + off) bs with
    | .error e => .error e
    | .ok m => Mod.writeEntry m sector addr rest

/-- The tier-2 port, if any, that an entry of a device ring goes out by, with the last address written. -/
def Mod.entryPort (m : Mod) (sector : Option SectorId) (addr : Nat) : Option (Nat × Nat) :=
  match m.decode sector (addr + 8) with
  | .ok c => (portOf (c / 128)).map (fun p => (p, addr + 15))
  | .error _ => none

/-- A reply written into its ring; none where the ring cannot be written, or its line is not to be had yet (R180, R203). A notification that follows it knows the port its ring lies
behind (R289). -/
def Mod.putReply (m : Mod) (q : QRef) (r : Reply) : Option Mod :=
  let x := m.queue q
  let parts := entryParts (r.entry (queueNum q) x.replyLog2 x.replyPi)
  let off := x.replyPi.toNat % 2 ^ x.replyLog2 * 32
  let counted := fun (m : Mod) (port : Option (Nat × Nat)) =>
    let m := m.updQueue q (fun x => { x with replyPi := x.replyPi + 1, replyPort := if port.isSome then port else x.replyPort,
                                             notifyPending := x.notifyPending || (x.notifyEn && r.notify) })
    match q with
    | .csq n => m.updCluster (n / 128) (fun c => { c with replied := satAdd c.replied 1 0xFFFFFFFF })
    | .mq _ => m
    | .remote => m
  if x.host then
    match m.hostPath q with
    | some (port, _) =>
      some (counted (parts.foldl (fun (m : Mod) (w : Nat × List Byte) =>
        m.emit (.hostWrite port (x.reply + BitVec.ofNat 64 (off + w.1)) w.2)) m) none)
    | none => none
  else
    let sector := m.ringSector q
    if m.holdsOff sector true (x.reply.toNat + off) 32 then none
    else
    match m.writeEntry sector (x.reply.toNat + off) parts with
    | .ok m' => some (counted m' (m.entryPort sector (x.reply.toNat + off)))
    | .error _ => none

/-- The generation of the function a host queue is reached through (R328). -/
def Mod.queueFnGen (m : Mod) (q : QRef) : BitVec 8 :=
  match m.queueFn q with
  | some (port, fn) => (m.fn port fn).gen
  | none => 0

/-- Where a queue's errors are recorded: its TD, or the KD. -/
def queueSite : QRef → Nat
  | .csq n => clusterSite (n / 128)
  | .mq _ => kdSite
  | .remote => kdSite

/-- The unit a queue's errors are recorded under (R397). -/
def queueUnit : QRef → Nat
  | .csq n => 0x0100 + n / 128 % 8
  | .mq _ => 0x0800
  | .remote => 0x0800

/-- Packets whose reply is owed: not those that a fence has replied (R293). -/
def Queue.owed (x : Queue) : List Flight := x.flights.filter (fun f => !f.answered)

/-- Packets accepted and not replied, those whose reply is held among them; a FREE queue has none (R281, R297). -/
def Queue.inFlight (x : Queue) : Nat := if x.st = .free then 0 else x.owed.length + x.held.length

/-- A reply ring in device memory that cannot be written: the access error is recorded as its first reply is held (R24, R171, R281). -/
def Mod.ringFault (m : Mod) (q : QRef) : Mod :=
  let x := m.queue q
  let addr := x.reply.toNat + x.replyPi.toNat % 2 ^ x.replyLog2 * 32
  if x.host then m
  else
    match m.decodeN (m.ringSector q) addr 32 with
    | .ok _ => m
    | .error e => m.recordAccess (queueSite q) (queueUnit q) (m.ringSector q) e addr

/-- A reply written, or kept in the reply store behind those already held (R281, R328). -/
def Mod.writeReply (m : Mod) (q : QRef) (r : Reply) : Mod :=
  let x := m.queue q
  let hold := m.setQueue q { x with held := x.held ++ [r],
                                    heldGen := if x.held.isEmpty then m.queueFnGen q else x.heldGen }
  if x.held.isEmpty then (m.putReply q r).getD (hold.ringFault q) else hold

/-- The reply of an accepted packet (R279, R280); BT_DONE of an APPLY_AT is the BT of its apply (R51). -/
def mkReply (f : Flight) (status detail progress : Nat) (bt : Word) : Reply :=
  let ws := f.words
  { ix := f.ix, past := f.past, tag := pktTag ws, seq := pktSeq ws, status := BitVec.ofNat 16 status, detail := BitVec.ofNat 16 detail,
    progress := BitVec.ofNat 64 progress, bt := f.effect.getD bt, notify := pktNotify ws }

/-- The REPLY message for a command that another module sent (R405, R406). -/
def Mod.remoteReply (m : Mod) (ix : BitVec 32) (r : Reply) : Mod :=
  match m.incoming.find? (fun i => i.ix == ix) with
  | none => m
  | some i =>
    (({ m with incoming := m.incoming.filter (fun x => x.ix != ix) } : Mod).keeperSend i.src
      ([pack [(0, 8, 2), (32, 32, i.cmdId.toNat)], 0] ++ r.entry i.queue 6 0)).1

/-- A packet's one reply: the packet is no longer in flight and its reply is written or held (R279), or sent to the module that
sent the command (R405). A packet that is not in flight gets none, nor one that a fence has replied (R293). -/
def Mod.reply (m : Mod) (p : PktRef) (status detail progress : Nat) : Mod :=
  match m.flight p with
  | none => m
  | some f =>
    let m := m.updQueue p.q (fun q => { q with flights := q.flights.filter (fun x => x.ix != p.ix) })
    if f.answered then m else
    match p.q with
    | .remote => m.remoteReply p.ix (mkReply f status detail progress m.beacon.bt)
    | _ => m.writeReply p.q (mkReply f status detail progress m.beacon.bt)

/-- The queue that the four configuration registers describe. -/
def Fn.adminQueue (f : Fn) (x : Queue) : Queue :=
  let c := f.adminCfg
  { Queue.reset with
    ringLog2 := bits c 4 0, replyLog2 := bits c 9 5, prioCap := bits c 13 10, admin := true, host := true, checkSeq := bit c 16,
    inFlightMax := bits c 23 17, notifyEn := bit c 24, ring := f.adminRing, reply := f.adminReply,
    notifyData := BitVec.ofNat 32 (bits f.adminMisc 10 0), drainMs := bits f.adminMisc 47 32, gen := x.gen }

/-- A queue's configuration is in range (R303, R421). -/
def Queue.sound (x : Queue) : Bool :=
  6 ≤ x.ringLog2 && x.ringLog2 ≤ 16 && 6 ≤ x.replyLog2 && x.replyLog2 ≤ 16 && 1 ≤ x.inFlightMax && x.inFlightMax ≤ 64 &&
    x.inFlightMax ≤ 2 ^ x.replyLog2 && 1 ≤ x.drainMs && x.drainMs ≤ 60000 && x.ring.toNat % 4096 == 0 && x.reply.toNat % 4096 == 0

/-- A write to FUNC_CTRL that is ignored and recorded. -/
def Mod.funcIgnored (m : Mod) (s : Nat) : Mod :=
  m.malformed (edSite ((m.sector s).hostPort / 2)) 0 8 (some (Fin.ofNat 16 s))

/-- ADMIN_ENABLE of a DISABLED admin queue, at once or when its shutdown is over: reconfigured and ENABLED, its indexes as they are; a
configuration out of range leaves it as it is (R292, R322). -/
def Mod.adminAgain (m : Mod) (s : Nat) (q : QRef) : Mod :=
  let x := m.queue q
  let c := (m.fn (m.sector s).hostPort (1 + s)).adminQueue x
  if c.sound then
    m.setQueue q { c with st := .enabled, fetch := x.fetch, producer := x.producer, replyPi := x.replyPi, replyCi := x.replyCi,
                          held := x.held, heldGen := x.heldGen, notifyPending := x.notifyPending }
  else m.funcIgnored s

/-- A shutdown completes (R290 to R292): the queue is DISABLED, its QUEUE_DISABLE packets are replied, its own last, and a
held enable runs unless its packet is already replied. -/
def Mod.finishDisable (m : Mod) (q : QRef) : Mod :=
  let x := m.queue q
  let m := m.setQueue q { x with st := .disabled, error := 0, disables := [], enable := none, lastSeq := none, aborted := 0 }
  let m := (x.disables.filter (fun p => p.q != q) ++ x.disables.filter (fun p => p.q == q)).foldl
    (fun m p => m.reply p 0 0 x.aborted) m
  let run := fun (m : Mod) (fetch : Option (BitVec 32)) =>
    m.updQueue q (fun x => { x with st := .enabled, fetch := fetch.getD x.fetch })
  match x.enable with
  | none => m
  | some (none, fetch) => (match m.queueSector q with
    | some s => m.adminAgain s q
    | none => run m fetch)
  | some (some p, fetch) => if (m.flight p).isSome then (run m fetch).reply p 0x0801 0 0 else m

/-- A DISABLING queue whose every owed reply but those of the QUEUE_DISABLE packets is written has shut down; one that is held is not
written yet (R281, R291). -/
def Mod.settleQueue (m : Mod) (q : QRef) : Mod :=
  let x := m.queue q
  if x.st = .disabling && x.held.isEmpty && x.owed.all (fun f => x.disables.contains ⟨q, f.ix⟩) then
    let m := m.finishDisable q
    match m.queueSector q with
    | some s => m.settleSector s
    | none => m
  else m

/-- The queues whose packets the end of a queue's shutdown replies: its QUEUE_DISABLEs, and an enable that it holds (R290 to R292). -/
def Queue.waiters (x : Queue) : List QRef :=
  x.disables.map (·.q) ++ (match x.enable with
    | some (some p, _) => [p.q]
    | _ => [])

/-- The chain of shutdowns that one reply may end is no longer than the queues there are. -/
def shutdownChain : Nat := 16449

/-- Shutdowns that a reply may have ended: the queues' own first, then those of the queues whose packets they reply. -/
def Mod.settleQueues (m : Mod) (fuel : Nat) (qs : List QRef) : Mod :=
  match fuel with
  | 0 => m
  | n + 1 =>
    if qs.isEmpty then m
    else
      let m' := qs.foldl (fun m q => m.settleQueue q) m
      Mod.settleQueues m' n (qs.flatMap (fun q =>
        if (m.queue q).st = .disabling && (m'.queue q).st != .disabling then (m.queue q).waiters else []))

/-- A command's one reply, and a shutdown that waited for it ends (R279, R291). -/
def Mod.replyNow (m : Mod) (p : PktRef) (status detail progress : Nat) : Mod :=
  (m.reply p status detail progress).settleQueues shutdownChain [p.q]

/-! ## The flush before a reply (R288, R289) -/

/-- The lowest tag that no request outstanding on a port holds. -/
def Mod.upstreamTag (m : Mod) (port : Nat) : Option Nat :=
  (List.range 1024).find? (fun t => !m.upstream.any (fun u => u.port == port && u.tag == some t))

/-- A zero-length read can go out to an address behind a port: its link is up and carries memory requests, and the function it goes
under can be reached (R315, R327). -/
def Mod.flushGoes (m : Mod) (port pa : Nat) : Bool :=
  let fn := m.outFn port pa
  (m.pciePort port).linkUp && m.portTakes port && (fn = 0 || (m.fn port fn).reachable)

/-- A zero-length read of an address behind a port, for a reply or a notification that waits for it, under its function; none while every
tag of the port is taken. Where none can go out there is nothing behind the port to wait for (log entry 105). -/
def Mod.flushRead (m : Mod) (what : FlushFor) (port pa : Nat) : Option Mod :=
  let fn := m.outFn port pa
  if !m.flushGoes port pa then some m
  else
    match m.upstreamTag port with
    | none => none
    | some tag =>
      some { m.emit (.aperture port fn 2 (m.busOf port (pa - tierBase 2)).2 tag 0 none) with
        upstream := m.upstream ++ [{ port := port, tag := some tag, fn := fn, gen := (m.fn port fn).gen, req := .kd, pa := pa, n := 0, write := none,
                                     flush := some what, entry := none }] }

/-- The zero-length reads that a command still owes, as far as they can be issued. -/
def Mod.flushPorts (m : Mod) (p : PktRef) : List (Nat × Nat) → Mod
  | [] => m
  | (port, pa) :: rest =>
    match m.flushRead (.cmd p) port pa with
    | none => Mod.flushPorts m p rest
    | some m => Mod.flushPorts (m.updFlight p (fun f => { f with ports := f.ports.filter (· != (port, pa)) })) p rest

/-- A command whose zero-length reads are all complete is replied. -/
def Mod.flushEnd (m : Mod) (p : PktRef) : Mod :=
  match m.flight p with
  | none => m
  | some f =>
    match f.work with
    | .flushing status detail progress =>
      let m := m.flushPorts p f.ports
      if ((m.flight p).elim [] Flight.ports).isEmpty && !m.upstream.any (fun u => u.flush == some (.cmd p)) then
        m.replyNow p status detail progress
      else m
    | _ => m

/-- A command ends: it is replied once a zero-length read on each port that carried its writes is complete (R288, R289). One that is
ended again while it waits for them is replied at once: a fence does not wait. -/
def Mod.endCmd (m : Mod) (p : PktRef) (status detail progress : Nat) : Mod :=
  match m.flight p with
  | none => m
  | some f =>
    match f.work with
    | .flushing _ _ _ => m.replyNow p status detail progress
    | _ =>
      if f.ports.isEmpty then m.replyNow p status detail progress
      else (m.updFlight p (fun f => { f with stage := .running, work := .flushing status detail progress })).flushEnd p

/-- A write of a command through a port is noted, with its address. -/
def Flight.note (f : Flight) (w : Nat × Nat) : Flight := { f with ports := f.ports.filter (fun x => x.1 != w.1) ++ [w] }

/-- The ports that cells written at addresses lie behind, each with the last address written through it. -/
def portWrites (l : List (Nat × Nat)) : List (Nat × Nat) :=
  l.foldl (fun ps (x : Nat × Nat) => match portOf (x.2 / 128) with
    | some p => ps.filter (fun y => y.1 != p) ++ [(p, x.1)]
    | none => ps) []

/-- Writes of a command through ports are noted, to be flushed before its reply (R289). -/
def Mod.noteWrites (m : Mod) (p : PktRef) (ws : List (Nat × Nat)) : Mod :=
  if ws.isEmpty then m else m.updFlight p (fun f => ws.foldl Flight.note f)

/-- A command goes on acting; its reply is owed. -/
def Mod.running (m : Mod) (p : PktRef) (w : Work) : Mod := m.updFlight p (fun f => { f with stage := .running, work := w })

/-- A command of an opcode that is free to act: its packet's words (R283, R338). Anything else is no such command, and in the hold states none
acts: accepted packets wait, unreplied (R375). -/
def Mod.cmdWords (m : Mod) (p : PktRef) (opc : Nat) : Option (List Word) :=
  match m.flight p with
  | some f => if m.working && f.stage = .dispatched && pktOpc f.words = opc then some f.words else none
  | none => none

/-- A command's checks of the state, and its effect where they pass (R299). -/
def Mod.checked (m : Mod) (p : PktRef) (fault : Option (Nat × Nat)) (act : Mod) : Mod :=
  match fault with
  | some e => m.endCmd p e.1 e.2 0
  | none => act

/-- A command acts once its packet is free to act; before that, nothing happens. -/
def Mod.command (m : Mod) (p : PktRef) (opc : Nat) (act : List Word → Mod) : Mod :=
  match m.cmdWords p opc with
  | some ws => act ws
  | none => m

/-! ## Posts (R61 to R63) -/

/-- A post sent to a counter; it is on its way until POST_ARRIVE. -/
def Mod.sendPost (m : Mod) (target : BitVec 18) (incr : Nat) (sector : Option SectorId) : Mod :=
  { m with posts := m.posts ++ [{ target := target, incr := incr, sector := sector }] }

end Sys2Proof.Machine
end

