-- ==== Sys2Proof/Machine/Fabric.lean ====
section
/-!
DEFINITION. Fabric ports: training, retry, credits, link packets, error thresholds and Ethernet mode (R216 to R238).
-/
namespace Sys2Proof
open Sys2Proof.Machine

/-- The payload bytes a link packet occupies: its body and 24 more (R220). -/
def TPkt.body (t : TPkt) : Nat := 32 + ceilDiv t.payload.length 4 * 4
/-- The credits a link packet takes (R220). -/
def TPkt.creditCount (t : TPkt) : Nat := ceilDiv (t.body + 24) 64
/-- DL. -/
def TPkt.dl (t : TPkt) : Bool := bit t.w0 58
/-- The flits a link packet takes, each packet starting a flit of its own (log entry 15). -/
def TPkt.flitCount (t : TPkt) : Nat := ceilDiv (t.body + 24) 238

/-- The bytes of a transport packet: its header, and its payload in whole words of 4 bytes (R220, R244). -/
def TPkt.bytes (t : TPkt) : List Byte :=
  [t.w0, t.w1, t.w2, t.w3].flatMap wordBytes ++ t.payload ++ List.replicate (t.body - 32 - t.payload.length) 0

namespace Flit
/-- TYPE (R219). -/
def kind (f : Flit) : Nat := f.hdr.toNat % 16
/-- FSEQ. -/
def fseq (f : Flit) : BitVec 16 := f.hdr.extractLsb' 8 16
/-- ACK. -/
def ack (f : Flit) : BitVec 16 := f.hdr.extractLsb' 24 16
/-- PSTART. -/
def start (f : Flit) : Nat := (f.hdr.extractLsb' 40 8).toNat
/-- CVC_A and CCNT_A. -/
def returnA (f : Flit) : Nat × Nat := ((f.hdr.extractLsb' 48 3).toNat, (f.hdr.extractLsb' 52 12).toNat)
/-- CVC_B and CCNT_B. -/
def returnB (f : Flit) : Nat × Nat := ((f.hdr.extractLsb' 64 3).toNat, (f.hdr.extractLsb' 68 12).toNat)
/-- A reserved bit is set. -/
def reserved (f : Flit) : Bool := f.hdr.extractLsb' 4 4 != 0 || f.hdr.getLsbD 51 || f.hdr.getLsbD 67
/-- Bytes 0 to 247, which the CRC covers. -/
def covered (f : Flit) : List Byte := bytesOf 10 f.hdr.toNat ++ f.payload
/-- The 256 bytes of a flit. -/
def bytes (f : Flit) : List Byte := f.covered ++ wordBytes f.crc
end Flit

end Sys2Proof

namespace Sys2Proof.Machine
open Sys2Proof

/-! ## Flits and link packets as bits (R219, R220) -/

/-- One bit of the CRC: the register moves up, and the polynomial comes in where a 1 leaves it. -/
def crcBit (r : Nat) : Nat := if r.testBit 63 then (2 * r % 2 ^ 64) ^^^ 0x42F0E1EBA9EA3693 else 2 * r

/-- The CRC-64 of R219 over bytes: not reflected, initial value and final XOR all ones. -/
def crc64 (l : List Byte) : Word :=
  BitVec.ofNat 64 ((l.foldl (fun (r : Nat) (b : Byte) =>
    crcBit (crcBit (crcBit (crcBit (crcBit (crcBit (crcBit (crcBit (r ^^^ (b.toNat * 2 ^ 56)))))))))) (2 ^ 64 - 1)) ^^^ (2 ^ 64 - 1))

/-- A flit as it is sent (R219): TYPE, FSEQ, ACK, PSTART, the two credit returns, its payload padded to 238 bytes, its CRC. -/
def mkFlit (kind : Nat) (fseq ack : BitVec 16) (start : Nat) (a b : Nat × Nat) (payload : List Byte) : Flit :=
  let f : Flit := {
    hdr := BitVec.ofNat 80 (kind + fseq.toNat * 2 ^ 8 + ack.toNat * 2 ^ 24 + start * 2 ^ 40 + a.1 * 2 ^ 48 + a.2 * 2 ^ 52 +
      b.1 * 2 ^ 64 + b.2 * 2 ^ 68)
    payload := payload ++ List.replicate (238 - payload.length) 0, crc := 0 }
  { f with crc := crc64 f.covered }

/-- A received flit is not discarded: its CRC matches, its TYPE is not reserved, no reserved bit is set (R219). -/
def flitSound (f : Flit) : Bool := f.crc == crc64 f.covered && f.kind ≤ 3 && !f.reserved

/-- A link packet's header word (R220). -/
def linkHeader (vc : Nat) (epochStart : Bool) (len ctr : Nat) : Word :=
  pack [(0, 3, vc), (3, 1, flag epochStart), (4, 13, len), (32, 32, ctr)]

/-- A header with a reserved field or a LEN out of range (R220, R232). -/
def headerMalformed (w : Word) : Bool :=
  bits w 31 17 != 0 || bits w 2 0 ≥ 6 || bits w 16 4 < 16 || bits w 16 4 > 4352 || bits w 16 4 % 4 != 0

/-- The credits of a packet with a header (R220). -/
def headerCredits (w : Word) : Nat := ceilDiv (bits w 16 4 + 24) 64

/-! ## Ports -/

/-- A fabric port replaced. -/
def Mod.setPort (m : Mod) (p : Nat) (x : Port) : Mod := { m with ports := Table.set Port.reset m.ports p x }
/-- A fabric port changed. -/
def Mod.updPort (m : Mod) (p : Nat) (f : Port → Port) : Mod := m.setPort p (f (m.port p))

/-- A register of a port's FAB_ block (R216, R238). -/
def Mod.fabReg (m : Mod) (p off : Nat) (dflt : Word) : Word := m.reg (portSite p) (0x04000000 + p % 8 * 0x100000 + off) dflt
/-- FAB_PORT_CTRL's reset value: GEN_MAX 3, CREDIT_TO 50. -/
def fabCtrlReset : Word := 0xC8C
/-- FAB_ERR_THRESH's reset value. -/
def fabThreshReset : Word := 0x0100001000040000#64

/-- The number of a port state (R238). -/
def PortSt.num : PortSt → Nat
  | .disabled => 0 | .probe => 1 | .speed => 2 | .equalize => 3 | .align => 4 | .linkMgmt => 5 | .auth => 6 | .active => 7
  | .retrain => 8 | .reset => 9 | .refused => 10

/-- An event of a port (R232, R457). -/
def Mod.portEvent (m : Mod) (p sub : Nat) : Mod :=
  let x := m.port p
  m.logEvent 0x03 sub (portSite p)
    (p + x.downReason * 256 + x.gen * 4096 + x.width * 16384 + x.generation.toNat * 65536)
    (BitVec.ofNat 64 (x.partnerHash.toNat % 2 ^ 56))

/-- An event logged at most once in an epoch (R232). -/
def Mod.portOnce (m : Mod) (p sub : Nat) : Mod :=
  if (m.port p).logged.contains sub then m
  else (m.updPort p (fun x => { x with logged := sub :: x.logged })).portEvent p sub

/-- A port enters a state; the change is logged, each state once in an epoch (R232, R457). -/
def Mod.portTo (m : Mod) (p : Nat) (st : PortSt) : Mod := (m.updPort p (fun x => { x with st := st })).portOnce p st.num

/-- A malformed link packet or frame, dropped and counted (R232). -/
def Mod.portMalformed (m : Mod) (p : Nat) : Mod :=
  (m.updPort p (fun x => { x with malformed := satAdd x.malformed 1 0xFFFFFFFF })).portOnce p 0x11

/-- The highest generation a port offers (R4, R238). -/
def Mod.genCap (m : Mod) (p : Nat) : Nat :=
  let g := bits (m.fabReg p 0 fabCtrlReset) 3 2
  min (if g = 0 then 1 else g) (max 1 m.part.fabricGenMax.toNat)

/-- A FAB_ETH_ register in force. -/
def Port.ethReg (x : Port) (o : Nat) : Word := Table.get 0 x.eth o

/-- MODE, GEN_MAX and the Ethernet registers come into force (R233, R238). -/
def Mod.portLatch (m : Mod) (p : Nat) : Mod :=
  let c := m.fabReg p 0 fabCtrlReset
  let eth := [0x100, 0x108, 0x110, 0x118, 0x120, 0x128, 0x130].foldl
    (fun t o => Table.put t o (m.fabReg p o (if o = 0x100 then 0x4B57 else 0))) ([] : Table Word)
  m.updPort p (fun x => { x with eth := eth, ethernet := bit c 1, genMax := m.genCap p })

/-- What a port discards when its link ends: the session, the buffers, the queued packets and what it knew of its partner (R224, R457). -/
def Port.dropLink (x : Port) : Port :=
  { x with
    nextLanes := none, partnerValid := false, nextFseq := 0, unacked := [], expected := 0, naked := false, resendRun := 0,
    credits := [], rxPart := [], rx := [], rxUsed := [], rxFreed := [], waiting := [], open_ := false, session := 0, requester := false,
    txCtr := 0, epochDue := false, rxExpected := 0, rxEpoch := 0, gen := 0, width := 3, group := 0, paused := false, heldFrames := []
    holds := false, k1Partner := false, partnerPort := 0, partnerHash := 0
    partnerRoot := false, partnerUnlocked := false, partnerSvn := [] }

/-! ## What leaves a port (R219, R222, R236) -/

/-- The ones' complement sum of 16-bit words, the first byte of each the higher. -/
def onesSum : List Byte → Nat → Nat
  | a :: b :: rest, n => onesSum rest (let s := n + a.toNat * 256 + b.toNat; s % 65536 + s / 65536)
  | [a], n => let s := n + a.toNat * 256; s % 65536 + s / 65536
  | [], n => n

/-- A UDP datagram (R236): the source and destination address, the port, the bytes it carries; its checksum is computed over them and
the addresses, as RFC 768 and RFC 8200 say, which sends 0xFFFF for a sum of 0. -/
def udpBytes (src dst port : Nat) (data : List Byte) : List Byte :=
  let n := data.length + 8
  let head := fun (c : Nat) => bigBytes 2 port ++ bigBytes 2 port ++ bigBytes 2 n ++ bigBytes 2 c
  let s := 65535 - onesSum (bigBytes 16 src ++ bigBytes 16 dst ++ bigBytes 4 n ++ bigBytes 4 17 ++ head 0 ++ data) 0
  head (if s = 0 then 65535 else s) ++ data

/-- A frame of a datagram: its shim's words and its flits, with the addresses, DSCP and tag of the registers in force (R234 to R236,
R238). -/
def Port.frame (x : Port) (w0 w1 : Word) (flits : List Flit) : List Byte :=
  let c := x.ethReg 0x100
  let src := (x.ethReg 0x118).toNat * 2 ^ 64 + (x.ethReg 0x120).toNat
  let dst := (x.ethReg 0x128).toNat * 2 ^ 64 + (x.ethReg 0x130).toNat
  let udp := udpBytes src dst (bits c 15 0) (wordBytes w0 ++ wordBytes w1 ++ flits.flatMap Flit.bytes)
  let tag := if bit c 22 then bigBytes 2 0x8100 ++ bigBytes 2 (bits c 37 35 * 2 ^ 13 + bits c 34 23) else []
  bigBytes 6 (bits (x.ethReg 0x110) 47 0) ++ bigBytes 6 (bits (x.ethReg 0x108) 47 0) ++ tag ++ bigBytes 2 0x86DD ++
    bigBytes 4 (6 * 2 ^ 28 + bits c 21 16 * 2 ^ 22) ++ bigBytes 2 udp.length ++ [17, 64] ++ bigBytes 16 src ++ bigBytes 16 dst ++ udp

/-- A frame leaves, or waits while priority flow control holds the port (R235): every frame of a link has one priority (R234, R236). -/
def Mod.putFrame (m : Mod) (p : Nat) (data : List Byte) : Mod :=
  if (m.port p).paused then m.updPort p (fun x => { x with heldFrames := x.heldFrames ++ [data] }) else m.emit (.frame p data)

/-- Flits that leave together in Ethernet mode: 32 to a datagram (R236). -/
def Mod.sendFrames (m : Mod) (p : Nat) : Nat → List Flit → Mod
  | 0, _ => m
  | n + 1, l =>
    if l.isEmpty then m
    else
      Mod.sendFrames (m.putFrame p ((m.port p).frame (pack [(0, 8, 1), (8, 8, (l.take 32).length)]) 0 (l.take 32))) p n (l.drop 32)

/-- A probe datagram, which carries BT (R234, R236). -/
def Mod.sendProbe (m : Mod) (p : Nat) : Mod :=
  if (m.port p).ethernet then m.putFrame p ((m.port p).frame (pack [(0, 8, 1)]) m.beacon.bt []) else m

/-- Flits leave a port, in datagrams in Ethernet mode (R219, R236). -/
def Mod.putFlits (m : Mod) (p : Nat) (l : List Flit) : Mod :=
  if (m.port p).ethernet then m.sendFrames p l.length l else l.foldl (fun (m : Mod) (f : Flit) => m.emit (.flit p f)) m

/-- The next virtual channel with credits to return, and how many, 4,095 at most; (0, 0) with none (R222). -/
def nextReturn (freed : Table Nat) : Nat × Nat :=
  match (List.range 6).find? (fun v => Table.get 0 freed v != 0) with
  | some v => (v, min 4095 (Table.get 0 freed v))
  | none => (0, 0)

/-- Credits returned are no longer owed. -/
def takeReturn (freed : Table Nat) (r : Nat × Nat) : Table Nat := Table.set 0 freed r.1 (Table.get 0 freed r.1 - r.2)

/-- Flits leave with the ACK of the last flit received in order; the first carries the credits that are due (R219, R222). -/
def Mod.sendFlits (m : Mod) (p kind : Nat) (l : List SentFlit) : Mod :=
  let x := m.port p
  let a := nextReturn x.rxFreed
  let b := nextReturn (takeReturn x.rxFreed a)
  let mk := fun (a b : Nat × Nat) (s : SentFlit) => mkFlit kind s.fseq (x.expected - 1) s.start a b s.payload
  match l with
  | [] => m
  | s :: rest =>
    (m.setPort p { x with rxFreed := takeReturn (takeReturn x.rxFreed a) b }).putFlits p (mk a b s :: rest.map (mk (0, 0) (0, 0)))

/-- A flit without payload: IDLE 0, NAK 2, LINK_DOWN 3; it carries the next FSEQ unused (R219). -/
def Mod.sendBare (m : Mod) (p kind : Nat) : Mod := m.sendFlits p kind [{ fseq := (m.port p).nextFseq, start := 0xFF, payload := [] }]

/-- Eight LINK_DOWN flits (R224). -/
def Mod.sendDown (m : Mod) (p : Nat) : Mod :=
  m.sendFlits p 3 (List.replicate 8 { fseq := (m.port p).nextFseq, start := 0xFF, payload := [] })

/-- A link ends: what priority flow control holds is dropped with it, and LINK_DOWN leaves (R224). -/
def Mod.endLink (m : Mod) (p : Nat) : Mod := (m.updPort p (fun x => { x with paused := false, heldFrames := [] })).sendDown p

/-- LINK_DOWN on every port that is not DISABLED, as a module's restart makes its partners see it (R401). -/
def Mod.linksDown (m : Mod) : Mod :=
  (List.range 32).foldl (fun (m : Mod) (p : Nat) => if (m.port p).st = .disabled then m else m.endLink p) m

/-! ## Resets (R224, R232) -/

/-- The record of a port reset (R397); one by the fence of an injected fault says so (R400). -/
def Mod.portRecord (m : Mod) (p reason : Nat) : Mod :=
  m.record { site := portSite p, cls := 0x0F, sev := 2, unit := 0x0500 + p % 8, code := reason, addr := 0, detail := 0,
             sector := none
             injected := reason == 8 && m.tender.injected.any (fun d => match d with
               | .port x => x.val == p
               | .edge x => x.val == p / 8
               | _ => false) }

/-- Increments of generation tags are counted, and those older than 1,000 ms forgotten (R388). -/
def Mod.countBumps (m : Mod) (l : List Domain) : Mod :=
  let live := m.tender.increments.filter (fun x => m.bt < x.2 + 1000000000)
  { m with tender := { m.tender with increments := live ++ l.map (fun x => (x, m.bt)) } }

/-- A port goes to RESET (R224): eight LINK_DOWN flits, the link discarded, the generation incremented and the increment counted (R388),
whatever its state but DISABLED. -/
def Mod.portReset (m : Mod) (p reason : Nat) : Mod :=
  if (m.port p).st = .disabled then m
  else
    let m := (m.endLink p).portRecord p reason
    let x := m.port p
    (m.setPort p { x.dropLink with downReason := reason, generation := x.generation + 1, backoff := 1 }).portTo p .reset
      |>.countBumps (if h : p < 32 then [.port ⟨p, h⟩] else [])

/-- A reset cause of the port itself, which the Tender hears of (R224, R232, R383). -/
def Mod.portFault (m : Mod) (p reason : Nat) : Mod :=
  let m := m.portReset p reason
  if h : p < 32 then m.report (.port ⟨p, h⟩) else m

/-- A port goes to DISABLED by a decision of its own (R224, R230): its link is discarded, its capacity is gone. -/
def Mod.portOff (m : Mod) (p reason : Nat) : Mod :=
  (m.setPort p { (m.port p).dropLink with downReason := reason, capChanged := true }).portTo p .disabled

/-! ## Lane groups (R217, R230) -/

/-- Lanes of a group: width 0 x2, 1 x4, 2 x8. -/
def groupLanes (width group : Nat) : List Nat :=
  if width = 2 then List.range 8
  else if width = 1 then (if group = 0 then [0, 1, 2, 3] else [4, 5, 6, 7])
  else [2 * group, 2 * group + 1]

/-- The groups of a width, lowest first. -/
def groupsOf (width : Nat) : List Nat := if width = 2 then [0] else if width = 1 then [0, 2] else [0, 1, 2, 3]

/-- The widest group of a width from a least to a most without a lane of a set. -/
def widestGroup (bad : BitVec 8) (least most : Nat) : Option (Nat × Nat) :=
  (([2, 1, 0].filter (fun w => least ≤ w && w ≤ most)).flatMap (fun w => (groupsOf w).map (fun g => (w, g)))).find?
    (fun p => (groupLanes p.1 p.2).all (fun l => !bad.getLsbD l))

/-- The least width a port runs at (R230, R238): x8 in Ethernet mode (R234). -/
def Mod.leastWidth (m : Mod) (p : Nat) : Nat := if (m.port p).ethernet then 2 else min 2 (bits (m.fabReg p 0 fabCtrlReset) 5 4)

/-! ## Management (R224, R238, R292) -/

/-- FAB_PORT_CTRL.ENABLE as written. -/
def Mod.setEnable (m : Mod) (p : Nat) (on : Bool) : Mod :=
  let c := m.fabReg p 0 fabCtrlReset
  m.setReg (portSite p) (0x04000000 + p % 8 * 0x100000) fabCtrlReset (if on then c ||| 1 else c &&& ~~~1)

/-- ENABLE written 1: a DISABLED port probes, unless REFCLK_FAB was absent at the start (R428); under a fence of its edge domain it is in RESET
first, as the domain's other ports are (R385); during a shutdown the enable is held (R292). -/
def Mod.portEnable (m : Mod) (port : Nat) : Mod :=
  let m := m.setEnable port true
  let x := m.port port
  if x.st = .disabled then if m.boot.noFab then m else (m.portLatch port).portTo port (if m.edgeFenced (port / 8) then .reset else .probe)
  else if x.shutting then m.setPort port { x with deferred := true }
  else m

/-- FAB_PORT_ENABLE. -/
def execFabPortEnable (port : PortId) (s : State) : Host.Outcome State Fault Refusal := s.go (s.toMod.portEnable port)

/-- ENABLE written 0: the port shuts down; a second write cancels a held enable (R292). -/
def Mod.portDisable (m : Mod) (port : Nat) : Mod :=
  let m := m.setEnable port false
  let x := m.port port
  if x.st = .disabled then m else (m.portReset port 1).updPort port (fun x => { x with shutting := true, deferred := false })

/-- FAB_PORT_DISABLE. -/
def execFabPortDisable (port : PortId) (s : State) : Host.Outcome State Fault Refusal := s.go (s.toMod.portDisable port)

/-- FAB_PORT_RESET: DOWN_REASON 1. -/
def execFabPortReset (port : PortId) (s : State) : Host.Outcome State Fault Refusal := s.go (s.toMod.portReset port 1)

/-- A retrain begins from ACTIVE; session, counters, credits and retry buffer stay (R224). -/
def Mod.startRetrain (m : Mod) (p : Nat) : Mod :=
  if (m.port p).st = .active then
    (m.updPort p (fun x => { x with retrains := satAdd x.retrains 1 0xFFFF, resendRun := 0 })).portTo p .retrain
  else m

/-- FAB_PORT_RETRAIN. -/
def execFabPortRetrain (port : PortId) (s : State) : Host.Outcome State Fault Refusal := s.go (s.toMod.startRetrain port)

/-! ## Training (R224) -/

/-- A port in a state is changed; in another state the event has no effect. -/
def Mod.portIn (m : Mod) (p : Nat) (st : PortSt) (f : Mod → Mod) : Mod := if (m.port p).st = st then f m else m

/-- PROBE_PATTERN_SEEN. -/
def execProbePatternSeen (port : PortId) (s : State) : Host.Outcome State Fault Refusal :=
  s.go (s.toMod.portIn port .probe (fun m => m.portTo port .speed))

/-- CAPABILITY_AGREED: the generation is the lowest of both GEN_MAX values and the partner's offer; Ethernet mode runs the Gen2
SerDes (R4, R224, R234). -/
def execCapabilityAgreed (port : PortId) (partnerMax offer : BitVec 2) (k1 : Bool) (s : State) : Host.Outcome State Fault Refusal :=
  s.go (s.toMod.portIn port .speed (fun m =>
    let x := m.port port
    let g := min x.genMax (min (max 1 partnerMax.toNat) (max 1 offer.toNat))
    (m.setPort port { x with gen := if x.ethernet then 2 else g, k1Partner := k1, capChanged := true }).portTo port .equalize))

/-- EQUALIZE_DONE: the widest group of good lanes, or DISABLED with DOWN_REASON 7; in Ethernet mode a probe then measures the delay. -/
def execEqualizeDone (port : PortId) (failing : BitVec 8) (s : State) : Host.Outcome State Fault Refusal :=
  s.go (s.toMod.portIn port .equalize (fun m =>
    let x := m.port port
    let x := { x with bad := x.bad ||| failing }
    match widestGroup x.bad (m.leastWidth port) 2 with
    | some (w, g) => ((m.setPort port { x with width := w, group := g, capChanged := true }).portTo port .align).sendProbe port
    | none => (m.setPort port x).portOff port 7))

/-- A port's one-way delay measured (R35, R45). -/
def Mod.setDelay (m : Mod) (p : Nat) (delay : BitVec 24) : Mod :=
  { m with beacon := { m.beacon with ports := Table.upd BcnPort.reset m.beacon.ports p (fun x => { x with delay := delay, valid := true }) } }

/-- ALIGN_DONE. -/
def execAlignDone (port : PortId) (delay : BitVec 24) (s : State) : Host.Outcome State Fault Refusal :=
  s.go (s.toMod.portIn port .align (fun m => (m.setDelay port delay).portTo port .linkMgmt))

/-- The credits a partner advertises: MGMT, BEACON, BOOKED, REQ, RSP, BULK, in units of 64 bytes (R222). -/
def fullCredits : Table Nat := [(0, 256), (1, 64), (2, 4096), (3, 8192), (4, 8192), (5, 16384)]

/-- The partner's chain and measurements are judged as SPDM starts (R225, R407): no command carries them, so what they show is a free value
(log entry 130). -/
def Mod.partnerReport (m : Mod) (p : Nat) : Mod :=
  m.takeFree.2.updPort p (fun x => { x with
    partnerRoot := bit m.takeFree.1 0, partnerUnlocked := bit m.takeFree.1 1
    partnerSvn := (List.range 4).map (fun c => (c, bits m.takeFree.1 (8 * c + 15) (8 * c + 8))) })

/-- LINK_MGMT_DONE: credits and identity are exchanged, and the Keeper starts SPDM. -/
def execLinkMgmtDone (port : PortId) (partner : PortId) (idHash : BitVec 384) (s : State) : Host.Outcome State Fault Refusal :=
  s.go (s.toMod.portIn port .linkMgmt (fun m =>
    (m.updPort port (fun x => { x with partnerPort := partner, partnerHash := idHash, credits := fullCredits })).partnerReport port |>.portTo port .auth))

/-- A partner is refused (R224): the backoff is 1 s and doubles at each refusal up to 64 s. -/
def Mod.refusePartner (m : Mod) (p : Nat) (policy : Bool) : Mod :=
  let m := (m.updPort p (fun x => { x with authRefusals := satAdd x.authRefusals 1 0xFFFF, backoff := min 64 (2 * x.backoff) })).portTo
    p .refused
  if policy then m.portOnce p 0x14 else m

/-- AUTH_REFUSED. -/
def execAuthRefused (port : PortId) (policy : Bool) (s : State) : Host.Outcome State Fault Refusal :=
  s.go (s.toMod.portIn port .auth (fun m => m.refusePartner port policy))

/-- AUTH_BACKOFF_EXPIRY: SPDM restarts. -/
def execAuthBackoffExpiry (port : PortId) (s : State) : Host.Outcome State Fault Refusal :=
  s.go (s.toMod.portIn port .refused (fun m => (m.partnerReport port).portTo port .auth))

/-- The port fence completes (R224, R292): BAD marks clear; a shutdown ends in DISABLED, or runs a held enable. Under a fence of its edge domain the port stays in RESET (R385). -/
def Mod.portResetDone (m : Mod) (p : Nat) : Mod :=
  let x := m.port p
  if x.st ≠ .reset || m.edgeFenced (p / 8) then m
  else if x.shutting && !x.deferred then
    (m.setPort p { x with bad := 0, shutting := false, capChanged := true }).portTo p .disabled
  else ((m.setPort p { x with bad := 0, shutting := false, deferred := false }).portLatch p).portTo p .probe

/-- PORT_RESET_DONE. -/
def execPortResetDone (port : PortId) (s : State) : Host.Outcome State Fault Refusal := s.go (s.toMod.portResetDone port)

/-- PORT_STATE_TIMEOUT: back to PROBE with one more failed attempt; RETRAIN's leads to RESET with DOWN_REASON 3 (R224, R232). A port
that shuts down, or whose edge domain is fenced, does not probe (R292, R385). -/
def execPortStateTimeout (port : PortId) (s : State) : Host.Outcome State Fault Refusal :=
  let m := s.toMod
  let again := (m.updPort port (fun x => { x.dropLink with attempts := x.attempts + 1 })).portTo port .probe
  s.go (match (m.port port).st with
    | .speed | .equalize | .align | .linkMgmt | .auth => again
    | .retrain => m.portFault port 3
    | .reset => if m.edgeFenced (port / 8) || ((m.port port).shutting && !(m.port port).deferred) then m.portResetDone port
                else ((m.updPort port (fun x => { x with attempts := x.attempts + 1, shutting := false, deferred := false })).portLatch port).portTo
                  port .probe
    | .disabled | .probe | .active | .refused => m)

/-- PROBE_WINDOW: an absent partner is logged the first time (R224, R232). -/
def execProbeWindow (port : PortId) (s : State) : Host.Outcome State Fault Refusal :=
  s.go (s.toMod.portIn port .probe (fun m =>
    if (m.port port).absentLogged then m
    else (m.updPort port (fun x => { x with absentLogged := true })).portEvent port 0x10))

/-- FEC_LOCK_LOSS. -/
def execFecLockLoss (port : PortId) (s : State) : Host.Outcome State Fault Refusal := s.go (s.toMod.startRetrain port)

/-! ## Sending (R221 to R223, R226, R227, R246) -/

/-- A link packet may start: ACTIVE, all its credits there, 69 of them to spare for dateline class 0, and room in the retry
buffer (R221, R222, R246). -/
def Port.mayStart (x : Port) (vc : Nat) (t : TPkt) : Bool :=
  let c := Table.get 0 x.credits vc
  x.st == .active && x.open_ && t.creditCount + (if t.dl || vc = 1 then 0 else 69) ≤ c && x.unacked.length + t.flitCount ≤ 4096 &&
    !x.paused

/-- n bytes of HKDF-Expand under a session's secret: a label, the direction, the key epoch as 8 bytes (R226). -/
def linkKey (session : Nat) (label : String) (d e n : Nat) : List Byte :=
  (List.range n).map (Config.hkdf session (asciiBytes label ++ [BitVec.ofNat 8 d] ++ bigBytes 8 e))

/-- The body and tag of a link packet: AES-256-GCM under the key and the IV of its counter, its header authenticated (R220, R226). -/
def sealBody (session : Nat) (requester : Bool) (ctr hdr : Word) (t : TPkt) : List Byte :=
  let d := if requester then 1 else 2
  let e := ctr.toNat / 2 ^ 32
  (List.range (t.body + 16)).map (Config.gcm (linkKey session "kweran link key" d e 32)
    (linkKey session "kweran link iv" d e 4 ++ bigBytes 8 ctr.toNat) (wordBytes hdr) t.bytes)

/-- A packet's bytes cut into flits from an FSEQ: it starts in the first of them. -/
def flitsOf (fseq : BitVec 16) (bs : List Byte) (n : Nat) : List SentFlit :=
  (List.range n).map (fun i =>
    { fseq := fseq + BitVec.ofNat 16 i, start := (if i = 0 then 0 else 0xFF), payload := (bs.drop (238 * i)).take 238 })

/-- A link packet sent: its credits taken, its counter used, its flits kept for a resend. The first packet of an epoch but the first
carries EPOCH_START (R220, R221, R226, R227). -/
def Mod.startPacket (m : Mod) (p : Nat) (o : LinkOut) : Mod :=
  let x := m.port p
  let ctr : Word := if x.epochDue then BitVec.ofNat 64 ((x.txCtr.toNat / 2 ^ 32 + 1) * 2 ^ 32) else x.txCtr
  let n := o.pkt.flitCount
  let hdr := linkHeader o.vc (ctr.toNat % 2 ^ 32 = 0 && ctr != 0) o.pkt.body (ctr.toNat % 2 ^ 32)
  let flits := flitsOf x.nextFseq (wordBytes hdr ++ sealBody x.session x.requester ctr hdr o.pkt) n
  let m := m.setPort p { x with
    credits := Table.set 0 x.credits o.vc (Table.get 0 x.credits o.vc - o.pkt.creditCount)
    txCtr := ctr + 1, epochDue := false
    nextFseq := x.nextFseq + BitVec.ofNat 16 n
    unacked := x.unacked ++ flits }
  (m.emit (.packet p o.vc ctr o.pkt)).sendFlits p 1 flits

/-! ## The order of egress (R246, R252, R253, R255) -/

/-- The payload bytes of a link packet: the measure of VOLUME, SLOT_CAP and floors (R218, R220, R254; log entry 45). -/
def LinkOut.size (o : LinkOut) : Nat := o.pkt.body + 24

/-- BOOK_ID of a waiting packet. -/
def LinkOut.bookId (o : LinkOut) : Nat := bits o.pkt.w3 59 44

/-- The live booking of an identifier on an egress port, with its record number. -/
def Mod.booking (m : Mod) (port bookId : Nat) : Option (Nat × Booking) :=
  (m.ed (port / 8)).books.findSome? (fun r => match r.2 with
    | some b => if b.port = port && b.bookId.toNat = bookId && b.start ≤ m.bt then some (r.1, b) else none
    | none => none)

/-- A booking of an identifier is live on an egress port. -/
def Mod.booked (m : Mod) (port bookId : Nat) : Bool := (m.booking port bookId).isSome

/-- Slot boundaries are honoured (R42). -/
def Beacon.slots (b : Beacon) : Bool := b.slotsDue && b.slotsOn

/-- What a booking has sent in the slot under way. -/
def Booking.inSlot (b : Booking) (bt : Nat) : Nat := if b.usedAt = bt / 1024 then b.used else 0

/-- A booking has room for n bytes in the slot under way, a slot of its own (R253, R254). -/
def Booking.room (b : Booking) (bt n : Nat) : Bool := b.mask.getLsbD (bt / 1024 % 64) && b.inSlot bt + n ≤ b.volume

/-- A BOOKED packet is carried as BULK for want of a booking on its port, and counted (R253). -/
def Mod.demote (m : Mod) (p : Nat) : Mod := m.updEd (p / 8) (fun d => { d with demoted := satAdd d.demoted 1 0xFFFF })

/-- A BOOKED packet that waits: without a live booking it is carried as BULK, and counted; in a slot of its booking with VOLUME to
spare it gains its precedence; while slot boundaries are not honoured it needs none (R42, R253, R255). -/
def Mod.admitOne (m : Mod) (p : Nat) (o : LinkOut) : Mod × LinkOut :=
  if o.vc ≠ 2 || o.admitted then (m, o)
  else
    match m.booking p o.bookId with
    | none => (m.demote p, { o with vc := 5 })
    | some (i, b) =>
      if !m.beacon.slots then (m, { o with admitted := true })
      else if b.room m.bt o.size then
        let b : Booking := { b with used := b.inSlot m.bt + o.size, usedAt := m.bt / 1024 }
        (m.updEd (p / 8) (fun d => { d with books := Table.set none d.books i (some b) }), { o with admitted := true })
      else (m, o)

/-- The packets that wait on a port, admitted in their order. -/
def Mod.admitAll (m : Mod) (p : Nat) : List LinkOut → Mod × List LinkOut
  | [] => (m, [])
  | o :: rest =>
    let r := m.admitOne p o
    let r' := Mod.admitAll r.1 p rest
    (r'.1, r.2 :: r'.2)

/-- The packets that leave in their order: one virtual channel and dateline class, and on BOOKED one booking (R246, R253). -/
def LinkOut.lane (o : LinkOut) : Nat × Bool × Nat := (o.vc, o.pkt.dl, if o.vc = 2 then o.bookId + 1 else 0)

/-- The first of each lane. -/
def laneHeads : List LinkOut → List (Nat × Bool × Nat) → List LinkOut
  | [], _ => []
  | o :: rest, seen => if seen.contains o.lane then laneHeads rest seen else o :: laneHeads rest (o.lane :: seen)

/-- A sector has sent less than its floor in the frame under way: FLOOR × FLOOR_SCALE over the frame's 65,536 ns (R253, R256). -/
def Mod.belowFloor (m : Mod) (p : Nat) (s : SectorId) : Bool :=
  decide (Table.get 0 (m.port p).sent s.val <
    bits (m.reg (edSite (p / 8)) (0x200 + s.val * 8) 0) 11 0 * Table.get 65536 (m.ed (p / 8)).floorScale (p % 8))

/-- The level at which a packet is served, and its turn in the round robin across sectors (R253). -/
def Mod.rank (m : Mod) (p : Nat) (o : LinkOut) : Nat × Nat :=
  if o.vc ≤ 1 then (0, 0)
  else if o.vc = 2 then (1, 0)
  else
    let n := o.sector.elim 16 (fun s => s.val)
    if (match o.sector with | some s => m.belowFloor p s | none => false) then (2, 0) else (3, (n + 16 - (m.port p).turn) % 17)

/-- The packet that a port serves next: of those that may start, the first of the least rank. -/
def Mod.nextOut (m : Mod) (p : Nat) : Option LinkOut :=
  ((laneHeads (m.port p).waiting []).filter (fun o => (o.vc ≠ 2 || o.admitted) && (m.port p).mayStart o.vc o.pkt)).foldl
    (fun (a : Option LinkOut) (o : LinkOut) =>
      match a with
      | none => some o
      | some b => if (m.rank p o).1 < (m.rank p b).1 || ((m.rank p o).1 = (m.rank p b).1 && (m.rank p o).2 < (m.rank p b).2) then some o
                  else some b) none

/-- A packet leaves the queue of its port: bytes outside bookings count for its sector's floor, and the round robin passes on. -/
def Mod.serveOut (m : Mod) (p : Nat) (o : LinkOut) : Mod :=
  let r := m.rank p o
  let m := m.updPort p (fun x => { x with
    waiting := x.waiting.erase o
    sent := match o.sector with
      | some s => if 2 ≤ r.1 then Table.set 0 x.sent s.val (Table.get 0 x.sent s.val + o.size) else x.sent
      | none => x.sent
    turn := if r.1 = 3 then (o.sector.elim 16 (fun s => s.val) + 1) % 17 else x.turn })
  m.startPacket p o

/-- Waiting packets that may start, in the order of R253. -/
def Mod.pumpQueue (m : Mod) (p : Nat) : Nat → Mod
  | 0 => m
  | n + 1 =>
    match m.nextOut p with
    | some o => Mod.pumpQueue (m.serveOut p o) p n
    | none => m

/-- A packet waits for room in the retry buffer (R221). -/
def Port.bufferFull (x : Port) : Bool := x.st == .active && x.open_ && x.waiting.any (fun o => decide (4096 < x.unacked.length + o.pkt.flitCount))

/-- A port with packets that wait admits what its slots admit, and sends what may start; an IDLE flit while its retry buffer is full (R221). -/
def Mod.pumpPort (m : Mod) (p : Nat) : Mod :=
  if (m.port p).waiting.isEmpty then m
  else
    let r := m.admitAll p (m.port p).waiting
    let m := (r.1.updPort p (fun x => { x with waiting := r.2 })).pumpQueue p (m.port p).waiting.length
    if (m.port p).bufferFull then m.sendBare p 0 else m

/-- A transport packet handed to a port. -/
def Mod.sendLink (m : Mod) (p vc : Nat) (sector : Option SectorId) (t : TPkt) : Mod :=
  (m.updPort p (fun x => { x with waiting := x.waiting ++ [{ vc := vc, pkt := t, sector := sector, admitted := false }] })).pumpPort p

/-- The Keeper's HELLO to the partner across a link: its feature level and SYSTEM_LEVEL (R406, R419). -/
def Mod.sendHello (m : Mod) (p : Nat) : Mod :=
  m.sendLink p 0 none (mkPkt 0xFFFFFF ((m.nodeId 0).getD 0) (m.hopInit 0) true 5 0 0 0 64 0 0 0 64 0 0
    ([pack [(0, 8, 4)], pack [(0, 16, m.fw.level), (16, 16, bits (m.reg kdSite 0x84018 0) 15 0)]].flatMap wordBytes))

/-- What a partner shows meets DEFAULT_LINK's conditions (R407). -/
def Mod.partnerFit (m : Mod) (x : Port) : Bool :=
  x.partnerRoot && !x.partnerUnlocked && (List.range 4).all (fun c => Table.get 0 m.svnFused c ≤ Table.get 0 x.partnerSvn c)

/-- The link policy admits the partner of a port (R407): a matching entry denies it or grants exactly its LINK right; without one,
DEFAULT_LINK admits one that meets its conditions; a K1-series partner needs ALLOW_K1. -/
def Mod.linkAdmits (m : Mod) (p : Nat) : Bool :=
  let x := m.port p
  let c := m.reg kdSite 0x85000 1
  let mine := ((List.range 64).map (fun n => m.reg kdSite (0x85100 + n * 8) 0)).filter
    (fun w => bit w 56 && bits w 55 0 == x.partnerHash.toNat % 2 ^ 56)
  (!x.k1Partner || bit c 1) &&
    (if mine.isEmpty then bit c 0 && m.partnerFit x else mine.all (fun w => !bit w 58) && mine.any (fun w => bit w 57))

/-- KEYS_INSTALLED: every virtual channel opens under a new session, and the Keepers exchange HELLO (R224 to R226, R419); the module
whose identity key has the lower hash is the requester. A partner that the policy does not admit is refused (R225, R407). -/
def execKeysInstalled (port : PortId) (s : State) : Host.Outcome State Fault Refusal :=
  s.go (s.toMod.portIn port .auth (fun m =>
    if !m.linkAdmits port then m.refusePartner port true
    else
      let m1 : Mod := { m with free := m.free + 1 }
      ((m1.updPort port (fun x => { x with
        open_ := true, partnerValid := true, txCtr := 0, rxExpected := 0, rxEpoch := 0, runAuth := 0, session := m.free,
        requester := decide (m.part.idHash.toNat < x.partnerHash.toNat) })).portTo port .active).sendHello port))

/-! ## Flits received (R219, R221 to R223) -/

/-- Flits run on the link. -/
def Port.flowing (x : Port) : Bool := x.st == .linkMgmt || x.st == .auth || x.st == .active || x.st == .refused

/-- Credits returned on a virtual channel. -/
def addCredits (t : Table Nat) (r : Nat × Nat) : Table Nat :=
  Table.set 0 t r.1 (min (Table.get 0 fullCredits r.1) (Table.get 0 t r.1 + r.2))

/-- The flits still unacknowledged after an ACK of an FSEQ. -/
def ackedBy (unacked : List SentFlit) (ack : BitVec 16) : List SentFlit :=
  if unacked.any (fun u => u.fseq == ack) then (unacked.dropWhile (fun u => u.fseq != ack)).drop 1 else unacked

/-- A flit's ACK and credit returns taken; packets that waited for them start. -/
def Mod.takeAck (m : Mod) (p : Nat) (f : Flit) : Mod :=
  let x := m.port p
  let left := ackedBy x.unacked f.ack
  (m.setPort p { x with
    unacked := left, resendRun := if left.length < x.unacked.length then 0 else x.resendRun
    credits := addCredits (addCredits x.credits f.returnA) f.returnB }).pumpPort p

/-- A NAK sent for a flit that is discarded, or the first of another FSEQ than the expected one; the later ones of such an FSEQ are dropped
without another until a flit of the expected one arrives (R223; log entry 109). -/
def Mod.sendNak (m : Mod) (p : Nat) : Mod := (m.updPort p (fun x => { x with naked := true })).sendBare p 2

/-- Every unacknowledged flit resent; eight in a row from one FSEQ begin a retrain (R223). -/
def Mod.resend (m : Mod) (p : Nat) : Mod :=
  let x := m.port p
  match x.unacked with
  | [] => m
  | a :: _ =>
    let run := if x.resendRun > 0 && x.resendAt = a.fseq then x.resendRun + 1 else 1
    let m := (m.setPort p { x with resendAt := a.fseq, resendRun := run, runRetry := x.runRetry + 1 }).sendFlits p 1 x.unacked
    if run ≥ 8 then m.startRetrain p else m

/-! ## Link packets out of flits (R219, R220, R222) -/

/-- The bytes that a link packet takes in payload, by its first bytes; none while LEN has not arrived. -/
def packetSize (bs : List Byte) : Option Nat :=
  if bs.length < 3 then none else some (bits (BitVec.ofNat 64 (numOf (bs.take 3))) 16 4 + 24)

/-- A whole packet as a receive buffer holds it. -/
def rxPacket (bs : List Byte) : RxPkt := { hdr := bytesWord (bs.take 8), bytes := bs.drop 8 }

/-- Packets back to back from their start: those complete, and the bytes of one that goes on. Bytes of 0 to the end are unused, but for those of
a packet that PSTART names; one or two of them may be the start of a packet, which the next flit tells. -/
def parsePackets : Nat → Bool → List Byte → List RxPkt × List Byte
  | 0, _, bs => ([], bs)
  | n + 1, named, bs =>
    if bs.all (· == 0) && !(named && !bs.isEmpty) then ([], if bs.length < 3 then bs else [])
    else
      match packetSize bs with
      | none => ([], bs)
      | some k =>
        if bs.length < k then ([], bs)
        else
          let r := parsePackets n false (bs.drop k)
          (rxPacket (bs.take k) :: r.1, r.2)

/-- The payload of a flit after the bytes of a packet under way: the packets it completes, the bytes of the one that goes on, and
whether a packet under way broke off at PSTART (log entry 15). Bytes of 0 that ended the flit before were unused where a packet starts at 0. -/
def takePayload (before : List Byte) (start : Nat) (payload : List Byte) : List RxPkt × List Byte × Bool :=
  let part := if start = 0 && before.all (· == 0) then [] else before
  let head := part ++ (if part.isEmpty then [] else payload.take start)
  let rest := parsePackets 12 true (payload.drop start)
  if part.isEmpty then (rest.1, rest.2, false)
  else
    match packetSize head with
    | some k =>
      if k ≤ head.length then (rxPacket (head.take k) :: rest.1, rest.2, false)
      else if start ≥ 238 then (rest.1, head, false) else (rest.1, rest.2, true)
    | none => if start ≥ 238 then (rest.1, head, false) else (rest.1, rest.2, true)

/-- A packet enters its receive buffer; one beyond the credits of its virtual channel is dropped as malformed (R222, R232). -/
def Mod.bufferPacket (m : Mod) (p : Nat) (k : RxPkt) : Mod :=
  let x := m.port p
  let vc := bits k.hdr 2 0
  let used := Table.get 0 x.rxUsed vc + headerCredits k.hdr
  if headerMalformed k.hdr then m.portMalformed p
  else if used > Table.get 0 fullCredits vc then m.portMalformed p
  else m.setPort p { x with rx := x.rx ++ [k], rxUsed := Table.set 0 x.rxUsed vc used }

/-- The payload of an in-order DATA flit taken. -/
def Mod.takePackets (m : Mod) (p : Nat) (f : Flit) : Mod :=
  let r := takePayload (m.port p).rxPart f.start f.payload
  let m := m.updPort p (fun x => { x with rxPart := r.2.1 })
  let m := if r.2.2 then m.portMalformed p else m
  r.1.foldl (fun (m : Mod) (k : RxPkt) => m.bufferPacket p k) m

/-- A flit received (R219, R223): one that is not sound, or whose FSEQ is not the expected one, is dropped, with a NAK; one of the expected FSEQ
ends the wait for it. A DATA flit in order is taken and acknowledged; a NAK has the rest resent. -/
def Mod.receiveFlit (m : Mod) (p : Nat) (f : Flit) : Mod :=
  let x := m.port p
  if !flitSound f then m.sendNak p
  else if f.kind = 3 then (if x.st = .reset then m else m.portReset p 6)
  else if f.fseq != x.expected then (if x.naked then m else m.sendNak p)
  else
    let m := m.setPort p { x with expected := if f.kind = 1 then x.expected + 1 else x.expected, naked := false }
    if f.kind = 1 then ((m.takeAck p f).takePackets p f).sendBare p 0
    else if f.kind = 2 then (m.takeAck p f).resend p
    else m.takeAck p f

/-- DATA_FLIT: in order, or discarded with a NAK. -/
def execDataFlit (port : PortId) (f : Flit) (s : State) : Host.Outcome State Fault Refusal :=
  s.go (if (s.toMod.port port).flowing then s.toMod.receiveFlit port f else s.toMod)

/-- IDLE_FLIT: its FSEQ is the next one unused, so a gap shows a lost flit (R219, R223). -/
def execIdleFlit (port : PortId) (f : Flit) (s : State) : Host.Outcome State Fault Refusal :=
  s.go (if (s.toMod.port port).flowing then s.toMod.receiveFlit port f else s.toMod)

/-- NAK_FLIT: what its ACK names is acknowledged, and every other flit is resent. -/
def execNakFlit (port : PortId) (f : Flit) (s : State) : Host.Outcome State Fault Refusal :=
  s.go (if (s.toMod.port port).flowing then s.toMod.receiveFlit port f else s.toMod)

/-- LINK_DOWN: the partner's link is gone; RESET with DOWN_REASON 6, once (R224, R233). -/
def execLinkDown (port : PortId) (s : State) : Host.Outcome State Fault Refusal :=
  s.go (if (s.toMod.port port).st = .reset then s.toMod else s.toMod.portReset port 6)

/-- ACK_PROGRESS_TIMEOUT. -/
def execAckProgressTimeout (port : PortId) (s : State) : Host.Outcome State Fault Refusal :=
  s.go (if (s.toMod.port port).flowing then s.toMod.resend port else s.toMod)

/-- CREDIT_TO_EXPIRY: a channel with a packet waiting was starved (R232); CREDIT_TO counts no time in the hold states (R376). -/
def execCreditToExpiry (port : PortId) (vc : Fin 6) (s : State) : Host.Outcome State Fault Refusal :=
  let m := s.toMod
  let x := m.port port
  s.go (if m.working && x.st = .active && x.waiting.any (fun o => o.vc == vc.val && decide (Table.get 0 x.credits vc.val < o.pkt.creditCount +
      (if o.pkt.dl || vc.val = 1 then 0 else 69))) then m.portFault port 2 else m)

/-! ## Link packets (R220, R225 to R228, R232) -/

/-- A link packet is delivered at its ED. -/
def Mod.deliver (m : Mod) (p : PortId) (vc : Nat) (t : TPkt) : Mod :=
  { m with inbox := m.inbox ++ [{ ed := p / 8, port := some p, vc := vc, sector := none, pkt := t }] }

/-- A failed tag: the sixteenth in an epoch resets the port (R228, R232). -/
def Mod.linkAuthFail (m : Mod) (p : Nat) : Mod :=
  let m := (m.updPort p (fun x => { x with authFail := satAdd x.authFail 1 0xFFFF, runAuth := x.runAuth + 1 })).portOnce p 0x13
  if (m.port p).runAuth ≥ 16 then m.portFault p 4 else m

/-- The oldest packet of the receive buffers leaves them: its credits are owed to the partner (R222). -/
def Port.takeRx (x : Port) (k : RxPkt) : Port :=
  let vc := bits k.hdr 2 0
  let n := headerCredits k.hdr
  { x with rx := x.rx.drop 1, rxUsed := Table.set 0 x.rxUsed vc (Table.get 0 x.rxUsed vc - n)
           rxFreed := Table.set 0 x.rxFreed vc (Table.get 0 x.rxFreed vc + n) }

/-- A packet in a session, checked against counter and epoch (R228). Its ciphertext opens to a packet of LEN bytes or to none. -/
def Mod.checkPacket (m : Mod) (p : PortId) (hdr : Word) (body : LinkBody) : Mod :=
  let q := m.port p
  let lo := bits q.rxExpected 31 0
  let open_ := match body with
    | .opened t => if t.body = bits hdr 16 4 then some t else none
    | _ => none
  if bit hdr 3 then
    if bits hdr 63 32 ≠ 0 then m.portMalformed p
    else
      match open_ with
      | none => m.linkAuthFail p
      | some t =>
        (m.setPort p { q with rxExpected := BitVec.ofNat 64 ((q.rxEpoch.toNat + 1) * 2 ^ 32 + 1), rxEpoch := q.rxEpoch + 1 }).deliver p
          (bits hdr 2 0) t
  else if bits hdr 63 32 = lo then
    match open_ with
    | none => m.linkAuthFail p
    | some t => (m.setPort p { q with rxExpected := q.rxExpected + 1 }).deliver p (bits hdr 2 0) t
  else if bits hdr 63 32 < lo then (m.setPort p { q with replay := satAdd q.replay 1 0xFFFF }).portOnce p 0x12
  else m.linkAuthFail p

/-- A packet before keys (R225, R232): only SPDM on MGMT passes, 64 MGMT packets in each ms; what it says arrives as SPDM_MESSAGE. -/
def Mod.checkClear (m : Mod) (p : PortId) (hdr : Word) (body : LinkBody) : Mod :=
  if bits hdr 2 0 ≠ 0 then m.portMalformed p
  else
    let q := m.port p
    let q := if m.bt ≥ q.mgmtSince + 1000000 then { q with mgmtSince := m.bt, mgmtCount := 0 } else q
    let m := m.setPort p { q with mgmtCount := q.mgmtCount + 1 }
    if body ≠ .spdm || q.mgmtCount ≥ 64 then m.portMalformed p else m

/-- A port in Ethernet mode with PFC_EN set holds its partner, or releases it (R234, R238): the spec does not say when, so whether it does now is
free (log entry 109). -/
def Mod.choosePfc (m : Mod) (p : Nat) : Mod :=
  let x := m.port p
  if !x.ethernet || !bit (x.ethReg 0x100) 38 then m
  else if bit m.takeFree.1 0 then ((m.takeFree.2).updPort p (fun x => { x with holds := !x.holds })).emit (.pfc p (!x.holds))
  else m.takeFree.2

/-- LINK_PACKET: the oldest packet received is checked, and delivered or dropped; its credits return (R222, R225, R228, R232). -/
def execLinkPacket (port : PortId) (x : LinkBody) (s : State) : Host.Outcome State Fault Refusal :=
  let m := s.toMod
  let q := m.port port
  s.go (match q.rx with
    | [] => m
    | k :: _ =>
      if !q.flowing then m
      else
        let m := m.setPort port (q.takeRx k)
        let m := if q.st = .active then m.checkPacket port k.hdr x else m.checkClear port k.hdr x
        (if (m.port port).flowing then m.sendBare port 0 else m).choosePfc port)

/-- KEY_EPOCH_TIMER: the transmitter moves to the next epoch before its next packet (R227). -/
def execKeyEpochTimer (port : PortId) (s : State) : Host.Outcome State Fault Refusal :=
  s.go (s.toMod.updPort port (fun x => if x.open_ then { x with epochDue := true } else x))

/-! ## Thresholds and step-down (R229 to R231) -/

/-- The half of a group kept when it holds no BAD lane: the one whose corrected symbols sum lower, the lower on a tie. -/
def halfGroup (width group : Nat) (sym : List Nat) : Option (Nat × Nat) :=
  let sum := fun (g : Nat) (w : Nat) => ((groupLanes w g).map (fun l => sym.getD l 0)).foldl (· + ·) 0
  if width = 2 then some (1, if sum 2 1 < sum 0 1 then 2 else 0)
  else if width = 1 then some (0, if sum (group + 1) 0 < sum group 0 then group + 1 else group)
  else none

/-- A degraded port steps down, or is disabled with DOWN_REASON 5. -/
def Mod.stepDown (m : Mod) (p : Nat) (sym : List Nat) : Mod :=
  let x := m.port p
  let clean := (groupLanes x.width x.group).all (fun l => !x.bad.getLsbD l)
  let next := if clean then halfGroup x.width x.group sym else widestGroup x.bad 0 x.width
  match next with
  | some (w, g) =>
    if w < m.leastWidth p then m.portOff p 5
    else
      ((m.setPort p { x with nextLanes := some (w, g), stepdowns := satAdd x.stepdowns 1 0xFFFF }).portOnce p 0x15).startRetrain p
  | none => m.portOff p 5

/-- The corrected errors of a port's lanes in an epoch, each lane recorded (R397); those of an injection say so (R400). -/
def Mod.laneErrors (m : Mod) (p : Nat) (sym : List Nat) (injected : Option Nat) : Mod :=
  ((List.range 8).filter (fun l => decide (0 < sym.getD l 0))).foldl (fun (m : Mod) (l : Nat) =>
    m.record { site := portSite p, cls := 0x0E, sev := 0, unit := 0x0500 + p % 8, code := 0, addr := 0,
               detail := l, sector := none, injected := injected == some l }) m

/-- PORT_EPOCH_CHECK: the epoch's corrected errors are recorded; its counts, gathered outside RETRAIN, are shown, and compared in ACTIVE; a
boundary in RETRAIN discards them (R229, R233). -/
def execPortEpochCheck (port : PortId) (corrected : List Nat) (uncorrectable : Nat) (s : State) : Host.Outcome State Fault Refusal :=
  let m := s.toMod
  let x := m.port port
  let th := m.fabReg port 0x18 fabThreshReset
  let inj := fun (l : Nat) => if x.injectLane = some l then 1 else 0
  let sym := (List.range 8).map (fun l => corrected.getD l 0 + inj l)
  let m := m.laneErrors port sym x.injectLane
  let compared := x.st == .active
  let active := groupLanes x.width x.group
  let nowBad := if compared then active.filter (fun l => sym.getD l 0 > bits th 31 0) else []
  let x : Port := { x with runRetry := 0, runAuth := 0, logged := [], injectLane := none }
  let shown : Port := { x with
    uncorr := min uncorrectable 0xFFFF, retry := min (s.toMod.port port).runRetry 0xFFFF
    symCorr := (List.range 8).foldl (fun t l => Table.set 0 t l (min (sym.getD l 0) 0xFFFFFFFF)) ([] : Table Nat)
    bad := x.bad ||| BitVec.ofNat 8 (maskOf nowBad) }
  s.go (if x.st = .retrain then m.setPort port x
    else if compared && (uncorrectable > bits th 47 32 || (s.toMod.port port).runRetry > bits th 63 48 || !nowBad.isEmpty) then
      (m.setPort port shown).stepDown port sym
    else m.setPort port shown)

/-- RETRAIN_DONE: the new width if one was chosen, the delay measured again, unacknowledged flits resent. -/
def execRetrainDone (port : PortId) (delay : BitVec 24) (s : State) : Host.Outcome State Fault Refusal :=
  s.go (s.toMod.portIn port .retrain (fun m =>
    let x := m.port port
    let x := match x.nextLanes with
      | some (w, g) => { x with width := w, group := g, nextLanes := none, capChanged := true }
      | none => x
    let m := ((m.setPort port x).setDelay port delay).portTo port .active
    ((m.sendProbe port).sendFlits port 1 x.unacked).pumpPort port))

/-! ## Ethernet mode (R234 to R237) -/

/-- NEIGHBOUR_SOLICITATION: answered for LOCAL_IP; any other is dropped as malformed (R235). -/
def execNeighbourSolicitation (port : PortId) (target : BitVec 128) (s : State) : Host.Outcome State Fault Refusal :=
  let m := s.toMod
  let x := m.port port
  let ip := (x.ethReg 0x118).toNat * 2 ^ 64 + (x.ethReg 0x120).toNat
  s.go (if !x.ethernet || x.st = .disabled || x.st = .reset then m
    else if target.toNat = ip then m.emit (.neighbour port (bits (x.ethReg 0x108) 47 0) ip)
    else m.portMalformed port)

/-- The flits of a datagram, in order. -/
def Mod.takeFlits (m : Mod) (p : Nat) : List Flit → Mod
  | [] => m
  | f :: rest => Mod.takeFlits (if (m.port p).flowing then m.receiveFlit p f else m) p rest

/-- A datagram is for this link (R234, R235): a frame of 64 to 9,216 bytes to LOCAL_IP on UDP_PORT from PEER_IP. -/
def Port.addressed (x : Port) (d : Datagram) : Bool :=
  64 ≤ d.length && d.length ≤ 9216 && d.dst.toNat == (x.ethReg 0x118).toNat * 2 ^ 64 + (x.ethReg 0x120).toNat &&
    d.src.toNat == (x.ethReg 0x128).toNat * 2 ^ 64 + (x.ethReg 0x130).toNat && d.udpPort.toNat == bits (x.ethReg 0x100) 15 0

/-- UDP_DATAGRAM: a shim and up to 32 flits; a probe, with none, serves the delay measurement (R236). -/
def execUdpDatagram (port : PortId) (d : Datagram) (s : State) : Host.Outcome State Fault Refusal :=
  let m := s.toMod
  let x := m.port port
  s.go (if !x.ethernet || x.st = .disabled || x.st = .reset then m
    else if !x.addressed d || bits d.shim0 7 0 ≠ 1 || bits d.shim0 15 8 > 32 then m.portMalformed port
    else (m.takeFlits port (d.flits.take (bits d.shim0 15 8))).choosePfc port)

/-- Priority flow control lets the port send again: the frames it held leave in their order (R235). -/
def Mod.releaseFrames (m : Mod) (p : Nat) : Mod :=
  let held := (m.port p).heldFrames
  held.foldl (fun (m : Mod) (f : List Byte) => m.emit (.frame p f)) (m.updPort p (fun x => { x with paused := false, heldFrames := [] }))

/-- PFC_FRAME: applied with PFC_EN set; else malformed (R235). -/
def execPfcFrame (port : PortId) (hold : Bool) (s : State) : Host.Outcome State Fault Refusal :=
  let m := s.toMod
  let x := m.port port
  s.go (if !x.ethernet || x.st = .disabled || x.st = .reset then m
    else if bit (x.ethReg 0x100) 38 then
      if hold then m.setPort port { x with paused := true } else (m.releaseFrames port).pumpPort port
    else m.portMalformed port)

end Sys2Proof.Machine
end

