-- ==== Sys2Proof/Machine/Sets.lean ====
section
/-!
DEFINITION. How a staged set ends (R48, R51, R457).
-/
namespace Sys2Proof.Machine
open Sys2Proof

/-- The number KPR_STAGE_STATE gives a set's state (R52). -/
def SetSt.num : SetSt → Nat
  | .empty => 0 | .opened => 1 | .checked => 2 | .armed => 3 | .applying => 4

/-- The OWNER field of a set (R52). -/
def StagedSet.ownerNum (x : StagedSet) : Nat :=
  match x.owner with
  | some o => issuerNum o
  | none => 0x1F

/-- A staged set emptied (R48). Its FIRST_CONFLICT then reads none: the spec does not say whether it stays (DESIGN CHOICE, log entry 110). -/
def Mod.emptySet (m : Mod) (i : Nat) : Mod := m.setSet i StagedSet.reset

/-- A set leaves ARMED or APPLYING: it is emptied, which completes its APPLY_AT for a fence (R284), the event is recorded, and the APPLY_AT
is replied (R48, R457). -/
def Mod.leaveSet (m : Mod) (i sub status detail progress : Nat) : Mod :=
  let x := m.set i
  let m := (m.emptySet i).logEvent 0x09 sub kdSite (i + x.ownerNum * 4 + status * 65536)
    (pack [(0, 16, detail), (16, 13, progress), (32, 32, x.instant.toNat / 1024)])
  match x.apply with
  | some p => (m.updFlight p (fun f => { f with past := true })).endCmd p status detail progress
  | none => m

/-- Every set for which a condition holds is emptied; one that is ARMED or APPLYING with its reply (R48). -/
def Mod.dropSets (m : Mod) (sub status : Nat) (which : StagedSet → Bool) : Mod :=
  [0, 1, 2, 3].foldl (fun m i =>
    let x := m.set i
    if !which x then m
    else if x.st = .armed || x.st = .applying then m.leaveSet i sub status 0 0
    else m.emptySet i) m

/-- A sector's set is being applied (R48). -/
def Mod.applies (m : Mod) (s : Nat) : Bool :=
  [0, 1, 2, 3].any (fun i => (m.set i).st == .applying && (m.set i).owner == some (.sector (Fin.ofNat 16 s)))

/-- Some set of the module is ARMED (R37). -/
def Mod.anyArmed (m : Mod) : Bool := [0, 1, 2, 3].any (fun i => (m.set i).st == .armed)

end Sys2Proof.Machine
end

