-- ==== Sys2Proof/Machine/Beacon.lean ====
section
/-!
DEFINITION. The beacon unit (R32 to R45). Beacon time moves by BEACON_TICK, from boundary to boundary; an event between two
boundaries is evaluated at the second (R37, R40). How long a tick lasts, slewing included, is the outside's (log entry 20).
-/
namespace Sys2Proof.Machine
open Sys2Proof

/-- The number of a beacon state (R44). -/
def BcnSt.num : BcnSt → Nat
  | .acquiring => 0 | .locked => 1 | .holdover => 2 | .free => 3 | .masterLocked => 4 | .masterHoldover => 5 | .masterFree => 6

/-- The unit is in the master role (R37). -/
def Beacon.isMaster (b : Beacon) : Bool := b.st == .masterLocked || b.st == .masterHoldover || b.st == .masterFree

/-- The beacon is LOCKED, or in a master state (R42). -/
def Beacon.locked (b : Beacon) : Bool := b.st == .locked || b.isMaster

/-- UPSTREAM_PORT (R44). -/
def Beacon.upstreamNum (b : Beacon) : Nat := b.upstream.elim 0x3F (fun p => p.val)

/-- The beacon unit changed. -/
def Mod.updBeacon (m : Mod) (f : Beacon → Beacon) : Mod := { m with beacon := f m.beacon }

/-! ## The module in its isophase group (R366) -/

/-- A power event of the module, with INPUT_W and ALLOW_W (R457). -/
def Mod.powerLog (m : Mod) (sub site data0 : Nat) : Mod :=
  m.logEvent 0x02 sub site data0 (pack [(0, 16, m.power.inputW), (16, 16, m.power.allow / 1000)])

/-- PWR_ISO_CTRL (R379). -/
def Mod.isoCtrl (m : Mod) : Word := m.reg kdSite 0x60020 0x21B40000000

/-- GROUP. -/
def Mod.isoGroup (m : Mod) : Nat := bits m.isoCtrl 15 0

/-- The beacon lets a module take part in its group (R366). -/
def Beacon.takesPart (b : Beacon) : Bool := b.locked || b.st == .holdover

/-- A joined module whose beacon is FREE or ACQUIRING is detached (R366). -/
def Mod.checkMember (m : Mod) : Mod :=
  if m.power.member = 1 && !m.beacon.takesPart then
    ({ m with power := { m.power with member := 2 } } : Mod).powerLog 0x15 kdSite (m.power.ceiling + m.isoGroup * 65536)
  else m

/-- A change of lock state, recorded in the event log (R42, R457); slots are lost in FREE, in the frame under way too, and due again from
a frame boundary once LOCKED or master (R42); a member of an isophase group that enters FREE or ACQUIRING is detached (R366). -/
def Mod.beaconTo (m : Mod) (st : BcnSt) : Mod :=
  let b := m.beacon
  if b.st = st then m
  else
    let free := st == .free
    ((m.updBeacon (fun b => { b with
        st := st, slotsDue := !free && (b.slotsDue || st = .locked || st = .masterFree), slotsOn := !free && b.slotsOn })).logEvent
      0x01 st.num kdSite (b.st.num + b.upstreamNum * 8 + b.hop.toNat * 512) (BitVec.ofNat 64 b.errBound)).checkMember

/-- BT steps by a number of nanoseconds (R37, R40, R41). -/
def Mod.stepBt (m : Mod) (d : Int) : Mod :=
  (m.updBeacon (fun b => { b with bt := BitVec.ofInt 64 (b.bt.toNat + d), stepCount := satAdd b.stepCount 1 0xFFFF })).logEvent
    0x01 0x11 kdSite m.beacon.st.num (BitVec.ofInt 64 d)

/-- Holdover begins: ERROR_BOUND is 25 ns and grows (R37, R40). -/
def Mod.toHoldover (m : Mod) : Mod :=
  (m.updBeacon (fun b => { b with errBound := 25, growing := true, boundBase := 25, grown := 0, absent := 0, good := 0,
                                  bad := 0 })).beaconTo .holdover

/-- The follower is FREE: armed sets are abandoned, their replies BEACON_UNLOCKED (R40, R48). -/
def Mod.toFree (m : Mod) : Mod :=
  let m := (m.updBeacon (fun b => { b with errBound := 0xFFFF, growing := false, acquired := false, good := 0, bad := 0 })).beaconTo .free
  m.dropSets 4 0x0502 (fun x => x.st == .armed)

/-- The follower is LOCKED. -/
def Mod.toLocked (m : Mod) : Mod :=
  (m.updBeacon (fun b => { b with errBound := 25, growing := false, good := 0, bad := 0 })).beaconTo .locked

/-- The node ID and the identity-hash bits that this module's own flits carry (R34). -/
def Mod.beaconId (m : Mod) : Nat × Nat :=
  let w := m.reg (edSite 0) 0 0
  (if bit w 24 then bits w 23 0 else 0, m.part.idHash.toNat % 2 ^ 32)

/-! ## Ports and the choice of the upstream (R34, R237) -/

/-- A port is trained: beacons flow on it once it is ACTIVE (R224). -/
def Mod.trained (m : Mod) (p : Nat) : Bool := (m.port p).st == .active

/-- The hop count of a port that may be the upstream. R34 gives no time for which a port counts as carrying beacons: the model keeps a heard
hop count for 8 ticks, R40's time of absence (DESIGN CHOICE, log entry 127). -/
def Mod.portHop (m : Mod) (p : Nat) : Option Nat :=
  let x := Table.get BcnPort.reset m.beacon.ports p
  if m.trained p && x.quiet < 8 && (!(m.port p).ethernet || bit ((m.port p).ethReg 0x100) 39) then x.heard.map (fun f => f.hop.toNat)
  else none

/-- The port of the lowest hop count, the lowest index among equals. -/
def Mod.bestPort (m : Mod) : Option PortId :=
  ((List.finRange 32).foldl (fun (a : Option (PortId × Nat)) (p : PortId) =>
    match m.portHop p, a with
    | none, _ => a
    | some h, none => some (p, h)
    | some h, some (_, g) => if h < g then some (p, h) else a) none).map (·.1)

/-- The upstream chosen anew; a LOCKED follower that has lost its port and hears no other begins holdover (R34, R40). -/
def Mod.selectUpstream (m : Mod) : Mod :=
  let b := m.beacon
  if b.isMaster then m
  else
    match m.bestPort with
    | some p => m.updBeacon (fun b => { b with upstream := some p })
    | none =>
      match b.upstream with
      | some p =>
        if m.trained p then m
        else
          let m := m.updBeacon (fun b => { b with upstream := none })
          if b.st = .locked then m.toHoldover else m
      | none => m

/-! ## Events (R36, R37, R40) -/

/-- The master role is left: no own flits, ERROR_BOUND 25 ns (R37). -/
def Mod.leaveRole (m : Mod) : Mod :=
  (m.updBeacon (fun b => { b with hop := 0x3FF, traceable := false, stepWaiting := none, refs := [], others := [], quiet := 0 })).toHoldover

/-- The master role is entered: BT is kept (R37). -/
def Mod.enterRole (m : Mod) : Mod :=
  (m.updBeacon (fun b => { b with upstream := none, hop := 0, traceable := false, errBound := 0, growing := false, good := 0, bad := 0,
                                  stepped := false, stepWaiting := none, refs := [], others := [], late := [] })).beaconTo .masterFree

/-- MASTER became a value, or MASTER_CONFLICT was cleared under it (R36, R37). -/
def Mod.checkRole (m : Mod) (master : Bool) : Mod :=
  let b := m.beacon
  let role := master && !b.conflict
  if b.isMaster && !role then m.leaveRole else if !b.isMaster && role then m.enterRole else m

/-- The last n offsets of the reference agree within 20 ns. -/
def agree (n : Nat) (l : List Int) : Bool :=
  let k := l.take n
  k.length == n && k.all (fun a => k.all (fun b => (a - b).natAbs ≤ 20))

/-- A measured offset of a source (R37): it may lock the reference, a PTP one after 16 that agree, a PPS one after 4; once locked, traceable
follows it. The first lock of the role beyond 1 us takes the role's one step, to the newest offset; a later one slews. While the step waits for
ARMED sets R37 does not say which state shows: the model stays MASTER_FREE with traceable 0 until the step, and locks without it once the newest
offsets agree within 1 us of BT (DESIGN CHOICE, log entry 127). -/
def Mod.takeReference (m : Mod) (source : BitVec 2) (off : Int) : Mod :=
  let b := m.beacon
  if !b.isMaster then m
  else
    let refs := (off :: b.refs).take 16
    let m := m.updBeacon (fun b => { b with refs := refs })
    let near := decide (off.natAbs ≤ 20)
    if b.st = .masterLocked then m.updBeacon (fun b => { b with traceable := b.traceable || near })
    else if !agree (if source = 2 then 16 else 4) refs then
      m.updBeacon (fun b => { b with stepWaiting := b.stepWaiting.map (fun _ => off) })
    else if b.st = .masterFree && off.natAbs > 1000 && (!b.stepped || b.stepWaiting.isSome) then
      m.updBeacon (fun b => { b with stepped := true, stepWaiting := some off })
    else (m.updBeacon (fun b => { b with traceable := near, stepWaiting := none })).beaconTo .masterLocked

/-- The reference is lost (R37, R39). -/
def Mod.loseReference (m : Mod) : Mod :=
  let b := m.beacon
  let m := m.updBeacon (fun b => { b with refs := [], stepWaiting := none })
  if b.st = .masterLocked then (m.updBeacon (fun b => { b with traceable := false })).beaconTo .masterHoldover else m

/-- A flit heard by a master: the one of the lower identity keeps the role (R36). The identity-hash bits tell an own flit that comes back,
with a node ID of before too: no two modules share them. The master that keeps the role records another master once in it
(log entry 21). -/
def Mod.hearMaster (m : Mod) (f : BeaconFlit) : Mod :=
  let own := m.beaconId
  let other := (f.masterId.toNat, f.idHash.toNat)
  if other.2 = own.2 then m
  else
    let keep := own.1 < other.1 || (own.1 = other.1 && own.2 < other.2)
    let told := fun (m : Mod) => m.logEvent 0x01 0x10 kdSite (other.1 + flag keep * 2 ^ 24) (BitVec.ofNat 64 other.2)
    if keep then
      if m.beacon.others.contains other then m
      else told (m.updBeacon (fun b => { b with others := other :: b.others }))
    else (told (m.updBeacon (fun b => { b with conflict := true }))).leaveRole.selectUpstream

/-- A flit of the upstream port under the lock state machine of R40. -/
def Mod.followFlit (m : Mod) (f : BeaconFlit) (err : Int) : Mod :=
  let m := m.updBeacon (fun b => { b with traceable := f.traceable, masterId := f.masterId, offset := err, quiet := 0,
                                          hop := BitVec.ofNat 10 (min (f.hop.toNat + 1) 0x3FF) })
  let b := m.beacon
  let a := err.natAbs
  let good := if a ≤ 20 then b.good + 1 else 0
  match b.st with
  | .acquiring =>
    if !b.acquired then (m.stepBt err).updBeacon (fun b => { b with acquired := true, good := 0 })
    else if good ≥ 64 then m.toLocked else m.updBeacon (fun b => { b with good := good })
  | .locked =>
    let bad := if a > 100 then b.bad + 1 else 0
    if bad ≥ 4 then m.toHoldover else m.updBeacon (fun b => { b with bad := bad })
  | .holdover =>
    if a > b.errBound then m.toFree
    else if good ≥ 64 then m.toLocked
    else m.updBeacon (fun b => { b with good := good, errBound := a + 10, growing := false })
  | .free => ((m.stepBt err).updBeacon (fun b => { b with acquired := true, good := 0 })).beaconTo .acquiring
  | .masterLocked | .masterHoldover | .masterFree => m

/-- A flit evaluated; what is to be forwarded now, and what at the next boundary of a stepped count (R34). The flit that ends a master's role
is the first it follows, and forwards, in the same evaluation: R36 has the other master follow and R37 does not say from which flit on
(DESIGN CHOICE, log entry 127). -/
def Mod.takeFlit (m : Mod) (port : PortId) (f : BeaconFlit) (err : Int) : Mod × List (Nat × BeaconFlit) :=
  let m := if m.beacon.isMaster then m.hearMaster f else m
  if m.beacon.isMaster || m.beacon.upstream != some port then (m, [])
  else
    let m' := m.followFlit f err
    let fwd : List (Nat × BeaconFlit) := if f.hop = 0x3FF then [] else [(port.val, { f with hop := f.hop + 1 })]
    if m'.beacon.bt = m.beacon.bt then (m', fwd) else (m'.updBeacon (fun b => { b with late := b.late ++ fwd }), [])

/-- Events evaluated in their order. -/
def Mod.takeEvents (m : Mod) : List BcnEvent → Mod × List (Nat × BeaconFlit)
  | [] => (m, [])
  | e :: rest =>
    let r := match e with
      | .flit p f err => m.takeFlit p f err
      | .reference source off => (m.takeReference source off, [])
      | .lost => (m.loseReference, [])
      | .role master => (m.checkRole master, [])
    let r' := Mod.takeEvents r.1 rest
    (r'.1, r.2 ++ r'.2)

/-! ## The tick -/

/-- What each port last heard, and for how many ticks it has heard nothing. -/
def Mod.hearPorts (m : Mod) (ev : List BcnEvent) : Mod :=
  let aged := Table.mapAll BcnPort.reset m.beacon.ports (fun _ x => { x with quiet := x.quiet + 1 })
  let ports := ev.foldl (fun (t : Table BcnPort) e =>
    match e with
    | .flit p f _ => Table.upd BcnPort.reset t p.val (fun x => { x with heard := some f, quiet := 0 })
    | _ => t) aged
  m.updBeacon (fun b => { b with ports := ports })

/-- A flit sent at a boundary, with the BT of the boundary (R34). -/
def Mod.sendBeacon (m : Mod) (p : Nat) (bt : Word) (f : BeaconFlit) : Mod :=
  m.emit (.beacon p [bt.toNat, f.masterId.toNat, f.idHash.toNat, f.hop.toNat, flag f.traceable])

/-- The flits of a boundary: a master's own on every trained port, or those forwarded on the others (R34). -/
def Mod.sendBeacons (m : Mod) (bt : Word) (fwd : List (Nat × BeaconFlit)) : Mod :=
  let ports := (List.range 32).filter m.trained
  if m.beacon.isMaster then
    let own := m.beaconId
    let f : BeaconFlit := { bt := bt, masterId := BitVec.ofNat 24 own.1, idHash := BitVec.ofNat 32 own.2, hop := 0,
                            traceable := m.beacon.traceable }
    ports.foldl (fun m p => m.sendBeacon p bt f) m
  else fwd.foldl (fun m x => (ports.filter (· ≠ x.1)).foldl (fun m p => m.sendBeacon p bt x.2) m) m

/-- The master's step, at the first boundary with no set ARMED (R37). -/
def Mod.masterStep (m : Mod) : Mod :=
  match m.beacon.stepWaiting with
  | some d =>
    if m.anyArmed then m
    else ((m.stepBt d).updBeacon (fun b => { b with stepWaiting := none, traceable := true })).beaconTo .masterLocked
  | none => m

/-- Ticks without a flit are counted, and a bound that grows, grows: 4 ns in each ms (R40). -/
def Beacon.age (b : Beacon) : Beacon :=
  let b := { b with quiet := b.quiet + 1, absent := b.absent + 1 }
  if b.st = .holdover && b.growing then
    { b with grown := b.grown + 1, errBound := b.boundBase + 4 * (b.grown + 1) * 1024 / 1000000 }
  else b

/-- The next multiple of a tick. -/
def nextTick (bt : Word) : Word := BitVec.ofNat 64 ((bt.toNat / 1024 + 1) * 1024)

/-- BEACON_TICK: BT reaches its next boundary; the events since the last are evaluated; flits leave (R32, R34, R37, R40);
a port's next slot begins (R253). -/
def execBeaconTick (s : State) : Host.Outcome State Fault Refusal :=
  let m := s.toMod
  let ev := m.beacon.events
  let late := m.beacon.late
  let bt := nextTick m.beacon.bt
  let m := m.updBeacon (fun b => { b.age with bt := bt, events := [], late := [] })
  let r := ((m.hearPorts ev).selectUpstream).takeEvents ev
  s.go ((List.range 32).foldl Mod.pumpPort ((r.1.sendBeacons bt (late ++ r.2)).masterStep))

/-- BEACON_FLIT: a flit arrives on a trained port, ns into the tick under way; its error is taken at once, its evaluation is the
next boundary's (R34, R40). Flit BT is whole ns and BCN_PORT_DELAY sixteenths: R34 gives no rounding of their sum, and that the
delay counts to the nearest ns is the model's choice (log entry 20). -/
def execBeaconFlit (port : PortId) (f : BeaconFlit) (ns : BitVec 10) (s : State) : Host.Outcome State Fault Refusal :=
  let m := s.toMod
  let x := Table.get BcnPort.reset m.beacon.ports port
  let err : Int := (f.bt.toNat + (x.delay.toNat + 8) / 16 : Nat) - (m.bt + ns.toNat : Nat)
  s.go (if m.trained port then m.updBeacon (fun b => { b with events := b.events ++ [.flit port f err] }) else m)

/-- BEACON_FLIT_ABSENCE: 8 ticks in a row without a flit (R40). -/
def execBeaconFlitAbsence (s : State) : Host.Outcome State Fault Refusal :=
  let m := s.toMod
  let b := m.beacon
  s.go (if b.quiet < 8 then m
    else if b.st = .locked then m.toHoldover
    else if b.st = .holdover && !b.growing then
      m.updBeacon (fun b => { b with growing := true, boundBase := b.errBound, grown := 0, absent := b.quiet, good := 0 })
    else m)

/-- HOLDOVER_TIMEOUT: ERROR_BOUND above 250 ns, or 65,536 ticks of absence (R40). -/
def execHoldoverTimeout (s : State) : Host.Outcome State Fault Refusal :=
  let m := s.toMod
  let b := m.beacon
  s.go (if b.st = .holdover && (b.errBound > 250 || (b.growing && b.absent ≥ 65536)) then m.toFree else m)

/-- PPS_EDGE: an offset, if the 10 MHz input is present; without it the reference is lost; with another reference configured it
tells nothing (R37). The spec does not say how the Keeper's management function sets the seconds value of a 1PPS reference (R33): the model has no
such value and takes the whole offset from the command (DESIGN CHOICE, log entry 127). -/
def execPpsEdge (offset : Int) (tenMhz : Bool) (s : State) : Host.Outcome State Fault Refusal :=
  s.go (s.toMod.updBeacon (fun b =>
    if b.source = 1 then { b with events := b.events ++ [if tenMhz then .reference 1 offset else .lost] } else b))

/-- PTP_SYNC (R37). -/
def execPtpSync (offset : Int) (s : State) : Host.Outcome State Fault Refusal :=
  s.go (s.toMod.updBeacon (fun b => if b.source = 2 then { b with events := b.events ++ [.reference 2 offset] } else b))

/-- REFERENCE_LOSS (R37). -/
def execReferenceLoss (s : State) : Host.Outcome State Fault Refusal :=
  s.go (s.toMod.updBeacon (fun b => { b with events := b.events ++ [.lost] }))

/-- A write of BCN_CTRL: SOURCE 0b11 leaves the field and is recorded; a changed SOURCE loses the old reference (R37, R43). -/
def Mod.beaconCtrl (m : Mod) (master : Bool) (source : BitVec 2) : Mod :=
  let m := if source = 3 then m.malformed kdSite (cbBase kdSite + 0x40000) 8 none else m
  m.updBeacon (fun b => { b with
    master := master, source := if source = 3 then b.source else source
    events := b.events ++ (if source = 3 || source = b.source then [] else [.lost]) ++ (if master = b.master then [] else [.role master]) })

/-- BCN_CTRL_WRITE. -/
def execBcnCtrlWrite (master : Bool) (source : BitVec 2) (s : State) : Host.Outcome State Fault Refusal :=
  s.go (s.toMod.beaconCtrl master source)

/-- BCN_STATUS.MASTER_CONFLICT cleared (R37, R44). -/
def Mod.clearConflict (m : Mod) : Mod :=
  m.updBeacon (fun b => if b.conflict then { b with conflict := false, events := b.events ++ [.role b.master] } else b)

/-- MASTER_CONFLICT_CLEAR. -/
def execMasterConflictClear (s : State) : Host.Outcome State Fault Refusal := s.go s.toMod.clearConflict

end Sys2Proof.Machine
end

