-- ==== Sys2Proof/Machine/RegMap.lean ====
section
/-!
DEFINITION. The registers that hold a value of their own and do nothing else (R8): where they stand in the control blocks, which
bits a direct write sets, which a staged set sets (R46, R305), and what resets leave.
-/
namespace Sys2Proof.Machine
open Sys2Proof

/-- A register's RW bits under a direct write and under a staged set, its cold-reset value, and whether a warm reset keeps it. -/
structure RegDef where
  direct : Word
  staged : Word
  reset : Word
  kept : Bool
  deriving DecidableEq, Repr

/-- A word with bits [hi:lo] set. -/
def ones (hi lo : Nat) : Word := BitVec.ofNat 64 ((2 ^ (hi + 1 - lo) - 1) * 2 ^ lo)

/-- The registers of a memory controller (R182). -/
def ctlDef (o : Nat) : Option RegDef :=
  if 0x100 ≤ o && o < 0x180 then
    let k := ones 11 0 ||| ones 31 16 ||| ones 32 32
    some { direct := k, staged := k, reset := 0x400000, kept := true }
  else if 0x200 ≤ o && o < 0x400 then some { direct := ones 4 0, staged := ones 4 0, reset := 0, kept := true }
  else if o = 0x400 then some { direct := ones 15 0, staged := ones 15 0, reset := 0x40C0, kept := true }
  else none

/-- The registers of a shared-cache slice (R184, R197). -/
def shcDef (o : Nat) : Option RegDef :=
  if 0x100 ≤ o && o < 0x180 then some { direct := ones 15 0, staged := ones 15 0, reset := 0, kept := true }
  else if o = 0x200 then some { direct := ones 15 0, staged := 0, reset := 0x40C0, kept := true }
  else none

/-- The registers of a mesh router (R179, R197). -/
def rtrDef (o : Nat) : Option RegDef :=
  if o = 0 then some { direct := 1, staged := 0, reset := 1, kept := true }
  else if 0x100 ≤ o && o < 0x120 then some { direct := ones 15 0, staged := 0, reset := 0x40C0, kept := true }
  else none

/-- The registers of a die's TND_ block (R398). -/
def tndDef (td : Bool) (o : Nat) : Option RegDef :=
  if o = 0x20 then some { direct := ones 25 16 ||| ones 41 32, staged := 0, reset := 0x32000A0000, kept := true }
  else if o = 0x28 then some { direct := ones 23 0 ||| ones 25 25, staged := 0, reset := 0, kept := false }
  else if o = 0x30 then some { direct := ones 63 0, staged := 0, reset := 0, kept := false }
  else if o = 0x38 then some { direct := ones 55 0, staged := 0, reset := 0, kept := false }
  else if td && 0x40 ≤ o && o < 0x80 then some { direct := ones 15 0, staged := 0, reset := 1000, kept := true }
  else none

/-- The registers of an ED's die-control block (R239, R269). Node IDs and floors change through staged sets too. -/
def edgDef (o : Nat) : Option RegDef :=
  if o = 0 then some { direct := ones 24 0, staged := ones 24 0, reset := 0, kept := true }
  else if o = 8 then some { direct := ones 9 0 ||| ones 25 16 ||| ones 47 32, staged := 0, reset := 0x1400FA03FF, kept := true }
  else if 0x100 ≤ o && o < 0x180 then some { direct := ones 16 0, staged := 0, reset := 0, kept := false }
  else if 0x200 ≤ o && o < 0x280 then some { direct := ones 11 0, staged := ones 11 0, reset := 0, kept := true }
  else if 0x300 ≤ o && o < 0x380 then some { direct := ones 9 0 ||| ones 26 16, staged := 0, reset := 0, kept := false }
  else none

/-- The registers of a fabric port (R238); ENABLE, RESET and RETRAIN are commands of their own. -/
def fabDef (o : Nat) : Option RegDef :=
  match o with
  | 0 => some { direct := ones 15 1, staged := 0, reset := 0xC8C, kept := false }
  | 0x18 => some { direct := ones 63 0, staged := 0, reset := 0x1000010_00040000, kept := true }
  | 0x100 => some { direct := ones 39 0, staged := 0, reset := 0x4B57, kept := true }
  | 0x108 | 0x110 => some { direct := ones 47 0, staged := 0, reset := 0, kept := true }
  | 0x118 | 0x120 | 0x128 | 0x130 => some { direct := ones 63 0, staged := 0, reset := 0, kept := true }
  | _ => none

/-- The registers of a PCIe/CXL port (R316). -/
def pcieDef (o : Nat) : Option RegDef :=
  if o = 0 then some { direct := ones 5 0 ||| ones 31 16, staged := ones 12 8, reset := 0x1F0C, kept := true }
  else if o = 0x18 then some { direct := 0, staged := ones 63 30, reset := 0, kept := true }
  else if 0x100 ≤ o && o < 0x180 then some { direct := ones 20 16, staged := 0, reset := 0x1E0000, kept := true }
  else none

/-- The registers of the KD (R355, R379, R399, R421). -/
def kdDef (o : Nat) : Option RegDef :=
  if 0x30800 ≤ o && o < 0x30880 then some { direct := ones 31 8, staged := 0, reset := 0x80100000, kept := true }
  else if o = 0x60000 then some { direct := ones 13 8 ||| ones 20 16, staged := 0, reset := 0x160600, kept := true }
  else if o = 0x60010 then some { direct := ones 39 0, staged := 0, reset := 0x1400000000, kept := true }
  else if o = 0x60018 then some { direct := ones 23 0, staged := 0, reset := 0x5F0064, kept := true }
  else if o = 0x60020 then
    some { direct := 0, staged := ones 16 0 ||| ones 36 24 ||| ones 44 40, reset := 0x21B40000000, kept := true }
  else if o = 0x60028 then some { direct := 0, staged := ones 31 0, reset := 0, kept := true }
  else if 0x60100 ≤ o && o < 0x60200 then
    some { direct := 0x1F1F1F1F1F1F1F1F, staged := 0, reset := 0x1B1B1B1B1B1B1B1B, kept := false }
  else if 0x60300 ≤ o && o < 0x60320 then some { direct := ones 3 0, staged := 0, reset := 12, kept := true }
  else if o = 0x70008 then some { direct := ones 5 0, staged := 0, reset := 16, kept := true }
  else if 0x80000 ≤ o && o < 0x82000 && o % 0x80 = 0x40 then
    let fixed := (o - 0x80000) / 0x80 ≤ 8
    some { direct := (if fixed then 0 else ones 1 0) ||| ones 36 8 ||| ones 47 40, staged := 0,
           reset := (if fixed then 1 else 0) + 0x5A0000000000, kept := true }
  else if o = 0x84000 then some { direct := ones 6 5 ||| ones 55 40, staged := 0, reset := 0x2580000000000, kept := true }
  else if o = 0x84010 then some { direct := 0, staged := ones 1 0, reset := 0, kept := false }
  else if o = 0x84018 then some { direct := 0, staged := ones 15 0, reset := 0, kept := true }
  else if o = 0x85000 then some { direct := ones 1 0, staged := 0, reset := 1, kept := true }
  else if 0x85100 ≤ o && o < 0x85300 then some { direct := ones 58 0, staged := 0, reset := 0, kept := true }
  else if 0x85400 ≤ o && o < 0x85480 then some { direct := ones 48 0, staged := 0, reset := 0, kept := true }
  else none

/-- The registers of the guest site (R456). -/
def guestDef (o : Nat) : Option RegDef :=
  if o = 0x30008 then some { direct := ones 1 0 ||| ones 16 12, staged := ones 8 4, reset := 0x1D1F0, kept := true }
  else if 0x30010 ≤ o && o < 0x30070 then some { direct := ones 63 0, staged := 0, reset := 0, kept := true }
  else none

/-- The routing tables of an ED (R241): 29 bits, through staged sets alone. -/
def routeDef : RegDef := { direct := 0, staged := ones 28 0, reset := 0, kept := true }

/-- A site is the guest's on this part (R5, R26). -/
def Mod.guestAt (m : Mod) (site : Nat) : Bool := m.part.guestSite && site == 18

/-- The register at an offset of a site's control block, if one of these stands there (R26). -/
def Mod.regDef (m : Mod) (site off : Nat) : Option RegDef :=
  if off % 8 ≠ 0 || site ≥ 25 then none
  else if 0x20000 ≤ off && off < 0x30000 then tndDef (siteTd site).isSome (off - 0x20000)
  else if m.guestAt site then guestDef off
  else if 0x3100000 ≤ off && off < 0x3110000 then rtrDef (off - 0x3100000)
  else if (siteMd site).isSome && 0x2000000 ≤ off && off < 0x2400000 then ctlDef (off % 0x100000)
  else if (sitePd site).isSome && 0x2400000 ≤ off && off < 0x2800000 then ctlDef (off % 0x100000)
  else if (siteMd site).isSome && 0x3000000 ≤ off && off < 0x3100000 then shcDef (off - 0x3000000)
  else if (siteEd site).isSome then
    if off < 0x10000 then edgDef off
    else if 0x4000000 ≤ off && off < 0x4800000 then fabDef (off % 0x100000)
    else if 0x4800000 ≤ off && off < 0x4A00000 then pcieDef (off % 0x100000)
    else if 0x5000000 ≤ off && off < 0x5010000 then some routeDef
    else none
  else if site = kdSite then kdDef off
  else none

/-- A register's value: the routing tables are one for the four EDs (R241). -/
def Mod.rawReg (m : Mod) (site off : Nat) (d : RegDef) : Word :=
  if (siteEd site).isSome && 0x5000000 ≤ off && off < 0x5010000 then
    let i := (off - 0x5000000) / 8
    if i < 4096 then Table.get 0 m.groupRoute i else Table.get 0 m.memberRoute (i - 4096)
  else m.reg site off d.reset

/-- A way newly taken from a sector takes no lines until its dirty lines are written back (R184). -/
def Mod.waysChanged (m : Mod) (site : Nat) (old new : Word) : Mod :=
  match siteMd site with
  | some md =>
    let x := m.slice md
    m.setSlice md { x with cleaning := x.cleaning ||| BitVec.ofNat 16 (old &&& ~~~new).toNat }
  | none => m

/-- The controller and the sector of a MEM_REG (R182). -/
def memRegAt (site off : Nat) : Option (Nat × Nat) :=
  let o := off % 0x100000
  if 0x100 ≤ o && o < 0x180 then
    if 0x2000000 ≤ off && off < 0x2400000 then (siteMd site).map (fun md => (4 * md + (off - 0x2000000) / 0x100000, (o - 0x100) / 8))
    else if 0x2400000 ≤ off && off < 0x2800000 then
      (sitePd site).map (fun p => (80 + 4 * p + (off - 0x2400000) / 0x100000, (o - 0x100) / 8))
    else none
  else none

/-- A register that requests at a home may wait on: a bucket's or a sector's ways (R180, R184, R385). -/
def waitedOn (site off : Nat) : Bool := (memRegAt site off).isSome || (0x3000100 ≤ off && off < 0x3000180)

/-- A change of RATE or BURST leaves the bucket's content as it is, capped at its new depth (R180). -/
def Mod.keepBucket (m : Mod) (site off : Nat) (old : Mod) : Mod :=
  match memRegAt site off with
  | some (k, s) => m.setBucket k s (min (old.bucket k s) (m.bucketDepth k s))
  | none => m

/-- A register's bits written: those of a mask take the value's. -/
def Mod.writeBits (m : Mod) (site off : Nat) (d : RegDef) (mask value : Word) : Mod :=
  let old := m.rawReg site off d
  let new := maskedWrite old mask value
  if (siteEd site).isSome && 0x5000000 ≤ off && off < 0x5010000 then
    let i := (off - 0x5000000) / 8
    if i < 4096 then { m with groupRoute := Table.set 0 m.groupRoute i new }
    else { m with memberRoute := Table.set 0 m.memberRoute (i - 4096) new }
  else
    let m := (m.setReg site off d.reset new).keepBucket site off m
    if 0x3000100 ≤ off && off < 0x3000180 then m.waysChanged site old new else m

end Sys2Proof.Machine
end

