-- ==== Sys2Proof/Machine/Routes.lean ====
section
/-!
DEFINITION. Mesh routes: dimension-order routes, the detours of a G1 module, and hop counts (R12, R19, R179).
-/
namespace Sys2Proof.Machine
open Sys2Proof

/-- The coordinates after a first one, as far as a last one. -/
def walk (a b : Nat) : List Nat :=
  if a ≤ b then (List.range (b - a)).map (a + 1 + ·) else (List.range (a - b)).map (a - 1 - ·)

/-- The sites after the first on the dimension-order route: columns first under XY, rows first under YX (R12, R179). -/
def plainRoute (xFirst : Bool) (a b : Nat) : List Nat :=
  if xFirst then (walk (a % 5) (b % 5)).map (a / 5 * 5 + ·) ++ (walk (a / 5) (b / 5)).map (· * 5 + b % 5)
  else (walk (a / 5) (b / 5)).map (· * 5 + a % 5) ++ (walk (a % 5) (b % 5)).map (b / 5 * 5 + ·)

/-- A route passes site 18 on its way to another (R19). -/
def crossesGuest (r : List Nat) : Bool := r.dropLast.contains 18

/-- A straight route led around site 18 by a step of k sites (R19). -/
def aroundGuest (k prev : Nat) : List Nat → List Nat
  | [] => []
  | [x] => [x]
  | x :: y :: rest => if x = 18 then (prev + k) :: (18 + k) :: (y + k) :: y :: rest else x :: aroundGuest k x (y :: rest)

/-- The route a packet takes from a site to another, as the sites after the first: dimension order, or on a G1 module the detour of a
route that would cross site 18 (R19, R179). -/
def meshRoute (guest xFirst : Bool) (a b : Nat) : List Nat :=
  let r := plainRoute xFirst a b
  if !guest || !crossesGuest r then r
  else if !crossesGuest (plainRoute (!xFirst) a b) then plainRoute (!xFirst) a b
  else aroundGuest (if a / 5 = 3 then 5 else 1) a r

/-- The hops that ordered traffic takes between two sites (R19, R20). -/
def Mod.hops (m : Mod) (a b : Nat) : Nat := (meshRoute m.part.guestSite true a b).length

/-- The route of a packet: XY where it is ordered or MEM_RTR_CTRL.ADAPTIVE of its source is 0; otherwise by the free credits of the two first
hops, which the spec does not give a value (R179; a free value, log entry 3). -/
def Mod.meshPath (m : Mod) (ordered : Bool) (a b : Nat) : List Nat × Mod :=
  if ordered || !bit (m.reg a 0x3100000 1) 0 then (meshRoute m.part.guestSite true a b, m)
  else (meshRoute m.part.guestSite (bit m.takeFree.1 0) a b, m.takeFree.2)

end Sys2Proof.Machine
end

