-- ==== Sys2Proof/Machine/KernelWord.lean ====
section
/-!
DEFINITION. Kernel instruction words: the fields and codes of each class, and the instruction a word is (R59, R70 to R74, R97 to R100,
R135 to R137, R151, R164, R165). A word that is no instruction is one KERNEL_LOAD refuses (R67).
-/
namespace Sys2Proof

/-! ## Fields of MASK_OP, MOD and FLAGS (R99, R135) -/

/-- UNMASKED. -/
def VecArgs.unmasked (v : VecArgs) : Bool := v.maskOp.getLsbD 3
/-- PRED. -/
def VecArgs.pred (v : VecArgs) : Nat := v.maskOp.toNat % 8
/-- TYPE. -/
def VecArgs.type (v : VecArgs) : Nat := v.mod.toNat / 16
/-- SB. -/
def VecArgs.sb (v : VecArgs) : Bool := v.mod.getLsbD 3
/-- SC. -/
def VecArgs.sc (v : VecArgs) : Bool := v.mod.getLsbD 2
/-- SR. -/
def VecArgs.sr (v : VecArgs) : Bool := v.mod.getLsbD 1

/-- ZERO. -/
def MatArgs.zero (x : MatArgs) : Bool := x.flags.getLsbD 0
/-- REPRO. -/
def MatArgs.repro (x : MatArgs) : Bool := x.flags.getLsbD 1
/-- SR. -/
def MatArgs.sr (x : MatArgs) : Bool := x.flags.getLsbD 2
/-- COLMAJ. -/
def MatArgs.colmaj (x : MatArgs) : Bool := x.flags.getLsbD 3
/-- ADD. -/
def MatArgs.addFlag (x : MatArgs) : Bool := x.flags.getLsbD 4

end Sys2Proof

namespace Sys2Proof.Machine
open Sys2Proof

/-! ## Token addresses (R59) -/

/-- CORE of a token address. -/
def tokCore (t : BitVec 18) : Nat := (t.extractLsb' 0 10).toNat
/-- COUNTER of a token address. -/
def tokCounter (t : BitVec 18) : Nat := (t.extractLsb' 10 6).toNat
/-- KIND of a token address: a credit counter. -/
def tokCredit (t : BitVec 18) : Bool := t.getLsbD 16
/-- BANK of a token address. -/
def tokBank (t : BitVec 18) : Bool := t.getLsbD 17
/-- A token address that names credit counter 32 to 63 (R59). -/
def tokReserved (t : BitVec 18) : Bool := tokCredit t && tokCounter t ≥ 32

/-! ## The matrix class (R97 to R100) -/

/-- MMA's fields are ones that R97 to R100 allow. -/
def mmaLegal (x : MatArgs) : Bool :=
  let f := x.fmt.toNat
  (f ≤ 4 || (8 ≤ f && f ≤ 11)) && x.flags.toNat / 4 == 0 && !(x.repro && f ≥ 8) &&
    ((2 ≤ f && f ≤ 4) || x.repro || x.auxReg.val == 0)

/-- ACC_LOAD's and ACC_STORE's fields are ones that R97 to R100 allow. -/
def accLegal (x : MatArgs) (store : Bool) : Bool :=
  let f := x.fmt.toNat
  (f == 0 || f == 1 || f == 12 || f == 13) && x.bBase == 0 && x.kReg.val == 0 &&
    (if store then x.flags.toNat &&& 0xF3 == 0 && !(x.sr && f ≥ 2) && (x.sr || x.auxReg.val == 0)
     else x.flags.toNat &&& 0xE7 == 0 && x.auxReg.val == 0)

/-- ACC_ZERO's fields are ones that R97 to R100 allow. -/
def accZeroLegal (x : MatArgs) : Bool :=
  x.aBase == 0 && x.bBase == 0 && x.kReg.val == 0 && x.fmt == 0 && x.auxReg.val == 0 && x.flags == 0

/-! ## Which operand words an operation has (R67, R130, R135 to R137) -/

/-- How an operation uses an operand name. -/
inductive Use where
  /-- Not used: every bit 0. -/
  | unused
  | slot
  /-- A scalar register: bits [9:5] are 0. -/
  | scalar
  /-- A predicate: bits [9:3] are 0. -/
  | pred
  /-- A code up to a largest value. -/
  | code (top : Nat)
  deriving DecidableEq, Repr

/-- An operand name fits its use; with the broadcast bit, a slot names a scalar. -/
def Use.fits (u : Use) (bcast : Bool) (n : BitVec 10) : Bool :=
  match u with
  | .unused => n == 0 && !bcast
  | .slot => !bcast || n.toNat < 32
  | .scalar => n.toNat < 32 && !bcast
  | .pred => n.toNat < 8 && !bcast
  | .code top => n.toNat ≤ top && !bcast

/-- What an operation accepts. -/
structure VecOp where
  types : List Nat
  dst : Use
  src1 : Use
  src2 : Use
  src3 : Use
  /-- The operation is a group instruction that is masked. -/
  masked : Bool
  deriving DecidableEq, Repr

/-- Every type. -/
def allTypes : List Nat := [0, 1, 2, 3, 4]
/-- A group operation over slots. -/
def slotOp (types : List Nat) (n : Nat) : VecOp :=
  { types := types, dst := .slot, src1 := .slot, src2 := if n ≥ 2 then .slot else .unused,
    src3 := if n ≥ 3 then .slot else .unused, masked := true }

/-- The operations by OP (R137). DESIGN CHOICE (log entry 9): R137 names no operand for the data of VST and
VSCATTER, and the model takes SRC3 and SRC2; VCMP's conditions 6 and 7 and VRED's code 3 have no meaning
in the spec, and the model has KERNEL_LOAD refuse them. -/
def vecOp (op : Nat) : Option VecOp :=
  if op ≤ 0x02 then some (slotOp allTypes 2)
  else if op = 0x03 then some (slotOp allTypes 3)
  else if op ≤ 0x05 then some (slotOp allTypes 2)
  else if op ≤ 0x07 then some (slotOp allTypes 1)
  else if op ≤ 0x0A then some (slotOp allTypes 2)
  else if op ≤ 0x0F then some (slotOp [3, 4] 2)
  else if op = 0x10 then some { slotOp [0, 3, 4] 2 with dst := .pred, src3 := .code 5 }
  else if op = 0x11 then some { slotOp allTypes 2 with src3 := .pred }
  else if op = 0x12 then some { slotOp [3] 1 with src1 := .unused }
  else if op = 0x13 then some (slotOp allTypes 1)
  else if op ≤ 0x15 then some (slotOp [3, 4] 1)
  else if op = 0x16 then some { slotOp [1, 2] 2 with src3 := .code 3 }
  else if op ≤ 0x18 then some (slotOp [1, 2] 1)
  else if 0x20 ≤ op ∧ op ≤ 0x28 then some (slotOp [0] 1)
  else if op = 0x30 then some (slotOp allTypes 2)
  else if op = 0x31 then some { slotOp [0, 3, 4] 1 with src2 := .code 2 }
  else if op = 0x32 then some (slotOp [0, 3, 4] 1)
  else if op = 0x38 then some { slotOp allTypes 1 with src1 := .scalar, src2 := .scalar }
  else if op = 0x39 then some { slotOp allTypes 3 with dst := .unused, src1 := .scalar, src2 := .scalar }
  else if op = 0x3A then some (slotOp allTypes 1)
  else if op = 0x3B then some { slotOp allTypes 2 with dst := .unused }
  else if op = 0x3C then some (slotOp [0, 1, 3, 4] 2)
  else if op = 0x3D ∨ op = 0x3E then some (slotOp [0, 3, 4] 2)
  else if op = 0x3F then some (slotOp allTypes 2)
  else if op = 0x40 then some (slotOp allTypes 3)
  else if op = 0x48 then some { types := [0], dst := .unused, src1 := .pred, src2 := .unused, src3 := .unused, masked := false }
  else if op = 0x49 ∨ op = 0x4A then
    some { types := [0], dst := .unused, src1 := .unused, src2 := .unused, src3 := .unused, masked := false }
  else if op = 0x50 ∨ op = 0x51 then
    some { types := [0], dst := .unused, src1 := .scalar, src2 := .unused, src3 := .unused, masked := false }
  else if op = 0x52 then
    some { types := [0], dst := .slot, src1 := .scalar, src2 := .unused, src3 := .unused, masked := false }
  else if op = 0x53 ∨ op = 0x54 then
    some { types := [0], dst := .scalar, src1 := .pred, src2 := .unused, src3 := .unused, masked := false }
  else if 0x58 ≤ op ∧ op ≤ 0x5A then
    some { types := [0], dst := .scalar, src1 := .scalar, src2 := .scalar, src3 := .scalar, masked := false }
  else none

/-- The operations of the K1 encoding (R165). -/
def k1Op (op : Nat) : Bool := op ≤ 0x13 || (0x38 ≤ op && op ≤ 0x3B) || (0x48 ≤ op && op ≤ 0x4A)

/-- KERNEL_LOAD takes the operand words for the operation (R67, R137). -/
def vecLegal (op : Nat) (v : VecArgs) : Bool :=
  match vecOp op with
  | none => false
  | some x =>
    x.types.contains v.type && x.dst.fits false v.dst && x.src1.fits false v.src1 && x.src2.fits v.sb v.src2 &&
      (if op = 0x16 then
        (if v.sr then v.src3.toNat ≤ 3 && !v.sb && !v.sc else v.src3 == 0 && !v.sc)
       else x.src3.fits v.sc v.src3 && !v.sr) &&
      (x.masked || v.maskOp == 0) && (op == 0x5A || !v.mod.getLsbD 0)

/-! ## Words (R70 to R74, R97, R135, R151, R164) -/

/-- The register a word names at a bit. -/
def regAt (w : Word) (i : Nat) : Reg := Fin.ofNat 32 (bits w (i + 4) i)

/-- A scalar-control word (R71, R72): fields that an operation does not use are ignored, but for the reserved ones. -/
def scalarInsn (id : CoreId) (w : Word) : Option Instr :=
  let d := regAt w 47
  let a := regAt w 42
  let b := regAt w 37
  let imm : BitVec 32 := w.extractLsb' 0 32
  if bits w 36 32 ≠ 0 then none
  else
    match bits w 59 52 with
    | 0x00 => some (.nop id)
    | 0x01 => some (.endKernel id)
    | 0x02 => some (.li id d imm)
    | 0x03 => some (.lih id d imm)
    | 0x04 => some (.add id d a b)
    | 0x05 => some (.sub id d a b)
    | 0x06 => some (.mul id d a b)
    | 0x07 => some (.and id d a b)
    | 0x08 => some (.or id d a b)
    | 0x09 => some (.xor id d a b)
    | 0x0A => some (.shl id d a b)
    | 0x0B => some (.shr id d a b)
    | 0x0C => some (.sra id d a b)
    | 0x0D => some (.addi id d a imm)
    | 0x10 => some (.beq id a b imm)
    | 0x11 => some (.bne id a b imm)
    | 0x12 => some (.blt id a b imm)
    | 0x13 => some (.bltu id a b imm)
    | 0x14 => some (.jmp id imm)
    | 0x15 => some (.loop id d imm)
    | 0x18 => some (.lds id d a imm)
    | 0x19 => some (.sts id a b imm)
    | 0x1A => some (.rdbt id d)
    | 0x1B => some (.fence id)
    | 0x1C => some (.trap id imm)
    | _ => none

/-- The terms of a TWAIT or TTEST word (R73). -/
def twaitOf (w : Word) : TwaitArgs :=
  { tokA := Fin.ofNat 64 (bits w 51 46), cntA := w.extractLsb' 38 8, tokB := Fin.ofNat 64 (bits w 37 32), cntB := w.extractLsb' 24 8,
    crd := Fin.ofNat 32 (bits w 23 19), cntC := w.extractLsb' 11 8 }

/-- A token word (R59, R73). -/
def tokenInsn (id : CoreId) (w : Word) : Option Instr :=
  match bits w 59 52 with
  | 0 => if bits w 10 0 = 0 then some (.twait id (twaitOf w)) else none
  | 1 =>
    if bits w 16 0 = 0 && bits w 33 18 != 0 && !tokReserved (w.extractLsb' 34 18) then
      some (.tpost id (w.extractLsb' 34 18) (w.extractLsb' 18 16) (bit w 17))
    else none
  | 2 => if bits w 46 18 = 0 && bits w 16 0 = 0 then some (.tposts id (regAt w 47) (bit w 17)) else none
  | 3 =>
    if bits w 39 0 = 0 && !(bit w 40 && bits w 46 41 ≥ 32) then some (.tread id (regAt w 47) (w.extractLsb' 41 6) (bit w 40)) else none
  | 4 => if bits w 5 0 = 0 then some (.ttest id (twaitOf w) (regAt w 6)) else none
  | _ => none

/-- The operand fields of a move word (R71). -/
def moveArgsOf (w : Word) : MoveArgs :=
  { sa := regAt w 47, sl := regAt w 42, tile := w.extractLsb' 20 22, peer := Fin.ofNat 8 (bits w 19 17), post := bit w 16,
    token := Fin.ofNat 64 (bits w 15 10) }

/-- A move word (R71, R74). -/
def moveInsn (id : CoreId) (w : Word) : Option Instr :=
  if bits w 9 0 ≠ 0 then none
  else
    match bits w 59 52 with
    | 0 => some (.mvin id (moveArgsOf w))
    | 1 => some (.mvout id (moveArgsOf w))
    | 2 => some (.mvt id (moveArgsOf w))
    | 3 => some (.mlist id (moveArgsOf w))
    | _ => none

/-- The operand fields of a matrix word (R71). -/
def matArgsOf (w : Word) : MatArgs :=
  { aBase := w.extractLsb' 38 14, bBase := w.extractLsb' 24 14, kReg := regAt w 19, acc := Fin.ofNat 4 (bits w 18 17),
    fmt := w.extractLsb' 13 4, auxReg := regAt w 8, flags := w.extractLsb' 0 8 }

/-- A matrix word (R97 to R100). -/
def matrixInsn (id : CoreId) (w : Word) : Option Instr :=
  let x := matArgsOf w
  match bits w 59 52 with
  | 0 => if mmaLegal x then some (.mma id x) else none
  | 1 => if accLegal x false then some (.accLoad id x) else none
  | 2 => if accLegal x true then some (.accStore id x) else none
  | 3 => if accZeroLegal x then some (.accZero id x) else none
  | _ => none

/-- The operand fields of a vector word (R71, R135). -/
def vecArgsOf (w : Word) : VecArgs :=
  { dst := w.extractLsb' 42 10, src1 := w.extractLsb' 32 10, src2 := w.extractLsb' 22 10, src3 := w.extractLsb' 12 10,
    maskOp := w.extractLsb' 8 4, mod := w.extractLsb' 0 8 }

/-- The operand fields of a vector word in the K1 encoding (R164), as the T25's. -/
def k1ArgsOf (w : Word) : VecArgs :=
  { dst := BitVec.ofNat 10 (bits w 51 46), src1 := BitVec.ofNat 10 (bits w 45 40), src2 := BitVec.ofNat 10 (bits w 39 34),
    src3 := BitVec.ofNat 10 (bits w 33 28), maskOp := w.extractLsb' 24 4,
    mod := BitVec.ofNat 8 (bits w 23 20 * 16 + bits w 19 18 * 4) }

/-- The vector operation of an OP (R137). -/
def vectorOp (op : Nat) (id : CoreId) (v : VecArgs) : Option Instr :=
  match op with
  | 0x00 => some (.vadd id v)
  | 0x01 => some (.vsub id v)
  | 0x02 => some (.vmul id v)
  | 0x03 => some (.vfma id v)
  | 0x04 => some (.vmin id v)
  | 0x05 => some (.vmax id v)
  | 0x06 => some (.vabs id v)
  | 0x07 => some (.vneg id v)
  | 0x08 => some (.vand id v)
  | 0x09 => some (.vor id v)
  | 0x0A => some (.vxor id v)
  | 0x0B => some (.vshl id v)
  | 0x0C => some (.vshr id v)
  | 0x0D => some (.vsra id v)
  | 0x0E => some (.vdiv id v)
  | 0x0F => some (.vrem id v)
  | 0x10 => some (.vcmp id v)
  | 0x11 => some (.vsel id v)
  | 0x12 => some (.vtid id v)
  | 0x13 => some (.vmov id v)
  | 0x14 => some (.vcvtf id v)
  | 0x15 => some (.vcvti id v)
  | 0x16 => some (.vpack id v)
  | 0x17 => some (.vunpkl id v)
  | 0x18 => some (.vunpkh id v)
  | 0x20 => some (.vexp2 id v)
  | 0x21 => some (.vlog2 id v)
  | 0x22 => some (.vrcp id v)
  | 0x23 => some (.vrsqrt id v)
  | 0x24 => some (.vsqrt id v)
  | 0x25 => some (.vsinpi id v)
  | 0x26 => some (.vcospi id v)
  | 0x27 => some (.vtanh id v)
  | 0x28 => some (.vsigmoid id v)
  | 0x30 => some (.vshfl id v)
  | 0x31 => some (.vred id v)
  | 0x32 => some (.vscan id v)
  | 0x38 => some (.vld id v)
  | 0x39 => some (.vst id v)
  | 0x3A => some (.vgather id v)
  | 0x3B => some (.vscatter id v)
  | 0x3C => some (.vatomAdd id v)
  | 0x3D => some (.vatomMin id v)
  | 0x3E => some (.vatomMax id v)
  | 0x3F => some (.vatomSwap id v)
  | 0x40 => some (.vatomCas id v)
  | 0x48 => some (.vpush id v)
  | 0x49 => some (.velse id v)
  | 0x4A => some (.vpop id v)
  | 0x50 => some (.vcfg id v)
  | 0x51 => some (.vabase id v)
  | 0x52 => some (.vlds id v)
  | 0x53 => some (.vany id v)
  | 0x54 => some (.vcount id v)
  | 0x58 => some (.compress id v)
  | 0x59 => some (.compressIdx id v)
  | 0x5A => some (.expand id v)
  | _ => none

/-- A vector word in its kernel's encoding (R135 to R137, R164, R165). -/
def vectorInsn (k1 : Bool) (id : CoreId) (w : Word) : Option Instr :=
  let op := bits w 59 52
  if k1 then (if k1Op op && bits w 17 0 == 0 && vecLegal op (k1ArgsOf w) then vectorOp op id (k1ArgsOf w) else none)
  else if vecLegal op (vecArgsOf w) then vectorOp op id (vecArgsOf w) else none

/-- The operand fields of a chain word (R151). -/
def chainArgsOf (w : Word) : ChainArgs :=
  { desc := w.extractLsb' 38 14, source := w.extractLsb' 36 2, acc := Fin.ofNat 4 (bits w 34 33), clear := bit w 35 }

/-- A chain word (R151): a tile source with CLEAR or an accumulator tile set is an encoding, which faults when it runs (R158). -/
def chainInsn (id : CoreId) (w : Word) : Option Instr :=
  if bits w 59 52 = 0 && bits w 37 36 ≤ 1 && bits w 32 0 = 0 then some (.chain id (chainArgsOf w)) else none

/-- The instruction that a word of a kernel is, on a core; none for a word that KERNEL_LOAD refuses (R67, R70). -/
def kernelInsn (k1 : Bool) (id : CoreId) (w : Word) : Option Instr :=
  match bits w 63 60 with
  | 0 => scalarInsn id w
  | 1 => tokenInsn id w
  | 2 => moveInsn id w
  | 3 => matrixInsn id w
  | 4 => vectorInsn k1 id w
  | 5 => chainInsn id w
  | _ => none

/-! ## The word of an instruction -/

/-- A word of a class and an operation with operand bits. -/
def classWord (cls op : Nat) (fields : List (Nat × Nat × Nat)) : Word := pack ((60, 4, cls) :: (52, 8, op) :: fields)

/-- A scalar word (R71). -/
def scalarWord (op : Nat) (d a b : Reg) (imm : BitVec 32) : Word :=
  classWord 0 op [(47, 5, d), (42, 5, a), (37, 5, b), (0, 32, imm.toNat)]

/-- A token word of TWAIT or TTEST (R73). -/
def twaitWord (op : Nat) (t : TwaitArgs) (d : Reg) : Word :=
  classWord 1 op [(46, 6, t.tokA), (38, 8, t.cntA.toNat), (32, 6, t.tokB), (24, 8, t.cntB.toNat), (19, 5, t.crd), (11, 8, t.cntC.toNat), (6, 5, d)]

/-- A move word (R71). -/
def moveWord (op : Nat) (v : MoveArgs) : Word :=
  classWord 2 op [(47, 5, v.sa), (42, 5, v.sl), (20, 22, v.tile.toNat), (17, 3, v.peer), (16, 1, flag v.post), (10, 6, v.token)]

/-- A matrix word (R71). -/
def matrixWord (op : Nat) (x : MatArgs) : Word :=
  classWord 3 op [(38, 14, x.aBase.toNat), (24, 14, x.bBase.toNat), (19, 5, x.kReg), (17, 2, x.acc), (13, 4, x.fmt.toNat), (8, 5, x.auxReg),
    (0, 8, x.flags.toNat)]

/-- A vector word in its kernel's encoding (R71, R135, R164). -/
def vectorWord (k1 : Bool) (op : Nat) (v : VecArgs) : Word :=
  if k1 then classWord 4 op [(46, 6, v.dst.toNat), (40, 6, v.src1.toNat), (34, 6, v.src2.toNat), (28, 6, v.src3.toNat), (24, 4, v.maskOp.toNat),
    (20, 4, v.mod.toNat / 16), (18, 2, v.mod.toNat / 4 % 4)]
  else classWord 4 op [(42, 10, v.dst.toNat), (32, 10, v.src1.toNat), (22, 10, v.src2.toNat), (12, 10, v.src3.toNat), (8, 4, v.maskOp.toNat),
    (0, 8, v.mod.toNat)]

/-- The word that an instruction of a kernel has, its unused fields 0; none for a command that is no instruction. -/
def kernelWord (k1 : Bool) : Instr → Option Word
  | .nop _ => some (scalarWord 0x00 0 0 0 0)
  | .endKernel _ => some (scalarWord 0x01 0 0 0 0)
  | .li _ d imm => some (scalarWord 0x02 d 0 0 imm)
  | .lih _ d imm => some (scalarWord 0x03 d 0 0 imm)
  | .add _ d a b => some (scalarWord 0x04 d a b 0)
  | .sub _ d a b => some (scalarWord 0x05 d a b 0)
  | .mul _ d a b => some (scalarWord 0x06 d a b 0)
  | .and _ d a b => some (scalarWord 0x07 d a b 0)
  | .or _ d a b => some (scalarWord 0x08 d a b 0)
  | .xor _ d a b => some (scalarWord 0x09 d a b 0)
  | .shl _ d a b => some (scalarWord 0x0A d a b 0)
  | .shr _ d a b => some (scalarWord 0x0B d a b 0)
  | .sra _ d a b => some (scalarWord 0x0C d a b 0)
  | .addi _ d a imm => some (scalarWord 0x0D d a 0 imm)
  | .beq _ a b imm => some (scalarWord 0x10 0 a b imm)
  | .bne _ a b imm => some (scalarWord 0x11 0 a b imm)
  | .blt _ a b imm => some (scalarWord 0x12 0 a b imm)
  | .bltu _ a b imm => some (scalarWord 0x13 0 a b imm)
  | .jmp _ imm => some (scalarWord 0x14 0 0 0 imm)
  | .loop _ d imm => some (scalarWord 0x15 d 0 0 imm)
  | .lds _ d a imm => some (scalarWord 0x18 d a 0 imm)
  | .sts _ a b imm => some (scalarWord 0x19 0 a b imm)
  | .rdbt _ d => some (scalarWord 0x1A d 0 0 0)
  | .fence _ => some (scalarWord 0x1B 0 0 0 0)
  | .trap _ imm => some (scalarWord 0x1C 0 0 0 imm)
  | .twait _ t => some (twaitWord 0 t 0)
  | .tpost _ target incr nomw => some (classWord 1 1 [(34, 18, target.toNat), (18, 16, incr.toNat), (17, 1, flag nomw)])
  | .tposts _ a nomw => some (classWord 1 2 [(47, 5, a), (17, 1, flag nomw)])
  | .tread _ d counter kind => some (classWord 1 3 [(47, 5, d), (41, 6, counter.toNat), (40, 1, flag kind)])
  | .ttest _ t d => some (twaitWord 4 t d)
  | .mvin _ v => some (moveWord 0 v)
  | .mvout _ v => some (moveWord 1 v)
  | .mvt _ v => some (moveWord 2 v)
  | .mlist _ v => some (moveWord 3 v)
  | .mma _ x => some (matrixWord 0 x)
  | .accLoad _ x => some (matrixWord 1 x)
  | .accStore _ x => some (matrixWord 2 x)
  | .accZero _ x => some (matrixWord 3 x)
  | .vadd _ v => some (vectorWord k1 0x00 v)
  | .vsub _ v => some (vectorWord k1 0x01 v)
  | .vmul _ v => some (vectorWord k1 0x02 v)
  | .vfma _ v => some (vectorWord k1 0x03 v)
  | .vmin _ v => some (vectorWord k1 0x04 v)
  | .vmax _ v => some (vectorWord k1 0x05 v)
  | .vabs _ v => some (vectorWord k1 0x06 v)
  | .vneg _ v => some (vectorWord k1 0x07 v)
  | .vand _ v => some (vectorWord k1 0x08 v)
  | .vor _ v => some (vectorWord k1 0x09 v)
  | .vxor _ v => some (vectorWord k1 0x0A v)
  | .vshl _ v => some (vectorWord k1 0x0B v)
  | .vshr _ v => some (vectorWord k1 0x0C v)
  | .vsra _ v => some (vectorWord k1 0x0D v)
  | .vdiv _ v => some (vectorWord k1 0x0E v)
  | .vrem _ v => some (vectorWord k1 0x0F v)
  | .vcmp _ v => some (vectorWord k1 0x10 v)
  | .vsel _ v => some (vectorWord k1 0x11 v)
  | .vtid _ v => some (vectorWord k1 0x12 v)
  | .vmov _ v => some (vectorWord k1 0x13 v)
  | .vcvtf _ v => some (vectorWord k1 0x14 v)
  | .vcvti _ v => some (vectorWord k1 0x15 v)
  | .vpack _ v => some (vectorWord k1 0x16 v)
  | .vunpkl _ v => some (vectorWord k1 0x17 v)
  | .vunpkh _ v => some (vectorWord k1 0x18 v)
  | .vexp2 _ v => some (vectorWord k1 0x20 v)
  | .vlog2 _ v => some (vectorWord k1 0x21 v)
  | .vrcp _ v => some (vectorWord k1 0x22 v)
  | .vrsqrt _ v => some (vectorWord k1 0x23 v)
  | .vsqrt _ v => some (vectorWord k1 0x24 v)
  | .vsinpi _ v => some (vectorWord k1 0x25 v)
  | .vcospi _ v => some (vectorWord k1 0x26 v)
  | .vtanh _ v => some (vectorWord k1 0x27 v)
  | .vsigmoid _ v => some (vectorWord k1 0x28 v)
  | .vshfl _ v => some (vectorWord k1 0x30 v)
  | .vred _ v => some (vectorWord k1 0x31 v)
  | .vscan _ v => some (vectorWord k1 0x32 v)
  | .vld _ v => some (vectorWord k1 0x38 v)
  | .vst _ v => some (vectorWord k1 0x39 v)
  | .vgather _ v => some (vectorWord k1 0x3A v)
  | .vscatter _ v => some (vectorWord k1 0x3B v)
  | .vatomAdd _ v => some (vectorWord k1 0x3C v)
  | .vatomMin _ v => some (vectorWord k1 0x3D v)
  | .vatomMax _ v => some (vectorWord k1 0x3E v)
  | .vatomSwap _ v => some (vectorWord k1 0x3F v)
  | .vatomCas _ v => some (vectorWord k1 0x40 v)
  | .vpush _ v => some (vectorWord k1 0x48 v)
  | .velse _ v => some (vectorWord k1 0x49 v)
  | .vpop _ v => some (vectorWord k1 0x4A v)
  | .vcfg _ v => some (vectorWord k1 0x50 v)
  | .vabase _ v => some (vectorWord k1 0x51 v)
  | .vlds _ v => some (vectorWord k1 0x52 v)
  | .vany _ v => some (vectorWord k1 0x53 v)
  | .vcount _ v => some (vectorWord k1 0x54 v)
  | .compress _ v => some (vectorWord k1 0x58 v)
  | .compressIdx _ v => some (vectorWord k1 0x59 v)
  | .expand _ v => some (vectorWord k1 0x5A v)
  | .chain _ x =>
    some (classWord 5 0 [(38, 14, x.desc.toNat), (36, 2, x.source.toNat), (33, 2, x.acc), (35, 1, flag x.clear)])
  | _ => none

end Sys2Proof.Machine
end

