-- ==== Sys2Proof/Machine/Descriptor.lean ====
section
/-!
DEFINITION. Move descriptors and how far a move has come (R77, R78).
-/
namespace Sys2Proof.Machine
open Sys2Proof

/-- A move descriptor's fields. -/
structure Desc where
  src : Nat
  srcSpace : Nat
  dst : Nat
  dstSpace : Nat
  rowBytes : Nat
  rows : Nat
  srcStride : Nat
  dstStride : Nat
  op : Nat
  last : Bool
  order : Bool
  post : Bool
  hint : Bool
  target : BitVec 18
  incr : Nat
  hintTarget : Nat
  pattern : Word
  deriving DecidableEq, Repr

/-- The fields of 8 descriptor words. -/
def Desc.ofWords (ws : List Word) : Desc :=
  let w := wordAt ws
  { src := bits (w 0) 55 0, srcSpace := bits (w 0) 59 56, dst := bits (w 1) 55 0, dstSpace := bits (w 1) 59 56,
    rowBytes := bits (w 2) 31 0, rows := bits (w 2) 63 32, srcStride := bits (w 3) 31 0, dstStride := bits (w 3) 63 32,
    op := bits (w 4) 3 0, last := bit (w 4) 4, order := bit (w 4) 5, post := bit (w 4) 6, hint := bit (w 4) 7,
    target := (w 5).extractLsb' 0 18, incr := bits (w 5) 47 32, hintTarget := bits (w 6) 15 0, pattern := w 7 }

/-- A descriptor's fields as 8 words. -/
def Desc.words (d : Desc) : List Word :=
  [pack [(0, 56, d.src), (56, 4, d.srcSpace)], pack [(0, 56, d.dst), (56, 4, d.dstSpace)],
   pack [(0, 32, d.rowBytes), (32, 32, d.rows)], pack [(0, 32, d.srcStride), (32, 32, d.dstStride)],
   pack [(0, 4, d.op), (4, 1, flag d.last), (5, 1, flag d.order), (6, 1, flag d.post), (7, 1, flag d.hint)],
   pack [(0, 18, d.target.toNat), (32, 16, d.incr)], pack [(0, 16, d.hintTarget)], d.pattern]

/-- Bytes of a move. -/
def Desc.bytes (d : Desc) : Nat := d.rowBytes * d.rows
/-- Blocks of 4 KiB of a move's byte sequence (R78). -/
def Desc.blocks (d : Desc) : Nat := ceilDiv d.bytes 4096

/-- The blocks of a descriptor under way. -/
def MovePart.blocks (p : MovePart) : Nat := (Desc.ofWords p.desc).blocks

/-- The blocks of a move that are complete (R87). -/
def MoveJob.completed (j : MoveJob) : Nat := j.total - (j.parts.map (fun p => p.blocks - p.done.length)).sum

/-- The leading blocks complete of descriptors in order, then a number: up to the first block that is not. -/
def leadingFrom (start : Nat) : List MovePart → Nat → Nat
  | [], all => all
  | p :: rest, all =>
    let k := ((List.range p.blocks).takeWhile (fun k => decide (p.base + k < start) || p.done.contains k)).length
    if k = p.blocks then leadingFrom start rest all else p.base + k

/-- The leading blocks of a command that are complete (R295): blocks below START_BLOCK count. -/
def leadingBlocks (j : MoveJob) (start : Nat) : Nat := leadingFrom start j.parts j.total

/-- Every block of a descriptor at or above START_BLOCK is complete. -/
def MovePart.finished (p : MovePart) (start : Nat) : Bool :=
  (List.range p.blocks).all (fun k => decide (p.base + k < start) || p.done.contains k)

end Sys2Proof.Machine
end

