-- ==== Sys2Proof/Machine/Cores.lean ====
section
/-!
DEFINITION. What a tensor core's instructions share: registers, issue, the next instruction, faults, the end of a kernel, the
start of the next work, posts that arrive (R58 to R69, R75, R84, R88).
-/
namespace Sys2Proof.Machine
open Sys2Proof

/-- A scalar register; s0 always reads 0 (R68). -/
def TCore.reg (c : TCore) (r : Reg) : Word := if r.val = 0 then 0 else Table.get 0 c.s r.val

/-- A scalar register written; a write of s0 has no effect (R68). -/
def TCore.setReg (c : TCore) (r : Reg) (v : Word) : TCore :=
  if r.val = 0 then c else { c with s := Table.set 0 c.s r.val v }

/-- The core issues instructions: it runs a kernel and no FENCE or END waits (R69, R72, R88). -/
def TCore.ready (c : TCore) : Bool := c.st == .running && !c.fenceWait && !c.endWait && c.kernel.isSome

/-- INSN_COUNT of the running kernel. -/
def TCore.count (c : TCore) : Nat := c.kernel.elim 0 (fun k => k.insns.length)

/-- The running kernel uses the K1 encoding (R164). -/
def TCore.k1 (c : TCore) : Bool := c.kernel.elim false (fun k => k.k1)

/-- Instructions in the matrix queue (R75). -/
def TCore.matQ (c : TCore) : Nat := c.mat.length

/-- Something the core issued is not complete (R69, R72). -/
def TCore.outstanding (c : TCore) : Bool :=
  !c.mat.isEmpty || c.vecQ > 0 || c.chainQ > 0 || !c.moves.isEmpty || !c.heldPosts.isEmpty

/-- The scalar unit of a core issues an instruction now: the core runs a kernel and issues, and the word at its PC is that instruction
(R69 to R75). A command that names another is none (log entry 6). -/
def Mod.fetches (m : Mod) (id : CoreId) (i : Instr) : Bool :=
  let c := m.core id
  c.ready && m.working && (match c.kernel with
    | some k => decide (c.pc < k.insns.length) && kernelInsn k.k1 id (wordAt k.insns c.pc) == some i
    | none => false)

/-- The engines of a core work: it runs, waits, or is stopping (R82, R88). -/
def TCore.engines (c : TCore) : Bool := c.st == .running || c.st == .waiting || c.st == .stopping

/-- A token counter of a bank (R58). -/
def TCore.token (c : TCore) (bank : Bool) (k : Nat) : Nat := Table.get 0 c.tokens (flag bank * 64 + k)
/-- A credit counter of a bank (R58). -/
def TCore.credit (c : TCore) (bank : Bool) (k : Nat) : Nat := Table.get 0 c.credits (flag bank * 32 + k)

/-- MOVE_BLOCKS and MOVE_ACTIVE of TDC_RESUME_PROGRESS: the blocks completed of the move at the head of the mover (R87). -/
def TCore.headMove (c : TCore) : BitVec 20 × Bool :=
  match c.moves with
  | [] => (0, false)
  | j :: _ => (BitVec.ofNat 20 j.completed, true)

/-- COUNT and KIND of TDC_RESUME_PROGRESS: the steps or rows completed of an instruction that an earlier preemption interrupted (R87). -/
def TCore.engineProgress (c : TCore) : EngineProgress :=
  let rows : EngineProgress := match c.pack with
    | some p => if p.row = 0 then { count := 0, kind := 0 } else { count := BitVec.ofNat 32 p.row, kind := if p.op = 0x5A then 3 else 2 }
    | none => { count := 0, kind := 0 }
  match c.mat with
  | j :: _ => if j.op = .mma && j.done > 0 then { count := BitVec.ofNat 32 j.done, kind := 1 } else rows
  | [] => rows

/-- TDC_RESUME_PROGRESS as it reads: while the core is STOPPING, where its engines and its mover stand now (R87). -/
def TCore.progressNow (c : TCore) : ResumeProgress :=
  if c.st = .stopping then
    { count := c.engineProgress.count, kind := c.engineProgress.kind, moveBlocks := c.headMove.1, moveActive := c.headMove.2 }
  else c.progress

/-! ## The next work of a core (R68, R81, R84) -/

/-- The registers a kernel starts with (R68). -/
def launchRegs (ws : List Word) (id : Nat) : Table Word :=
  let args := (List.range (bits (wordAt ws 2) 20 16)).foldl
    (fun t i => Table.set 0 t (1 + i) (wordAt ws (4 + i))) ([] : Table Word)
  Table.set 0 (Table.set 0 args 30 (BitVec.ofNat 64 (id % 8))) 31 (BitVec.ofNat 64 id)

/-- Token counters of a bank cleared where a mask has a 1 (R68). -/
def clearTokens (t : Table Nat) (bank : Bool) (mask : Word) : Table Nat :=
  t.filter (fun p => !(p.1 / 64 == flag bank && mask.getLsbD (p.1 % 64)))

/-- Credit counters of a bank loaded where a mask has a 1 (R68). -/
def loadCredits (t : Table Nat) (bank : Bool) (k : KImage) : Table Nat :=
  (bitsSet k.creditMask.toNat 32).foldl (fun t i => Table.set 0 t (flag bank * 32 + i) (k.creditInit.getD i 0)) t

/-- A launch starts on a core (R68); a K1 kernel has 16 groups (R165). -/
def TCore.start (c : TCore) (id : Nat) (l : LaunchWait) : TCore :=
  let w2 := wordAt l.words 2
  let bank := bit w2 13
  { c with
    st := .running, slot := bits w2 4 0, bank := bank, opCache := bit w2 14, s := launchRegs l.words id,
    pc := l.image.entry, fault := { c.fault with valid := false },
    progress := if c.saved.isSome then c.progress else ResumeProgress.reset,
    tokens := clearTokens c.tokens bank (wordAt l.words 3), credits := loadCredits c.credits bank l.image,
    kernel := some l.image, launch := some l.pkt, prio := l.prio,
    mat := [], vecQ := 0, chainQ := 0, pack := none, matDone := 0, vecDone := 0, chainDone := 0,
    moves := [], heldPosts := [], fenceWait := false, endWait := false, wait := none, preemptFor := none,
    queue := c.queue.filter (fun x => x.pkt != l.pkt),
    vec := { VecState.reset with g := if l.image.k1 then 16 else 32, atomicBase := c.vec.atomicBase } }

/-- Of the launches that wait, the one of highest PRIO, the earliest dispatched among equals (R84). -/
def bestLaunch : List LaunchWait → Option LaunchWait
  | [] => none
  | l :: rest =>
    match bestLaunch rest with
    | none => some l
    | some r => if r.prio > l.prio then some r else some l

/-- The launches a core accepts: only those of the queue it is held for (R81). -/
def TCore.accepted (c : TCore) : List LaunchWait :=
  match c.hold with
  | none => c.queue
  | some p => c.queue.filter (fun l => l.pkt.q == p.q)

/-- An idle core takes the highest-PRIO work it holds: a saved context, which comes first among equals and waits while the
core is held, or a launch (R84). -/
def Mod.coreNext (m : Mod) (id : Nat) : Mod :=
  let c := m.core id
  if c.st = .idle then
    let sv := if c.hold.isNone then c.saved else none
    match bestLaunch c.accepted, sv with
    | none, none => m
    | none, some _ => m.setCore id { c with st := .restoring }
    | some l, none => m.setCore id (c.start id l)
    | some l, some s => if s.prio ≥ l.prio then m.setCore id { c with st := .restoring } else m.setCore id (c.start id l)
  else m

/-- A queue's hold on cores ends where a condition on the KERNEL_PREEMPT that made it says so (R81): a KERNEL_PREEMPT whose last hold it
was is replied (R305), and an idle core takes the work it holds. -/
def Mod.releaseHold (m : Mod) (q : QRef) (cores : List Nat) (ends : BitVec 32 → Bool) : Mod :=
  let mine := cores.filter (fun id => (match (m.core id).hold with | some p => p.q == q && ends p.ix | none => false))
  let m := mine.foldl (fun m id => m.updCore id (fun c => { c with hold := none })) m
  let gone := maskOf (mine.map (· % 8))
  let m := (m.queue q).flights.foldl (fun (m : Mod) (f : Flight) =>
    match f.work with
    | .preempt pre idle held =>
      let held' := held &&& ~~~(BitVec.ofNat 8 gone)
      if held = 0 then m
      else if held' = 0 then m.endCmd ⟨q, f.ix⟩ 0 0 (pre.toNat + idle.toNat * 256)
      else m.updFlight ⟨q, f.ix⟩ (fun f => { f with work := .preempt pre idle held' })
    | _ => m) m
  mine.foldl (fun m id => m.coreNext id) m

/-! ## Kernels, their faults and their ends -/

/-- How a core of a launch ended: by END, by a fault with its code, by a reset or fence, or with its context. -/
inductive CoreEnd where
  | ended
  | faulted (code : Nat)
  | lost
  /-- Its saved context was lost (R84, R386). -/
  | ctxLost
  deriving DecidableEq, Repr

/-- The cores of a launch that have ended or faulted (R69). -/
def launchGone (ended lost : BitVec 8) (faulted : List (Nat × Nat)) : Nat :=
  ended.toNat ||| lost.toNat ||| maskOf (faulted.map (·.1))

/-- A packet at an index stands behind one at another in its queue: packets of a queue are dispatched in order (R283). -/
def laterPkt (a b : BitVec 32) : Bool := b != a && (b - a).toNat < 2 ^ 31

/-- The reply of a launch whose every core has ended or faulted (R69, R302, R305, R386); it ends the holds of earlier KERNEL_PREEMPTs of
its queue (R81). -/
def Mod.launchReply (m : Mod) (p : PktRef) (mask ended lost : BitVec 8) (faulted : List (Nat × Nat)) (ctx : Bool) : Mod :=
  let m := m.releaseHold p.q ((bitsSet mask.toNat 8).map (queueNum p.q / 128 * 8 + ·)) (fun ix => laterPkt ix p.ix)
  match faulted.foldl (fun a x => match a with
      | some y => if x.1 < y.1 then some x else some y
      | none => some x) (none : Option (Nat × Nat)) with
  | some (k, code) => m.endCmd p 0x0403 (k + code * 256) ended.toNat
  | none =>
    if ctx then m.endCmd p 0x0401 0 0
    else if lost = 0 then m.endCmd p 0 0 ended.toNat else m.endCmd p 0x0401 0 ended.toNat

/-- A core of a launch is done; the launch's single reply is written once every core of its mask is (R69). -/
def Mod.launchCore (m : Mod) (p : PktRef) (k : Nat) (e : CoreEnd) : Mod :=
  match m.flight p with
  | none => m
  | some f =>
    match f.work with
    | .launch mask ended lost faulted ctx =>
      let b : BitVec 8 := BitVec.ofNat 8 (1 <<< k)
      let ended' := if e = .ended then ended ||| b else ended
      let lost' := if e = .lost || e = .ctxLost then lost ||| b else lost
      let ctx' := ctx || decide (e = .ctxLost)
      let faulted' := match e with
        | .faulted code => (k, code) :: faulted
        | _ => faulted
      if mask.toNat &&& launchGone ended' lost' faulted' = mask.toNat then m.launchReply p mask ended' lost' faulted' ctx'
      else m.updFlight p (fun f => { f with work := .launch mask ended' lost' faulted' ctx' })
    | _ => m

/-- A kernel fault (R88, R89): recorded in TDC_CORE_FAULT and in the die's error record, reported to the Tender; the core is
FAULTED. A fenced core faults no more. The records of a fault that an injection led to say so (R400). -/
def Mod.coreFaultBy (m : Mod) (id : Nat) (code trap pc : Nat) (injected : Bool) : Mod :=
  let c := m.core id
  if c.st = .fenced then m
  else
    let m := m.setCore id { c with
      st := .faulted, fenceWait := false, endWait := false, wait := none
      fault := { code := BitVec.ofNat 8 code, trapValue := BitVec.ofNat 8 trap, pc := BitVec.ofNat 15 pc, valid := true }
      progress := { c with st := .stopping }.progressNow }
    let m := m.record { site := coreSite id, cls := 0x08, sev := 2, unit := id % 64, code := code, addr := 0, detail := 0,
                        sector := c.sector, injected := injected }
    let m := match c.launch with
      | some p => m.launchCore p (id % 8) (.faulted code)
      | none => m
    if h : id < 1024 then m.reportAs (.core ⟨id, h⟩) injected else m

/-- A kernel fault of the core's own (R88, R89). -/
def Mod.coreFault (m : Mod) (id : Nat) (code trap pc : Nat) : Mod := m.coreFaultBy id code trap pc false

/-- The next instruction: a PC past the last instruction faults with PC_RANGE, FAULT_PC the last one (R69). -/
def Mod.retire (m : Mod) (id : Nat) (c : TCore) (pc : Nat) : Mod :=
  if pc < c.count then m.setCore id { c with pc := pc } else (m.setCore id c).coreFault id 0x08 0 (c.count - 1)

/-- A core issues an instruction that acts on the core alone and goes on with the next one; a core that does not issue it is left as
it is. -/
def Mod.issue (m : Mod) (id : CoreId) (i : Instr) (f : TCore → TCore) : Mod :=
  let c := m.core id
  if m.fetches id i then m.retire id (f c) (c.pc + 1) else m

/-- A branch by IMM instructions (R72). KERNEL_LOAD leaves no target outside the kernel (R67); an operand that gives one is
no instruction of the kernel, and nothing happens (log entry 6). -/
def Mod.branch (m : Mod) (id : CoreId) (i : Instr) (imm : BitVec 32) (f : TCore → TCore) (taken : TCore → Bool) : Mod :=
  let c := m.core id
  if m.fetches id i then
    let t : Int := (c.pc : Int) + imm.toInt
    if t < 0 || t ≥ (c.count : Int) then m
    else m.retire id (f c) (if taken c then t.toNat else c.pc + 1)
  else m

/-- The completion point of KERNEL_PREEMPT: every core it holds is SAVING, holds a saved context, or is IDLE (R284). -/
def Mod.preemptPoint (m : Mod) (q : QRef) : Mod :=
  (m.queue q).flights.foldl (fun (m : Mod) (f : Flight) =>
    match f.work with
    | .preempt _ _ held =>
      if (bitsSet held.toNat 8).all (fun i =>
          let c := m.core (queueNum q / 128 * 8 + i)
          c.st == .saving || c.st == .idle || c.saved.isSome) then m.updFlight ⟨q, f.ix⟩ (fun f => { f with past := true })
      else m
    | _ => m) m

/-- A kernel ends at END (R69): the core is IDLE, which a KERNEL_PREEMPT that holds it may have waited for (R284), its launch is told, and
its next work begins. -/
def Mod.finishKernel (m : Mod) (id : Nat) : Mod :=
  let c := m.core id
  let launch := c.launch
  let m := m.setCore id { c with st := .idle, kernel := none, launch := none, endWait := false, fenceWait := false }
  let m := match c.hold with
    | some p => m.preemptPoint p.q
    | none => m
  let m := match launch with
    | some p => m.launchCore p (id % 8) .ended
    | none => m
  m.coreNext id

/-- Whether a held post may be sent (R61). -/
def TCore.mayPost (c : TCore) (h : HeldPost) : Bool :=
  h.mat ≤ c.matDone && h.vec ≤ c.vecDone && h.chain ≤ c.chainDone && c.moves.all (fun j => h.moves ≤ j.serial)

/-- What waited for an instruction or a move to complete: held posts are sent, a FENCE passes, an END ends the kernel. -/
def Mod.settleCore (m : Mod) (id : Nat) : Mod :=
  let c := m.core id
  let sent := c.heldPosts.filter c.mayPost
  let m : Mod := { m with posts := m.posts ++ sent.map HeldPost.post }
  let c := { c with heldPosts := c.heldPosts.filter (fun h => !c.mayPost h) }
  let m := m.setCore id c
  if c.outstanding || c.st != .running then m
  else if c.endWait then m.finishKernel id
  else if c.fenceWait then m.retire id { c with fenceWait := false } (c.pc + 1)
  else m

/-! ## Posts that arrive (R59, R62, R63) -/

/-- A post dropped, or one that overflowed, recorded on the target's die (R63, R397). -/
def Mod.recordPost (m : Mod) (id code : Nat) (sector : Option SectorId) : Mod :=
  m.record { site := coreSite id, cls := 0x04, sev := 1, unit := id % 64, code := code, addr := 0, detail := 0,
             sector := sector, injected := false }

/-- The increments of posts that a core accepts; the others are recorded and dropped (R63). -/
def Mod.takePosts (m : Mod) (id : Nat) : List Post → Mod × Nat
  | [] => (m, 0)
  | p :: rest =>
    let c := m.core id
    if c.sector.isNone || c.sector != p.sector then Mod.takePosts (m.recordPost id 0 p.sector) id rest
    else if c.st = .fenced then Mod.takePosts (m.recordPost id 1 p.sector) id rest
    else
      let r := Mod.takePosts m id rest
      (r.1, r.2 + p.incr)

/-- A counter of a bank raised by a sum, stopping at 65,535 (R58, R63). -/
def TCore.raise (c : TCore) (credit bank : Bool) (k sum : Nat) : TCore :=
  if credit then { c with credits := Table.set 0 c.credits (flag bank * 32 + k) (min 65535 (c.credit bank k + sum)) }
  else { c with tokens := Table.set 0 c.tokens (flag bank * 64 + k) (min 65535 (c.token bank k + sum)) }

/-- The first n posts on their way to one counter arrive in one cycle: they are summed and added, and an overflow faults the
kernel running in the counter's bank, or waits for the saved kernel of that bank (R62, R63). -/
def Mod.arrive (m : Mod) (target : BitVec 18) (n : Nat) : Mod :=
  let id := tokCore target
  let mine := m.posts.filter (fun p => p.target == target)
  let m : Mod := { m with posts := m.posts.filter (fun (p : Post) => p.target != target) ++ mine.drop n }
  let r := m.takePosts id (mine.take n)
  let m := r.1
  let c := m.core id
  let old := if tokCredit target then c.credit (tokBank target) (tokCounter target)
             else c.token (tokBank target) (tokCounter target)
  let m := if r.2 = 0 then m else m.setCore id (c.raise (tokCredit target) (tokBank target) (tokCounter target) r.2)
  if old + r.2 ≤ 65535 then m
  else
    let m := m.recordPost id 2 c.sector
    if c.kernel.isSome && c.bank = tokBank target && c.st != .faulted then m.coreFault id 0x01 0 c.pc
    else match c.saved with
      | some s => if s.bank = tokBank target then m.updCore id (fun c => { c with saved := some { s with overflow := true } }) else m
      | none => m

end Sys2Proof.Machine
end

