-- ==== Sys2Proof/Machine/Transport.lean ====
section
/-!
DEFINITION. Transport packets, routing, flows, collective engines and bookings (R239 to R269).
-/
namespace Sys2Proof

namespace TPkt
/-- DST. -/
def dst (t : TPkt) : Nat := Machine.bits t.w0 23 0
/-- SRC. -/
def src (t : TPkt) : Nat := Machine.bits t.w0 47 24
/-- HOPS. -/
def hops (t : TPkt) : Nat := Machine.bits t.w0 57 48
/-- LAST. -/
def last (t : TPkt) : Bool := Machine.bit t.w0 59
/-- KIND. -/
def kind (t : TPkt) : Nat := Machine.bits t.w0 63 60
/-- SEQ. -/
def seq (t : TPkt) : Nat := Machine.bits t.w1 31 0
/-- GEN. -/
def gen (t : TPkt) : BitVec 8 := t.w1.extractLsb' 32 8
/-- PKEY. -/
def pkey (t : TPkt) : Nat := Machine.bits t.w1 55 40
/-- DST_AGENT. -/
def dstAgent (t : TPkt) : Nat := Machine.bits t.w1 62 56
/-- ADDR. -/
def addr (t : TPkt) : Nat := Machine.bits t.w2 55 0
/-- CHAN. -/
def chan (t : TPkt) : Nat := Machine.bits t.w2 63 56
/-- ACK_SEQ. -/
def ackSeq (t : TPkt) : Nat := Machine.bits t.w3 31 0
/-- SRC_AGENT. -/
def srcAgent (t : TPkt) : Nat := Machine.bits t.w3 38 32
/-- RED_OP. -/
def redOp (t : TPkt) : Nat := Machine.bits t.w3 41 40
/-- RED_FMT. -/
def redFmt (t : TPkt) : Nat := Machine.bits t.w3 42 42
/-- BOOK_ID. -/
def bookId (t : TPkt) : Nat := Machine.bits t.w3 59 44

/-- The one payload word of a SIGNAL or a NACK. -/
def word (t : TPkt) : Word := Machine.bytesWord t.payload

/-- A reserved value, the reserved group among them (R239), or a payload length outside its kind's range (R244). -/
def malformed (t : TPkt) : Bool :=
  let n := t.payload.length
  Machine.bit t.w1 63 || Machine.bit t.w3 39 || Machine.bit t.w3 43 || Machine.bits t.w3 63 60 != 0 || t.dstAgent > 64 ||
    t.srcAgent > 64 || (t.dst / 4096 = 0xFFF && t.dst ≠ 0xFFFFFF) || t.src / 4096 = 0xFFF ||
    (match t.kind with
     | 0 => n < 4 || n > 4096 || n % 4 != 0
     | 1 => n == 0 || n > 4096 || n % 128 != 0 || t.addr % 128 != 0 || t.redOp == 3
     | 2 => n != 8 || Machine.bits t.word 47 32 == 0 || Machine.bits t.word 62 48 != 0 ||
        (if Machine.bit t.word 63 then Machine.bits t.word 31 4 != 0
         else Machine.bits t.word 31 18 != 0 || Machine.tokReserved (t.word.extractLsb' 0 18))
     | 3 => n != 32
     | 4 => n != 8 || Machine.bits t.word 7 0 == 0 || Machine.bits t.word 7 0 > 2 || Machine.bits t.word 63 8 != 0
     | 5 => n < 16 || n > 4112
     | _ => true)
end TPkt

end Sys2Proof

namespace Sys2Proof.Machine
open Sys2Proof

/-! ## Plans: their end and their failure (R263, R264) -/

/-- The STATUS of a plan fault (R302). -/
def planStatus (code : Nat) : Nat := [0, 0x0503, 0x0504, 0x0308, 0x0109, 0x0405].getD code 0x0401

/-- A plan begins on an engine (R264). -/
def Mod.startPlan (m : Mod) (e : Nat) (p : PktRef) (ws : List Word) : Mod :=
  let x := m.engine e
  let w := wordAt ws
  let put := fun (l : List Nat) => (List.range 4).foldl (fun (t : Table Nat) (i : Nat) => Table.set 0 t i (l.getD i 0)) []
  m.setEngine e { x with
    st := .running, step := 0, faultValid := false, executed := 0, startBt := m.bt, plan := some p, loops := [],
    tokens := if bit (w 2) 6 then [] else x.tokens, arrive := if bit (w 2) 7 then [] else x.arrive, failing := false
    x := put [bits (w 3) 31 0, bits (w 3) 63 32, bits (w 4) 31 0, bits (w 4) 63 32]
    p := put [bits (w 5) 23 0, bits (w 5) 55 32, bits (w 6) 23 0, bits (w 6) 55 32] }

/-- A plan is over: the engine is IDLE, or FAULTED after a failure; its one reply is written, and a PLAN_START that waits
begins. -/
def Mod.finishPlan (m : Mod) (e : Nat) : Mod :=
  let x := m.engine e
  let m := m.setEngine e { x with st := if x.failing then .faulted else .idle, plan := none, failing := false, queue := x.queue.drop 1 }
  let m := match x.plan with
    | some p => if x.failing then m.endCmd p (planStatus x.faultCode) x.faultStep 0 else m.endCmd p 0 0 x.executed
    | none => m
  match x.queue with
  | (p, ws) :: _ => m.startPlan e p ws
  | [] => m

/-- The engine runs a plan. -/
def Engine.active (x : Engine) : Bool := x.st == .running || x.st == .waiting

/-- A plan that has passed its last step, or failed, ends once no transfer is in flight. -/
def Mod.settlePlan (m : Mod) (e : Nat) : Mod :=
  let x := m.engine e
  if x.active && x.transfers.isEmpty && (x.failing || x.step ≥ x.steps.length) then m.finishPlan e else m

/-- A plan fails (R263): it sends nothing further, and waits for its transfers. -/
def Mod.failPlan (m : Mod) (e code step : Nat) : Mod :=
  let x := m.engine e
  if x.active && !x.failing then
    (m.setEngine e { x with failing := true, st := .running, faultCode := code, faultStep := step, faultValid := true }).settlePlan e
  else m

/-! ## Sending (R242 to R244, R248 to R250) -/

/-- Packets of a transfer. -/
def Transfer.total (t : Transfer) : Nat := ceilDiv t.len 4096

/-- The PKEY a sector's packets carry. -/
def Mod.sectorPkey (m : Mod) (ed : Nat) (sector : Option SectorId) : Nat :=
  match sector with
  | some s => bits (m.pkeyReg ed s) 15 0
  | none => 0

/-- The bytes of one packet of a transfer, read under the engine's sector. -/
def Mod.transferBytes (m : Mod) (e : Nat) (t : Transfer) (i : Nat) : Except AccErr (List Byte) :=
  m.readPhys (m.engine e).sector (t.laddr + 4096 * i) (min 4096 (t.len - 4096 * i))

/-- One packet of a transfer as it is sent, first or again. -/
def Mod.transferPkt (m : Mod) (e : Nat) (t : Transfer) (i seq gen : Nat) (bs : List Byte) : TPkt :=
  mkPkt t.dst (bits (m.nodeReg (e / 16)) 23 0) (m.hopInit (e / 16)) (i + 1 == t.total) (flag t.reduce) seq gen
    (m.sectorPkey (e / 16) (m.engine e).sector) t.dstAgent (t.raddr + 4096 * i) t.chan 0 e
    (if t.reduce then t.redOp + 4 * t.redFmt else 0) (if t.booked then t.bookId else 0) bs

/-- The virtual channel of a transfer's packet (R244). -/
def Transfer.vc (t : Transfer) (n : Nat) : Nat := if t.booked then 2 else if n ≤ 512 then 3 else 5

/-- A source of a transfer cannot be read: recorded, and the step fails with ACCESS (R24, R171, R263, R393). -/
def Mod.sourceFail (m : Mod) (e : Nat) (t : Transfer) (i : Nat) (err : AccErr) : Mod :=
  (m.recordAccess (engineSite e) (0x0600 + e % 16) (m.engine e).sector err (t.laddr + 4096 * i)).failPlan e 3 t.step

/-- Packets of an engine's transfers sent while their flow holds fewer than 256 unacknowledged ones (R248). -/
def Mod.pumpEngine (m : Mod) (e : Nat) : Nat → Mod
  | 0 => m
  | n + 1 =>
    let x := m.engine e
    if !m.working || m.fw.edgePause || !x.active || x.failing then m
    else
      match x.transfers.find? (fun t => t.sent < t.total && (m.txFlow e t.dst t.dstAgent).unacked.length < 256) with
      | none => m
      | some t =>
        let m := m.touchRead x.sector (t.laddr + 4096 * t.sent) (min 4096 (t.len - 4096 * t.sent))
        match m.transferBytes e t t.sent with
        | .error err => m.sourceFail e t t.sent err
        | .ok bs =>
          let m1 := m.sendFlow e t.dst t.dstAgent (t.vc bs.length) x.sector t.num t.sent
            (fun seq gen => m.transferPkt e t t.sent seq gen bs) false
          Mod.pumpEngine (m1.updEngine e (fun x => { x with
            transfers := x.transfers.map (fun y => if y.num = t.num then { y with sent := y.sent + 1 } else y) })) e n

/-! ## Lookup and routing (R240 to R243) -/

/-- The entry that a node ID is looked up in, if it is valid (R240). -/
def Mod.route (m : Mod) (own dst : Nat) : Option Word :=
  let w := if dst / 4096 ≠ own / 4096 then Table.get 0 m.groupRoute (dst / 4096) else Table.get 0 m.memberRoute (dst % 4096)
  if bit w 28 then some w else none

/-- The listed ports of an entry, in order (R241). -/
def routePorts (w : Word) : List Nat :=
  [bits w 5 0, bits w 11 6, bits w 17 12, bits w 23 18].take (bits w 25 24 + 1)

/-- A port is ACTIVE. -/
def Mod.portActive (m : Mod) (p : Nat) : Bool := p < 32 && (m.port p).st == .active

/-- Every booking of the module, with its ED and record. -/
def Mod.bookings (m : Mod) : List (Nat × Nat × Booking) :=
  (List.range 4).flatMap (fun e => (m.ed e).books.filterMap (fun r => r.2.map (fun b => (e, r.1, b))))

/-- The port on which a BOOKED packet's live booking was admitted, while it is ACTIVE: until the frame boundary that ends the booking
its packets leave there, whatever the routing table says by then (R257). -/
def Mod.bookedPort (m : Mod) (e : Entering) : Option Nat :=
  if e.vc ≠ 2 then none
  else
    ((m.bookings.find? (fun b => b.2.2.bookId.toNat == e.pkt.bookId && b.2.2.dst == e.pkt.dst && b.2.2.start ≤ m.bt &&
      m.portActive b.2.2.port)).map (fun b => b.2.2.port))

/-- DL on leaving (R241). -/
def dlAct (w : Word) (t : TPkt) : TPkt :=
  match bits w 27 26 with
  | 1 => { t with w0 := t.w0 ||| (1#64 <<< 58) }
  | 2 => { t with w0 := t.w0 &&& ~~~(1#64 <<< 58) }
  | _ => t

/-- A packet leaves through a port, its sector's traffic in the frame noted (R242, R253, R256). -/
def Mod.leave (m : Mod) (e : Entering) (w : Word) (port : Nat) (vc : Nat) : Mod :=
  let m := match e.sector with
    | some s => m.updPort port (fun x => { x with traffic := if x.traffic.contains s then x.traffic else s :: x.traffic })
    | none => m
  m.sendLink port vc e.sector (dlAct w e.pkt)

/-- A packet routed by an entry; none while no listed port is ACTIVE (R242). -/
def Mod.routeBy (m : Mod) (e : Entering) (w : Word) : Option Mod :=
  let p0 := bits w 5 0
  if e.vc = 2 && m.portActive p0 then some (m.leave e w p0 2)
  else
    let act := (routePorts w).filter m.portActive
    match act[(e.pkt.seq / 16 + e.pkt.srcAgent) % act.length]? with
    | some p => some (if e.vc = 2 then (m.demote p).leave e w p 5 else m.leave e w p e.vc)
    | none => none

/-- A packet with no route is dropped; a plan's step fails with NO_ROUTE (R240, R242, R265). -/
def Mod.dropNoRoute (m : Mod) (e : Entering) : Mod :=
  let m := m.updEd e.ed (fun d => { d with noRoute := satAdd d.noRoute 1 0xFFFF })
  if e.port.isNone && e.pkt.srcAgent < 64 && e.pkt.kind ≤ 2 then
    let x := m.engine e.pkt.srcAgent
    let step := ((m.flowWith e.pkt.srcAgent e.pkt.dst e.pkt.dstAgent e.pkt.seq).unacked.find? (fun u => u.seq == e.pkt.seq)).bind
      (fun u => if u.transfer = 0 then some u.index else (x.transfers.find? (fun t => t.num == u.transfer)).map Transfer.step)
    m.failPlan e.pkt.srcAgent 5 (step.getD x.step)
  else m

/-- A malformed packet, counted on the port it came by (R232, R244). -/
def Mod.dropMalformed (m : Mod) (e : Entering) : Mod :=
  match e.port with
  | some p => m.portMalformed p
  | none => m

/-- A packet for another module goes out: through the port of its booking, or by the routing tables; with no listed port ACTIVE it waits
(R240, R242, R257). -/
def Mod.routeOut (m : Mod) (own : Nat) (e : Entering) : Mod :=
  match m.bookedPort e with
  | some p => m.leave e ((m.route own e.pkt.dst).getD 0) p 2
  | none =>
    match m.route own e.pkt.dst with
    | none => m.dropNoRoute e
    | some w => (m.routeBy e w).getD { m with routeWait := m.routeWait ++ [e] }

/-- The one lookup of a packet in the module (R239, R240, R243). -/
def Mod.lookup (m : Mod) (e : Entering) : Mod :=
  let arrive : Mod := { m with arrived := m.arrived ++ [e] }
  if e.pkt.malformed then m.dropMalformed e
  else if e.pkt.dst = 0xFFFFFF then (if e.pkt.kind = 5 && e.port.isSome then arrive else m.dropMalformed e)
  else
    match m.nodeId e.ed with
    | none => m
    | some own =>
      if e.pkt.dst = own then arrive
      else if e.port.isSome && e.pkt.hops = 0 then m.updEd e.ed (fun d => { d with hopExpired := satAdd d.hopExpired 1 0xFFFF })
      else
        let e : Entering := if e.port.isSome then { e with pkt := { e.pkt with w0 := e.pkt.w0 - (1#64 <<< 48) } } else e
        m.routeOut own e

/-- A waiting packet has a listed port that is ACTIVE again. -/
def Mod.routable (m : Mod) (e : Entering) : Bool :=
  match m.nodeId e.ed with
  | some own => (match m.route own e.pkt.dst with | some w => (routePorts w).any m.portActive | none => false)
  | none => false

/-- TRANSPORT_LOOKUP: the first waiting packet of an ED that can leave leaves, so that none overtakes it (R246); else the first packet
at the ED is looked up. While the EDs may originate nothing, the module's own packets stay (R388). -/
def execTransportLookup (ed : EdId) (s : State) : Host.Outcome State Fault Refusal :=
  let m := s.toMod
  s.go (match m.routeWait.find? (fun e => e.ed == ed.val && m.routable e) with
    | some e =>
      (match m.nodeId e.ed with
       | some own => ({ m with routeWait := m.routeWait.erase e } : Mod).routeOut own e
       | none => m)
    | none =>
      match m.inbox.find? (fun e => e.ed == ed.val && (e.port.isSome || !m.holdoff)) with
      | some e => ({ m with inbox := m.inbox.erase e } : Mod).lookup e
      | none => m)

/-- ROUTE_WAIT_TIMEOUT: the packet that has waited longest is dropped. -/
def execRouteWaitTimeout (ed : EdId) (s : State) : Host.Outcome State Fault Refusal :=
  let m := s.toMod
  s.go (match m.routeWait.find? (fun e => e.ed == ed.val) with
    | some e => ({ m with routeWait := m.routeWait.erase e } : Mod).dropNoRoute e
    | none => m)

/-! ## Receiving (R245, R248, R249) -/

/-- An ACK of a flow: the first SEQ not received, and a bitmap of those beyond it. -/
def Mod.sendAck (m : Mod) (f : RxFlow) : Mod :=
  let map := maskOf ((List.range 256).filter (fun i => f.got.contains ((f.base + i) % 2 ^ 32)))
  let sector := if f.dstAgent < 64 then (m.engine f.dstAgent).sector else none
  let t := mkPkt f.src (bits (m.nodeReg f.ed) 23 0) (m.hopInit f.ed) false 3 0 f.gen.toNat (m.sectorPkey f.ed sector) f.srcAgent 0 0
    f.base f.dstAgent 0 0 (bytesOf 32 map)
  m.enter f.ed 4 sector t

/-- A NACK of one packet (R244, R250): ACK_SEQ names it. -/
def Mod.sendNack (m : Mod) (f : RxFlow) (seq reason : Nat) : Mod :=
  let sector := if f.dstAgent < 64 then (m.engine f.dstAgent).sector else none
  let t := mkPkt f.src (bits (m.nodeReg f.ed) 23 0) (m.hopInit f.ed) false 4 0 f.gen.toNat (m.sectorPkey f.ed sector) f.srcAgent 0 0
    seq f.dstAgent 0 0 (bytesOf 8 reason)
  m.enter f.ed 4 sector t

/-- A receive flow. -/
def Mod.rxFlow (m : Mod) (src srcAgent dstAgent : Nat) : Option RxFlow :=
  m.rxFlows.find? (fun f => f.src == src && f.srcAgent == srcAgent && f.dstAgent == dstAgent)
/-- A receive flow replaced. -/
def Mod.setRxFlow (m : Mod) (f : RxFlow) : Mod :=
  { m with rxFlows := f :: m.rxFlows.filter (fun g => !(g.src == f.src && g.srcAgent == f.srcAgent && g.dstAgent == f.dstAgent)) }

/-- The state adopted from a packet (R248). -/
def RxFlow.adopt (e : Entering) : RxFlow :=
  { src := e.pkt.src, srcAgent := e.pkt.srcAgent, dstAgent := e.pkt.dstAgent, gen := e.pkt.gen, base := e.pkt.seq, got := [],
    since := 0, ed := e.ed }

/-- A packet's place in its flow: none for an older generation. -/
def Mod.flowOf (m : Mod) (e : Entering) : Option RxFlow :=
  match m.rxFlow e.pkt.src e.pkt.srcAgent e.pkt.dstAgent with
  | none => some (RxFlow.adopt e)
  | some f =>
    let d := (e.pkt.gen - f.gen).toNat
    if d = 0 then some f else if d ≤ 127 then some (RxFlow.adopt e) else none

/-- The window moves past what has been received. -/
def advanceBase : Nat → Nat → List Nat → Nat × List Nat
  | 0, base, got => (base, got)
  | n + 1, base, got => if got.contains base then advanceBase n ((base + 1) % 2 ^ 32) (got.erase base) else (base, got)

/-- A packet received in the flow: the window moves. -/
def RxFlow.take (f : RxFlow) (seq : Nat) : RxFlow :=
  let r := advanceBase 256 f.base (seq :: f.got)
  { f with base := r.1, got := r.2, since := f.since + 1 }

/-- A packet of a flow: its effect is applied exactly once; duplicates are acknowledged again; packets beyond the window, or of
an older generation, are dropped. The effect answers with a NACK reason or a changed module (R248, R249). -/
def Mod.inFlow (m : Mod) (e : Entering) (effect : Mod → Except (Nat × Mod) Mod) : Mod :=
  match m.flowOf e with
  | none => m
  | some f =>
    let d := (e.pkt.seq + 2 ^ 32 - f.base) % 2 ^ 32
    if d ≥ 256 then
      if d ≥ 2 ^ 31 then let m := m.setRxFlow { f with since := 0 }; m.sendAck f else m
    else if f.got.contains e.pkt.seq then let m := m.setRxFlow { f with since := 0 }; m.sendAck f
    else
      let f := f.take e.pkt.seq
      match effect m with
      | .error (reason, m) => (m.setRxFlow f).sendNack f e.pkt.seq reason
      | .ok m => if e.pkt.last || f.since ≥ 16 then (m.setRxFlow { f with since := 0 }).sendAck f else m.setRxFlow f

/-- The sector that a WRITE, REDUCE or SIGNAL acts for: its engine's, if the packet's PKEY is that sector's (R245). -/
def Mod.admitted (m : Mod) (e : Entering) : Option SectorId :=
  if e.pkt.dstAgent < 64 then
    match (m.engine e.pkt.dstAgent).sector with
    | some s => let k := m.pkeyReg e.ed s; if bit k 16 && bits k 15 0 == e.pkt.pkey then some s else none
    | none => none
  else none

/-- Takes the first packet of a kind delivered at an ED. -/
def Mod.arrival (m : Mod) (ed kind : Nat) : Option (Entering × Mod) :=
  match m.arrived.find? (fun e => e.ed == ed && e.pkt.kind == kind) with
  | some e => some (e, { m with arrived := m.arrived.erase e })
  | none => none

/-- The payload of a WRITE or REDUCE waits for its lines or its sector's buckets at their homes (R180, R203). -/
def Mod.payloadWaits (m : Mod) (e : Entering) : Bool :=
  match m.admitted e with
  | some s => decide (e.pkt.kind ≤ 1) && m.working && (m.engine e.pkt.dstAgent).st != .fenced && m.holdsOff (some s) true e.pkt.addr e.pkt.payload.length
  | none => false

/-- A WRITE, REDUCE or SIGNAL: a fenced engine's is dropped without an ACK (R385), and so is every one during the hold (R376);
one that is not admitted is counted (R245). One whose payload must wait stays. -/
def Mod.serve (m : Mod) (ed kind : Nat) (effect : Entering → SectorId → Mod → Except (Nat × Mod) Mod) : Mod :=
  match m.arrival ed kind with
  | none => m
  | some (e, m') =>
    if m.payloadWaits e then m else
    let m := m'
    if !m.working || (e.pkt.dstAgent < 64 && (m.engine e.pkt.dstAgent).st = .fenced) then m
    else
      match m.admitted e with
      | none => m.updEd ed (fun d => { d with pkeyDrop := satAdd d.pkeyDrop 1 0xFFFF })
      | some s => m.inFlow e (effect e s)

/-- An arrival counter raised by a payload (R262, R265). -/
def Mod.countArrival (m : Mod) (e : Entering) : Mod :=
  m.updEngine e.pkt.dstAgent (fun x => { x with
    arrive := Table.set 0 x.arrive e.pkt.chan (satAdd (Table.get 0 x.arrive e.pkt.chan) e.pkt.payload.length (2 ^ 40 - 1)) })

/-- The refusal of an address: recorded, and a NACK ACCESS (R245). -/
def Mod.refuseAddr (m : Mod) (ed agent : Nat) (s : SectorId) (err : AccErr) (addr : Nat) : Nat × Mod :=
  (1, m.recordAccess (edSite ed) (0x0600 + agent % 16) (some s) err addr)

/-- WRITE_PACKET. -/
def execWritePacket (ed : EdId) (s : State) : Host.Outcome State Fault Refusal :=
  s.go (s.toMod.serve ed 0 (fun e sec m =>
    match m.writePhys (some sec) e.pkt.addr e.pkt.payload with
    | .error err => .error (m.refuseAddr ed e.pkt.dstAgent sec err e.pkt.addr)
    | .ok m => .ok (m.countArrival e)))

/-- The operation of RED_OP: 0 sum, 1 max, 2 min (R244). -/
def redOpOf (n : Nat) : RedOp := if n = 1 then .max else if n = 2 then .min else .sum

/-- Each line of a REDUCE at its home (R266). -/
def Mod.reduceLines (m : Mod) (sec : SectorId) (op : RedOp) (wide : Bool) (addr : Nat) : Nat → List Byte → Except (AccErr × Nat) Mod
  | 0, _ => .ok m
  | n + 1, bs =>
    match (m.touchRead (some sec) addr 128).reduceInto (some sec) op wide addr (bs.take 128) with
    | .error e => .error (e, addr)
    | .ok m => Mod.reduceLines m sec op wide (addr + 128) n (bs.drop 128)

/-- REDUCE_PACKET. -/
def execReducePacket (ed : EdId) (s : State) : Host.Outcome State Fault Refusal :=
  s.go (s.toMod.serve ed 1 (fun e sec m =>
    match m.reduceLines sec (redOpOf e.pkt.redOp) (e.pkt.redFmt == 0) e.pkt.addr (e.pkt.payload.length / 128) e.pkt.payload with
    | .error (err, a) => .error (m.refuseAddr ed e.pkt.dstAgent sec err a)
    | .ok m => .ok (m.countArrival e)))

/-- An engine's token counter raised (R265); a fenced engine ignores it (R385). -/
def Mod.enginePost (m : Mod) (e counter incr : Nat) : Mod :=
  m.updEngine e (fun x => if x.st = .fenced then x
    else { x with tokens := Table.set 0 x.tokens counter (satAdd (Table.get 0 x.tokens counter) incr 65535) })

/-- A signal's post, for a sector: to a counter of an engine, or to a core's token (R244, R262). -/
def Mod.signal (m : Mod) (sector : Option SectorId) (agent : Nat) (w : Word) : Mod :=
  if bit w 63 then (if agent < 64 then m.enginePost agent (bits w 3 0) (bits w 47 32) else m)
  else m.sendPost (w.extractLsb' 0 18) (bits w 47 32) sector

/-- SIGNAL_PACKET. -/
def execSignalPacket (ed : EdId) (s : State) : Host.Outcome State Fault Refusal :=
  s.go (s.toMod.serve ed 2 (fun e sec m => .ok (m.signal (some sec) e.pkt.dstAgent e.pkt.word)))

/-- A SEQ is acknowledged by an ACK (R244, R248). -/
def ackCovers (ackSeq map seq : Nat) : Bool :=
  let d := (seq + 2 ^ 32 - ackSeq) % 2 ^ 32
  decide (d ≥ 2 ^ 31) || (decide (d < 256) && map.testBit d)

/-- ACK_PACKET: acknowledged packets leave their flow; an ACK of another generation is dropped (R249). -/
def execAckPacket (ed : EdId) (s : State) : Host.Outcome State Fault Refusal :=
  s.go (match s.toMod.arrival ed 3 with
    | none => s.toMod
    | some (e, m) =>
      let a := e.pkt.dstAgent
      if a > 64 || e.pkt.gen != m.agentGen a then m
      else
        let f := m.txFlow a e.pkt.src e.pkt.srcAgent
        let done := fun (u : TxPkt) => ackCovers e.pkt.ackSeq (numOf e.pkt.payload) u.seq
        let m := m.setTxFlow { f with unacked := f.unacked.filter (fun u => !done u) }
        if a < 64 then m.pumpEngine a 2048
        else
          let mine := fun (r : RemoteCmd) => r.dst == e.pkt.src && f.unacked.any (fun u => done u && u.seq == r.seq)
          ({ m with remotes := m.remotes.map (fun r => if mine r then { r with acked := true } else r) } : Mod).keeperPump e.pkt.src
            f.backlog.length)

/-- The step a packet belongs to. -/
def Mod.stepOf (m : Mod) (e : Nat) (u : TxPkt) : Nat :=
  if u.transfer = 0 then u.index
  else ((m.engine e).transfers.find? (fun t => t.num == u.transfer)).elim (m.engine e).step Transfer.step

/-- NACK_PACKET: the packet is never sent again, and its step fails with the REASON; a COMMAND of the Keeper stays unacknowledged
(R250, R405). -/
def execNackPacket (ed : EdId) (s : State) : Host.Outcome State Fault Refusal :=
  s.go (match s.toMod.arrival ed 4 with
    | none => s.toMod
    | some (e, m) =>
      let a := e.pkt.dstAgent
      if a > 64 || e.pkt.gen != m.agentGen a then m
      else
        let f := m.txFlow a e.pkt.src e.pkt.srcAgent
        match f.unacked.find? (fun u => u.seq == e.pkt.ackSeq) with
        | none => m
        | some u =>
          let m1 := m.setTxFlow { f with unacked := f.unacked.erase u }
          if a < 64 then m1.failPlan a (if bits e.pkt.word 7 0 = 1 then 3 else 4) (m.stepOf a u)
          else m1.keeperPump e.pkt.src f.backlog.length)

/-- ACK_DELAY_TIMER: packets of a flow that are not acknowledged yet are (R249). -/
def execAckDelayTimer (src : BitVec 24) (srcAgent dstAgent : Fin 65) (s : State) : Host.Outcome State Fault Refusal :=
  let m := s.toMod
  s.go (match m.rxFlow src.toNat srcAgent dstAgent with
    | some f => if f.since > 0 then (m.setRxFlow { f with since := 0 }).sendAck f else m
    | none => m)

/-- RESEND_TIMER: an unacknowledged packet is sent again, its source read again (R250); an engine whose plan failed sends nothing further, FAULTED
or not yet (R263). -/
def execResendTimer (agent : Fin 65) (dst : BitVec 24) (dstAgent : Fin 65) (seq : BitVec 32) (s : State) :
    Host.Outcome State Fault Refusal :=
  let m := s.toMod
  let f := m.flowWith agent dst.toNat dstAgent seq.toNat
  s.go (match f.unacked.find? (fun u => u.seq == seq.toNat) with
    | none => m
    | some u =>
      let sector := if agent.val < 64 then (m.engine agent).sector else none
      if agent.val < 64 && ((m.engine agent).failing || (m.engine agent).st = .faulted) then m
      else if u.transfer = 0 then
        m.enter (agentEd agent) (if agent.val < 64 then 3 else 0) sector u.pkt
      else
        match (m.engine agent).transfers.find? (fun t => t.num == u.transfer) with
        | none => m
        | some t =>
          let m := m.touchRead sector (t.laddr + 4096 * u.index) (min 4096 (t.len - 4096 * u.index))
          match m.transferBytes agent t u.index with
          | .error err => m.sourceFail agent t u.index err
          | .ok bs => m.enter (agentEd agent) (t.vc bs.length) sector (m.transferPkt agent t u.index u.seq f.gen.toNat bs))

/-- XPORT_TO_EXPIRY: the step fails with XPORT_TIMEOUT and the flow's other packets are abandoned; in a flow of the Keeper every
COMMAND not acknowledged is replied XPORT_TIMEOUT (R250, R405). An engine's XPORT_TO counts no time in the hold states (R376). -/
def execXportToExpiry (agent : Fin 65) (dst : BitVec 24) (dstAgent : Fin 65) (seq : BitVec 32) (s : State) :
    Host.Outcome State Fault Refusal :=
  let m := s.toMod
  let f := m.flowWith agent dst.toNat dstAgent seq.toNat
  let lost := m.remotes.filter (fun r => r.dst == dst.toNat && !r.acked)
  s.go (if agent.val < 64 then
      (if !m.working then m else match f.unacked.find? (fun u => u.seq == seq.toNat) with
       | none => m
       | some u => (m.setTxFlow { f with unacked := [] }).failPlan agent 2 (m.stepOf agent u))
    else if f.unacked.any (fun u => u.seq == seq.toNat) || lost.any (fun r => r.seq == seq.toNat) then
      let m1 := m.setTxFlow { f with unacked := [], backlog := [] }
      lost.foldl (fun (m : Mod) (r : RemoteCmd) => m.endCmd r.pkt 0x0504 0 0) { m1 with remotes := m1.remotes.filter (fun r => !lost.contains r) }
    else m)

/-- FLOW_STATE_EXPIRY: a receive flow is forgotten (R248). -/
def execFlowStateExpiry (src : BitVec 24) (srcAgent dstAgent : Fin 65) (s : State) : Host.Outcome State Fault Refusal :=
  let m := s.toMod
  s.go { m with rxFlows := m.rxFlows.filter (fun f => !(f.src == src.toNat && f.srcAgent == srcAgent.val && f.dstAgent == dstAgent.val)) }

/-- ORIGINATION_HOLDOFF_END (R388). -/
def execOriginationHoldoffEnd (s : State) : Host.Outcome State Fault Refusal := s.go { s.toMod with holdoff := false }

/-! ## Plans (R259 to R265) -/

/-- A step's words are ones PLAN_LOAD accepts at an index (R260, R261). -/
def stepOk (i : Nat) (ws : List Word) : Bool :=
  let w := wordAt ws
  let aux := bits (w 0) 31 16
  let len := bits (w 0) 63 32
  bits (w 0) 15 14 == 0 && bits (w 0) 11 10 != 3 &&
    (match bits (w 0) 3 0 with
     | 1 => bits (w 2) 31 30 == 0 && bits (w 3) 63 56 == 0
     | 3 => bits (w 2) 31 30 == 0 && bits (w 3) 63 56 == 0
     | 2 => aux == 0 && bits (w 1) 55 0 == 0 && w 2 == 0 && bits (w 3) 62 18 == 0 && !tokReserved ((w 3).extractLsb' 0 18)
     | 4 => aux != 0 && len == 0 && bits (w 1) 63 4 == 0 && w 2 == 0 && w 3 == 0
     | 5 => aux != 0 && len == 0 && w 1 == 0 && bits (w 2) 63 30 == 0 && !bit (w 3) 63 && bits (w 3) 61 18 == 0 &&
        (if bit (w 3) 62 then bits (w 3) 17 4 == 0 else !tokReserved ((w 3).extractLsb' 0 18))
     | 6 => aux == 0 && len == 0 && w 1 == 0 && w 2 == 0
     | 7 => aux < i && len != 0 && w 2 == 0 && w 3 == 0
     | _ => false)

/-- The header word of a plan image that is out of range (R260). -/
def planFault (ws : List Word) : Option Nat :=
  let w := wordAt ws
  if bits (w 0) 31 0 != 0x504C414E || bits (w 0) 39 32 != 1 || bits (w 0) 48 40 == 0 || bits (w 0) 48 40 > 256 ||
      bits (w 0) 63 49 != 0 then some 0
  else if bits (w 1) 15 0 == 0 || bits (w 1) 15 0 > 60000 || bits (w 1) 63 16 != 0 then some 1
  else [2, 3, 4, 5, 6, 7].find? (fun i => w i != 0)

/-- The steps of an image's words. -/
def stepsOf : Nat → List Word → List (List Word)
  | 0, _ => []
  | n + 1, ws => ws.take 4 :: stepsOf n (ws.drop 4)

/-- Why a PLAN_LOAD is refused (R306). -/
def Mod.planLoadFault (m : Mod) (ws : List Word) : Option (Nat × Nat) :=
  let e := bits (wordAt ws 2) 5 0
  if (m.engine e).active || !(m.engine e).queue.isEmpty then some (0x0202, e) else none

/-- PLAN_LOAD (R260, R305, R306). An engine that is RUNNING or WAITING answers BUSY, as R306 says, and not a format-class status, as R260
says (DEDUCED, log entry 114). -/
def execPlanLoad (p : PktRef) (s : State) : Host.Outcome State Fault Refusal :=
  let m := s.toMod
  s.go (m.command p 0x300 (fun ws =>
    let e := bits (wordAt ws 2) 5 0
    let image := bits (wordAt ws 3) 55 0
    let x := m.engine e
    let sector := m.queueSector p.q
    let cl := queueNum p.q / 128
    let fail := fun (m : Mod) (err : AccErr) (a : Nat) =>
      (m.recordAccess (clusterSite cl) (0x0100 + cl % 8) sector err a).endCmd p err.status 3 0
    match m.planLoadFault ws with
    | some f => m.endCmd p f.1 f.2 0
    | none =>
      let before := m
      if m.holdsOff sector false image 64 then m
      else
      let m := m.touchRead sector image 64
      match m.readPhys sector image 64 with
      | .error err => fail m err image
      | .ok hb =>
        match planFault (wordsOf 8 hb) with
        | some k => m.endCmd p 0x0105 (0x8000 + k) 0
        | none =>
          let n := bits (bytesWord (hb.take 8)) 48 40
          if m.holdsOff sector false (image + 64) (32 * n) then before
          else
          let m := m.touchRead sector (image + 64) (32 * n)
          match m.readPhys sector (image + 64) (32 * n) with
          | .error err => fail m err (image + 64)
          | .ok sb =>
            let steps := stepsOf n (wordsOf (4 * n) sb)
            match (List.range n).find? (fun i => !stepOk i (steps.getD i [])) with
            | some i => m.endCmd p 0x0105 i 0
            | none => (m.setEngine e { x with steps := steps, stepTo := bits (wordAt (wordsOf 8 hb) 1) 15 0 }).endCmd p 0 0 n))

/-- The generation that GEN_CHECK of a PLAN_START finds is another (R302, R306). -/
def Mod.planStartFault (m : Mod) (ws : List Word) : Option (Nat × Nat) :=
  let gen := (m.engine (bits (wordAt ws 2) 5 0)).gen
  if bit (wordAt ws 2) 8 && bits (wordAt ws 2) 23 16 != gen.toNat then some (0x0402, gen.toNat) else none

/-- PLAN_START (R264): behind a running plan it waits. -/
def execPlanStart (p : PktRef) (s : State) : Host.Outcome State Fault Refusal :=
  let m := s.toMod
  s.go (m.command p 0x301 (fun ws =>
    let e := bits (wordAt ws 2) 5 0
    let x := m.engine e
    let m := m.running p (.plan (Fin.ofNat 64 e))
    if x.active || x.st = .fenced then m.updEngine e (fun x => { x with queue := x.queue ++ [(p, ws)] })
    else (m.startPlan e p ws).settlePlan e))

/-- The current step of an engine, if it is of an operation and may start (R261, R263). -/
def Mod.planStep (m : Mod) (e op : Nat) : Option (List Word) :=
  let x := m.engine e
  match x.steps[x.step]? with
  | some ws =>
    if m.working && !m.fw.edgePause && x.st = .running && !x.failing && bits (wordAt ws 0) 3 0 == op && (!bit (wordAt ws 0) 6 || x.transfers.isEmpty) then some ws else none
  | none => none

/-- A step is done: the next one, or the plan's end. -/
def Mod.stepDone (m : Mod) (e next : Nat) : Mod :=
  (m.updEngine e (fun x => { x with st := .running, step := next, executed := x.executed + 1 })).settlePlan e

/-- An address field of a step, moved by its index register (R261). -/
def Engine.indexed (x : Engine) (ws : List Word) (a : Nat) : Nat :=
  if bit (wordAt ws 0) 4 then (a + Table.get 0 x.x (bits (wordAt ws 0) 9 8) * bits (wordAt ws 2) 63 32) % 2 ^ 56 else a

/-- The peer node of a step. -/
def Engine.peer (x : Engine) (ws : List Word) : Nat :=
  if bit (wordAt ws 0) 5 then Table.get 0 x.p (bits (wordAt ws 2) 1 0) else bits (wordAt ws 2) 23 0

/-- SEND and REDUCE_INTO start once their first packet is queued, eight at most in flight (R262, R263). -/
def Mod.startTransfer (m : Mod) (e op : Nat) : Mod :=
  match m.planStep e op with
  | none => m
  | some ws =>
    let x := m.engine e
    let w0 := wordAt ws 0
    let len := bits w0 63 32
    let la := x.indexed ws (bits (wordAt ws 1) 55 0)
    let ra := x.indexed ws (bits (wordAt ws 3) 55 0)
    if x.transfers.length ≥ 8 then m
    else if len = 0 || len % (if op = 3 then 128 else 4) ≠ 0 || (op = 3 && (la % 128 ≠ 0 || ra % 128 ≠ 0)) then m.failPlan e 4 x.step
    else
      let t : Transfer := { num := x.nextTransfer, step := x.step, reduce := op == 3, redOp := bits w0 11 10, redFmt := bits w0 12 12,
                            laddr := la, raddr := ra, len := len, chan := bits (wordAt ws 1) 63 56, dst := x.peer ws,
                            dstAgent := bits (wordAt ws 2) 29 24, booked := bit w0 7, bookId := bits w0 31 16, sent := 0 }
      ((m.setEngine e { x with transfers := x.transfers ++ [t], nextTransfer := x.nextTransfer + 1, step := x.step + 1,
                               executed := x.executed + 1 }).pumpEngine e 256).settlePlan e

/-- SEND. -/
def execSend (e : EngineId) (s : State) : Host.Outcome State Fault Refusal := s.go (s.toMod.startTransfer e 1)

/-- REDUCE_INTO as a plan's step. -/
def execPlanReduceInto (e : EngineId) (s : State) : Host.Outcome State Fault Refusal := s.go (s.toMod.startTransfer e 3)

/-- Whether what a RECV, WAIT_TOKEN or WAIT_BEACON waits for is there (R262). -/
def Mod.stepMet (m : Mod) (e : Nat) (ws : List Word) : Bool :=
  let x := m.engine e
  let w := wordAt ws
  match bits (w 0) 3 0 with
  | 2 => decide (Table.get 0 x.arrive (bits (w 1) 63 56) ≥ bits (w 0) 63 32)
  | 4 => decide (Table.get 0 x.tokens (bits (w 1) 3 0) ≥ bits (w 0) 31 16)
  | 6 => decide (m.bt ≥ (w 3).toNat + (if bit (w 0) 13 then x.startBt else 0))
  | _ => false

/-- The subtraction, the post, and the next step (R262). -/
def Mod.stepTake (m : Mod) (e : Nat) (ws : List Word) : Mod :=
  let x := m.engine e
  let w := wordAt ws
  let m := match bits (w 0) 3 0 with
    | 2 =>
      let c := bits (w 1) 63 56
      let m := m.setEngine e { x with arrive := Table.set 0 x.arrive c (Table.get 0 x.arrive c - bits (w 0) 63 32) }
      if bit (w 3) 63 then m.sendPost ((w 3).extractLsb' 0 18) 1 x.sector else m
    | 4 =>
      let c := bits (w 1) 3 0
      m.setEngine e { x with tokens := Table.set 0 x.tokens c (Table.get 0 x.tokens c - bits (w 0) 31 16) }
    | _ => m
  m.stepDone e (x.step + 1)

/-- A waiting step starts: it completes at once, or the engine waits. -/
def Mod.startWait (m : Mod) (e op : Nat) : Mod :=
  match m.planStep e op with
  | none => m
  | some ws => if m.stepMet e ws then m.stepTake e ws else m.updEngine e (fun x => { x with st := .waiting })

/-- RECV. -/
def execRecv (e : EngineId) (s : State) : Host.Outcome State Fault Refusal := s.go (s.toMod.startWait e 2)
/-- WAIT_TOKEN. -/
def execWaitToken (e : EngineId) (s : State) : Host.Outcome State Fault Refusal := s.go (s.toMod.startWait e 4)
/-- WAIT_BEACON. -/
def execWaitBeacon (e : EngineId) (s : State) : Host.Outcome State Fault Refusal := s.go (s.toMod.startWait e 6)

/-- PLAN_WAIT_MET. -/
def execPlanWaitMet (e : EngineId) (s : State) : Host.Outcome State Fault Refusal :=
  let m := s.toMod
  let x := m.engine e
  s.go (match x.steps[x.step]? with
    | some ws => if x.st = .waiting && m.working && !m.fw.edgePause && m.stepMet e ws then m.stepTake e ws else m
    | none => m)

/-- SIGNAL as a plan's step: to the module itself, or as a packet to the peer, for which the flow must have room (R248, R262). -/
def execPlanSignal (e : EngineId) (s : State) : Host.Outcome State Fault Refusal :=
  let m := s.toMod
  s.go (match m.planStep e 5 with
    | none => m
    | some ws =>
      let x := m.engine e
      let dst := x.peer ws
      let agent := bits (wordAt ws 2) 29 24
      let engine := bit (wordAt ws 3) 62
      let w := pack [(0, 18, bits (wordAt ws 3) 17 0), (32, 16, bits (wordAt ws 0) 31 16), (63, 1, flag engine)]
      let own := bits (m.nodeReg (e / 16)) 23 0
      if dst ≠ own && (m.txFlow e dst agent).unacked.length ≥ 256 then m
      else
      let m := if dst = own then
          (if engine && (m.engine agent).sector != x.sector then m else m.signal x.sector agent w)
        else
          m.sendFlow e dst agent 3 x.sector 0 x.step (fun seq gen =>
            mkPkt dst own (m.hopInit (e / 16)) true 2 seq gen (m.sectorPkey (e / 16) x.sector) agent 0 0 0 e 0 0 (wordBytes w)) true
      m.stepDone e (x.step + 1))

/-- LOOP. -/
def execPlanLoop (e : EngineId) (s : State) : Host.Outcome State Fault Refusal :=
  let m := s.toMod
  s.go (match m.planStep e 7 with
    | none => m
    | some ws =>
      let x := m.engine e
      let sel := bits (wordAt ws 0) 9 8
      let inc := bits (wordAt ws 1) 31 0
      let md := bits (wordAt ws 1) 63 32
      let xs := if md = 0 then x.x else Table.set 0 x.x sel ((Table.get 0 x.x sel + inc) % md)
      let c := Table.get 0 x.loops x.step
      let left := (if c = 0 then bits (wordAt ws 0) 63 32 else c) - 1
      (m.setEngine e { x with x := xs, loops := Table.set 0 x.loops x.step left }).stepDone e
        (if left = 0 then x.step + 1 else bits (wordAt ws 0) 31 16))

/-- TRANSFER_COMPLETE: every packet of a transfer is sent and acknowledged; after a failure, every one that was sent (R262, R263). -/
def execTransferComplete (e : EngineId) (num : Nat) (s : State) : Host.Outcome State Fault Refusal :=
  let m := s.toMod
  let x := m.engine e
  s.go (match x.transfers.find? (fun t => t.num == num) with
    | none => m
    | some t =>
      if (t.sent == t.total || x.failing) && !m.transferOpen e t.dst t.dstAgent num then
        ((m.setEngine e { x with transfers := x.transfers.filter (fun y => y.num != num) }).pumpEngine e 2048).settlePlan e
      else m)

/-- STEP_TIMEOUT: a step that waits, or whose transfer is in flight, fails (R263); STEP_TO counts no time in the hold states (R376). -/
def execStepTimeout (e : EngineId) (step : Fin 256) (s : State) : Host.Outcome State Fault Refusal :=
  let m := s.toMod
  let x := m.engine e
  s.go (if !m.working then m else if (x.active && x.step = step.val) || x.transfers.any (fun t => t.step == step.val) then m.failPlan e 1 step else m)

/-- EDG_CE_POST: INCR 0 is ignored (R265). -/
def execEdgCePost (e : EngineId) (counter : Fin 16) (incr : BitVec 16) (s : State) : Host.Outcome State Fault Refusal :=
  s.go (s.toMod.enginePost e counter incr.toNat)

/-! ## Bookings (R254 to R258) -/

/-- SLOT_CAP of a port: its payload rate over 960 ns (R254); 0 when DISABLED. -/
def Port.slotCap (x : Port) : Nat :=
  if x.st = .disabled || x.gen = 0 || x.width ≥ 3 then 0
  else if x.ethernet then 200 * 32 * 238 * 960 / 8294
  else 376320 / 2 ^ (3 - x.gen) * 2 ^ (x.width + 1) / 8

/-- The live bookings of an ED on a port, with their record numbers. -/
def EdState.onPort (d : EdState) (port : Nat) : List (Nat × Booking) :=
  d.books.filterMap (fun r => match r.2 with
    | some b => if b.port = port then some (r.1, b) else none
    | none => none)

/-- Bytes booked in a slot. -/
def slotUse (l : List (Nat × Booking)) (k : Nat) : Nat :=
  (l.filter (fun r => r.2.mask.getLsbD k)).foldl (fun a r => a + r.2.volume) 0

/-- A booking ends: its BOOK reply, and the replies of UNBOOKs that wait for it (R258). -/
def Mod.endBooking (m : Mod) (ed i status : Nat) : Mod :=
  match Table.get none (m.ed ed).books i with
  | none => m
  | some b =>
    let m := m.updEd ed (fun d => { d with books := Table.set none d.books i none })
    let m := match b.pkt with
      | some p => m.endCmd p status b.port b.served
      | none => m
    b.unbook.foldl (fun m p => m.endCmd p 0 0 b.served) m

/-- A booking's record changed. -/
def Mod.updBooking (m : Mod) (ed i : Nat) (f : Booking → Booking) : Mod :=
  m.updEd ed (fun d => { d with books := Table.set none d.books i ((Table.get none d.books i).map f) })

/-- Admission of a BOOK's packet (R254): the port and the record it gets, or its refusal. -/
def Mod.bookAdmit (m : Mod) (ws : List Word) : Except (Nat × Nat) (Nat × Nat) :=
  let w := wordAt ws
  let start := (w 5).toNat
  if !m.beacon.locked then .error (0x0502, 0)
  else if start % 65536 ≠ 0 || start < m.bt + 65536 then .error (0x0501, 0)
  else
    match (m.nodeId 0).bind (fun own => m.route own (bits (w 2) 47 24)) with
    | none => .error (0x0603, 0x3F)
    | some r =>
      let port := bits r 5 0
      let d := m.ed (port / 8)
      if !m.portActive port then .error (0x0603, port)
      else if m.bookings.any (fun b => b.2.2.bookId.toNat == bits (w 2) 15 0) then .error (0x0604, 0)
      else
        match (List.range 64).find? (fun k =>
            (w 3).getLsbD k && slotUse (d.onPort port) k + bits (w 4) 31 0 > Table.get 0 d.slotCap (port % 8)) with
        | some k => .error (0x0602, k)
        | none =>
          match (List.range 512).find? (fun i => (Table.get none d.books i).isNone) with
          | none => .error (0x0606, port / 8)
          | some i => .ok (port, i)

/-- Why a BOOK is refused (R254). -/
def Mod.bookFault (m : Mod) (ws : List Word) : Option (Nat × Nat) :=
  match m.bookAdmit ws with
  | .error e => some e
  | .ok _ => none

/-- BOOK: admission (R254). -/
def execBook (p : PktRef) (s : State) : Host.Outcome State Fault Refusal :=
  let m := s.toMod
  s.go (m.command p 0x302 (fun ws =>
    let w := wordAt ws
    match m.bookAdmit ws with
    | .error e => m.endCmd p e.1 e.2 0
    | .ok (port, i) =>
      let ed := port / 8
      let b : Booking := { port := port, sector := Fin.ofNat 16 (bits (w 2) 19 16), bookId := BitVec.ofNat 16 (bits (w 2) 15 0),
                           volume := bits (w 4) 31 0, mask := w 3, start := (w 5).toNat, admitBt := m.bt, served := 0, used := 0,
                           usedAt := 0, dst := bits (w 2) 47 24, pkt := some p, unbook := [], ending := none }
      ((m.updEd ed (fun d => { d with books := Table.set none d.books i (some b) })).running p
        (.booking (Fin.ofNat 4 ed) i)).updFlight p (fun f => { f with past := true })))

/-- The live booking of the issuer that an UNBOOK names, with its ED and record. -/
def Mod.bookingNamed (m : Mod) (p : PktRef) (ws : List Word) : Option (Nat × Nat × Booking) :=
  m.bookings.find? (fun b => b.2.2.bookId.toNat == bits (wordAt ws 2) 15 0 &&
    (match m.issuer p.q with | some (.sector x) => b.2.2.sector == x | some .mgmt => true | none => false))

/-- UNBOOK: the issuer's live booking ends at the next frame boundary (R258). -/
def execUnbook (p : PktRef) (s : State) : Host.Outcome State Fault Refusal :=
  let m := s.toMod
  s.go (m.command p 0x303 (fun ws =>
    match m.bookingNamed p ws with
    | none => m.endCmd p 0x0605 0 0
    | some (ed, i, _) =>
      (m.updBooking ed i (fun b => { b with unbook := b.unbook ++ [p], ending := some (b.ending.getD 0) })).running p .none))

/-- The order in which bookings of a port are revoked (R256): the sector with the latest admission first, its newest first. -/
def revokeOrder (l : List (Nat × Booking)) : List (Nat × Booking) :=
  let latest := fun (s : SectorId) => (l.filter (fun r => r.2.sector == s)).foldl (fun a r => max a r.2.admitBt) 0
  l.mergeSort (fun a b =>
    if latest a.2.sector ≠ latest b.2.sector then decide (latest a.2.sector > latest b.2.sector)
    else if a.2.sector ≠ b.2.sector then decide (a.2.sector.val < b.2.sector.val)
    else decide (a.2.admitBt > b.2.admitBt) || (a.2.admitBt == b.2.admitBt && decide (a.1 > b.1)))

/-- Bookings revoked in order until every slot fits (R256). -/
def Mod.revoke (m : Mod) (ed port cap : Nat) : List (Nat × Booking) → Mod
  | [] => m
  | r :: rest =>
    if (List.range 64).all (fun k => slotUse ((m.ed ed).onPort port) k ≤ cap) then m
    else Mod.revoke (m.endBooking ed r.1 0x0601) ed port cap rest

/-- A port's capacity change is handled at this frame boundary (R256). -/
def Port.capDue (x : Port) : Bool := x.capChanged && (x.st == .disabled || x.st == .active || x.st == .retrain)

/-- A port's capacity at a frame boundary (R256): SLOT_CAP, then revocations; DISABLED revokes every booking. -/
def Mod.portCap (m : Mod) (port : Nat) : Mod :=
  let x := m.port port
  let ed := port / 8
  if x.capDue then
    let cap := x.slotCap
    let m := m.updEd ed (fun d => { d with slotCap := Table.set 0 d.slotCap (port % 8) cap })
    let m := m.updPort port (fun x => { x with capChanged := false })
    let order := revokeOrder ((m.ed ed).onPort port)
    if x.st = .disabled then order.foldl (fun (m : Mod) (r : Nat × Booking) => m.endBooking ed r.1 0x0601) m else m.revoke ed port cap order
  else m

/-- The floors of a port whose capacity changed (R256): FLOOR_SCALE over what is booked from here on, and over the sectors that have sent on
the port in the frame that ends or have packets waiting there. -/
def Mod.portFloors (m : Mod) (port : Nat) : Mod :=
  let x := m.port port
  let ed := port / 8
  let d := m.ed ed
  let cap := Table.get 0 d.slotCap (port % 8)
  let booked := (List.range 64).foldl (fun a k => a + slotUse (d.onPort port) k) 0
  let busy := (x.traffic ++ x.waiting.filterMap (·.sector)).eraseDups
  let floors := busy.foldl (fun a s => a + bits (m.reg (edSite ed) (0x200 + s.val * 8) 0) 11 0) 0
  let scale := if floors = 0 then 65536 else min 65536 ((cap * 65536 / 960 - booked) / floors)
  m.updEd ed (fun d => { d with floorScale := Table.set 65536 d.floorScale (port % 8) scale })

/-- A port's counts of a frame begin again. -/
def Mod.portFrame (m : Mod) (port : Nat) : Mod := m.updPort port (fun x => { x with traffic := [], sent := [] })

/-- A booking's route no longer leads through its port (R257). -/
def Mod.rerouted (m : Mod) (b : Booking) : Bool :=
  match (m.nodeId 0).bind (fun own => m.route own b.dst) with
  | some r => bits r 5 0 != b.port
  | none => true

/-- FRAME_BOUNDARY: the frame that ends is counted as served if its slots were honoured from its start (R42; log entry 45);
capacity changes and re-routes revoke; what was to end, ends; then FLOOR_SCALE of the ports whose capacity changed (R256 to R258). -/
def execFrameBoundary (s : State) : Host.Outcome State Fault Refusal :=
  let m := s.toMod
  let m := if m.beacon.slotsOn then m.bookings.foldl (fun (m : Mod) (r : Nat × Nat × Booking) =>
      if r.2.2.start < m.bt then m.updBooking r.1 r.2.1 (fun b => { b with served := b.served + 1 }) else m) m
    else m
  let m := m.updBeacon (fun b => { b with slotsOn := b.slotsDue })
  let changed := (List.range 32).filter (fun p => (m.port p).capDue)
  let m := (List.range 32).foldl Mod.portCap m
  let m := m.bookings.foldl (fun (m : Mod) (r : Nat × Nat × Booking) => if m.rerouted r.2.2 then m.endBooking r.1 r.2.1 0x0601 else m) m
  let m := m.bookings.foldl (fun (m : Mod) (r : Nat × Nat × Booking) =>
    match r.2.2.ending with
    | some st => m.endBooking r.1 r.2.1 st
    | none => m) m
  s.go ((List.range 32).foldl Mod.portFrame (changed.foldl Mod.portFloors m))

end Sys2Proof.Machine
end

