-- ==== Sys2Proof/Machine/Regions.lean ====
section
/-!
DEFINITION. The region table's conditions (R177), what changes it (R172, R176, R191 to R194), moorings (R188 to R190), and
memory requests through a router (R169, R171, R172, R180).
-/
namespace Sys2Proof.Machine
open Sys2Proof

/-! ## Conditions (R173, R177) -/

/-- A bit that R170 reserves is set. -/
def Region.reservedBits (r : Region) : Bool :=
  bits r.w0 31 26 != 0 || bits r.w0 63 52 != 0 || bits r.w1 20 0 != 0 || bits r.w1 63 56 != 0 || bits r.w2 63 28 != 0 ||
    bits r.w3 31 26 != 0

/-- ANCHOR names a die of the tier, or is 0 where the mode has none (R170, R173). -/
def Mod.anchorOk (m : Mod) (r : Region) : Bool :=
  let gone := fun (site : Nat) => m.guestAt site
  if r.tier = 0 then
    match r.mode with
    | 0 => (siteMd r.anchor).isSome && !gone r.anchor
    | 1 => r.anchor < 5
    | 2 => r.anchor < 4
    | 4 => r.anchor < 2 ^ 20 && (bitsSet r.anchor 20).all (fun md => !gone (mdSite md))
    | _ => r.anchor == 0
  else if r.tier = 1 then
    match r.mode with
    | 0 => (sitePd r.anchor).isSome && !gone r.anchor
    | 4 => r.anchor < 16 && (bitsSet r.anchor 4).all (fun p => !gone (pdSite p))
    | _ => r.anchor == 0
  else true

/-- MODE is allowed for TIER (R173). -/
def Region.modeOk (r : Region) : Bool :=
  match r.tier with
  | 0 => true
  | 1 => r.mode == 0 || r.mode ≥ 3
  | _ => r.mode == 0

/-- The channel list of an entry; a tier-2 entry has none (R173). -/
def Mod.listOf (m : Mod) (r : Region) : List Nat := if r.tier < 2 then m.chanList r else []

/-- Two entries overlap in physical address. -/
def Region.overlaps (a b : Region) : Bool := a.base < b.base + b.size && b.base < a.base + a.size

/-- Two ranges of device offsets overlap. -/
def spansMeet (a n b k : Nat) : Bool := a < b + k && b < a + n

/-- Two entries' footprints overlap on a shared channel (R175). -/
def Mod.footprintsMeet (m : Mod) (a b : Region) : Bool :=
  let la := m.listOf a
  let lb := m.listOf b
  a.tier == b.tier && la.any lb.contains &&
    spansMeet (a.chOff * 4096) (a.footprint la.length) (b.chOff * 4096) (b.footprint lb.length)

/-- An entry of tier 2 that does not lie within one device (R168, R173). -/
def Mod.crossesDevice (m : Mod) (r : Region) : Bool :=
  match hdmRange m.hdm 0 (r.base - tierBase 2), hdmRange m.hdm 0 (r.base - tierBase 2 + r.size - 1) with
  | some a, some b => a.1 != b.1
  | _, _ => true

/-- The other valid entries of the table. -/
def Mod.otherRegions (m : Mod) (n : Nat) : List Region :=
  (m.regions.filter (fun p => p.1 != n && p.2.valid)).map (·.2)

namespace Mooring
/-- VALID. -/
def valid (x : Mooring) : Bool := bit x.w0 3
/-- PORT. -/
def port (x : Mooring) : Nat := bits x.w0 2 0
/-- SECTOR. -/
def sector (x : Mooring) : Nat := bits x.w0 12 8
/-- The first bus address of the window. -/
def bus (x : Mooring) : Nat := bits x.w1 63 12 * 4096
/-- The first physical address. -/
def phys (x : Mooring) : Nat := bits x.w2 55 12 * 4096
/-- The length in bytes. -/
def size (x : Mooring) : Nat := bits x.w3 31 0 * 4096
/-- A bit or value that R189 reserves. -/
def reservedValue (x : Mooring) : Bool :=
  bit x.w0 7 || bits x.w0 15 13 != 0 || bits x.w1 11 0 != 0 || bits x.w2 11 0 != 0 || bits x.w2 63 56 != 0 ||
    bits x.w3 63 32 != 0 || x.sector ≥ 16 || x.size == 0
/-- Two entries of one port could match one request (R190). -/
def clashes (a b : Mooring) : Bool :=
  a.port == b.port && spansMeet a.bus a.size b.bus b.size &&
    (bits a.w0 47 32 ^^^ bits b.w0 47 32) &&& bits a.w0 63 48 &&& bits b.w0 63 48 == 0
end Mooring

/-- A mooring lies wholly inside one valid region of its sector (R190). -/
def Mod.moored (m : Mod) (x : Mooring) : Bool :=
  m.regions.any (fun p => p.2.valid && p.2.sector == x.sector && p.2.base ≤ x.phys && x.phys + x.size ≤ p.2.base + p.2.size)

/-- A granule of a tier-2 region has its fill pending: it counts as unowned and unscrubbed, so no entry may hold it yet (R336, R353). That such an
entry conflicts as one that overlaps another is the model's choice (log entry 124). -/
def Mod.fillPending (m : Mod) (r : Region) : Bool :=
  r.tier == 2 && m.fills.any (fun f => match f with
    | .granules g n => decide (r.base < (g + n) * 2097152) && decide (g * 2097152 < r.base + r.size)
    | .channel _ => false)

/-- The position in R177 of the first condition that a valid entry meets; entries that the set at hand writes are excused from
the sixth. -/
def Mod.condition (m : Mod) (n : Nat) (r : Region) (written : List Nat) : Option Nat :=
  let l := m.listOf r
  let others := m.otherRegions n
  let inside := r.tier < 3 && tierBase r.tier ≤ r.base && r.base + r.size ≤ tierBase r.tier + m.mappedLength r.tier
  if r.tier < 3 && !inside then some 1
  else if r.reservedBits || r.tier = 3 || r.mode > 5 || r.gran > 13 || r.sector > 15 || r.prio > 4 || r.size = 0 then some 2
  else if !r.modeOk then some 3
  else if !m.anchorOk r || (r.tier = 2 && (r.gran ≠ 0 || r.chOff ≠ 0)) then some 2
  else if others.any r.overlaps || m.fillPending r then some 4
  else if r.tier < 2 && l.isEmpty then some 5
  else if !written.contains n && r.chans.any (fun ch => !l.contains ch) then some 6
  else if l.any (fun ch => r.chOff * 4096 + r.footprint l.length > m.chanBytes ch) then some 7
  else if r.tier < 2 && others.any (m.footprintsMeet r) then some 8
  else if r.tier = 2 && m.crossesDevice r then some 9
  else if r.key / 4 ≠ r.sector then some 10
  else if r.prio ≠ 0 && l.any (fun ch => m.prioCap ch r.sector (r.prio - 1) == 0) then some 11
  else if m.moorings.any (fun p => p.2.valid && !m.moored p.2) then some 12
  else none

/-- The condition that stands against an entry just written: its own first one, or another valid entry's. -/
def Mod.firstCondition (m : Mod) (n : Nat) : Option Nat :=
  match m.condition n (m.region n) [] with
  | some c => some c
  | none => (m.regions.filter (fun p => p.2.valid)).findSome? (fun p => m.condition p.1 p.2 [])

/-- Some valid entry meets a condition. -/
def Mod.tableConflict (m : Mod) (written : List Nat) : Bool :=
  m.regions.any (fun p => p.2.valid && (m.condition p.1 p.2 written).isSome) ||
    m.moorings.any (fun p => p.2.valid && !m.moored p.2)

/-! ## Changes of the table -/

/-- An entry written: LOST goes, and the channels it now has are kept for R177's sixth condition (R193). -/
def Mod.writeRegion (m : Mod) (n : Nat) (r : Region) : Mod :=
  if r.valid then m.setRegion n { r with w0 := r.w0 &&& ~~~(1#64 <<< 25), chans := m.listOf r } else m.setRegion n Region.reset

/-- A word of an entry under a masked write; the bits that REGION_SET ignores are written as any other (R46, R172). -/
def Region.withWord (r : Region) (k : Nat) (mask value : Word) : Region :=
  match k with
  | 0 => { r with w0 := maskedWrite r.w0 mask value }
  | 1 => { r with w1 := maskedWrite r.w1 mask value }
  | 2 => { r with w2 := maskedWrite r.w2 mask value }
  | _ => { r with w3 := maskedWrite r.w3 mask value }

/-- The place in a region that a channel's device offset holds, under the region's list (R175). -/
def Region.inverse (r : Region) (l : List Nat) (ch off : Nat) : Option Nat :=
  let s := 256 <<< r.gran
  let d := off - r.chOff * 4096
  let rr := d / s
  let j := l.idxOf ch
  let n := l.length
  if n = 0 || j ≥ n || off < r.chOff * 4096 then none
  else
    let j0 := if r.mode = 5 then (j + n - (rr * 0x9E3779B1 % 2 ^ 32) >>> 16 % n) % n else j
    let o := (rr * n + j0) * s + d % s
    if o < r.size then some o else none

/-- A line that a changed entry reads keeps its bytes: some entry held them before, at the same offset or the same address, with the same
channel, device offset and key (R176, R197). -/
def keepsLine (r : Region) (l : List Nat) (olds : List (Nat × Region × List Nat)) (ch off : Nat) : Bool :=
  match r.inverse l ch off with
  | none => false
  | some o =>
    olds.any (fun x =>
      let e := x.2.1
      e.valid && e.key == r.key && e.tier == r.tier &&
        (match e.inverse x.2.2 ch off with
         | some o' => o' == o || e.base + o' == r.base + o
         | none => false))

/-- The same of a line of a tier-2 device, whose place in the window is its address (R168, R173). -/
def keepsDevice (r : Region) (olds : List (Nat × Region × List Nat)) (line : Nat) : Bool :=
  olds.any (fun x => x.2.1.tier == 2 && x.2.1.key == r.key && x.2.1.covers (tierBase 2 + lineOff line))

/-- Bytes that a change of entries leaves undefined are no longer held anywhere (R176). -/
def Mod.dropMoved (m : Mod) (n : Nat) (olds : List (Nat × Region × List Nat)) : Mod :=
  let r := m.region n
  let l := m.listOf r
  let lo := r.chOff * 4096
  if !r.valid then m
  else
    m.forget (fun line =>
      lineKey line == r.key &&
        (if r.tier = 2 then
          2576 ≤ lineChan line && lineChan line < 2584 && !m.outside line && r.covers (tierBase 2 + lineOff line) && !keepsDevice r olds line
         else
          l.contains (lineChan line) && lo ≤ lineOff line && lineOff line < lo + r.footprint l.length &&
            !keepsLine r l olds (lineChan line) (lineOff line)))

/-- A channel leaves service and its sector (R194). -/
def Mod.outChannel (m : Mod) (ch : Nat) : Mod :=
  let k := chanCtl ch
  let x := m.ctl k.1
  m.setCtl k.1 { x with chOut := x.chOut ||| BitVec.ofNat 32 (1 <<< k.2), owner := Table.erase x.owner k.2 }

/-- The channels that a MAP_OUT entry takes out (R194). -/
def outChannels (kind target : Nat) : List Nat :=
  if kind = 1 then (List.range 32).map (target * 32 + ·) else if kind = 2 then [target] else [2560 + target]

/-! ## REGION_SET, PRESERVE_MARK (R172, R191, R305) -/

/-- Valid entries of a sector. -/
def Mod.regionsUsed (m : Mod) (sector : Nat) : Nat := (m.regions.filter (fun p => p.2.valid && p.2.sector == sector)).length

/-- SEC_SECTOR's quota fields (R355). -/
def Mod.quotaReg (m : Mod) (sector : Nat) : Word := m.reg kdSite (0x30800 + sector * 8) 0x80100000

/-- A home serves, or keeps waiting, a request decoded under an entry. -/
def Slice.holdsEntry (x : Slice) (n : Nat) : Bool :=
  x.waiting.any (fun w => w.entry == some n) ||
    x.txns.any (fun p => match p.2 with | some t => t.wait.entry == some n | none => false)

/-- What a command waits for is over, requests decoded under an entry or a mooring (R172, R190): 1 and an entry, 2 and a mooring. -/
def Mod.drained (m : Mod) (kind n : Nat) : Bool :=
  if kind = 1 then
    !(m.txns.any (fun t => t.entry == some n) || m.slices.any (fun p => p.2.holdsEntry n) ||
      m.bursts.any (fun b => b.beats.any (fun x => x.entry == some n)) || m.upstream.any (fun u => u.entry == some n))
  else !(m.txns.any (fun t => t.mooring == some n) || m.tagWait.any (fun w => w.mooring == some n))

/-- Replies that waited for a drain that has ended. -/
def Mod.settleDrains (m : Mod) : Mod :=
  let owed := (m.queues.map (fun p => (QRef.csq (Fin.ofNat 16384 p.1), p.2)) ++
      m.mqs.map (fun p => (QRef.mq (Fin.ofNat 64 p.1), p.2)) ++ [(QRef.remote, m.remoteQ)]).flatMap (fun x =>
    x.2.flights.filterMap (fun f =>
      match f.work with
      | .busy k n => if (k = 1 || k = 2) && m.drained k n then some (({ q := x.1, ix := f.ix } : PktRef), k, n) else none
      | _ => none))
  owed.foldl (fun (m : Mod) (x : PktRef × Nat × Nat) => m.endCmd x.1 0 (if x.2.1 = 1 then x.2.2 else 0) 0) m

/-- A valid mooring that lies in an entry. -/
def Mod.mooringIn (m : Mod) (r : Region) : Option Nat :=
  (m.moorings.find? (fun p => p.2.valid && p.2.sector == r.sector && r.base ≤ p.2.phys && p.2.phys + p.2.size ≤ r.base + r.size)).map (·.1)

/-- REGION_SET. -/
def execRegionSet (p : PktRef) (s : State) : Host.Outcome State Fault Refusal :=
  let m := s.toMod
  s.go (m.command p 0x500 (fun ws =>
    let w2 := wordAt ws 2
    let n := bits w2 11 0
    if bit w2 12 then
      let r := m.region n
      if !r.valid then m.endCmd p 0x0302 16 0
      else if r.preserve then m.endCmd p 0x0202 n 0
      else
        match m.mooringIn r with
        | some k => m.endCmd p 0x0202 k 0
        | none => ((m.setRegion n Region.reset).running p (.busy 1 n)).settleDrains
    else
      let r : Region := { w0 := (wordAt ws 3 &&& ~~~0x2008000#64) ||| 1, w1 := wordAt ws 4, w2 := wordAt ws 5,
                          w3 := wordAt ws 6 &&& 0xFFFFFFFF#64, chans := [] }
      let slot := if bit w2 13 then (List.range 4096).find? (fun i => !(m.region i).valid) else some n
      match slot with
      | none => m.endCmd p 0x0201 0 0
      | some n =>
        if (m.region n).valid then m.endCmd p 0x0202 n 0
        else if r.sector < 16 && m.regionsUsed r.sector ≥ bits (m.quotaReg r.sector) 20 8 then m.endCmd p 0x0201 0 0
        else
          match (m.setRegion n { r with chans := m.listOf r }).firstCondition n with
          | some c => m.endCmd p 0x0205 c 0
          | none => (m.writeRegion n r).endCmd p 0 n 0))

/-- PRESERVE_MARK. -/
def execPreserveMark (p : PktRef) (s : State) : Host.Outcome State Fault Refusal :=
  let m := s.toMod
  s.go (m.command p 0x503 (fun ws =>
    let w2 := wordAt ws 2
    let n := bits w2 11 0
    let r := m.region n
    if !r.valid then m.endCmd p 0x0302 16 0
    else (m.setRegion n { r with
        w0 := (r.w0 &&& ~~~0x8000#64) ||| pack [(15, 1, flag (bit w2 12))]
        w3 := (r.w3 &&& 0xFFFFFFFF#64) ||| pack [(32, 32, bits w2 63 32)] }).endCmd p 0 0 0))

/-! ## Moorings (R188 to R190) -/

/-- Valid moorings of a sector. -/
def Mod.mooringsUsed (m : Mod) (sector : Nat) : Nat := (m.moorings.filter (fun p => p.2.valid && p.2.sector == sector)).length

/-- MOORING_SET. -/
def execMooringSet (p : PktRef) (s : State) : Host.Outcome State Fault Refusal :=
  let m := s.toMod
  s.go (m.command p 0x501 (fun ws =>
    let w2 := wordAt ws 2
    let x : Mooring := { w0 := wordAt ws 3 ||| 8, w1 := wordAt ws 4, w2 := wordAt ws 5, w3 := wordAt ws 6 }
    let slot := if bit w2 10 then (List.range 1024).find? (fun i => !(m.mooring i).valid) else some (bits w2 9 0)
    match slot with
    | none => m.endCmd p 0x0201 0 0
    | some n =>
      if (m.mooring n).valid then m.endCmd p 0x0202 n 0
      else if x.reservedValue then m.endCmd p 0x0205 2 0
      else if m.mooringsUsed x.sector ≥ bits (m.quotaReg x.sector) 31 21 then m.endCmd p 0x0201 0 0
      else if !m.moored x then m.endCmd p 0x0303 1 0
      else
        match m.moorings.find? (fun y => y.2.valid && y.2.clashes x) with
        | some y => m.endCmd p 0x0208 y.1 0
        | none => (m.setMooring n x).endCmd p 0 n 0))

/-- MOORING_CLEAR: no new matches; the reply follows the last matched request (R190). -/
def execMooringClear (p : PktRef) (s : State) : Host.Outcome State Fault Refusal :=
  let m := s.toMod
  s.go (m.command p 0x502 (fun ws =>
    let n := bits (wordAt ws 2) 9 0
    if !(m.mooring n).valid then m.endCmd p 0x0302 16 0
    else ((m.setMooring n Mooring.reset).running p (.busy 2 n)).settleDrains))

/-! ## Memory requests (R169, R171, R172, R180, R387) -/

/-- SEC_GUEST_CTRL.SECTOR (R451, R456). -/
def Mod.guestSector (m : Mod) : Option SectorId :=
  let o := bits (m.reg 18 0x30008 0x1D1F0) 8 4
  if h : o < 16 then some ⟨o, h⟩ else none

/-- The sector of a requester (R171); an adapter's is the one that owns its port. -/
def Mod.requesterSector (m : Mod) (r : Requester) : Option SectorId :=
  match r with
  | .pd a => (m.pdCore a).owner
  | .core c => (m.core c).sector
  | .engine e => (m.engine e).sector
  | .pcie p =>
    let o := bits (m.reg (edSite (p / 2)) (0x4800000 + p % 2 * 0x100000) 0x1F0C) 12 8
    if h : o < 16 then some ⟨o, h⟩ else none
  | .kd => none
  | .guest => if m.guest.st = 5 then m.guestSector else none

/-- The die of a requester, where its faults are recorded, and its unit (R397). -/
def requesterUnit (r : Requester) : Nat × Nat :=
  match r with
  | .pd a => (pdSite (a / 96), a % 96)
  | .core c => (coreSite c, c % 64)
  | .engine e => (engineSite e, 0x0600 + e % 16)
  | .pcie p => (edSite (p / 2), 0x0700 + p % 2)
  | .kd => (kdSite, 0x0800)
  | .guest => (18, 0x0800)

/-- Two requesters share one pool of tags: the two PCIe/CXL ports of an ED do (R169). -/
def samePool (a b : Requester) : Bool :=
  match a, b with
  | .pcie p, .pcie q => p / 2 == q / 2
  | _, _ => a == b

/-- The tags of a requester's pool (R169). -/
def tagLimit (r : Requester) : Nat :=
  match r with
  | .pd _ => 32 | .core _ => 48 | .engine _ => 48 | .pcie _ => 128 | .kd => 512 | .guest => 3072

/-- The lowest free tag of a requester. -/
def Mod.freeTag (m : Mod) (r : Requester) : Option Nat :=
  (List.range (tagLimit r)).find? (fun t => !m.txns.any (fun x => samePool x.req r && x.tag == t))

/-- The generation tag of a requester's domain (R387): an adapter's or host's stands in its edge domain. -/
def Mod.requesterGen (m : Mod) (r : Requester) : BitVec 8 :=
  match r with
  | .core c => (m.core c).gen
  | .engine e => (m.engine e).gen
  | .guest => m.guest.gen
  | .pcie p => BitVec.ofNat 8 (Table.get 0 m.dieGens (edSite (p / 2) * 8))
  | .pd _ | .kd => 0

/-- A requester issues requests: the module works, and no domain that it stands in is fenced (R384, R390). -/
def Mod.mayIssue (m : Mod) (r : Requester) : Bool :=
  m.working && !(match r with
    | .core c => (m.core c).st == .fenced
    | .engine e => (m.engine e).st == .fenced
    | .pcie p => m.tender.fenced.any (fun d => match d with | .edge e => e.val == p / 2 | _ => false)
    | .pd _ | .kd | .guest => false)

/-- What a requester is told of an access error (R24, R171, R393). -/
def Mod.tellError (m : Mod) (r : Requester) (tag : Nat) (e : AccErr) (pa : Nat) : Mod :=
  match r with
  | .pd a => m.emit (.coreFault a (if e = .poison then 1 else 0) pa)
  | .core c => if (m.core c).kernel.isSome then m.coreFaultBy c 0x05 0 (m.core c).pc (e == .poison && m.poisonInjected pa) else m
  | .engine e => m.failPlan e 3 (m.engine e).step
  | .pcie p => m.emit (.completion p tag (if e = .poison then 2 else 1) [])
  | .guest => m.guestAnswer 0xF tag (guestErr (if e = .addressError then 2 else 1)) []
  | .kd => m

/-- A request writes. -/
def Txn.writes (t : Txn) : Bool :=
  t.write.isSome || (match t.act with
    | some (.write _ _) => true
    | some (.atomic _ _ _ _) => true
    | _ => false)

/-- A transaction served at its home: bytes written, or read for its completion. -/
def Mod.serveTxn (m : Mod) (t : Txn) : Mod × Txn :=
  match t.write with
  | some bs => (m.writeHinted t.cells bs t.hint, { t with waiting := false })
  | none =>
    let m := m.channelRead (linesOf t.cells)
    if (linesOf t.cells).any m.poisoned then (m, { t with waiting := false, poison := true })
    else (m, { t with waiting := false, data := t.cells.map m.homeByte })

/-- What a request meets instead of data: recorded on its die, and told to it. -/
def Mod.txnFail (m : Mod) (t : Txn) (e : AccErr) : Mod :=
  (m.recordAccess (requesterUnit t.req).1 (requesterUnit t.req).2 t.sector e t.pa).tellError t.req t.outerTag e t.pa

/-- A request that is answered as soon as it is served (R185, R389, R453). Partial beats without a valid end marker wait for BURST_DISCARD. -/
def Mod.perform (m : Mod) (t : Txn) (a : TxnAct) : Mod :=
  match a with
  | .read beats =>
    let m := m.channelRead (linesOf t.cells)
    if (linesOf t.cells).any m.poisoned then
      (m.recordAccess (requesterUnit t.req).1 (requesterUnit t.req).2 t.sector .poison t.pa).guestAnswer 0x8 t.outerTag
        [(17, 4, beats), (21, 1, 1)] []
    else m.guestAnswer 0x8 t.outerTag [(17, 4, beats)] ((t.cells.map m.homeByte).map BitVec.toNat)
  | .write beats valid =>
    let m := (beats.filter (fun b => valid || b.enables == BitVec.allOnes 128)).foldl Mod.writeBeat m
    if valid then m.guestAnswer 0x9 t.outerTag [] []
    else
      let rest := beats.filter (fun b => b.enables != BitVec.allOnes 128)
      if rest.isEmpty then m
      else { m with bursts := m.bursts ++ [{ req := t.req, id := t.outerTag, sector := t.sector, beats := rest }] }
  | .atomic op size v c =>
    match (m.channelRead (linesOf t.cells)).atomicAt t.cells op size v c with
    | .error e => (m.channelRead (linesOf t.cells)).txnFail t e
    | .ok (old, m) =>
      match t.req with
      | .pcie p => m.emit (.completion p t.outerTag 0 (bytesOf size old))
      | _ => m.guestAnswer 0xA t.outerTag [] [old]

/-- A request is served: it is over where it is answered at once, else its answer is on its way. One of an earlier generation is discarded
(R387). -/
def Mod.serveRequest (m : Mod) (t : Txn) : Mod :=
  if t.gen ≠ m.requesterGen t.req then m
  else
    match t.act with
    | some a => m.perform t a
    | none =>
      let r := m.serveTxn t
      { r.1 with txns := r.1.txns ++ [r.2] }

/-- A request goes to its home, or waits: for its line, or behind its sector's others until its buckets hold enough (R180, R203). -/
def Mod.admitTxn (m : Mod) (t : Txn) : Mod :=
  match m.passNow t.sector t.prio t.writes t.cells with
  | none => { m with txns := m.txns ++ [{ t with waiting := true, stamp := m.nextStamp }] }
  | some m => m.serveRequest t

/-- A request reads through a priority stream (R181). -/
def Txn.priority (t : Txn) : Bool := t.prio != 0 && !t.writes

/-- The waiting request that goes next, of those that need wait no longer, and the module with its buckets lowered: reads of priority streams
before the others (R181), the oldest of each first. -/
def Mod.readyTxn (m : Mod) : Option (Txn × Mod) :=
  let l := m.txns.filter (·.waiting)
  (l.filter Txn.priority ++ l.filter (fun t => !t.priority)).findSome? (fun t =>
    (m.pass t.stamp t.sector t.prio t.writes t.cells).map (fun m => (t, m)))

/-- Waiting requests that need wait no longer are served. -/
def Mod.drainTxns : Nat → Mod → Mod
  | 0, m => m
  | n + 1, m =>
    match m.readyTxn with
    | none => m
    | some (t, m) => Mod.drainTxns n (({ m with txns := m.txns.erase t } : Mod).serveRequest t)

/-- The site where a line is served: its home's, or behind an aperture the port's. -/
def Mod.lineSite (m : Mod) (line : Nat) : Nat :=
  if m.outside line then edSite ((lineChan line - 2576) / 2) else mdSite (m.homeOf line)

/-- A requester's traffic is ordered: a processor's, and an adapter's or host's, of which the model takes every request as one without
relaxed ordering (R179; log entry 111). -/
def orderedReq (r : Requester) : Bool :=
  match r with
  | .pd _ | .kd | .pcie _ => true
  | .core _ | .engine _ | .guest => false

/-- A request that leaves its router with a tag, decoded to cells (R172): it takes its route (R179), and is admitted. -/
def Mod.leaveRouter (m : Mod) (r : Requester) (tag outerTag : Nat) (sector : Option SectorId) (mooring : Option Nat) (hint pa : Nat)
    (cells : List Nat) (write : Option (List Byte)) (act : Option TxnAct) : Mod :=
  let p := m.meshPath (orderedReq r) (requesterUnit r).1 (m.lineSite (cells.headD 0 / 128))
  p.2.admitTxn { req := r, tag := tag, sector := sector, entry := (m.entryAt pa).map (·.1), mooring := mooring, cells := cells,
                 write := write, data := [], poison := false, waiting := false, gen := m.requesterGen r, hint := hint, outerTag := outerTag,
                 pa := pa, prio := m.prioAt pa, route := p.1, act := act }

/-- A request of a requester that has a tag, decoded for a sector: an error is recorded and told, a success becomes a transaction (R171).
One from an adapter or a host has a tag of its own, and its mooring's hint. -/
def Mod.issueRequest (m : Mod) (tag : Nat) (w : TagWait) : Mod :=
  match m.decodeN w.sector w.pa w.n with
  | .error e => (m.recordAccess (requesterUnit w.req).1 (requesterUnit w.req).2 w.sector e w.pa).tellError w.req (w.outerTag.getD tag) e w.pa
  | .ok cells => m.leaveRouter w.req tag (w.outerTag.getD tag) w.sector w.mooring w.hint w.pa cells w.write w.act

/-- A request of a requester: with no free tag, or behind one that has none, it waits (R169). -/
def Mod.request (m : Mod) (r : Requester) (sector : Option SectorId) (mooring : Option Nat) (hint : Nat) (outerTag : Option Nat)
    (pa n : Nat) (write : Option (List Byte)) (act : Option TxnAct) : Mod :=
  let w : TagWait := { req := r, sector := sector, mooring := mooring, hint := hint, outerTag := outerTag, pa := pa, n := n, write := write,
                       act := act }
  if !m.mayIssue r then m
  else if m.tagWait.any (fun x => samePool x.req r) then { m with tagWait := m.tagWait ++ [w] }
  else
    match m.freeTag r with
    | none => { m with tagWait := m.tagWait ++ [w] }
    | some tag => m.issueRequest tag w

/-- A tag is free: the oldest request that waits for one of its pool leaves (R169). -/
def Mod.tagFreed (m : Mod) (r : Requester) : Mod :=
  match m.tagWait.find? (fun w => samePool w.req r), m.freeTag r with
  | some w, some tag => if m.mayIssue w.req then ({ m with tagWait := m.tagWait.erase w } : Mod).issueRequest tag w else m
  | _, _ => m

/-- MEMORY_COMPLETION: the answer of a transaction reaches its requester and frees its tag; one of an earlier generation is
discarded (R169, R172, R387). -/
def execMemoryCompletion (r : Requester) (tag : Nat) (s : State) : Host.Outcome State Fault Refusal :=
  let m := s.toMod
  s.go (match m.txns.find? (fun t => samePool t.req r && t.tag == tag && !t.waiting) with
    | none => m
    | some t =>
      let m : Mod := { m with txns := m.txns.erase t }
      let m := if t.gen ≠ m.requesterGen t.req then m
        else if t.poison then m.txnFail t .poison
        else
          match t.req with
          | .pcie p => m.emit (.completion p t.outerTag 0 t.data)
          | _ => m
      (m.tagFreed r).settleDrains)

/-! ## Requests that wait for a port's tag (R314, R318, R337) -/

/-- Where a request to an address behind an aperture goes out: 0 and a configuration address, or 1 and a bus address (R318). -/
def Mod.outAt (m : Mod) (port pa : Nat) : Nat × Nat := m.busOf port (pa - tierBase 2)

/-- A request goes out with a tag. -/
def Mod.sendUpstream (m : Mod) (u : Upstream) (tag : Nat) : Mod :=
  let b := m.outAt u.port u.pa
  { m.emit (.aperture u.port (m.outFn u.port u.pa) b.1 b.2 tag u.n u.write) with upstream := m.upstream ++ [{ u with tag := some tag }] }

/-- The request that a port's next free tag goes to: the functions with requests that wait take turns, each in the order they came (R337). -/
def Mod.nextWaiting (m : Mod) (port : Nat) : Option Upstream :=
  let turn := (m.pciePort port).turn
  ((List.range 17).map (fun k => (turn + 1 + k) % 17)).findSome? (fun fn =>
    m.upstream.find? (fun u => u.port == port && u.tag.isNone && u.fn == fn))

/-- A request that waits for a tag of a port goes out; one whose access was withdrawn meanwhile is told so (R327). -/
def Mod.sendWaiting (m : Mod) (port : Nat) : Mod :=
  match m.nextWaiting port, m.upstreamTag port with
  | some u, some tag =>
    let m : Mod := ({ m with upstream := m.upstream.erase u } : Mod).updPcie port (fun x => { x with turn := u.fn })
    if u.fn ≠ 0 && (m.fn port u.fn).gen ≠ u.gen then m.tellError u.req 0 .withdrawn u.pa else m.sendUpstream u tag
  | _, _ => m

/-! ## Losses, ways, hot homes (R184, R193, R196, R197) -/

/-- A stack's fault recorded (R397). -/
def Mod.recordStack (m : Mod) (stack code : Nat) : Mod :=
  m.record { site := stackSite stack, cls := 0x10, sev := 2, unit := 0x0200 + stack % 4, code := code, addr := 0, detail := 0,
             sector := none, injected := false }

/-- STACK_LOSS: LOSS and LOST are set, and what the stack held reads as poison until it is written (R193). -/
def execStackLoss (stack : StackId) (s : State) : Host.Outcome State Fault Refusal :=
  let m := s.toMod
  let m := (m.recordStack stack 3).setCtl stack { m.ctl stack with loss := true, lost := some [] }
  let regions := Table.mapAll Region.reset m.regions (fun _ (r : Region) =>
    if r.valid && r.tier == 0 && (m.chanList r).any (fun ch => ch / 32 == stack.val) then { r with w0 := r.w0 ||| 1#64 <<< 25 } else r)
  s.go { m with regions := regions }

/-- STACK_DEVICE_FAULT: recorded and reported; the stack's domain recovers (R383, R397). -/
def execStackDeviceFault (stack : StackId) (s : State) : Host.Outcome State Fault Refusal :=
  let m := s.toMod
  s.go ((m.recordStack stack 2).report (.stack stack))

/-- One epoch's sample under a level's marks (R196). -/
def HotStat.sample (h : HotStat) (marks : Word) (avg others : Nat) : HotStat :=
  let hot := bits marks 7 0 ≤ avg && others ≤ bits marks 15 8
  { epochs := if hot then satAdd h.epochs 1 0xFFFF else h.epochs, lastAvg := avg, hot := hot }

/-- HOT_HOME_SAMPLE: a level's average of an epoch, and the mean of the other levels of its kind. -/
def execHotHomeSample (level : HotLevel) (avg others : BitVec 8) (s : State) : Host.Outcome State Fault Refusal :=
  let m := s.toMod
  s.go (match level with
    | .slice md =>
      let x := m.slice md
      m.setSlice md { x with hot := x.hot.sample (m.reg (mdSite md) 0x3000200 0x40C0) avg.toNat others.toNat }
    | .controller k =>
      let marks := if k.val < 80 then m.reg (mdSite (k / 4)) (0x2000400 + k % 4 * 0x100000) 0x40C0
                   else m.reg (pdSite ((k - 80) / 4)) (0x2400400 + (k.val - 80) % 4 * 0x100000) 0x40C0
      { m with ctlHot := Table.upd HotStat.reset m.ctlHot k (fun h => h.sample marks avg.toNat others.toNat) }
    | .router site port =>
      let marks := m.reg site (0x3100100 + port * 8) 0x40C0
      { m with rtrHot := Table.upd HotStat.reset m.rtrHot (site * 4 + port) (fun h => h.sample marks avg.toNat others.toNat) })

end Sys2Proof.Machine
end

