-- ==== Sys2Proof/Machine/Coherence.lean ====
section
/-!
DEFINITION. The home of a line and the caching agents: requests, snoops, evictions, home and processor atomics, protocol errors
(R198 to R214). What non-caching agents ask of a home is in Requests.
-/
namespace Sys2Proof.Machine
open Sys2Proof

/-! ## Agents -/

/-- The requester a caching agent is when its accesses are recorded: a PD core, or the Keeper (R198). -/
def agentReq (a : AgentId) : Requester := if a.val < 384 then .pd a else .kd

/-- The sector a caching agent's accesses are decoded for; none where the agent sends none: an absent or unowned core, one
that does not run (R198, R309), or any in the hold states, where memory is in self-refresh (R375). The Keeper's pairs are decoded for no sector. -/
def Mod.agentSector (m : Mod) (a : AgentId) : Option (Option SectorId) :=
  if !m.working then none
  else if a.val ≥ 384 then some none
  else if (m.part.guestSite && a.val ≥ 288) || !(m.pdCore a).running || (m.pdCore a).heldOut then none
  else match (m.pdCore a).owner with
    | some s => some (some s)
    | none => none

/-- A copy that an agent holds. -/
def Mod.copyAt (m : Mod) (agent line : Nat) : Option CacheLine := Table.find m.caches (cacheKey agent line)

/-- An eviction that an agent has sent and the home has not acknowledged, or whose acknowledgement has not reached it. -/
def Mod.evictionAt (m : Mod) (agent line : Nat) : Option Eviction := Table.find m.evictions (cacheKey agent line)

/-- The agents a line's filter entry records: holders, and those whose eviction is not acknowledged (R207). -/
def Mod.holders (m : Mod) (line : Nat) : List Nat :=
  ((m.copies line).map (fun (p : Nat × CacheLine) => p.1) ++
    (m.evictions.filter (fun (p : Nat × Eviction) => p.1 % 2 ^ 60 == line && !p.2.acked)).map (fun (p : Nat × Eviction) => p.1 / 2 ^ 60)).eraseDups

/-- The agent that a line's filter entry records as owner (R207). -/
def Mod.ownerOf (m : Mod) (line : Nat) : Option Nat :=
  match (m.copies line).find? (fun p => p.2.st != .shared) with
  | some p => some p.1
  | none => (m.evictions.find? (fun p => p.1 % 2 ^ 60 == line && !p.2.acked && p.2.line.st != .shared)).map (·.1 / 2 ^ 60)

/-- The die of a caching agent. -/
def agentSite (a : Nat) : Nat := if a < 384 then pdSite (a / 96) else kdSite

/-- The vector bit that stands for an agent in a filter entry (R207). -/
def filterGroup (a : Nat) : Nat := if a < 384 then a / 4 else 96

/-- The agents of a vector bit. -/
def Mod.groupAgents (m : Mod) (g : Nat) : List Nat :=
  if g = 96 then [384, 385] else ((List.range 4).map (4 * g + ·)).filter (fun a => !(m.part.guestSite && 288 ≤ a))

/-- The agents that a line's entry records, as a snoop goes to them: the holders, or under a vector the owner and every agent of the marked
quads and pair (R207). -/
def Mod.recorded (m : Mod) (line : Nat) : List Nat :=
  let g := m.filterGroups line
  if g = 0 then m.holders line
  else ((m.ownerOf line).toList ++ ((List.range 97).filter g.testBit).flatMap m.groupAgents).eraseDups

/-- A line's entry after an agent has taken a copy: exact up to four sharers and under an exclusive owner, a vector from the fifth sharer
on (R207). -/
def Mod.recordHolders (m : Mod) (line : Nat) : Mod :=
  let sharers := (m.holders line).filter (fun a => m.ownerOf line != some a)
  let g := m.filterGroups line
  if sharers.isEmpty then m.setGroups line 0
  else if g = 0 && sharers.length ≤ 4 then m
  else m.setGroups line (sharers.foldl (fun b a => b ||| 2 ^ filterGroup a) g)

/-- A core's reservation on a line is gone, and its window (R209). -/
def Mod.dropReservation (m : Mod) (agent line : Nat) : Mod :=
  if (m.pdCore agent).reservation == some line then
    m.setPdCore agent { m.pdCore agent with reservation := none, window := none }
  else m

/-- An agent receives a line; what was given up to the line's transaction is in its copy where that is dirty. -/
def Mod.install (m : Mod) (agent line : Nat) (st : LineSt) : Mod :=
  let data := m.lineBytes line
  let m := (m.filterAdd line).dropReservation agent line
  let m := if st.dirty then m.dropCarried line else m
  ({ m with caches := Table.put m.caches (cacheKey agent line) { st := st, data := data }
            evictions := m.evictions.filter (fun p => !(p.1 == cacheKey agent line && p.2.acked && !p.2.arrived)) } : Mod).recordHolders line

/-! ## Operations in a core's own cache (R209, R308) -/

/-- The new value of an AMO of a size. -/
def amoApply (act : CoreAct) (size m v : Nat) : Nat :=
  let w := 8 * size
  match act with
  | .swap => v % 2 ^ w
  | .add => (m + v) % 2 ^ w
  | .xor => (m ^^^ v) % 2 ^ w
  | .and => m &&& v
  | .or => (m ||| v) % 2 ^ w
  | .min => if signedOf w v < signedOf w m then v % 2 ^ w else m
  | .max => if signedOf w v > signedOf w m then v % 2 ^ w else m
  | .minu => min m (v % 2 ^ w)
  | .maxu => max m (v % 2 ^ w)
  | _ => m

/-- Bytes of a line replaced from an offset on. -/
def patch (line : List Byte) (off : Nat) (bs : List Byte) : List Byte := line.take off ++ bs ++ line.drop (off + bs.length)

/-- A core's window and reservation set. -/
def Mod.setWindow (m : Mod) (agent : Nat) (window reservation : Option Nat) : Mod :=
  m.setPdCore agent { m.pdCore agent with window := window, reservation := reservation }

/-- A core's operation on a line it holds in E or M (R209): what it returns is recorded. A poisoned line faults the core and is
left as it is; CBO.ZERO merges into it, which is recorded too (R393). -/
def Mod.coreOp (m : Mod) (a : AgentId) (line pa : Nat) (op : CoreOp) : Mod :=
  match m.copyAt a line with
  | none => m
  | some c =>
    let size := if op.wide then 8 else 4
    let old := numOf ((c.data.drop op.off).take size)
    let written := fun (bs : List Byte) =>
      ({ m with caches := Table.put m.caches (cacheKey a line) { st := .modified, data := patch c.data op.off bs } } : Mod)
    if op.act = .zero then
      let m := if m.poison.contains line then
          m.recordAccess (requesterUnit (agentReq a)).1 (requesterUnit (agentReq a)).2 (lineSector line) .poison pa
        else m
      ({ m with caches := Table.put m.caches (cacheKey a line)
                  { st := .modified, data := patch c.data (op.off / 64 * 64) (List.replicate 64 0) } } : Mod)
    else if m.poison.contains line then
      (m.recordAccess (requesterUnit (agentReq a)).1 (requesterUnit (agentReq a)).2 (lineSector line) .poison pa).tellError
        (agentReq a) 0 .poison pa
    else
      match op.act with
      | .lr => (m.setWindow a (some line) (some line)).emit (.coreResult a old)
      | .sc =>
        if (m.pdCore a).reservation == some line then
          ((written (bytesOf size op.value.toNat)).setWindow a none none).emit (.coreResult a 0)
        else (m.setWindow a none none).emit (.coreResult a 1)
      | _ => (written (bytesOf size (amoApply op.act size old op.value.toNat))).emit (.coreResult a old)

/-! ## The home's transactions (R203 to R206, R213) -/

/-- The agent a processor's request comes from. -/
def HomeReq.agent? (r : HomeReq) : Option AgentId :=
  match r with
  | .read a => some a
  | .own a _ => some a
  | .upgrade a _ => some a
  | .clean a _ => some a
  | _ => none

/-- A request brings its line into an agent's cache (R205). -/
def HomeReq.grants (r : HomeReq) : Bool :=
  match r with
  | .read _ | .own _ _ | .upgrade _ _ => true
  | _ => false

/-- The S holder that supplies a line to a reader: the one with the fewest hops, the lowest of several, unless the home slice holds the line
and is as near (R205). -/
def Mod.supplier (m : Mod) (line a : Nat) : Option Nat :=
  let far := fun (s : Nat) => m.hops (agentSite s) (agentSite a)
  let sharers := ((m.copies line).filter (fun p => p.2.st == .shared && p.1 != a)).map (·.1)
  match sharers with
  | [] => none
  | s :: rest =>
    let best := rest.foldl (fun b x => if far x < far b || (far x == far b && x < b) then x else b) s
    if (m.sliceLine line).isSome && m.hops (mdSite (m.homeOf line)) (agentSite a) ≤ far best then none else some best

/-- The snoops a request makes the home send (R185, R205 to R207): for a read to the owner, or to the sharer that supplies, which under a
vector is snooped with its group; for ownership, a write or an atomic to every recorded holder; for a CBO.CLEAN to the owner. -/
def Mod.snoopTargets (m : Mod) (line : Nat) (r : HomeReq) : List Nat :=
  match r with
  | .read a =>
    (match m.ownerOf line with
     | some o => [o]
     | none =>
       match m.supplier line a with
       | none => []
       | some s => if m.filterGroups line = 0 then [s] else m.groupAgents (filterGroup s)).filter (· != a.val)
  | .own a _ => (m.recorded line).filter (· != a.val)
  | .upgrade a _ => (m.recorded line).filter (· != a.val)
  | .clean a inval => (if inval then m.recorded line else (m.ownerOf line).toList).filter (· != a.val)
  | .ncRead _ _ => (m.ownerOf line).toList
  | .write _ _ _ | .atomic _ _ _ _ _ | .reduce _ _ _ _ | .beat _ _ _ => m.recorded line

/-- A copy in a cache falls to a state that others may share (R205). -/
def LineSt.afterRead (st : LineSt) : LineSt :=
  match st with
  | .modified => .owned
  | .exclusive => .shared
  | x => x

/-- The writebacks that have reached the home are applied and acknowledged (R213). -/
def Mod.ackEvictions (m : Mod) (line : Nat) : Mod :=
  let owed := (m.evictions.find? (fun p => p.1 % 2 ^ 60 == line && p.2.owed && p.2.arrived)).map (·.2.line.data)
  let m : Mod := { m with evictions := m.evictions.map (fun p =>
    if p.1 % 2 ^ 60 == line && p.2.arrived then (p.1, { p.2 with owed := false, acked := true }) else p) }
  match owed with
  | some data => m.restBack line data
  | none => m

/-- A processor's request is answered with an error, recorded on its die. -/
def Mod.agentFail (m : Mod) (a : AgentId) (sector : Option SectorId) (e : AccErr) (pa : Nat) : Mod :=
  (m.recordAccess (requesterUnit (agentReq a)).1 (requesterUnit (agentReq a)).2 sector e pa).tellError (agentReq a) 0 e pa

/-- A line given for ownership, in M: memory is read where no copy supplies it; what memory has lost stays poison in the copy, and a
line that its home cannot read is not given (R193, R205, R385, R393). -/
def Mod.grantOwned (m : Mod) (w : HomeWait) (a : AgentId) (supplied : Bool) (op : Option CoreOp) : Mod :=
  let m := if supplied then m else m.channelRead [w.line]
  if !supplied && m.unavailable w.line then m.agentFail a w.sector .poison w.pa
  else
    let m : Mod := if !supplied && m.spoiled w.line && !m.poison.contains w.line then { m with poison := w.line :: m.poison } else m
    let m := m.install a w.line .modified
    match op with
    | some o => m.coreOp a w.line w.pa o
    | none => m

/-- A processor's request completes (R205): on a read the requester receives E, or S beside other copies; for ownership it
receives M, and the operation it came for is performed. A poisoned line is not given to a reader (R393). -/
def Mod.grant (m : Mod) (w : HomeWait) (supplied : Bool) : Mod :=
  match w.req with
  | .read a =>
    let m := if supplied then m else m.channelRead [w.line]
    if if supplied then m.poison.contains w.line else m.poisoned w.line then m.agentFail a w.sector .poison w.pa
    else
      let others := (m.copies w.line).any (fun p => p.1 != a.val)
      m.install a w.line (if others then .shared else .exclusive)
  | .own a op => m.grantOwned w a supplied op
  | .upgrade a op => m.grantOwned w a (supplied || (m.copyAt a w.line).isSome) op
  | _ => m

/-- The state of a copy whose data are at the home: M becomes E, O becomes S. -/
def LineSt.cleaned (st : LineSt) : LineSt :=
  match st with
  | .modified => .exclusive
  | .owned => .shared
  | x => x

/-- A line's dirty data come to rest at the home; with inval every copy goes, else the copies stay (R308). -/
def Mod.recallTo (m : Mod) (line : Nat) (inval : Bool) : Mod :=
  if inval then m.recall line
  else
    match m.dirtyCopy line with
    | some c => (m.dropCarried line).restBack line c.data
    | none => m

/-- Bytes as an access of a non-caching agent finds or leaves them: recorded and told on an error (R171, R206, R393). -/
def Mod.ncFail (m : Mod) (r : Requester) (sector : Option SectorId) (e : AccErr) (pa : Nat) : Mod :=
  (m.recordAccess (requesterUnit r).1 (requesterUnit r).2 sector e pa).tellError r 0 e pa

/-- The cells of n bytes of a line. -/
def cellsFrom (line pa n : Nat) : List Nat := (List.range n).map (fun i => 128 * line + pa % 128 + i)

/-- A request whose answers are all in is served at the home (R185, R206, R308). -/
def Mod.serveNow (m : Mod) (w : HomeWait) (supplied : Bool) : Mod :=
  match w.req with
  | .ncRead r n =>
    let m := if supplied then m else m.channelRead [w.line]
    if if supplied then m.poison.contains w.line else m.poisoned w.line then m.ncFail r w.sector .poison w.pa
    else m.emit (.served w.pa ((cellsFrom w.line w.pa n).map m.homeByte))
  | .write _ data hint => m.writeHinted (cellsFrom w.line w.pa data.length) data (if hintOk hint then hint else 0)
  | .beat _ enables data => m.writeBeat { line := w.line, entry := w.entry, pa := w.pa, enables := enables, data := data }
  | .atomic r op size v c =>
    match (m.channelRead [w.line]).atomicAt (cellsFrom w.line w.pa size) op size v c with
    | .error e => (m.channelRead [w.line]).ncFail r w.sector e w.pa
    | .ok (old, m) => m.emit (.served w.pa (bytesOf size old))
  | .reduce r op wide data =>
    match (m.channelRead [w.line]).reduceAt (cellsFrom w.line w.pa 128) op wide data with
    | .error e => (m.channelRead [w.line]).ncFail r w.sector e w.pa
    | .ok m => m.emit (.served w.pa [])
  | .clean a inval =>
    let kept := (m.copyAt a w.line).toList
    let m := m.recallTo w.line inval
    if inval then m
    else kept.foldl (fun (m : Mod) (c : CacheLine) =>
      { m with caches := Table.put m.caches (cacheKey a w.line) { c with st := c.st.cleaned } }) m
  | .read _ | .own _ _ | .upgrade _ _ => m.grant w supplied

/-- The cells of its line that a request reads or writes at the home. -/
def HomeWait.cells (w : HomeWait) : List Nat :=
  match w.req with
  | .read _ | .own _ _ | .reduce _ _ _ _ => cellsFrom w.line 0 128
  | .upgrade _ _ | .clean _ _ => []
  | .ncRead _ n => cellsFrom w.line w.pa n
  | .write _ data _ => cellsFrom w.line w.pa data.length
  | .atomic _ _ size _ _ => cellsFrom w.line w.pa size
  | .beat _ enables _ => ((List.range 128).filter (fun i => enables.getLsbD i)).map (128 * w.line + ·)

/-- A request writes at the home. -/
def HomeReq.writes (r : HomeReq) : Bool :=
  match r with
  | .write _ _ _ | .atomic _ _ _ _ _ | .reduce _ _ _ _ | .beat _ _ _ => true
  | .read _ | .own _ _ | .upgrade _ _ | .clean _ _ | .ncRead _ _ => false

/-- A request's passage through its buckets, where it goes through a controller (R180, R181). -/
def Mod.chargeWait (m : Mod) (w : HomeWait) : Option Mod :=
  m.charge w.sector (if w.req.writes then 0 else m.prioAt w.pa) w.cells

/-- The filter entry that a processor's request needs cannot be had (R203, R207, R209). -/
def Mod.filterBusy (m : Mod) (w : HomeWait) : Bool := w.req.grants && m.victimBusy w.line

/-- A request of a place must wait: the line's transaction is open, an earlier request waits, no tracker is free, its sector's buckets or the ways of
a fenced stack's line or its filter entry are not to be had (R180, R203, R207, R385). -/
def Mod.mustWait (m : Mod) (w : HomeWait) (stamp : Nat) : Bool :=
  let x := m.slice (m.homeOf w.line)
  (m.txnOn w.line).isSome || x.waiting.any (fun y => y.line == w.line && decide (y.stamp < stamp)) ||
    m.txns.any (fun t => t.waiting && decide (t.stamp < stamp) && (linesOf t.cells).contains w.line) ||
    decide (x.txns.length ≥ 1024) || (m.chargeWait w).isNone || (w.req.writes && m.wayless w.line) || m.filterBusy w

/-- A request is served, or opens the line's transaction and sends its snoops (R203, R205). A line that an agent will take has its filter entry
from here on (R207). -/
def Mod.openTxn (m : Mod) (w : HomeWait) : Mod :=
  let m := (m.chargeWait w).getD m
  let m := if w.req.grants then m.filterAdd w.line else m
  let snoops := m.snoopTargets w.line w.req
  if snoops.isEmpty then (m.ackEvictions w.line).serveNow w false
  else m.setTxn w.line (some { wait := w, waitFor := snoops, held := [], answers := [], owner := none, wbWait := [], carried := none,
                               supplied := false, snooped := snoops })

/-- A request at a home reads through a priority stream (R181). -/
def Mod.waitPriority (m : Mod) (w : HomeWait) : Bool := m.prioAt w.pa != 0 && !w.req.writes

/-- Requests that need not wait any longer are served: reads of priority streams before the others, the oldest of each first (R181, R203). -/
def Mod.drainHome (m : Mod) (md : Nat) : Nat → Mod
  | 0 => m
  | n + 1 =>
    let l := (m.slice md).waiting
    match (l.filter m.waitPriority ++ l.filter (fun w => !m.waitPriority w)).find? (fun w => !m.mustWait w w.stamp) with
    | none => m
    | some w => Mod.drainHome ((m.setSlice md { m.slice md with waiting := l.erase w }).openTxn w) md n

/-- A request takes every copy of its line (R206). -/
def HomeReq.takes (r : HomeReq) : Bool :=
  match r with
  | .read _ | .ncRead _ _ => false
  | .clean _ inval => inval
  | .own _ _ | .upgrade _ _ | .write _ _ _ | .atomic _ _ _ _ _ | .reduce _ _ _ _ | .beat _ _ _ => true

/-- The state of a copy after a snoop that leaves it (R205, R206, R308). -/
def HomeReq.leaves (r : HomeReq) (st : LineSt) : LineSt :=
  match r with
  | .read _ => st.afterRead
  | .clean _ _ => st.cleaned
  | _ => st

/-- An agent answers a snoop (R205, R206, R213): it gives up the line, with its data where they are dirty; or its copy stays; a line whose
eviction is sent is answered as in flight. -/
def Mod.answerSnoop (m : Mod) (line agent : Nat) (t : HomeTxn) (evicting : Bool) : Mod :=
  let gave := fun (c : CacheLine) => if c.st.dirty then some c else t.carried
  let r : Mod × SnoopAns × Option CacheLine := match m.copyAt agent line with
    | some c =>
      let ans : SnoopAns := if c.st = .shared then .sharer else .owner
      if evicting then
        let m := m.dropReservation agent line
        ({ m with caches := Table.erase m.caches (cacheKey agent line),
                  evictions := Table.put m.evictions (cacheKey agent line)
                    { line := c, owed := c.st.dirty, arrived := false, acked := false } },
         if c.st.dirty then .writeback else .clean, t.carried)
      else if t.wait.req.takes then
        let m := m.dropReservation agent line
        ({ m with caches := Table.erase m.caches (cacheKey agent line) }, ans, gave c)
      else
        let m := (match t.wait.req with
          | .read _ => m.dropReservation agent line
          | _ => m)
        ({ m with caches := Table.put m.caches (cacheKey agent line) { c with st := t.wait.req.leaves c.st } }, ans,
         match t.wait.req with
         | .clean _ _ => gave c
         | _ => t.carried)
    | none =>
      match m.evictionAt agent line with
      | some e => (m, if e.acked then .none else if e.line.st.dirty then .writeback else .clean, t.carried)
      | none => (m, .none, t.carried)
  r.1.setTxn line (some { t with answers := t.answers ++ [(agent, r.2.1)], held := t.held.filter (· != agent), carried := r.2.2 })

/-- The snoops that an LR window held back and no longer does, as line and agent (R209). -/
def Mod.freedSnoops (m : Mod) : List (Nat × Nat) :=
  m.slices.flatMap (fun p => p.2.txns.flatMap (fun x => match x.2 with
    | some t => (t.held.filter (fun a => (m.pdCore a).window != some x.1)).map (fun a => (x.1, a))
    | none => []))

/-- Snoops that no window holds back any more are answered. -/
def Mod.answerFreed (m : Mod) : Mod :=
  m.freedSnoops.foldl (fun (m : Mod) (x : Nat × Nat) =>
    match m.txnOn x.1 with
    | some t => m.answerSnoop x.1 x.2 t false
    | none => m) m

/-- What waits for lines, buckets, ways or tags goes on as far as it can: memory requests, then the homes' requests, then the commands that
wait for them (R172, R180, R190, R203). -/
def Mod.resume (m : Mod) : Mod :=
  let m := m.answerFreed
  let m := Mod.drainTxns m.txns.length m
  ((List.range 20).foldl (fun (m : Mod) (md : Nat) => m.drainHome md (m.slice md).waiting.length) m).answerFreed.settleDrains

/-- A request reaches the home of its line (R203). -/
def Mod.homeRequest (m : Mod) (w : HomeWait) : Mod :=
  let md := m.homeOf w.line
  if m.mustWait w m.nextStamp then
    m.setSlice md { m.slice md with waiting := (m.slice md).waiting ++ [{ w with stamp := m.nextStamp }] }
  else m.openTxn w

/-- A line's transaction is over; dirty data that were given up to it and that nobody took come to rest at the home. -/
def Mod.closeTxn (m : Mod) (line : Nat) : Mod :=
  let left := (m.txnOn line).bind (·.carried)
  let m := m.setTxn line none
  match left with
  | some c => m.restBack line c.data
  | none => m

/-- A line's transaction completes once every answer and every writeback it waits for is in (R205, R213). A reader whose supplier has evicted
the line is served from another source. -/
def Mod.tryComplete (m : Mod) (line : Nat) : Mod :=
  match m.txnOn line with
  | none => m
  | some t =>
    if t.waitFor.isEmpty && t.wbWait.isEmpty then
      let m := m.ackEvictions line
      let again := match t.wait.req with
        | .read _ => if t.supplied then [] else (m.snoopTargets line t.wait.req).filter (fun b => (m.copyAt b line).isSome)
        | _ => []
      if again.isEmpty then ((m.serveNow t.wait t.supplied).closeTxn line).resume
      else m.setTxn line (some { t with waitFor := again, snooped := t.snooped ++ again })
    else m

/-! ## Protocol errors (R214) -/

/-- A coherence protocol error recorded at its home's die and reported (R214, R397). DETAIL, of 16 bits, takes one agent ID: of two
owners the one whose answer shows the error, as the model's choice (log entry 115). -/
def Mod.protocolError (m : Mod) (line pa code agent : Nat) : Mod :=
  let m := m.record { site := mdSite (m.homeOf line), cls := 0x0D, sev := 3, unit := 0x0300, code := code, addr := pa,
                      detail := agent, sector := none, injected := false }
  { m with cohError := true }

/-! ## Processor requests -/

/-- A processor's request is decoded at its router; an error is recorded and told to the core (R24, R171, R172). Apertures and control blocks are
I/O (R309): their lines are not cached, and a core reaches them by requests of its own. What a line miss, an AMO or a cache-block
operation of one does there the spec does not say: that it does nothing, and is not recorded, is the model's choice (log entry 121). -/
def Mod.agentRequest (m : Mod) (a : AgentId) (pa : Nat) (f : Nat → Option SectorId → Option Nat → Mod) : Mod :=
  match m.agentSector a with
  | none => m
  | some sector =>
    match m.decode sector pa with
    | .error e => m.agentFail a sector e pa
    | .ok cell => if lineChan (cell / 128) ≥ 2600 || m.outside (cell / 128) then m else f (cell / 128) sector ((m.entryAt pa).map (·.1))

/-- READ_MISS: a core that holds the line misses nothing. -/
def execReadMiss (agent : AgentId) (pa : PAddr) (s : State) : Host.Outcome State Fault Refusal :=
  let m := s.toMod
  s.go (m.agentRequest agent pa.toNat (fun line sector entry =>
    if (m.copyAt agent line).isSome then m
    else m.homeRequest { line := line, pa := pa.toNat, sector := sector, entry := entry, req := .read agent }))

/-- A core asks for ownership of a line it does not own: it upgrades its copy, or a holder whose copy another upgrade takes first is served as
a read for ownership (R204). -/
def Mod.askOwnership (m : Mod) (agent : AgentId) (pa : Nat) (upgrade : Bool) (op : Option CoreOp) : Mod :=
  m.agentRequest agent pa (fun line sector entry =>
    match m.copyAt agent line with
    | some c =>
      if c.st = .modified || c.st = .exclusive then
        (match op with
         | some o => m.coreOp agent line pa o
         | none => m)
      else m.homeRequest { line := line, pa := pa, sector := sector, entry := entry, req := if upgrade then .upgrade agent op else .own agent op }
    | none => m.homeRequest { line := line, pa := pa, sector := sector, entry := entry, req := .own agent op })

/-- READ_FOR_OWNERSHIP. -/
def execReadForOwnership (agent : AgentId) (pa : PAddr) (s : State) : Host.Outcome State Fault Refusal :=
  s.go (s.toMod.askOwnership agent pa.toNat false none)

/-- UPGRADE: one whose line another upgrade took is served as a read for ownership (R204). -/
def execUpgrade (agent : AgentId) (pa : PAddr) (s : State) : Host.Outcome State Fault Refusal :=
  s.go (s.toMod.askOwnership agent pa.toNat true none)

/-- A core performs an operation: at once on a line it owns, else once the home has given it the line (R209). -/
def Mod.coreAct (m : Mod) (agent : AgentId) (pa : Nat) (op : CoreOp) : Mod := m.askOwnership agent pa true (some op)

/-- The offset of an address in its line. -/
def lineOffset (pa : PAddr) : Fin 128 := Fin.ofNat 128 pa.toNat

/-- A core's open window, on another line than that of an address, ends: an LR or SC elsewhere gives it up (R209). -/
def Mod.leaveWindow (m : Mod) (agent : AgentId) (pa : Nat) : Mod :=
  match (m.pdCore agent).window with
  | some line =>
    if m.lineAt pa = some line then m
    else (m.setPdCore agent { m.pdCore agent with window := none }).resume
  | none => m

/-- PROCESSOR_AMO: an SC ends the window of its LR. -/
def execProcessorAmo (agent : AgentId) (pa : PAddr) (act : CoreAct) (wide : Bool) (value : Word) (s : State) :
    Host.Outcome State Fault Refusal :=
  let m := s.toMod
  let size := if wide then 8 else 4
  s.go (if pa.toNat % 128 + size > 128 || act = .zero then m
    else
      let m := if act = .lr || act = .sc then m.leaveWindow agent pa.toNat else m
      let before := (m.pdCore agent).window
      let m' := m.coreAct agent pa.toNat { act := act, wide := wide, off := lineOffset pa, value := value }
      match before with
      | some line => if (m'.pdCore agent).window = none then m'.resume else m'
      | none => m')

/-- CBO_ZERO (R308). -/
def execCboZero (agent : AgentId) (pa : PAddr) (s : State) : Host.Outcome State Fault Refusal :=
  s.go (s.toMod.coreAct agent pa.toNat { act := .zero, wide := true, off := lineOffset pa, value := 0 })

/-- A CBO.CLEAN or CBO.FLUSH of the whole line that holds the block (R308). -/
def Mod.cbo (m : Mod) (agent : AgentId) (pa : Nat) (inval : Bool) : Mod :=
  m.agentRequest agent pa (fun line sector entry =>
    m.homeRequest { line := line, pa := pa, sector := sector, entry := entry, req := .clean agent inval })

/-- CBO_CLEAN. -/
def execCboClean (agent : AgentId) (pa : PAddr) (s : State) : Host.Outcome State Fault Refusal :=
  s.go (s.toMod.cbo agent pa.toNat false)

/-- CBO_FLUSH. -/
def execCboFlush (agent : AgentId) (pa : PAddr) (s : State) : Host.Outcome State Fault Refusal :=
  s.go (s.toMod.cbo agent pa.toNat true)

/-- CBO_INVAL: performed as CBO.FLUSH. -/
def execCboInval (agent : AgentId) (pa : PAddr) (s : State) : Host.Outcome State Fault Refusal :=
  s.go (s.toMod.cbo agent pa.toNat true)

/-- LR_WINDOW_END. -/
def execLrWindowEnd (agent : AgentId) (s : State) : Host.Outcome State Fault Refusal :=
  let m := s.toMod
  s.go (match (m.pdCore agent).window with
    | none => m
    | some line => (m.setPdCore agent { m.pdCore agent with window := none }).resume)

/-! ## Snoops and evictions (R201, R213) -/

/-- SNOOP: a snoop of the line's open transaction arrives at its agent, which may just have sent the line's eviction; an open LR
window holds it back (R209). -/
def execSnoop (agent : AgentId) (pa : PAddr) (evicting : Bool) (s : State) : Host.Outcome State Fault Refusal :=
  let m := s.toMod
  s.go (match m.lineAt pa.toNat with
    | none => m
    | some line =>
      match m.txnOn line with
      | none => m
      | some t =>
        if !t.waitFor.contains agent.val || t.held.contains agent.val || t.answers.any (fun x => x.1 == agent.val) then m
        else if (m.pdCore agent).window = some line then
          m.setTxn line (some { t with held := t.held ++ [agent.val] })
        else m.answerSnoop line agent t evicting)

/-- SNOOP_ANSWER: an answer reaches the home; one that no snoop asked for is a protocol error, as is a second owner (R214). -/
def execSnoopAnswer (agent : AgentId) (pa : PAddr) (s : State) : Host.Outcome State Fault Refusal :=
  let m := s.toMod
  s.go (match m.lineAt pa.toNat with
    | none => m
    | some line =>
      match m.txnOn line with
      | none => m.protocolError line pa.toNat 1 agent
      | some t =>
        if !t.waitFor.contains agent.val then m.protocolError line pa.toNat (if t.snooped.contains agent.val then 1 else 2) agent
        else
          match t.answers.find? (fun x => x.1 == agent.val) with
          | none => m
          | some (_, ans) =>
            if ans = .owner && t.owner.isSome then m.protocolError line pa.toNat 4 agent
            else
              let arrived := match m.evictionAt agent line with
                | some e => e.arrived
                | none => true
              (m.setTxn line (some { t with
                waitFor := t.waitFor.filter (· != agent.val), answers := t.answers.filter (fun x => x.1 != agent.val),
                owner := if ans = .owner then some agent.val else t.owner,
                supplied := t.supplied || ans == .owner || ans == .sharer || ans == .writeback,
                wbWait := if ans = .writeback && !arrived then t.wbWait ++ [agent.val] else t.wbWait })).tryComplete line)

/-- A writeback that the home takes: held while its agent's snoop answer is outstanding, else applied and acknowledged (R201,
R213). One that could stay nowhere but in the memory of a fenced stack waits in its agent's eviction buffer (R385). -/
def Mod.takeWriteback (m : Mod) (line agent : Nat) (e : Eviction) : Mod :=
  let waits := m.wayless line
  let m : Mod := { m with evictions := Table.put m.evictions (cacheKey agent line) { e with arrived := !waits } }
  if waits then m else
  match m.txnOn line with
  | some t =>
    if t.waitFor.contains agent then m
    else if t.wbWait.contains agent then
      (m.setTxn line (some { t with wbWait := t.wbWait.filter (· != agent) })).tryComplete line
    else m.ackEvictions line
  | none => (m.ackEvictions line).resume

/-- WRITEBACK: of a line its agent holds as owner, which leaves the cache for the eviction buffer, or of one sent before; any other is a
protocol error (R214). A holder in E has made it M before it writes it back, with the bytes it had: a store within its own cache is the
processor's (R202). -/
def execWriteback (agent : AgentId) (pa : PAddr) (s : State) : Host.Outcome State Fault Refusal :=
  let m := s.toMod
  s.go (match m.lineAt pa.toNat with
    | none => m
    | some line =>
      match m.evictionAt agent line, m.copyAt agent line with
      | some e, c =>
        if e.line.st.dirty && !e.arrived then m.takeWriteback line agent e
        else if c.isSome then m
        else m.protocolError line pa.toNat 3 agent
      | none, some c =>
        if c.st != .shared then
          let m := m.dropReservation agent line
          ({ m with caches := Table.erase m.caches (cacheKey agent line) } : Mod).takeWriteback line agent
            { line := { c with st := if c.st = .exclusive then .modified else c.st }, owed := true, arrived := false, acked := false }
        else m.protocolError line pa.toNat 3 agent
      | none, none => m.protocolError line pa.toNat 3 agent)

/-- CLEAN_EVICTION: of a line its agent holds in E or S, or whose notice was sent before; acknowledged. -/
def execCleanEviction (agent : AgentId) (pa : PAddr) (s : State) : Host.Outcome State Fault Refusal :=
  let m := s.toMod
  s.go (match m.lineAt pa.toNat with
    | none => m
    | some line =>
      match m.evictionAt agent line, m.copyAt agent line with
      | some e, _ =>
        if e.line.st.dirty || e.arrived then m
        else { m with evictions := Table.put m.evictions (cacheKey agent line) { e with arrived := true, acked := true } }
      | none, some c =>
        if c.st.dirty then m
        else
          let m := m.dropReservation agent line
          { m with caches := Table.erase m.caches (cacheKey agent line),
                   evictions := Table.put m.evictions (cacheKey agent line)
                     { line := c, owed := false, arrived := true, acked := true } }
      | none, none => m)

/-- EVICTION_ACK: the home's acknowledgement reaches the agent. -/
def execEvictionAck (agent : AgentId) (pa : PAddr) (s : State) : Host.Outcome State Fault Refusal :=
  let m := s.toMod
  s.go (match m.lineAt pa.toNat with
    | none => m
    | some line =>
      match m.evictionAt agent line with
      | some e => if e.acked && e.arrived then { m with evictions := Table.erase m.evictions (cacheKey agent line) } else m
      | none => m)

/-- SNOOP_TIMEOUT: of a snoop that is outstanding; no watchdog counts time in the hold states (R376, R381). -/
def execSnoopTimeout (agent : AgentId) (pa : PAddr) (s : State) : Host.Outcome State Fault Refusal :=
  let m := s.toMod
  s.go (match m.lineAt pa.toNat with
    | none => m
    | some line =>
      match m.txnOn line with
      | some t => if m.working && t.waitFor.contains agent.val then m.protocolError line pa.toNat 5 agent else m
      | none => m)

/-- REQUEST_UNSERVED_TIMEOUT: of a processor's request that its home has not served. -/
def execRequestUnservedTimeout (agent : AgentId) (pa : PAddr) (s : State) : Host.Outcome State Fault Refusal :=
  let m := s.toMod
  s.go (match m.lineAt pa.toNat with
    | none => m
    | some line =>
      let waits := (m.slice (m.homeOf line)).waiting.any (fun w => w.line == line && w.req.agent? == some agent)
      let open_ := match m.txnOn line with
        | some t => t.wait.req.agent? == some agent
        | none => false
      if m.working && (waits || open_) then m.protocolError line pa.toNat 6 agent else m)

/-! ## Buckets and ways (R180, R184) -/

/-- REGULATED_RELEASE: the bucket of a controller and a sector has refilled to a content, and what waits on it proceeds as far as that is
enough (R180). -/
def execRegulatedRelease (ctl : Fin 96) (sector : SectorId) (content : Nat) (s : State) : Host.Outcome State Fault Refusal :=
  s.go (s.toMod.setBucket ctl sector (min content (s.toMod.bucketDepth ctl sector))).resume

/-- WAY_CLEAN: a way that was taken from its sector is written back and empty, and can take lines again (R184); not while a dirty line of
a fenced stack is in it (R385). -/
def execWayClean (md : MdId) (way : Fin 16) (s : State) : Host.Outcome State Fault Refusal :=
  let m := s.toMod
  let held := (m.slice md).lines.filter (fun p => match p.2 with
    | some l => l.way == way.val
    | none => false)
  let stuck := held.any (fun p => m.lineFenced p.1 && p.2.any (fun l => !l.cells.isEmpty))
  s.go (if (m.slice md).cleaning.getLsbD way && !stuck then
      let m := held.foldl (fun (m : Mod) (p : Nat × Option SliceLine) => (m.cleanLine p.1).setSliceLine p.1 none) m
      (m.setSlice md { m.slice md with cleaning := (m.slice md).cleaning &&& ~~~(BitVec.ofNat 16 (1 <<< way.val)) }).resume
    else m)

end Sys2Proof.Machine
end

