-- ==== Sys2Proof/Machine/Operands.lean ====
section
/-!
DEFINITION. Operand forms of the engines: split addressing of tile-memory streams (R93, R94), accumulator elements (R92,
R104), auxiliary descriptors (R105), the weight expander (R113 to R115), operand-SRAM slots (R131, R165) and the written
threads of a group (R135, R142).
-/
namespace Sys2Proof.Machine
open Sys2Proof

/-! ## Streams -/

/-- The position of byte o of a stream (R93). -/
def streamPos (x o : Nat) : Nat := x / 2048 * 1024 + x % 1024 + o

/-- The address of byte o of a stream (R93). -/
def splitAddr (x o : Nat) : Nat :=
  streamPos x o / 1024 * 2048 + x / 1024 % 2 * 1024 + streamPos x o % 1024

/-- A stream of n bytes stays within its half (R93). -/
def streamOk (x n : Nat) : Bool := n == 0 || streamPos x (n - 1) ≤ 0x1FFFFF

/-- A little-endian element of n bytes at byte o of a stream. -/
def streamNum (t : Mem) (x o n : Nat) : Nat := numOf ((List.range n).map (fun i => t.read (splitAddr x (o + i))))

/-- An element of a stream written. -/
def streamPut (t : Mem) (x o : Nat) : List Byte → Mem
  | [] => t
  | b :: rest => streamPut (t.write (splitAddr x o) b) x (o + 1) rest

/-! ## Accumulators -/

/-- The accumulator word of element e of a tile set, e in the order array, row, column (R92). -/
def accWord (tile e : Nat) : Nat := (e / 1024 * 4 + tile) * 1024 + e % 1024

/-- The elements of a tile set, in the order array, row, column. -/
def TCore.accSet (c : TCore) (tile : Nat) : List Half := (List.range 8192).map (fun e => c.acc.read (accWord tile e))

/-- Words written to a tile set from element e on. -/
def putAcc (w : WMem) (tile e : Nat) : List Half → WMem
  | [] => w
  | v :: rest => putAcc (w.write (accWord tile e) v) tile (e + 1) rest

/-- A tile set replaced. -/
def TCore.setAcc (c : TCore) (tile : Nat) (vs : List Half) : TCore := { c with acc := putAcc c.acc tile 0 vs }

/-- The position of element e in a stream, in elements: row-major or column-major (R104). -/
def accPos (colmaj : Bool) (e : Nat) : Nat := if colmaj then e % 64 * 128 + e / 64 else e

/-! ## Auxiliary descriptors and the expander -/

/-- The tile address of the auxiliary descriptor that s[AUX_REG] names; none for the fault TILE_RANGE (R105). -/
def auxAddr (w : Word) : Option Nat :=
  let a := w.toNat % 2 ^ 22
  if a % 64 ≠ 0 || a > 0x3FFFC0 then none else some a

/-- The auxiliary descriptor at a tile address (R105). -/
def auxAt (t : Mem) (a : Nat) : Aux :=
  let w0 := BitVec.ofNat 64 (t.readNum a 8)
  let w1 := BitVec.ofNat 64 (t.readNum (a + 8) 8)
  let g := [32, 64, 128, 128].getD (bits w0 23 22) 128
  { meta_ := bits w0 21 0, g := g, kOff := bits w0 30 24 % g, scratch := bits w0 53 32, stream := bits w1 1 0,
    reseed := bit w1 2, seed := BitVec.ofNat 64 (t.readNum (a + 16) 8) }

/-- The group of step k (R113). -/
def Aux.group (a : Aux) (k : Nat) : Nat := (a.kOff + k) / a.g

/-- The bytes of metadata of a group (R113, R114). -/
def metaBytes (fmt : Nat) : Nat := if fmt = 2 then 32 else 192

/-- The BF16 element the expander makes of a code (R114, R115). -/
def expand (t : Mem) (a : Aux) (fmt k col code : Nat) : Fp :=
  let base := a.group k * metaBytes fmt
  if fmt = 2 then bf16.read (streamNum t a.meta_ (base + 2 * code) 2)
  else
    let scale := bf16.read (streamNum t a.meta_ (base + 2 * col) 2)
    let z := streamNum t a.meta_ (base + 128 + col) 1
    bf16.read (bf16.write ((Fp.ofInt ((code : Int) - z) 0).mul scale))

/-- Element i of step k of A in a floating format (R94, R98). -/
def matA (t : Mem) (x fmt k i : Nat) : Fp :=
  (if fmt = 1 then fp16 else bf16).read (streamNum t x (256 * k + 2 * i) 2)

/-- Column c of step k of B in a floating format (R94, R98, R115). -/
def matB (t : Mem) (x : Nat) (aux : Option Aux) (fmt k c : Nat) : Fp :=
  if fmt = 0 then bf16.read (streamNum t x (128 * k + 2 * c) 2)
  else if fmt = 1 then fp16.read (streamNum t x (128 * k + 2 * c) 2)
  else
    let code := if fmt = 4 then streamNum t x (64 * k + c) 1
      else streamNum t x (32 * k + c / 2) 1 / (if c % 2 = 0 then 1 else 16) % 16
    match aux with
    | some a => expand t a fmt k c code
    | none => .nan

/-- An 8-bit integer element with its format's signedness (R98). -/
def int8 (signed : Bool) (v : Nat) : Int := if signed then signedOf 8 v else (v % 256 : Nat)

/-! ## What instructions touch (R75) -/

/-- What an instruction reads and writes: ranges of 4 KiB granules of tile memory, first to last, and accumulator tiles, each with
whether it writes there; and whether it draws from a stochastic stream, which one is not known before it starts. -/
structure Touch where
  tiles : List (Nat × Nat × Bool)
  accs : List (Nat × Bool)
  draws : Bool := false
  deriving DecidableEq, Repr

/-- The granules of n bytes in plain addressing. -/
def plainSpan (a n : Nat) (w : Bool) : List (Nat × Nat × Bool) := if n = 0 then [] else [(a / 4096, (a + n - 1) / 4096, w)]

/-- The granules of a stream of n bytes. -/
def streamSpan (x n : Nat) (w : Bool) : List (Nat × Nat × Bool) :=
  if n = 0 then [] else [(splitAddr x 0 / 4096, splitAddr x (n - 1) / 4096, w)]

/-- The whole of tile memory. -/
def wholeTile (w : Bool) : List (Nat × Nat × Bool) := [(0, 1023, w)]

/-- Two instructions overlap where either writes, and where both draw: a stream is used in issue order (R119, R141). -/
def Touch.meets (a b : Touch) : Bool :=
  (a.draws && b.draws) || a.tiles.any (fun p => b.tiles.any (fun q => (p.2.2 || q.2.2) && p.1 ≤ q.2.1 && q.1 ≤ p.2.1)) ||
    a.accs.any (fun p => b.accs.any (fun q => (p.2 || q.2) && p.1 == q.1))

/-- Metadata bytes that an MMA of k steps reads (R113, R114). -/
def Aux.metaLen (a : Aux) (fmt k : Nat) : Nat := if k = 0 then 0 else (a.group (k - 1) + 1) * metaBytes fmt

/-- What a queued matrix instruction touches; its auxiliary descriptor gives the ranges of the metadata and of SCRATCH (R75, R105). -/
def MatJob.touch (j : MatJob) : Touch :=
  let x := j.args
  let f := x.fmt.toNat
  let base := x.aBase.toNat * 256
  let n := 8192 * (if f ≤ 1 then 2 else 4)
  let aux := auxAddr j.aux
  let d := match aux with
    | some a => plainSpan a 64 false
    | none => []
  match j.op with
  | .mma =>
    let a := auxAt j.tile (aux.getD 0)
    { tiles := streamSpan base ((if f ≥ 8 then 128 else 256) * j.k) false ++
        streamSpan (x.bBase.toNat * 256) ((if f ≤ 1 then 128 else if f = 4 || f ≥ 8 then 64 else 32) * j.k) false ++
        (if (2 ≤ f && f ≤ 4) || x.repro then d else []) ++
        (if 2 ≤ f && f ≤ 4 then streamSpan a.meta_ (a.metaLen f j.k) false else []) ++
        (if x.repro then streamSpan a.scratch (32768 * Nat.log2 (ceilDiv j.k 64)) true else [])
      accs := [(x.acc.val, true)] }
  | .load => { tiles := streamSpan base n false, accs := [(x.acc.val, true)] }
  | .store => { tiles := streamSpan base n true ++ (if x.sr then d else []), accs := [(x.acc.val, false)], draws := x.sr }
  | .zero => { tiles := [], accs := [(x.acc.val, true)] }

/-- What a queued COMPRESS or EXPAND touches: its destination as the largest range it can write (R75, R150). -/
def PackJob.touch (p : PackJob) : Touch :=
  { tiles := (if p.op = 0x59 then [] else plainSpan p.src (256 * p.rows) false) ++ plainSpan p.pred (8 * p.rows) false ++
      plainSpan p.dst (256 * p.rows) true ++ plainSpan p.count 8 true
    accs := [] }

/-- No earlier matrix instruction, COMPRESS or EXPAND that is not performed stands in the way (R75): an instruction that overlaps one
waits for it, and issue with it. -/
def TCore.clear (c : TCore) (t : Touch) : Bool :=
  c.mat.all (fun j => !j.touch.meets t) && (match c.pack with | some p => !p.touch.meets t | none => true)

/-- A range of tile memory alone. -/
def tileTouch (tiles : List (Nat × Nat × Bool)) : Touch := { tiles := tiles, accs := [] }

/-- What a chain touches: its descriptor is read when it starts, so any of tile memory and any stream; and the accumulators that are its source
(R75, R119). -/
def chainTouch (x : ChainArgs) : Touch :=
  { tiles := wholeTile true, accs := if x.source = 0 then [(x.acc.val, true)] else [], draws := true }

/-- What a VPACK touches beyond its slots: a stream where it is stochastic (R141). -/
def packTouch (v : VecArgs) : Touch := { tiles := [], accs := [], draws := v.sr }

/-! ## Slots and threads of the vector engine -/

/-- A scalar register that an operand name gives by its low bits (R130). -/
def nameReg (n : BitVec 10) : Reg := ⟨n.toNat % 32, Nat.mod_lt _ (by decide)⟩

/-- Thread group g of a core. -/
def TCore.group (c : TCore) (g : Nat) : Group := Table.get Group.reset c.vec.groups g
/-- Thread group g replaced. -/
def TCore.setGroup (c : TCore) (g : Nat) (x : Group) : TCore :=
  { c with vec := { c.vec with groups := Table.set Group.reset c.vec.groups g x } }

/-- The slot an operand name resolves to in a group (R131, R165). -/
def TCore.slotOf (c : TCore) (g n : Nat) : Nat :=
  if c.k1 then 64 * g + n % 64
  else if !c.opCache then 32 * g + n % 32
  else if n < c.vec.sharedBase then (n + g * c.vec.stride) % 1024
  else n

/-- An operand name is a shared slot (R131, R132). The name decides it: a private name whose slot, (n + g × STRIDE) mod 1,024, is at
or above SHARED_BASE still names a private slot; the spec does not settle that case (log entry 9). -/
def TCore.sharedName (c : TCore) (n : Nat) : Bool := c.opCache && !c.k1 && n ≥ c.vec.sharedBase

/-- The value of thread t in the slot of an operand name. -/
def TCore.operand (c : TCore) (g n t : Nat) : Half := c.sram.read (c.slotOf g n * 64 + t)

/-- The value of thread t in the slot of an operand name written. -/
def TCore.setOperand (c : TCore) (g n t : Nat) (x : Half) : TCore :=
  { c with sram := c.sram.write (c.slotOf g n * 64 + t) x }

/-- SRC1 of a thread. -/
def TCore.srcA (c : TCore) (v : VecArgs) (g t : Nat) : Half := c.operand g v.src1.toNat t
/-- SRC2 of a thread: a slot, or a scalar for every thread (R135). -/
def TCore.srcB (c : TCore) (v : VecArgs) (g t : Nat) : Half :=
  if v.sb then (c.reg (nameReg v.src2)).extractLsb' 0 32 else c.operand g v.src2.toNat t
/-- SRC3 of a thread: a slot, or a scalar for every thread (R135). -/
def TCore.srcC (c : TCore) (v : VecArgs) (g t : Nat) : Half :=
  if v.sc then (c.reg (nameReg v.src3)).extractLsb' 0 32 else c.operand g v.src3.toNat t

/-- A predicate of a group; p0 reads all ones (R142). -/
def Group.predicate (x : Group) (n : Nat) : Word := if n = 0 then BitVec.allOnes 64 else Table.get 0 x.preds n

/-- The threads of a group that an instruction writes (R142). -/
def TCore.written (c : TCore) (v : VecArgs) (g : Nat) : Word :=
  if v.unmasked then BitVec.allOnes 64 else (c.group g).mask &&& (c.group g).predicate v.pred

/-- The written threads, ascending. -/
def TCore.threads (c : TCore) (v : VecArgs) (g : Nat) : List Nat := bitsSet (c.written v g).toNat 64

end Sys2Proof.Machine
end

