-- ==== Sys2Proof/Machine/Matrix.lean ====
section
/-!
DEFINITION. The matrix class (R91 to R105, R113 to R121). An instruction issued stands in the matrix queue; the oldest is performed by
MATRIX_INSTRUCTION_COMPLETE, or in part, to an interrupt boundary, when its core stops for a preemption (R85, R86).
-/
namespace Sys2Proof.Machine
open Sys2Proof

/-- A matrix instruction issued: it enters the queue with the scalar registers it names, and goes on from there. Nothing happens while
the queue is full or an overlapping COMPRESS or EXPAND is not performed (R75); a stream that would leave its half is the fault TILE_RANGE
(R93). -/
def Mod.matrix (m : Mod) (id : CoreId) (i : Instr) (op : MatOp) (x : MatArgs) (ok : MatJob → Bool) : Mod :=
  let c := m.core id
  let j : MatJob := { pc := c.pc, op := op, args := x, k := (c.reg x.kReg).toNat % 2 ^ 32, aux := c.reg x.auxReg, tile := c.tile,
                      done := 0, stack := [] }
  let free := match c.pack with
    | some p => !p.touch.meets j.touch
    | none => true
  if m.fetches id i && c.matQ < 8 && free then
    if ok j then m.retire id { c with mat := c.mat ++ [j] } (c.pc + 1) else m.coreFault id 0x03 0 c.pc
  else m

/-! ## MMA (R94, R101 to R103, R113 to R121) -/

/-- An MMA reads an auxiliary descriptor (R105). -/
def needAux (x : MatArgs) : Bool := (2 ≤ x.fmt.toNat && x.fmt.toNat ≤ 4) || x.repro

/-- The operand streams of an MMA stay within their halves, and its descriptor's address is sound (R93, R94, R105). -/
def mmaStreams (x : MatArgs) (aux : Word) (k : Nat) : Bool :=
  let f := x.fmt.toNat
  streamOk (x.aBase.toNat * 256) ((if f ≥ 8 then 128 else 256) * k) &&
    streamOk (x.bBase.toNat * 256) ((if f ≤ 1 then 128 else if f = 4 || f ≥ 8 then 64 else 32) * k) &&
    (!needAux x || (auxAddr aux).isSome)

/-- The streams that the descriptor gives stay within their halves (R93, R113, R121). -/
def auxRanges (x : MatArgs) (a : Aux) (k : Nat) : Bool :=
  let f := x.fmt.toNat
  (!(2 ≤ f && f ≤ 4) || streamOk a.meta_ (a.metaLen f k)) &&
    (!x.repro || ceilDiv k 64 ≤ 1 || streamOk a.scratch (32768 * Nat.log2 (ceilDiv k 64)))

/-- Tile memory as an instruction meets it while moves write it: each piece of 128 bytes wholly as it was when the instruction was
issued, or wholly as it is (R96). Which one is a free choice (log entry 8). -/
def mixTile (choice : Nat) (old new : Mem) : Mem :=
  if old = new then new
  else
    let newer := fun (p : Host.Cell) => Config.choose choice (p.1 / 128) % 2 == 1
    { fill := new.fill, cells := old.cells.filter (fun p => !newer p) ++ new.cells.filter newer }

/-- One step of a floating MMA on one element (R102). -/
def mmaStep (t : Mem) (x : MatArgs) (aux : Option Aux) (e k : Nat) (acc : Half) : Half :=
  let f := x.fmt.toNat
  let a := matA t (x.aBase.toNat * 256) f k (e / 64)
  let b := matB t (x.bBase.toNat * 256) aux f k (e % 64)
  BitVec.ofNat 32 (fp32.write ((fp32.read acc.toNat).add (a.mul b)))

/-- Steps in order on one element. -/
def mmaSteps (t : Mem) (x : MatArgs) (aux : Option Aux) (e : Nat) (acc : Half) (ks : List Nat) : Half :=
  ks.foldl (fun acc k => mmaStep t x aux e k acc) acc

/-- Steps of an integer MMA on one element (R103). -/
def mmaInt (t : Mem) (x : MatArgs) (e : Nat) (acc : Half) (ks : List Nat) : Half :=
  let f := x.fmt.toNat
  let sum : Int := ks.foldl (fun s k =>
    s + int8 (f % 2 = 0) (streamNum t (x.aBase.toNat * 256) (128 * k + e / 64) 1) *
        int8 (f ≤ 9) (streamNum t (x.bBase.toNat * 256) (64 * k + e % 64) 1)) (acc.toNat : Int)
  BitVec.ofInt 32 sum

/-- Two tile sets added element by element. -/
def addSets : List Half → List Half → List Half
  | a :: as, b :: bs => fadd a b :: addSets as bs
  | _, _ => []

/-- A tile set written to entry s of the scratch stack: row-major FP32 (R121). -/
def pushScratch (t : Mem) (x s : Nat) (vs : List Half) : Mem :=
  streamPut t x (s * 32768) (vs.flatMap (fun v => bytesOf 4 v.toNat))

/-- A tile set read from entry s of the scratch stack (R121). -/
def readScratch (t : Mem) (x s : Nat) : List Half :=
  (List.range 8192).map (fun e => BitVec.ofNat 32 (streamNum t x (s * 32768 + 4 * e) 4))

/-- The tops of the stack of the value's size merged into the value being formed (R121): the stack's sizes, top first. -/
def mergeTop (t : Mem) (x : Nat) (size : Nat) (p : List Half) : List Nat → Nat × List Half × List Nat
  | [] => (size, p, [])
  | sz :: rest => if sz = size then mergeTop t x (2 * size) (addSets (readScratch t x rest.length) p) rest else (size, p, sz :: rest)

/-- What is left on the stack added to the last value, top first (R121). -/
def drainStack (t : Mem) (x : Nat) (p : List Half) : List Nat → List Half
  | [] => p
  | _ :: rest => drainStack t x (addSets (readScratch t x rest.length) p) rest

/-- A sum under REPRO under way: tile memory with its SCRATCH, the sizes on the stack, the value formed last. -/
structure Repro where
  tile : Mem
  sizes : List Nat
  value : List Half
  deriving DecidableEq, Repr

/-- A block of a REPRO MMA of k steps in n blocks, its operands read from src (R121). -/
def reproBlock (x : MatArgs) (aux : Option Aux) (scratch : Nat) (src : Mem) (k n : Nat) (r : Repro) (b : Nat) : Repro :=
  let ks := (List.range (min 64 (k - 64 * b))).map (64 * b + ·)
  let p := (List.range 8192).map (fun e => mmaSteps src x aux e 0 ks)
  let q := mergeTop r.tile scratch 1 p r.sizes
  if b + 1 < n then { tile := pushScratch r.tile scratch q.2.2.length q.2.1, sizes := q.1 :: q.2.2, value := q.2.1 }
  else { r with sizes := [], value := drainStack r.tile scratch q.2.1 q.2.2 }

/-- The steps from a number up to, and not including, another. -/
def stepsFrom (a b : Nat) : List Nat := (List.range (b - a)).map (a + ·)

/-- An MMA's steps up to a boundary, or to its end (R85, R101 to R103, R121): the core, and the job with the steps completed and its descriptor as
it was when the first step began (R105); none for the fault TILE_RANGE, before any step. Where SCRATCH overlaps the A, B or META stream the spec
does not say which bytes later steps read: they read what stood there before the pushes of the same run (DESIGN CHOICE, log entry 128). -/
def MatJob.runMma (j : MatJob) (c : TCore) (choice upto : Nat) : Option (TCore × MatJob) :=
  let x := j.args
  let src := mixTile choice j.tile c.tile
  let aux := if j.done ≠ 0 then j.desc else if needAux x then (auxAddr j.aux).map (auxAt src) else none
  let j' := { j with done := upto, desc := aux }
  if (needAux x && aux.isNone) || !(match aux with | some a => auxRanges x a j.k | none => true) then none
  else if j.k = 0 then
    some (if x.zero || x.repro then c.setAcc x.acc.val (List.replicate 8192 0) else c, j')
  else if x.repro then
    let scratch := (aux.map Aux.scratch).getD 0
    let r := (stepsFrom (j.done / 64) (ceilDiv upto 64)).foldl (reproBlock x aux scratch src j.k (ceilDiv j.k 64))
      { tile := c.tile, sizes := j.stack, value := c.accSet x.acc.val }
    some ({ c with tile := r.tile }.setAcc x.acc.val r.value, { j' with stack := r.sizes })
  else
    let old := fun (e : Nat) => if x.zero && j.done = 0 then (0 : Half) else c.acc.read (accWord x.acc.val e)
    some (c.setAcc x.acc.val ((List.range 8192).map (fun e =>
      if x.fmt.toNat ≥ 8 then mmaInt src x e (old e) (stepsFrom j.done upto)
      else mmaSteps src x aux e (old e) (stepsFrom j.done upto))), j')

/-- MMA: K rank-1 steps into a tile set. -/
def execMma (core : CoreId) (x : MatArgs) (s : State) : Host.Outcome State Fault Refusal :=
  s.go (s.toMod.matrix core (.mma core x) .mma x (fun j => mmaStreams x j.aux j.k))

/-! ## Accumulator moves (R104, R119) -/

/-- The bytes of an element of an accumulator load or store (R104). -/
def accElem (x : MatArgs) : Nat := if x.fmt.toNat ≤ 1 then 2 else 4

/-- The stream of an accumulator load or store stays within its half (R93, R104). -/
def accStream (x : MatArgs) : Bool := streamOk (x.aBase.toNat * 256) (8192 * accElem x)

/-- ACC_LOAD from tile memory as it meets it (R104). -/
def TCore.accLoad (c : TCore) (x : MatArgs) (src : Mem) : TCore :=
  let f := x.fmt.toNat
  let n := accElem x
  let base := x.aBase.toNat * 256
  c.setAcc x.acc.val ((List.range 8192).map (fun e =>
    let raw := streamNum src base (accPos x.colmaj e * n) n
    let v : Nat := if f = 0 then convert bf16 fp32 raw else if f = 1 then convert fp16 fp32 raw else raw
    let t := c.acc.read (accWord x.acc.val e)
    if !x.addFlag then BitVec.ofNat 32 v
    else if f = 13 then t + BitVec.ofNat 32 v
    else fadd t (BitVec.ofNat 32 v)))

/-- ACC_LOAD: a tile set from a stream, added when ADD is set. -/
def execAccLoad (core : CoreId) (x : MatArgs) (s : State) : Host.Outcome State Fault Refusal :=
  s.go (s.toMod.matrix core (.accLoad core x) .load x (fun _ => accStream x))

/-- A stream's state before its first draw (R118). -/
def srStart (c : TCore) (a : Aux) : Word :=
  if a.reseed then (if a.seed = 0 then srSeed else a.seed) else Table.get srSeed c.sr a.stream

/-- The elements of a tile set stored one after the other, a draw for each when stochastic (R119, R120). -/
def storeElems (x : MatArgs) (base : Nat) : List (Nat × Half) → Mem → Word → Mem × Word
  | [], t, sr => (t, sr)
  | (e, v) :: rest, t, sr =>
    let f := x.fmt.toNat
    let sr := if x.sr then srNext sr else sr
    let out := if f ≥ 2 then v.toNat
      else if x.sr then srConvert (f = 1) sr v.toNat
      else convert fp32 (if f = 1 then fp16 else bf16) v.toNat
    storeElems x base rest (streamPut t base (accPos x.colmaj e * accElem x) (bytesOf (accElem x) out)) sr

/-- ACC_STORE (R104, R119): with SR, by the stream that its descriptor names. -/
def TCore.accStore (c : TCore) (x : MatArgs) (aux : Option Aux) : TCore :=
  let base := x.aBase.toNat * 256
  let elems := (c.accSet x.acc.val).zipIdx.map (fun p => (p.2, p.1))
  match aux with
  | none => { c with tile := (storeElems x base elems c.tile 0).1 }
  | some a =>
    let r := storeElems x base elems c.tile (srStart c a)
    { c with tile := r.1, sr := Table.set srSeed c.sr a.stream r.2 }

/-- ACC_STORE: a tile set to a stream, converted. -/
def execAccStore (core : CoreId) (x : MatArgs) (s : State) : Host.Outcome State Fault Refusal :=
  s.go (s.toMod.matrix core (.accStore core x) .store x
    (fun j => accStream x && (!x.sr || (auxAddr j.aux).isSome)))

/-- ACC_ZERO: +0 in every element of a tile set. -/
def execAccZero (core : CoreId) (x : MatArgs) (s : State) : Host.Outcome State Fault Refusal :=
  s.go (s.toMod.matrix core (.accZero core x) .zero x (fun _ => true))

/-! ## The oldest instruction performed -/

/-- A matrix instruction performed to its end; none for the fault TILE_RANGE. -/
def MatJob.perform (j : MatJob) (c : TCore) (choice : Nat) : Option TCore :=
  let src := mixTile choice j.tile c.tile
  match j.op with
  | .mma => (j.runMma c choice j.k).map (·.1)
  | .load => some (c.accLoad j.args src)
  | .store => some (c.accStore j.args (if j.args.sr then (auxAddr j.aux).map (auxAt src) else none))
  | .zero => some (c.setAcc j.args.acc.val (List.replicate 8192 0))

/-- What an instruction wrote to tile memory, from before to after, in what an instruction behind it met at its issue (R75): to that one
it is not a move's write, and both are as it left them. -/
def Mem.carry (before after old : Mem) : Mem :=
  if before = after then old
  else ((before.cells ++ after.cells).map (·.1)).foldl (fun t a =>
    if before.read a = after.read a then t else t.write a (after.read a)) old

/-- The jobs behind one that changed tile memory from a state. -/
def TCore.carryJobs (c : TCore) (before : Mem) (js : List MatJob) : List MatJob :=
  js.map (fun j => { j with tile := Mem.carry before c.tile j.tile })

/-- The oldest instruction of a core's matrix queue performed; it leaves the queue. -/
def Mod.matRetire (m : Mod) (id : CoreId) : Mod :=
  let c := m.core id
  match c.mat with
  | [] => m
  | j :: rest =>
    let n : Mod := if j.tile = c.tile then m else { m with free := m.free + 1 }
    match j.perform c m.free with
    | none => n.coreFault id 0x03 0 j.pc
    | some c' => (n.setCore id { c' with mat := c'.carryJobs c.tile rest, matDone := c.matDone + 1 }).settleCore id

/-- MATRIX_INSTRUCTION_COMPLETE: the oldest instruction of the matrix queue is performed and leaves it (R124). -/
def execMatrixInstructionComplete (core : CoreId) (s : State) : Host.Outcome State Fault Refusal :=
  s.go (if (s.toMod.core core).engines && s.toMod.moversRun then s.toMod.matRetire core else s.toMod)

end Sys2Proof.Machine
end

