-- ==== Sys2Proof/Machine/Moves.lean ====
section
/-!
DEFINITION. Data movers: what a descriptor faults with, the start of lists, and the move class (R74 to R79). The blocks of a move are
in MoveBlocks.
-/
namespace Sys2Proof.Machine
open Sys2Proof

/-! ## Descriptors (R77) -/

/-- Why a move faults (R77): the kernel fault codes MOVE_FORMAT, TILE_RANGE, MOVE_ACCESS. -/
inductive MoveErr where
  | format
  | tile
  /-- An access error at a physical address; 0 source, 1 destination, 2 list. -/
  | access (e : AccErr) (side addr : Nat)
  /-- A destination tile memory of a fenced core (R385). -/
  | fenced
  /-- No fault: the block waits for its lines or its sector's buckets (R180, R203). -/
  | wait
  deriving DecidableEq, Repr

/-- The reserved bits of descriptor words are 0 (R77). -/
def descReserved (ws : List Word) : Bool :=
  let w := wordAt ws
  bits (w 0) 63 60 == 0 && bits (w 1) 63 60 == 0 && bits (w 4) 63 8 == 0 && bits (w 5) 31 18 == 0 &&
    bits (w 5) 63 48 == 0 && bits (w 6) 63 16 == 0

/-- A space is physical or a tile memory, whose address has no bit above [21:0] (R77). -/
def spaceOk (space addr : Nat) : Bool := space == 0 || (space ≥ 8 && addr < 2 ^ 22)

/-- A tile range stays within 0x3F_FFFF (R77). -/
def tileRangeOk (space addr stride : Nat) (d : Desc) : Bool :=
  space == 0 || addr + (d.rows - 1) * stride + d.rowBytes ≤ 0x400000

/-- What a descriptor faults with, if it does (R59, R77, R211): a reserved token address or space wherever it stands, SRC_SPACE of a FILL
too, of which R77 has SRC alone ignored. Whether POST_INCR's range is checked without POST the spec does not say: the model takes a
POST_INCR of 0 there (log entry 104). -/
def descFault (ws : List Word) : Option MoveErr :=
  let d := Desc.ofWords ws
  if !descReserved ws || d.op > 1 || !hintOk d.hintTarget || d.rowBytes == 0 || d.rows == 0 ||
      decide (d.bytes > 2 ^ 44) || (d.post && d.incr == 0) || tokReserved d.target ||
      !spaceOk d.dstSpace d.dst || (if d.op == 0 then !spaceOk d.srcSpace d.src else d.srcSpace != 0 && d.srcSpace < 8) then
    some .format
  else if !tileRangeOk d.dstSpace d.dst d.dstStride d || (d.op == 0 && !tileRangeOk d.srcSpace d.src d.srcStride d) then
    some .tile
  else none

/-! ## Blocks (R78) -/

/-- Byte i of the move's sequence lies at this address. -/
def rowAddr (base stride rowBytes i : Nat) : Nat := base + i / rowBytes * stride + i % rowBytes

/-- The cells of physical bytes, or the first access error. -/
def Mod.cellsOf (m : Mod) (sector : Option SectorId) (side : Nat) : List Nat → Except MoveErr (List Nat)
  | [] => .ok []
  | a :: rest =>
    match m.decode sector a with
    | .error e => .error (.access e side a)
    | .ok c =>
      match Mod.cellsOf m sector side rest with
      | .error e => .error e
      | .ok cs => .ok (c :: cs)

/-- The positions of block k of a move. -/
def blockPositions (d : Desc) (k : Nat) : List Nat := (List.range (min 4096 (d.bytes - 4096 * k))).map (4096 * k + ·)

/-- Bytes put at tile addresses. -/
def putTile (t : Mem) : List (Nat × Byte) → Mem
  | [] => t
  | (a, b) :: rest => putTile (t.write a b) rest

/-! ## A kernel's moves (R74, R75, R77) -/

/-- The fault of a kernel's move: recorded with its cause on the die, and the kernel faults at the PC that queued the move
(R24, R77, R89, R171, R393). -/
def Mod.moveFault (m : Mod) (id pc : Nat) (e : MoveErr) : Mod :=
  match e with
  | .format => m.coreFault id 0x04 0 pc
  | .tile => m.coreFault id 0x03 0 pc
  | .fenced => m.coreFault id 0x05 0 pc
  | .wait => m
  | .access a _ addr => (m.recordAccess (coreSite id) (id % 64) (m.core id).sector a addr).coreFaultBy id 0x05 0 pc
      (a == .poison && m.poisonInjected addr)

/-- The descriptor of a list at an address (R77, R78), its line read once it is to be had (R180, R203). One that is not aligned to 64 bytes, for
which R77 names no fault, is MOVE_FORMAT (DESIGN CHOICE, log entry 119). -/
def Mod.readDesc (m : Mod) (sector : Option SectorId) (addr : Nat) : Mod × Except MoveErr (List Word) :=
  if addr % 64 ≠ 0 then (m, .error .format)
  else if m.holdsOff sector false addr 64 then (m, .error .wait)
  else
    let m := m.touchRead sector addr 64
    (m, match m.readPhys sector addr 64 with
      | .error e => .error (.access e 2 addr)
      | .ok bs => .ok (wordsOf 8 bs))

/-- A descriptor of a list may start: it is sound, and the list's blocks stay within 2^32 (R77, R78). -/
def listFault (ws : List Word) (base : Nat) : Option MoveErr :=
  match descFault ws with
  | some e => some e
  | none => if base + (Desc.ofWords ws).blocks > 2 ^ 32 then some .format else none

/-- A descriptor that has just started: none of its blocks is complete. -/
def MovePart.first (ws : List Word) (index base : Nat) : MovePart :=
  { desc := ws, index := index, base := base, done := [], read := [] }

/-- What follows a list's descriptor, which starts after a number of blocks: the next one, unless it is the last (R78). -/
def listNext (ws : List Word) (addr index base : Nat) : Option (Nat × Nat × Nat) :=
  let d := Desc.ofWords ws
  if d.last then none else some (addr + 64, index + 1, base + d.blocks)

/-- A list at its first descriptor, at an address, or why that faults (R77, R78). -/
def Mod.listJob (m : Mod) (sector : Option SectorId) (serial pc addr : Nat) (post : Option Nat) : Mod × Except MoveErr MoveJob :=
  let r := m.readDesc sector addr
  (r.1, match r.2 with
    | .error e => .error e
    | .ok ws =>
      match listFault ws 0 with
      | some e => .error e
      | none => .ok { serial := serial, pc := pc, parts := [MovePart.first ws 0 0], next := listNext ws addr 0 0,
                      total := (Desc.ofWords ws).blocks, listPost := post })

/-- A move issues now: a full move queue stalls issue, and so does an earlier instruction that is not performed and whose range of tile
memory overlaps the move's (R75). -/
def Mod.moveIssues (m : Mod) (id : CoreId) (i : Instr) (touch : Touch) : Bool :=
  m.fetches id i && (m.core id).moves.length < 16 && (m.core id).clear touch

/-- A move queued on its core's mover. -/
def Mod.queueMove (m : Mod) (id : CoreId) (i : Instr) (touch : Touch) (f : TCore → Except MoveErr MoveJob) : Mod :=
  let c := m.core id
  if m.moveIssues id i touch then
    match f c with
    | .error e => m.moveFault id c.pc e
    | .ok j => m.retire id { c with moves := c.moves ++ [j], nextMove := c.nextMove + 1 } (c.pc + 1)
  else m

/-- The single-row descriptor of MVIN, MVOUT and MVT (R74): its post is TOKEN of the running bank, by 1. -/
def mvDesc (c : TCore) (id : CoreId) (v : MoveArgs) (src srcSpace dst dstSpace : Nat) : Desc :=
  { src := src, srcSpace := srcSpace, dst := dst, dstSpace := dstSpace, rowBytes := (c.reg v.sl).toNat, rows := 1,
    srcStride := 0, dstStride := 0, op := 0, last := true, order := false, post := v.post, hint := false,
    target := BitVec.ofNat 18 (id.val + v.token.val * 2 ^ 10 + flag c.bank * 2 ^ 17), incr := 1, hintTarget := 0,
    pattern := 0 }

/-- The job of a single-row move, or its fault: a length of 0 or of 2^32 or more is MOVE_FORMAT (R74), and an address above
56 bits is unmapped (R22, R24). -/
def mvJob (c : TCore) (d : Desc) : Except MoveErr MoveJob :=
  if d.rowBytes ≥ 2 ^ 32 then .error .format
  else
    match descFault d.words with
    | some e => .error e
    | none =>
      if d.src ≥ 2 ^ 56 then .error (.access .addressError 0 d.src)
      else if d.dst ≥ 2 ^ 56 then .error (.access .addressError 1 d.dst)
      else .ok { serial := c.nextMove, pc := c.pc, parts := [MovePart.first d.words 0 0], next := none, total := d.blocks, listPost := none }

/-- The tile memory of its own core that a single-row move reads or writes. -/
def moveTouch (c : TCore) (v : MoveArgs) (write : Bool) : Touch :=
  tileTouch (plainSpan v.tile.toNat (c.reg v.sl).toNat write)

/-- MVIN: physical memory into tile memory. -/
def execMvin (core : CoreId) (v : MoveArgs) (s : State) : Host.Outcome State Fault Refusal :=
  s.go (s.toMod.queueMove core (.mvin core v) (moveTouch (s.toMod.core core) v true) (fun c =>
    mvJob c (mvDesc c core v (c.reg v.sa).toNat 0 v.tile.toNat (8 + core.val % 8))))

/-- MVOUT: tile memory to physical memory. -/
def execMvout (core : CoreId) (v : MoveArgs) (s : State) : Host.Outcome State Fault Refusal :=
  s.go (s.toMod.queueMove core (.mvout core v) (moveTouch (s.toMod.core core) v false) (fun c =>
    mvJob c (mvDesc c core v v.tile.toNat (8 + core.val % 8) (c.reg v.sa).toNat 0)))

/-- MVT: this core's tile memory to a peer's, which its dependency rules do not track (R74, R79). -/
def execMvt (core : CoreId) (v : MoveArgs) (s : State) : Host.Outcome State Fault Refusal :=
  s.go (s.toMod.queueMove core (.mvt core v) (moveTouch (s.toMod.core core) v false) (fun c =>
    mvJob c (mvDesc c core v v.tile.toNat (8 + core.val % 8) ((c.reg v.sa).toNat % 2 ^ 22) (8 + v.peer.val))))

/-- MLIST: the list whose first descriptor is at s[SA]; POST and TOKEN apply after its last descriptor. It counts as reading and writing
the whole of tile memory (R75). -/
def execMlist (core : CoreId) (v : MoveArgs) (s : State) : Host.Outcome State Fault Refusal :=
  let m := s.toMod
  let addr := ((m.core core).reg v.sa).toNat
  let touch := tileTouch (wholeTile true)
  let c := m.core core
  s.go (if m.moveIssues core (.mlist core v) touch then
      let r := m.listJob c.sector c.nextMove c.pc addr (if v.post then some (core.val + v.token.val * 2 ^ 10 + flag c.bank * 2 ^ 17) else none)
      r.1.queueMove core (.mlist core v) touch (fun _ => r.2)
    else m)

/-! ## How a move fails -/

/-- The status, and the DETAIL, of a command whose move fails (R302): the descriptor's index, or the side of the access. -/
def moveStatus (e : MoveErr) (index : Nat) : Nat × Nat :=
  match e with
  | .format => (0x0107, index)
  | .tile => (0x0108, index)
  | .fenced => (0x0401, 0)
  | .wait => (0, 0)
  | .access a side _ => (a.status, side)

/-- A command's move fails, if it is no wait: an access error is recorded on the cluster's die, and the command is replied (R295, R302). -/
def Mod.cmdMoveFail (m : Mod) (p : PktRef) (e : MoveErr) (index progress : Nat) : Mod :=
  let cl := queueNum p.q / 128
  if e = .wait then m else
  let m := match e with
    | .access a _ addr => m.recordAccess (clusterSite cl) (0x0100 + cl % 8) (m.queueSector p.q) a addr
    | _ => m
  m.endCmd p (moveStatus e index).1 (moveStatus e index).2 progress

end Sys2Proof.Machine
end

