-- ==== Sys2Proof/Machine/Chain.lean ====
section
/-!
DEFINITION. Fused chains (R151 to R158). A chain is performed whole when it issues and stands in the vector and chain queue
until CHAIN_COMPLETION.
-/
namespace Sys2Proof.Machine
open Sys2Proof

/-- A stage of a chain (R152 to R154). -/
structure ChainStage where
  op : Nat
  bKind : Nat
  cKind : Nat
  b : Nat
  c : Nat
  reserved : Bool
  deriving DecidableEq, Repr

/-- A chain descriptor (R152). -/
structure ChainDesc where
  stages : List ChainStage
  nStages : Nat
  inFmt : Nat
  outFmt : Nat
  colmaj : Bool
  sr : Bool
  stream : Nat
  redOp : Nat
  redAcc : Bool
  redTap : Nat
  auxFmt : Nat
  src : Nat
  rows : Nat
  dst : Nat
  aux : Nat
  redDst : Nat
  /-- Every reserved bit is 0. -/
  clean : Bool
  deriving DecidableEq, Repr

/-- The chain descriptor at a tile address (R151, R152). -/
def chainDesc (t : Mem) (addr : Nat) : ChainDesc :=
  let w := fun (i : Nat) => BitVec.ofNat 64 (t.readNum (addr + 8 * i) 8)
  let n := bits (w 0) 3 0
  { stages := (List.range (min n 8)).map (fun s =>
      let x := w (4 + 2 * s)
      let y := w (5 + 2 * s)
      { op := bits x 5 0, bKind := bits x 7 6, cKind := bits x 9 8, b := bits y 31 0, c := bits y 63 32,
        reserved := bits x 63 10 != 0 })
    nStages := n, inFmt := bits (w 0) 7 4, outFmt := bits (w 0) 11 8, colmaj := bit (w 0) 12, sr := bit (w 0) 13,
    stream := bits (w 0) 15 14, redOp := bits (w 0) 18 16, redAcc := bit (w 0) 19, redTap := bits (w 0) 23 20,
    auxFmt := bits (w 0) 27 24, src := bits (w 1) 21 0, rows := bits (w 1) 47 32, dst := bits (w 2) 21 0,
    aux := bits (w 2) 53 32, redDst := bits (w 3) 21 0
    clean := bits (w 0) 63 28 == 0 && bits (w 1) 31 22 == 0 && bits (w 1) 63 48 == 0 && bits (w 2) 31 22 == 0 &&
      bits (w 2) 63 54 == 0 && bits (w 3) 63 22 == 0 && (List.range 12).all (fun i => w (20 + i) == 0) }

/-- A stage reads operand B, and operand C (R154). -/
def stageUses (op : Nat) : Bool × Bool := (op ≤ 7, op == 4 || op == 7)

/-- A descriptor without an illegal value (R152, R158). -/
def ChainDesc.legal (d : ChainDesc) (x : ChainArgs) : Bool :=
  let tile := x.source == 1
  1 ≤ d.nStages && d.nStages ≤ 8 && d.clean &&
    (if tile then d.inFmt ≤ 2 else d.inFmt == 0 || d.inFmt == 3) &&
    (d.outFmt ≤ 2 || d.outFmt == 15) && !(d.colmaj && tile) && !(d.sr && !(d.outFmt == 1 || d.outFmt == 2)) &&
    d.redOp ≤ 3 && d.redTap ≤ d.nStages && d.auxFmt ≤ 2 && d.redDst % 4 == 0 &&
    (if tile then 1 ≤ d.rows && d.rows ≤ 8192 else d.rows == 0) && !(tile && (x.clear || x.acc.val != 0)) &&
    d.stages.all (fun s => s.op ≤ 0x12 && !s.reserved)

/-- The bytes of an element of a format code: 0 FP32, 1 BF16, 2 FP16. -/
def fmtBytes (f : Nat) : Nat := if f = 0 then 4 else 2

/-- An element of a format code, widened to FP32 bits. -/
def widen (f raw : Nat) : Nat := if f = 1 then convert bf16 fp32 raw else if f = 2 then convert fp16 fp32 raw else raw

/-- Rows a chain takes. -/
def ChainDesc.rowCount (d : ChainDesc) (x : ChainArgs) : Nat := if x.source = 1 then d.rows else 128

/-- The streams and vectors of a chain stay within tile memory (R93, R158). -/
def ChainDesc.ranges (d : ChainDesc) (x : ChainArgs) : Bool :=
  let n := d.rowCount x * 64
  let plain := fun (a len : Nat) => decide (a % 2 ^ 22 + len ≤ 0x400000)
  let operand := fun (kind a : Nat) =>
    if kind = 1 then plain a 256 else if kind = 2 then plain a (4 * d.rowCount x)
    else if kind = 3 then streamOk d.aux (n * fmtBytes d.auxFmt) else true
  (x.source != 1 || streamOk d.src (n * fmtBytes d.inFmt)) && (d.outFmt == 15 || streamOk d.dst (n * fmtBytes d.outFmt)) &&
    (d.redOp == 0 || plain d.redDst (4 * d.rowCount x)) &&
    d.stages.all (fun s => (!(stageUses s.op).1 || operand s.bKind s.b) && (!(stageUses s.op).2 || operand s.cKind s.c))

/-- The position of element e in a stream of the chain, in elements (R104, R155). -/
def ChainDesc.pos (d : ChainDesc) (e : Nat) : Nat := accPos d.colmaj e

/-- A stage operand for element e (R153). -/
def ChainDesc.operand (d : ChainDesc) (t : Mem) (kind v e : Nat) : Nat :=
  if kind = 0 then v
  else if kind = 1 then t.readNum (v % 2 ^ 22 + 4 * (e % 64)) 4
  else if kind = 2 then t.readNum (v % 2 ^ 22 + 4 * (e / 64)) 4
  else widen d.auxFmt (streamNum t d.aux (e * fmtBytes d.auxFmt) (fmtBytes d.auxFmt))

/-- A stage's result (R154). -/
def stageOp (op x b c : Nat) : Nat :=
  let fn := fun (f : Func) => (f.eval (BitVec.ofNat 32 x)).toNat
  match op with
  | 0x00 => fp32.add x b
  | 0x01 => fp32.sub x b
  | 0x02 => fp32.sub b x
  | 0x03 => fp32.mul x b
  | 0x04 => fp32.fma x b c
  | 0x05 => fp32.min x b
  | 0x06 => fp32.max x b
  | 0x07 => fp32.min (fp32.max x b) c
  | 0x08 => fp32.write (fp32.read x).abs
  | 0x09 => fp32.write (fp32.read x).neg
  | 0x0A => fn .exp2
  | 0x0B => fn .log2
  | 0x0C => fn .rcp
  | 0x0D => fn .rsqrt
  | 0x0E => fn .sqrt
  | 0x0F => fn .tanh
  | 0x10 => fn .sigmoid
  | 0x11 => fn .silu
  | _ => fn .gelu

/-- The values of an element at every tap, the last stage's first (R152). -/
def ChainDesc.taps (d : ChainDesc) (t : Mem) (e x : Nat) : List Nat :=
  d.stages.foldl (fun vs s =>
    let v := vs.headD 0
    stageOp s.op v (d.operand t s.bKind s.b e) (d.operand t s.cKind s.c e) :: vs) [x]

/-- The source element e as FP32 bits (R155). -/
def ChainDesc.source (d : ChainDesc) (c : TCore) (x : ChainArgs) (e : Nat) : Nat :=
  if x.source = 1 then widen d.inFmt (streamNum c.tile d.src (e * fmtBytes d.inFmt) (fmtBytes d.inFmt))
  else
    let v := c.acc.read (accWord x.acc.val e)
    if d.inFmt = 3 then fp32.write (Fp.ofInt v.toInt 0) else v.toNat

/-- The results written to the sink in entry order, a draw for each when stochastic (R155). -/
def ChainDesc.sink (d : ChainDesc) : List (Nat × Nat) → Mem → Word → Mem × Word
  | [], t, sr => (t, sr)
  | (e, v) :: rest, t, sr =>
    let sr := if d.sr then srNext sr else sr
    let out := if d.outFmt = 0 then fp32.write (fp32.read v)
      else if d.sr then srConvert (d.outFmt = 2) sr v
      else convert fp32 (if d.outFmt = 2 then fp16 else bf16) v
    ChainDesc.sink d rest (streamPut t d.dst (d.pos e * fmtBytes d.outFmt) (bytesOf (fmtBytes d.outFmt) out)) sr

/-- Maximum or minimum over a row (R111, R156). -/
def foldRow (f : Nat → Nat → Nat) : List Nat → Nat
  | [] => 0
  | v :: rest => rest.foldl f v

/-- The reduction of a row's values (R156). -/
def ChainDesc.reduce (d : ChainDesc) (vs : List Nat) : Nat :=
  if d.redOp = 1 then (pairSum (vs.map (BitVec.ofNat 32))).toNat
  else if d.redOp = 2 then foldRow fp32.max vs
  else foldRow fp32.min vs

/-- The reduction outputs written, combined with what stands there under RED_ACC (R156). -/
def ChainDesc.putReductions (d : ChainDesc) : List (Nat × Nat) → Mem → Mem
  | [], t => t
  | (i, v) :: rest, t =>
    let a := d.redDst + 4 * i
    let old := t.readNum a 4
    let v := if !d.redAcc then v
      else if d.redOp = 1 then fp32.add old v else if d.redOp = 2 then fp32.max old v else fp32.min old v
    ChainDesc.putReductions d rest (t.writeNum a 4 v)

/-- A chain whose descriptor is sound (R151 to R156). Where its sink overlaps its own source, AUX, ROW or COL ranges the spec is silent: the model
reads every element before it writes any (DESIGN CHOICE, log entry 128). -/
def ChainDesc.run (d : ChainDesc) (c : TCore) (x : ChainArgs) : TCore :=
  let n := d.rowCount x
  let vals := (List.range (n * 64)).map (fun e => d.taps c.tile e (d.source c x e))
  let out := vals.map (·.headD 0)
  let s := if d.outFmt = 15 then (c.tile, Table.get srSeed c.sr d.stream)
    else d.sink ((List.range (n * 64)).zip out) c.tile (Table.get srSeed c.sr d.stream)
  let tap := vals.map (fun vs => vs.getD (d.nStages - d.redTap) 0)
  let reds := (List.range n).map (fun i => (i, d.reduce ((tap.drop (64 * i)).take 64)))
  let c := { c with tile := if d.redOp = 0 then s.1 else d.putReductions reds s.1,
                    sr := if d.sr then Table.set srSeed c.sr d.stream s.2 else c.sr }
  if x.clear then c.setAcc x.acc.val (List.replicate 8192 0) else c

/-- CHAIN: one fused chain; an illegal descriptor faults with ARITH, a range beyond tile memory with TILE_RANGE, before any
element enters (R158). It waits for room in the queue and for the entries before it that may touch what it reads and writes:
all of tile memory, and its accumulators where they are its source (R75, log entry 103). -/
def execChain (core : CoreId) (x : ChainArgs) (s : State) : Host.Outcome State Fault Refusal :=
  let m := s.toMod
  let c := m.core core
  s.go (if m.fetches core (.chain core x) && c.vecQ + c.chainQ < 16 && c.clear (chainTouch x) then
    let d := chainDesc c.tile (x.desc.toNat * 256)
    if !d.legal x then m.coreFault core 0x07 0 c.pc
    else if !d.ranges x then m.coreFault core 0x03 0 c.pc
    else m.retire core { d.run c x with chainQ := c.chainQ + 1 } (c.pc + 1)
  else m)

/-- CHAIN_COMPLETION: a chain has written its last value and leaves the queue (R157). -/
def execChainCompletion (core : CoreId) (s : State) : Host.Outcome State Fault Refusal :=
  let m := s.toMod
  let c := m.core core
  s.go (if c.chainQ = 0 then m
  else (m.setCore core { c with chainQ := c.chainQ - 1, chainDone := c.chainDone + 1 }).settleCore core)

end Sys2Proof.Machine
end

