-- ==== Sys2Proof/Machine/Vector.lean ====
section
/-!
DEFINITION. The vector class (R127 to R150, R159 to R165). An instruction is performed when it issues and stands in the vector and
chain queue until VECTOR_INSTRUCTION_COMPLETE; that is when a COMPRESS or EXPAND is performed.
-/
namespace Sys2Proof.Machine
open Sys2Proof

/-! ## Performing an instruction (R128, R162) -/

/-- The order in which groups reach a write: ascending where no two groups can meet, else one the spec leaves open (R132,
R146, log entry 8). -/
def insertBy (key : Nat → Nat) (g : Nat) : List Nat → List Nat
  | [] => [g]
  | h :: rest => if key g < key h then g :: h :: rest else h :: insertBy key g rest

/-- Groups sorted by a free key. -/
def freeOrder (choice : Nat) : List Nat → List Nat
  | [] => []
  | g :: rest => insertBy (Config.choose choice) g (freeOrder choice rest)

/-- The module with a core changed, or a fault code with the module as it then is. -/
abbrev VecStep := Except (Nat × Mod) Mod

/-- A group has passed an entry of the queue: its thread-group PC advances (R83, R128). -/
def TCore.pass (c : TCore) (g : Nat) : TCore :=
  { c with vec := { c.vec with pcs := Table.set 0 c.vec.pcs g (Table.get 0 c.vec.pcs g + 1) } }

/-- Every active group of a core performs an instruction, or passes over it, and goes on to the next entry; a fault stops what comes
after it (R128, R144, R162). -/
def runGroups (m : Mod) (id : CoreId) (f : Mod → Nat → VecStep) : List Nat → VecStep
  | [] => .ok m
  | g :: rest =>
    match f m g with
    | .error e => .error e
    | .ok m => runGroups (m.updCore id (fun c => c.pass g)) id f rest

/-- An instruction of the vector class issued: nothing happens while the queue is full, a COMPRESS or EXPAND before it is not performed,
or an instruction before it that may touch the same memory is not (R75, R128, log entry 103). -/
def Mod.vector (m : Mod) (id : CoreId) (i : Instr) (touch : Touch) (f : Mod → VecStep) : Mod :=
  let c := m.core id
  if m.fetches id i && c.vecQ + c.chainQ < 16 && c.pack.isNone && c.clear touch then
    match f m with
    | .error (code, m) => m.coreFault id code 0 c.pc
    | .ok m =>
      let c := m.core id
      m.retire id { c with vecQ := c.vecQ + 1 } (c.pc + 1)
  else m

/-- The active groups in the order in which they reach their writes. Which groups have performed an instruction when another faults is left to
issue timing (R162): in register mode the model has the lower-numbered groups perform first (DESIGN CHOICE, log entry 128). -/
def Mod.overGroups (m : Mod) (id : CoreId) (free : Bool) (f : Mod → Nat → VecStep) : VecStep :=
  let c := m.core id
  if free || c.opCache then runGroups { m with free := m.free + 1 } id f (freeOrder m.free (List.range c.vec.g))
  else runGroups m id f (List.range c.vec.g)

/-- A group instruction issued. A group whose effective mask is all zeros passes over it: it performs nothing and cannot fault (R144). -/
def Mod.groupOp (m : Mod) (id : CoreId) (i : Instr) (v : VecArgs) (touch : Touch) (free : Bool)
    (f : Mod → Nat → VecStep) : Mod :=
  m.vector id i touch (fun m =>
    m.overGroups id free (fun m g => if (m.core id).written v g = 0 then .ok m else f m g))

/-- Threads of a group given values. -/
def TCore.putThreads (c : TCore) (v : VecArgs) (g : Nat) : List (Nat × Half) → TCore
  | [] => c
  | (t, x) :: rest => TCore.putThreads (c.setOperand g v.dst.toNat t x) v g rest

/-- A group instruction that writes a slot: a shared destination faults with ARITH (R132); the written threads take the values
of a function of the operands as they were, or the fault it answers. -/
def Mod.slotWrite (m : Mod) (id : CoreId) (i : Instr) (v : VecArgs) (f : TCore → Nat → Option (Nat → Half)) : Mod :=
  m.groupOp id i v (tileTouch []) false (fun m g =>
    let c := m.core id
    if c.sharedName v.dst.toNat then .error (0x07, m)
    else
      match f c g with
      | none => .error (0x07, m)
      | some val => .ok (m.setCore id (c.putThreads v g ((c.threads v g).map (fun t => (t, val t))))))

/-- An element-wise instruction. -/
def Mod.elementwise (m : Mod) (id : CoreId) (i : Instr) (v : VecArgs) (f : Nat → Half → Half → Half → Half) : Mod :=
  m.slotWrite id i v (fun c g => some (fun t => f v.type (c.srcA v g t) (c.srcB v g t) (c.srcC v g t)))

/-- A two-operand operation of a floating format on each half, or on the whole (R136). -/
def halves (f : Fmt → Nat → Nat → Nat) (ty : Nat) (a b : Half) : Half :=
  if ty = 0 then BitVec.ofNat 32 (f fp32 a.toNat b.toNat)
  else
    let x := if ty = 1 then bf16 else fp16
    BitVec.ofNat 32 (f x (a.toNat % 65536) (b.toNat % 65536) + f x (a.toNat / 65536) (b.toNat / 65536) * 65536)

/-- An operation chosen by type: floating formats through one function, integers through another. -/
def byType (fl : Fmt → Nat → Nat → Nat) (int : Bool → Half → Half → Half) (ty : Nat) (a b : Half) : Half :=
  if ty ≤ 2 then halves fl ty a b else int (ty = 3) a b

/-- An operation on each half of a floating element, or on the whole: read, changed and delivered by R107 to R110. -/
def floatOp (f : Fp → Fp) (ty : Nat) (a : Half) : Half := halves (fun x v _ => x.write (f (x.read v))) ty a a

/-- An element as an operation delivers it: a float flushed and its NaN canonical (R107, R110). -/
def delivered (ty : Nat) (a : Half) : Half := if ty ≤ 2 then floatOp id ty a else a

/-- The comparison of VCMP (R111, R137). -/
def vcmp (ty cond : Nat) (a b : Half) : Bool :=
  let d : Option Int :=
    if ty = 0 then (fp32.read a.toNat).cmp (fp32.read b.toNat)
    else if ty = 3 then some (if a.slt b then -1 else if a = b then 0 else 1)
    else some (if a.ult b then -1 else if a = b then 0 else 1)
  match d with
  | none => cond == 1
  | some d =>
    match cond with
    | 0 => d == 0
    | 1 => d != 0
    | 2 => d < 0
    | 3 => d ≤ 0
    | 4 => d > 0
    | _ => d ≥ 0

/-- Signed division toward zero and its remainder; −2^31 by −1 gives −2^31 and 0 (R138). -/
def intDiv (signed : Bool) (a b : Half) : Half := if signed then a.sdiv b else a.udiv b
/-- The remainder, with the sign of a (R137). -/
def intRem (signed : Bool) (a b : Half) : Half := if signed then a.srem b else a.umod b

/-- An FP32 value rounded to an integer, ties to even (R139). -/
def roundInt (x : Fp) : Option Int :=
  match x with
  | .fin neg mant exp =>
    let q : Nat := if exp ≥ 0 then mant <<< exp.toNat
      else
        let k := (-exp).toNat
        let q := mant >>> k
        let r := mant % 2 ^ k
        if r > 2 ^ (k - 1) || (r = 2 ^ (k - 1) && q % 2 = 1) then q + 1 else q
    some (if neg then -(q : Int) else q)
  | _ => none

/-- FP32 to an integer, saturating; NaN gives 0 (R139). -/
def cvtInt (signed : Bool) (a : Half) : Half :=
  let lo : Int := if signed then -2147483648 else 0
  let hi : Int := if signed then 2147483647 else 4294967295
  match fp32.read a.toNat with
  | .nan => 0
  | .inf neg => BitVec.ofInt 32 (if neg then lo else hi)
  | x =>
    match roundInt x with
    | some i => BitVec.ofInt 32 (if i < lo then lo else if i > hi then hi else i)
    | none => 0

/-- VADD. -/
def execVadd (core : CoreId) (v : VecArgs) (s : State) : Host.Outcome State Fault Refusal :=
  s.go (s.toMod.elementwise core (.vadd core v) v (fun ty a b _ => byType Fmt.add (fun _ x y => x + y) ty a b))

/-- VSUB. -/
def execVsub (core : CoreId) (v : VecArgs) (s : State) : Host.Outcome State Fault Refusal :=
  s.go (s.toMod.elementwise core (.vsub core v) v (fun ty a b _ => byType Fmt.sub (fun _ x y => x - y) ty a b))

/-- VMUL: the low 32 bits of an integer product. -/
def execVmul (core : CoreId) (v : VecArgs) (s : State) : Host.Outcome State Fault Refusal :=
  s.go (s.toMod.elementwise core (.vmul core v) v (fun ty a b _ => byType Fmt.mul (fun _ x y => x * y) ty a b))

/-- VFMA: rounded once. -/
def execVfma (core : CoreId) (v : VecArgs) (s : State) : Host.Outcome State Fault Refusal :=
  s.go (s.toMod.elementwise core (.vfma core v) v (fun ty a b c =>
    if ty = 0 then BitVec.ofNat 32 (fp32.fma a.toNat b.toNat c.toNat)
    else if ty ≤ 2 then
      let x := if ty = 1 then bf16 else fp16
      BitVec.ofNat 32 (x.fma (a.toNat % 65536) (b.toNat % 65536) (c.toNat % 65536) +
        x.fma (a.toNat / 65536) (b.toNat / 65536) (c.toNat / 65536) * 65536)
    else a * b + c))

/-- VMIN. -/
def execVmin (core : CoreId) (v : VecArgs) (s : State) : Host.Outcome State Fault Refusal :=
  s.go (s.toMod.elementwise core (.vmin core v) v (fun ty a b _ =>
    byType Fmt.min (fun sg x y => if (if sg then y.slt x else y.ult x) then y else x) ty a b))

/-- VMAX. -/
def execVmax (core : CoreId) (v : VecArgs) (s : State) : Host.Outcome State Fault Refusal :=
  s.go (s.toMod.elementwise core (.vmax core v) v (fun ty a b _ =>
    byType Fmt.max (fun sg x y => if (if sg then x.slt y else x.ult y) then y else x) ty a b))

/-- VABS: the sign cleared; an integer wraps, and an unsigned one is itself. -/
def execVabs (core : CoreId) (v : VecArgs) (s : State) : Host.Outcome State Fault Refusal :=
  s.go (s.toMod.elementwise core (.vabs core v) v (fun ty a _ _ =>
    if ty ≤ 2 then floatOp Fp.abs ty a else if ty = 3 && a.slt 0 then -a else a))

/-- VNEG: the sign flipped; an integer wraps. -/
def execVneg (core : CoreId) (v : VecArgs) (s : State) : Host.Outcome State Fault Refusal :=
  s.go (s.toMod.elementwise core (.vneg core v) v (fun ty a _ _ => if ty ≤ 2 then floatOp Fp.neg ty a else -a))

/-- VAND. -/
def execVand (core : CoreId) (v : VecArgs) (s : State) : Host.Outcome State Fault Refusal :=
  s.go (s.toMod.elementwise core (.vand core v) v (fun _ a b _ => a &&& b))

/-- VOR. -/
def execVor (core : CoreId) (v : VecArgs) (s : State) : Host.Outcome State Fault Refusal :=
  s.go (s.toMod.elementwise core (.vor core v) v (fun _ a b _ => a ||| b))

/-- VXOR. -/
def execVxor (core : CoreId) (v : VecArgs) (s : State) : Host.Outcome State Fault Refusal :=
  s.go (s.toMod.elementwise core (.vxor core v) v (fun _ a b _ => a ^^^ b))

/-- VSHL: by b[4:0]. -/
def execVshl (core : CoreId) (v : VecArgs) (s : State) : Host.Outcome State Fault Refusal :=
  s.go (s.toMod.elementwise core (.vshl core v) v (fun _ a b _ => a <<< (b.toNat % 32)))

/-- VSHR: logical. -/
def execVshr (core : CoreId) (v : VecArgs) (s : State) : Host.Outcome State Fault Refusal :=
  s.go (s.toMod.elementwise core (.vshr core v) v (fun _ a b _ => a >>> (b.toNat % 32)))

/-- VSRA: arithmetic. -/
def execVsra (core : CoreId) (v : VecArgs) (s : State) : Host.Outcome State Fault Refusal :=
  s.go (s.toMod.elementwise core (.vsra core v) v (fun _ a b _ => a.sshiftRight (b.toNat % 32)))

/-- A division: a written thread with a zero divisor faults with ARITH and no thread of the group is written (R138). -/
def Mod.division (m : Mod) (id : CoreId) (i : Instr) (v : VecArgs) (f : Bool → Half → Half → Half) : Mod :=
  m.slotWrite id i v (fun c g =>
    if (c.threads v g).any (fun t => c.srcB v g t == 0) then none
    else some (fun t => f (v.type = 3) (c.srcA v g t) (c.srcB v g t)))

/-- VDIV. -/
def execVdiv (core : CoreId) (v : VecArgs) (s : State) : Host.Outcome State Fault Refusal :=
  s.go (s.toMod.division core (.vdiv core v) v intDiv)

/-- VREM. -/
def execVrem (core : CoreId) (v : VecArgs) (s : State) : Host.Outcome State Fault Refusal :=
  s.go (s.toMod.division core (.vrem core v) v intRem)

/-- VCMP: p[DST] takes the comparison of the written threads and 0 of the others; p0 takes nothing (R137, R142). A group that passes over
it keeps its p (R144). -/
def execVcmp (core : CoreId) (v : VecArgs) (s : State) : Host.Outcome State Fault Refusal :=
  s.go (s.toMod.groupOp core (.vcmp core v) v (tileTouch []) false (fun m g =>
    let c := m.core core
    let p := v.dst.toNat % 8
    let w : Word := BitVec.ofNat 64 (maskOf ((c.threads v g).filter (fun t =>
      vcmp v.type (v.src3.toNat % 8) (c.srcA v g t) (c.srcB v g t))))
    let x := c.group g
    .ok (if p = 0 then m else m.setCore core (c.setGroup g { x with preds := Table.set 0 x.preds p w }))))

/-- VSEL: p[SRC3] chooses. -/
def execVsel (core : CoreId) (v : VecArgs) (s : State) : Host.Outcome State Fault Refusal :=
  s.go (s.toMod.slotWrite core (.vsel core v) v (fun c g => some (fun t =>
    if ((c.group g).predicate (v.src3.toNat % 8)).getLsbD t then c.srcA v g t else c.srcB v g t)))

/-- VTID: 64g + t. -/
def execVtid (core : CoreId) (v : VecArgs) (s : State) : Host.Outcome State Fault Refusal :=
  s.go (s.toMod.slotWrite core (.vtid core v) v (fun _ g => some (fun t => BitVec.ofNat 32 (64 * g + t))))

/-- VMOV: the bits unchanged. -/
def execVmov (core : CoreId) (v : VecArgs) (s : State) : Host.Outcome State Fault Refusal :=
  s.go (s.toMod.elementwise core (.vmov core v) v (fun _ a _ _ => a))

/-- VCVTF: FP32 of an integer. -/
def execVcvtf (core : CoreId) (v : VecArgs) (s : State) : Host.Outcome State Fault Refusal :=
  s.go (s.toMod.elementwise core (.vcvtf core v) v (fun ty a _ _ =>
    BitVec.ofNat 32 (fp32.write (Fp.ofInt (if ty = 3 then a.toInt else (a.toNat : Int)) 0))))

/-- VCVTI: an integer of FP32, saturating. -/
def execVcvti (core : CoreId) (v : VecArgs) (s : State) : Host.Outcome State Fault Refusal :=
  s.go (s.toMod.elementwise core (.vcvti core v) v (fun ty a _ _ => cvtInt (ty = 3) a))

/-- The state of a stream after n draws. -/
def srAfter : Nat → Word → Word
  | 0, x => x
  | n + 1, x => srAfter n (srNext x)

/-- VPACK: two FP32 values into a pair; stochastically, with two draws for every thread of every active group, masked or not,
in thread order (R139, R141), after those of an ACC_STORE issued before it (R119). -/
def execVpack (core : CoreId) (v : VecArgs) (s : State) : Host.Outcome State Fault Refusal :=
  let half := v.type = 2
  let f := if half then fp16 else bf16
  let stream := v.src3.toNat % 4
  s.go (s.toMod.vector core (.vpack core v) (packTouch v) (fun m =>
    let c0 := m.core core
    let st := Table.get srSeed c0.sr stream
    let one := fun (m : Mod) (g : Nat) =>
      let c := m.core core
      if c.written v g = 0 then (.ok m : VecStep)
      else if c.sharedName v.dst.toNat then .error (0x07, m)
      else
        let val := fun (t : Nat) =>
          let a := (c.srcA v g t).toNat
          let b := (c.srcB v g t).toNat
          let k := 2 * (64 * g + t)
          if v.sr then srConvert half (srAfter (k + 1) st) a + srConvert half (srAfter (k + 2) st) b * 65536
          else convert fp32 f a + convert fp32 f b * 65536
        .ok (m.setCore core (c.putThreads v g ((c.threads v g).map (fun t => (t, BitVec.ofNat 32 (val t))))))
    match m.overGroups core false one with
    | .error e => .error e
    | .ok m => .ok (if v.sr then
        m.updCore core (fun c => { c with sr := Table.set srSeed c.sr stream (srAfter (128 * c.vec.g) st) }) else m)))

/-- VUNPKL: the low half widened. -/
def execVunpkl (core : CoreId) (v : VecArgs) (s : State) : Host.Outcome State Fault Refusal :=
  s.go (s.toMod.elementwise core (.vunpkl core v) v (fun ty a _ _ =>
    BitVec.ofNat 32 (convert (if ty = 1 then bf16 else fp16) fp32 (a.toNat % 65536))))

/-- VUNPKH: the high half widened. -/
def execVunpkh (core : CoreId) (v : VecArgs) (s : State) : Host.Outcome State Fault Refusal :=
  s.go (s.toMod.elementwise core (.vunpkh core v) v (fun ty a _ _ =>
    BitVec.ofNat 32 (convert (if ty = 1 then bf16 else fp16) fp32 (a.toNat / 65536))))

/-- A function of FP32 on every written thread (R159 to R161). -/
def Mod.funcOp (m : Mod) (id : CoreId) (i : Instr) (v : VecArgs) (f : Func) : Mod :=
  m.elementwise id i v (fun _ a _ _ => f.eval a)

/-- VEXP2. -/
def execVexp2 (core : CoreId) (v : VecArgs) (s : State) : Host.Outcome State Fault Refusal :=
  s.go (s.toMod.funcOp core (.vexp2 core v) v .exp2)
/-- VLOG2. -/
def execVlog2 (core : CoreId) (v : VecArgs) (s : State) : Host.Outcome State Fault Refusal :=
  s.go (s.toMod.funcOp core (.vlog2 core v) v .log2)
/-- VRCP. -/
def execVrcp (core : CoreId) (v : VecArgs) (s : State) : Host.Outcome State Fault Refusal :=
  s.go (s.toMod.funcOp core (.vrcp core v) v .rcp)
/-- VRSQRT. -/
def execVrsqrt (core : CoreId) (v : VecArgs) (s : State) : Host.Outcome State Fault Refusal :=
  s.go (s.toMod.funcOp core (.vrsqrt core v) v .rsqrt)
/-- VSQRT. -/
def execVsqrt (core : CoreId) (v : VecArgs) (s : State) : Host.Outcome State Fault Refusal :=
  s.go (s.toMod.funcOp core (.vsqrt core v) v .sqrt)
/-- VSINPI. -/
def execVsinpi (core : CoreId) (v : VecArgs) (s : State) : Host.Outcome State Fault Refusal :=
  s.go (s.toMod.funcOp core (.vsinpi core v) v .sinpi)
/-- VCOSPI. -/
def execVcospi (core : CoreId) (v : VecArgs) (s : State) : Host.Outcome State Fault Refusal :=
  s.go (s.toMod.funcOp core (.vcospi core v) v .cospi)
/-- VTANH. -/
def execVtanh (core : CoreId) (v : VecArgs) (s : State) : Host.Outcome State Fault Refusal :=
  s.go (s.toMod.funcOp core (.vtanh core v) v .tanh)
/-- VSIGMOID. -/
def execVsigmoid (core : CoreId) (v : VecArgs) (s : State) : Host.Outcome State Fault Refusal :=
  s.go (s.toMod.funcOp core (.vsigmoid core v) v .sigmoid)

/-- VSHFL: a[b[t] mod 64] of the same group, written or not (R137, R140). -/
def execVshfl (core : CoreId) (v : VecArgs) (s : State) : Host.Outcome State Fault Refusal :=
  s.go (s.toMod.slotWrite core (.vshfl core v) v (fun c g => some (fun t => c.srcA v g ((c.srcB v g t).toNat % 64))))

/-- A sum, minimum or maximum of two elements by type (R137, R140). -/
def redPair (kind ty : Nat) (a b : Half) : Half :=
  match kind with
  | 0 => byType Fmt.add (fun _ x y => x + y) ty a b
  | 1 => byType Fmt.min (fun sg x y => if (if sg then y.slt x else y.ult x) then y else x) ty a b
  | _ => byType Fmt.max (fun sg x y => if (if sg then x.slt y else x.ult y) then y else x) ty a b

/-- VRED: the written threads in the canonical pairwise order, to every written thread (R140). -/
def execVred (core : CoreId) (v : VecArgs) (s : State) : Host.Outcome State Fault Refusal :=
  s.go (s.toMod.slotWrite core (.vred core v) v (fun c g =>
    let xs := (c.threads v g).map (c.srcA v g)
    let r := delivered v.type (pairwise (redPair (v.src2.toNat % 4) v.type) 0 64 xs)
    some (fun _ => r)))

/-- The running sums of a list of threads. -/
def scanSums (f : Half → Half → Half) : Option Half → List (Nat × Half) → List (Nat × Half)
  | _, [] => []
  | none, (t, x) :: rest => (t, x) :: scanSums f (some x) rest
  | some acc, (t, x) :: rest => (t, f acc x) :: scanSums f (some (f acc x)) rest

/-- VSCAN: an inclusive prefix sum over the written threads, left to right (R140). -/
def execVscan (core : CoreId) (v : VecArgs) (s : State) : Host.Outcome State Fault Refusal :=
  s.go (s.toMod.slotWrite core (.vscan core v) v (fun c g =>
    let sums := scanSums (redPair 0 v.type) none ((c.threads v g).map (fun t => (t, delivered v.type (c.srcA v g t))))
    some (fun t => ((sums.find? (fun p => p.1 == t)).map (·.2)).getD 0)))

/-! ## Tile memory (R145, R146) -/

/-- The tile address of a thread of VLD and VST (R145). -/
def vldAddr (c : TCore) (v : VecArgs) (g t : Nat) : Nat :=
  (c.reg (nameReg v.src1) + BitVec.ofNat 64 g * c.reg (nameReg v.src2) + BitVec.ofNat 64 (4 * t)).toNat

/-- A 4-byte access stays within tile memory, aligned. -/
def tile4 (a : Nat) : Bool := a % 4 == 0 && a ≤ 0x3FFFFC

/-- The 256 bytes of every active group that VLD and VST may touch (R75, R145). -/
def TCore.rowSpans (c : TCore) (v : VecArgs) (w : Bool) : Touch :=
  tileTouch ((List.range c.vec.g).flatMap (fun g => plainSpan (vldAddr c v g 0) 256 w))

/-- A load of 4 bytes per written thread, or the fault TILE_RANGE with nothing written. R145 names no fault for VLD's addresses, and
R146 does not say whether the address of a thread that is not written counts: the model takes TILE_RANGE, over the whole 64-bit sum for
VLD, and looks at the written threads alone (log entry 10). -/
def Mod.tileLoad (m : Mod) (id : CoreId) (i : Instr) (v : VecArgs) (touch : Touch) (addr : TCore → Nat → Nat → Nat) : Mod :=
  m.groupOp id i v touch false (fun m g =>
    let c := m.core id
    if c.sharedName v.dst.toNat then .error (0x07, m)
    else if !(c.threads v g).all (fun t => tile4 (addr c g t)) then .error (0x03, m)
    else .ok (m.setCore id (c.putThreads v g
      ((c.threads v g).map (fun t => (t, BitVec.ofNat 32 (c.tile.readNum (addr c g t) 4)))))))

/-- Values stored at tile addresses, a later thread over an earlier one. -/
def storeThreads (t : Mem) : List (Nat × Half) → Mem
  | [] => t
  | (a, x) :: rest => storeThreads (t.writeNum a 4 x.toNat) rest

/-- A store of 4 bytes per written thread; which of two groups' values remains at one address is open (R146). The range rule is
`Mod.tileLoad`'s (log entry 10). -/
def Mod.tileStore (m : Mod) (id : CoreId) (i : Instr) (v : VecArgs) (touch : Touch) (addr : TCore → Nat → Nat → Nat)
    (data : TCore → Nat → Nat → Half) : Mod :=
  m.groupOp id i v touch true (fun m g =>
    let c := m.core id
    if !(c.threads v g).all (fun t => tile4 (addr c g t)) then .error (0x03, m)
    else .ok (m.setCore id { c with
      tile := storeThreads c.tile ((c.threads v g).map (fun t => (addr c g t, data c g t))) }))

/-- VLD. -/
def execVld (core : CoreId) (v : VecArgs) (s : State) : Host.Outcome State Fault Refusal :=
  s.go (s.toMod.tileLoad core (.vld core v) v ((s.toMod.core core).rowSpans v false) (fun c g t => vldAddr c v g t))

/-- VST. -/
def execVst (core : CoreId) (v : VecArgs) (s : State) : Host.Outcome State Fault Refusal :=
  s.go (s.toMod.tileStore core (.vst core v) v ((s.toMod.core core).rowSpans v true) (fun c g t => vldAddr c v g t) (fun c g t => c.srcC v g t))

/-- VGATHER. -/
def execVgather (core : CoreId) (v : VecArgs) (s : State) : Host.Outcome State Fault Refusal :=
  s.go (s.toMod.tileLoad core (.vgather core v) v (tileTouch (wholeTile false)) (fun c g t => (c.srcA v g t).toNat % 2 ^ 22))

/-- VSCATTER: the highest thread of a group wins. -/
def execVscatter (core : CoreId) (v : VecArgs) (s : State) : Host.Outcome State Fault Refusal :=
  s.go (s.toMod.tileStore core (.vscatter core v) v (tileTouch (wholeTile true)) (fun c g t => (c.srcA v g t).toNat % 2 ^ 22) (fun c g t => c.srcB v g t))

/-! ## Atomics (R147, R148) -/

/-- The home's operation for a combining atomic of a type. -/
def atomFor (kind ty : Nat) : AtomOp :=
  match kind with
  | 0 => if ty = 0 then .addF32 else if ty = 1 then .addBf16x2 else .add
  | 1 => if ty = 0 then .minF32 else if ty = 3 then .minS else .minU
  | _ => if ty = 0 then .maxF32 else if ty = 3 then .maxS else .maxU

/-- The threads of each address, ascending, the addresses in the order of their first threads. -/
def byAddr (l : List (Nat × Nat)) : List (Nat × List Nat) :=
  ((l.map (·.2)).eraseDups).map (fun a => (a, (l.filter (fun p => p.2 == a)).map (·.1)))

/-- Before any request leaves: a misaligned target is MOVE_FORMAT, one that does not decode or is poisoned MOVE_ACCESS
(R147, R393). -/
def Mod.atomCheck (m : Mod) (id : CoreId) (sector : Option SectorId) : List Nat → Option (Nat × Mod)
  | [] => none
  | a :: rest =>
    if a % 4 ≠ 0 then some (0x04, m)
    else
      match m.readPhys sector a 4 with
      | .error e => some (0x05, m.recordAccess (coreSite id) (id.val % 64) sector e a)
      | .ok _ => Mod.atomCheck m id sector rest

/-- One combined request of a group: the home's old value, and each thread's return (R148). -/
def Mod.atomCombined (m : Mod) (sector : Option SectorId) (kind ty a : Nat) (vals : List (Nat × Half)) :
    Mod × List (Nat × Half) :=
  let op := atomFor kind ty
  let red := redPair kind ty
  let sums := scanSums red none vals
  let total := (sums.getLast?.map (·.2)).getD 0
  match m.homeAtomic sector op 4 a total.toNat 0 with
  | .error _ => (m, [])
  | .ok (old, m) =>
    let o : Half := BitVec.ofNat 32 old
    let befores := none :: sums.map (fun p => some p.2)
    (m, (vals.zip befores).map (fun p => (p.1.1, match p.2 with | none => o | some b => red o b)))

/-- SWAP and CAS: one request per thread, in ascending order (R148). -/
def Mod.atomSingles (m : Mod) (sector : Option SectorId) (op : AtomOp) :
    List (Nat × Nat × Half × Half) → Mod × List (Nat × Half)
  | [] => (m, [])
  | (t, a, x, c) :: rest =>
    match m.homeAtomic sector op 4 a x.toNat c.toNat with
    | .error _ => Mod.atomSingles m sector op rest
    | .ok (old, m) =>
      let r := Mod.atomSingles m sector op rest
      (r.1, (t, BitVec.ofNat 32 old) :: r.2)

/-- The address of a thread's atomic (R147). -/
def atomAddr (c : TCore) (v : VecArgs) (g t : Nat) : Nat := c.vec.atomicBase.toNat + (c.srcA v g t).toNat

/-- The writes of a kernel's atomics through ports are its launch's (R289). -/
def Mod.noteAtoms (m : Mod) (c : TCore) (as : List Nat) : Mod :=
  match c.launch with
  | some p => m.noteWrites p (portWrites (as.filterMap (fun a => match m.decode c.sector a with
      | .ok cell => some (a + 3, cell)
      | .error _ => none)))
  | none => m

/-- The cells of the words at addresses, where they decode. -/
def Mod.atomCells (m : Mod) (sector : Option SectorId) (as : List Nat) : List Nat :=
  as.flatMap (fun a => match m.decodeN sector a 4 with
    | .ok cells => cells
    | .error _ => [])

/-- Some request of a vector atomic must wait for its line or its sector's buckets: the instruction does not issue (R75, R180, R203, R210). -/
def Mod.atomWaits (m : Mod) (id : CoreId) (v : VecArgs) : Bool :=
  let c := m.core id
  (m.passNow c.sector 0 true (m.atomCells c.sector ((List.range c.vec.g).flatMap (fun g => (c.threads v g).map (atomAddr c v g))))).isNone

/-- A vector atomic: its requests performed at the home, and d takes what they return. -/
def Mod.vatom (m : Mod) (id : CoreId) (i : Instr) (v : VecArgs)
    (f : TCore → Nat → Mod → Mod × List (Nat × Half)) : Mod :=
  if m.atomWaits id v then m else
  m.groupOp id i v (tileTouch []) true (fun m g =>
    let c := m.core id
    if c.sharedName v.dst.toNat then .error (0x07, m)
    else
      let as := (c.threads v g).map (atomAddr c v g)
      match m.atomCheck id c.sector as with
      | some e => .error e
      | none =>
        let r := f c g (m.chargeAll c.sector 0 (m.atomCells c.sector as))
        .ok ((r.1.updCore id (fun c => c.putThreads v g r.2)).noteAtoms c as))

/-- The combined requests of a group, address by address. -/
def Mod.atomGroups (m : Mod) (c : TCore) (v : VecArgs) (g kind : Nat) : List (Nat × List Nat) → Mod × List (Nat × Half)
  | [] => (m, [])
  | (a, ts) :: rest =>
    let r := m.atomCombined c.sector kind v.type a (ts.map (fun t => (t, c.srcB v g t)))
    let q := Mod.atomGroups r.1 c v g kind rest
    (q.1, r.2 ++ q.2)

/-- A combining vector atomic. -/
def Mod.vatomCombine (m : Mod) (id : CoreId) (i : Instr) (kind : Nat) (v : VecArgs) : Mod :=
  m.vatom id i v (fun c g m =>
    m.atomGroups c v g kind (byAddr ((c.threads v g).map (fun t => (t, atomAddr c v g t)))))

/-- VATOM_ADD. -/
def execVatomAdd (core : CoreId) (v : VecArgs) (s : State) : Host.Outcome State Fault Refusal :=
  s.go (s.toMod.vatomCombine core (.vatomAdd core v) 0 v)

/-- VATOM_MIN. -/
def execVatomMin (core : CoreId) (v : VecArgs) (s : State) : Host.Outcome State Fault Refusal :=
  s.go (s.toMod.vatomCombine core (.vatomMin core v) 1 v)

/-- VATOM_MAX. -/
def execVatomMax (core : CoreId) (v : VecArgs) (s : State) : Host.Outcome State Fault Refusal :=
  s.go (s.toMod.vatomCombine core (.vatomMax core v) 2 v)

/-- The single requests of a group. -/
def singlesOf (c : TCore) (v : VecArgs) (g : Nat) : List (Nat × Nat × Half × Half) :=
  (c.threads v g).map (fun t => (t, atomAddr c v g t, c.srcB v g t, c.srcC v g t))

/-- VATOM_SWAP. -/
def execVatomSwap (core : CoreId) (v : VecArgs) (s : State) : Host.Outcome State Fault Refusal :=
  s.go (s.toMod.vatom core (.vatomSwap core v) v (fun c g m => m.atomSingles c.sector .swap (singlesOf c v g)))

/-- VATOM_CAS: b is stored where the bits match c. -/
def execVatomCas (core : CoreId) (v : VecArgs) (s : State) : Host.Outcome State Fault Refusal :=
  s.go (s.toMod.vatom core (.vatomCas core v) v (fun c g m => m.atomSingles c.sector .cas (singlesOf c v g)))

/-! ## Masks (R143) -/

/-- A mask operation on every active group, whatever its mask is (R144); none is the fault ARITH. -/
def Mod.maskOp (m : Mod) (id : CoreId) (i : Instr) (f : Group → Option Group) : Mod :=
  m.vector id i (tileTouch []) (fun m =>
    m.overGroups id false (fun m g =>
      let c := m.core id
      match f (c.group g) with
      | some x => .ok (m.setCore id (c.setGroup g x))
      | none => .error (0x07, m)))

/-- VPUSH. -/
def execVpush (core : CoreId) (v : VecArgs) (s : State) : Host.Outcome State Fault Refusal :=
  s.go (s.toMod.maskOp core (.vpush core v) (fun x =>
    if x.stack.length ≥ 16 then none
    else some { x with stack := x.mask :: x.stack, mask := x.mask &&& x.predicate (v.src1.toNat % 8) }))

/-- VELSE. -/
def execVelse (core : CoreId) (v : VecArgs) (s : State) : Host.Outcome State Fault Refusal :=
  s.go (s.toMod.maskOp core (.velse core v) (fun x =>
    match x.stack with
    | [] => none
    | top :: _ => some { x with mask := top &&& ~~~x.mask }))

/-- VPOP. -/
def execVpop (core : CoreId) (v : VecArgs) (s : State) : Host.Outcome State Fault Refusal :=
  s.go (s.toMod.maskOp core (.vpop core v) (fun x =>
    match x.stack with
    | [] => none
    | top :: rest => some { x with mask := top, stack := rest }))

/-! ## Engine instructions (R128, R131, R137) -/

/-- Every active group has passed an engine instruction. -/
def TCore.passAll (c : TCore) : TCore := (List.range c.vec.g).foldl (fun c g => c.pass g) c

/-- An engine instruction that changes the core, or a fault code. -/
def Mod.engineOp (m : Mod) (id : CoreId) (i : Instr) (touch : Touch) (f : TCore → Except Nat TCore) : Mod :=
  m.vector id i touch (fun m =>
    match f (m.core id) with
    | .ok c => .ok (m.setCore id c.passAll)
    | .error code => .error (code, m))

/-- VCFG: G, STRIDE and SHARED_BASE, and every active group's mask all ones with an empty stack (R131). In register mode only
G is used. R131 says that the other bits must be 0 and R162 names a field outside its range; a set bit among them is ARITH too (log
entry 9). -/
def execVcfg (core : CoreId) (v : VecArgs) (s : State) : Host.Outcome State Fault Refusal :=
  s.go (s.toMod.engineOp core (.vcfg core v) (tileTouch []) (fun c =>
    let w := c.reg (nameReg v.src1)
    let g := bits w 5 0
    let stride := bits w 26 16
    let shared := bits w 42 32
    let clean := bits w 15 6 == 0 && bits w 31 27 == 0 && bits w 63 43 == 0
    if !clean || g = 0 || g > 32 || (c.opCache && (stride = 0 || stride > 1024 || shared > 1024)) then .error 0x07
    else
      let reset := fun (t : Table Group) (i : Nat) =>
        Table.set Group.reset t i { Table.get Group.reset t i with mask := BitVec.allOnes 64, stack := [] }
      .ok { c with vec := { c.vec with
        g := g, stride := if c.opCache then stride else c.vec.stride,
        sharedBase := if c.opCache then shared else c.vec.sharedBase,
        groups := (List.range g).foldl reset c.vec.groups } }))

/-- VABASE. -/
def execVabase (core : CoreId) (v : VecArgs) (s : State) : Host.Outcome State Fault Refusal :=
  s.go (s.toMod.engineOp core (.vabase core v) (tileTouch []) (fun c =>
    .ok { c with vec := { c.vec with atomicBase := (c.reg (nameReg v.src1)).extractLsb' 0 56 } }))

/-- A slot loaded from 256 bytes of tile memory. -/
def loadSlot (c : TCore) (slot a : Nat) : List Nat → WMem → WMem
  | [], w => w
  | t :: rest, w => loadSlot c slot a rest (w.write (slot * 64 + t) (BitVec.ofNat 32 (c.tile.readNum (a + 4 * t) 4)))

/-- VLDS: a shared or absolute slot; ARITH in register mode (R162), TILE_RANGE for a misaligned address (log entry 10). -/
def execVlds (core : CoreId) (v : VecArgs) (s : State) : Host.Outcome State Fault Refusal :=
  s.go (s.toMod.engineOp core (.vlds core v)
    (tileTouch (plainSpan (((s.toMod.core core).reg (nameReg v.src1)).toNat % 2 ^ 22) 256 false)) (fun c =>
    let a := (c.reg (nameReg v.src1)).toNat % 2 ^ 22
    if !c.opCache then .error 0x07
    else if a % 256 ≠ 0 then .error 0x03
    else .ok { c with sram := loadSlot c v.dst.toNat a (List.range 64) c.sram }))

/-- How many threads of the active groups have a predicate and their mask set. -/
def TCore.predCount (c : TCore) (p : Nat) : Nat :=
  ((List.range c.vec.g).map (fun g => popCount ((c.group g).mask &&& (c.group g).predicate p).toNat 64)).sum

/-- VANY. -/
def execVany (core : CoreId) (v : VecArgs) (s : State) : Host.Outcome State Fault Refusal :=
  s.go (s.toMod.engineOp core (.vany core v) (tileTouch []) (fun c =>
    .ok (c.setReg (nameReg v.dst) (if c.predCount (v.src1.toNat % 8) > 0 then 1 else 0))))

/-- VCOUNT. -/
def execVcount (core : CoreId) (v : VecArgs) (s : State) : Host.Outcome State Fault Refusal :=
  s.go (s.toMod.engineOp core (.vcount core v) (tileTouch []) (fun c => .ok (c.setReg (nameReg v.dst) (BitVec.ofNat 64 (c.predCount (v.src1.toNat % 8))))))

/-! ## COMPRESS and EXPAND (R149, R150) -/

/-- The operands of an instruction from their registers as it issues (R130, R149). -/
def TCore.packJob (c : TCore) (op : Nat) (v : VecArgs) : PackJob :=
  let w := c.reg (nameReg v.src3)
  { pc := c.pc, op := op, fill := v.mod.getLsbD 0, dst := (c.reg (nameReg v.dst)).toNat, src := (c.reg (nameReg v.src1)).toNat,
    pred := (c.reg (nameReg v.src2)).toNat, rows := bits w 31 0, count := bits w 53 32, row := 0, run := 0 }

/-- The selected elements of row i, ascending. -/
def PackJob.selected (p : PackJob) (t : Mem) (i : Nat) : List Nat := bitsSet (t.readNum (p.pred + 8 * i) 8) 64

/-- Sources and predicates within tile memory, at the start; ROWS of 1 to 16,384 and an aligned COUNT_ADDR (R149, R150). A
COMPRESS_IDX reads no source, and an EXPAND's source is packed: as many values as its predicate words select at the start. The spec names no
fault for ROWS or COUNT_ADDR outside these bounds: the model takes TILE_RANGE at issue (DESIGN CHOICE, log entry 128). -/
def PackJob.startOk (p : PackJob) (t : Mem) : Bool :=
  let src := if p.op = 0x58 then 256 * p.rows
    else if p.op = 0x59 then 0 else 4 * ((List.range p.rows).map (fun i => (p.selected t i).length)).sum
  1 ≤ p.rows && p.rows ≤ 16384 && p.count % 8 == 0 && p.count ≤ 0x3FFFF8 && p.pred + 8 * p.rows ≤ 0x400000 &&
    (src == 0 || p.src + src ≤ 0x400000)

/-- A row of COMPRESS: each selected element packed behind the others; none where a write would pass tile memory. -/
def PackJob.packRow (p : PackJob) (t : Mem) : Option (Mem × Nat) :=
  let js := p.selected t p.row
  let n := js.length
  if n ≠ 0 && p.dst + 4 * (p.run + n) > 0x400000 then none
  else
    let vals := js.map (fun j => if p.op = 0x59 then 64 * p.row + j else t.readNum (p.src + 256 * p.row + 4 * j) 4)
    some (((List.range n).zip vals).foldl (fun t q => t.writeNum (p.dst + 4 * (p.run + q.1)) 4 q.2) t, n)

/-- A row of EXPAND: each selected element takes the next packed value; the others are set to 0 with the fill flag. None where a
write would pass tile memory, or the source would: predicate words that have changed since the start. -/
def PackJob.unpackRow (p : PackJob) (t : Mem) : Option (Mem × Nat) :=
  let js := p.selected t p.row
  let n := js.length
  let written := if p.fill then List.range 64 else js
  if written.any (fun j => p.dst + 256 * p.row + 4 * j + 4 > 0x400000) || (n ≠ 0 && p.src + 4 * (p.run + n) > 0x400000) then none
  else
    let vals := (List.range n).map (fun k => t.readNum (p.src + 4 * (p.run + k)) 4)
    let t := (written.filter (fun j => !js.contains j)).foldl (fun t j => t.writeNum (p.dst + 256 * p.row + 4 * j) 4 0) t
    some ((js.zip vals).foldl (fun t q => t.writeNum (p.dst + 256 * p.row + 4 * q.1) 4 q.2) t, n)

/-- Up to n more rows: tile memory, the job with the rows completed and the running count, and whether every one was completed; a row that
takes TILE_RANGE ends it (R150). -/
def PackJob.runRows (p : PackJob) (t : Mem) : Nat → Mem × PackJob × Bool
  | 0 => (t, p, true)
  | n + 1 =>
    match if p.op = 0x5A then p.unpackRow t else p.packRow t with
    | none => (t, p, false)
    | some (t, k) => PackJob.runRows { p with row := p.row + 1, run := p.run + k } t n

/-- COMPRESS or EXPAND issued: it enters the queue, to be performed when everything before it is (R128). Its operands are checked first
(R150). -/
def Mod.packOp (m : Mod) (id : CoreId) (i : Instr) (op : Nat) (v : VecArgs) : Mod :=
  let p := (m.core id).packJob op v
  m.engineOp id i p.touch (fun c => if p.startOk c.tile then .ok { c with pack := some p } else .error 0x03)

/-- COMPRESS. -/
def execCompress (core : CoreId) (v : VecArgs) (s : State) : Host.Outcome State Fault Refusal :=
  s.go (s.toMod.packOp core (.compress core v) 0x58 v)

/-- COMPRESS_IDX. -/
def execCompressIdx (core : CoreId) (v : VecArgs) (s : State) : Host.Outcome State Fault Refusal :=
  s.go (s.toMod.packOp core (.compressIdx core v) 0x59 v)

/-- EXPAND: MOD[0] is the fill flag. -/
def execExpand (core : CoreId) (v : VecArgs) (s : State) : Host.Outcome State Fault Refusal :=
  s.go (s.toMod.packOp core (.expand core v) 0x5A v)

/-- A core's COMPRESS or EXPAND performed to its end: its rows, then the count at COUNT_ADDR; a range fault keeps the rows before it, and
their number (R150). -/
def Mod.packPerform (m : Mod) (id : CoreId) (p : PackJob) : Mod :=
  let c := m.core id
  let r := p.runRows c.tile (p.rows - p.row)
  if r.2.2 then
    (m.setCore id { c with tile := r.1.writeNum p.count 8 r.2.1.run, pack := none, vecQ := c.vecQ - 1, vecDone := c.vecDone + 1 }
      ).settleCore id
  else (m.setCore id { c with tile := r.1, pack := some r.2.1 }).coreFault id 0x03 0 p.pc

/-- The oldest vector instruction of a core leaves the queue; a COMPRESS or EXPAND is performed. -/
def Mod.vecRetire (m : Mod) (id : CoreId) : Mod :=
  let c := m.core id
  match c.vecQ, c.pack with
  | 0, _ => m
  | 1, some p => m.packPerform id p
  | n + 1, _ => (m.setCore id { c with vecQ := n, vecDone := c.vecDone + 1 }).settleCore id

/-- VECTOR_INSTRUCTION_COMPLETE: a group instruction performed by every active group, or an engine instruction, leaves the
queue (R128). -/
def execVectorInstructionComplete (core : CoreId) (s : State) : Host.Outcome State Fault Refusal :=
  s.go (if (s.toMod.core core).engines && s.toMod.moversRun then s.toMod.vecRetire core else s.toMod)

end Sys2Proof.Machine
end

