-- ==== Sys2Proof/Machine/Kernel.lean ====
section
/-!
DEFINITION. Kernel images and their check (R65 to R67, R70 to R74, R97 to R100, R135 to R137, R151, R164, R165), and the commands
KERNEL_LOAD, KERNEL_LAUNCH, KERNEL_PREEMPT, TOKEN_POST, MOVE, MOVE_LIST and FILL.
-/
namespace Sys2Proof.Machine
open Sys2Proof

/-! ## The check of an instruction word (R67) -/

/-- The IMM of a branch word. -/
def branchOf : Instr → Option (BitVec 32)
  | .beq _ _ _ imm | .bne _ _ _ imm | .blt _ _ _ imm | .bltu _ _ _ imm | .jmp _ imm | .loop _ _ imm => some imm
  | _ => none

/-- An instruction KERNEL_LOAD accepts at index i of a kernel of n instructions (R67): an encoding of R70 to R74 and of the engines'
classes, whose branch target lies in the kernel. -/
def insnOk (k1 : Bool) (n i : Nat) (w : Word) : Bool :=
  match kernelInsn k1 0 w with
  | none => false
  | some x =>
    match branchOf x with
    | some imm => decide (0 ≤ (i : Int) + imm.toInt) && decide ((i : Int) + imm.toInt < n)
    | none => true

/-- A vector-class operand field uses bits [9:5] (R67). -/
def insnWide (w : Word) : Bool :=
  bits w 63 60 == 4 && (bits w 51 47 != 0 || bits w 41 37 != 0 || bits w 31 27 != 0 || bits w 21 17 != 0)

/-! ## Images (R65, R66) -/

/-- The header word that is out of range, if any (R66, R164). -/
def headerFault (ws : List Word) : Option Nat :=
  let w := wordAt ws
  if bits (w 0) 31 0 != 0x4B45524E || bits (w 0) 39 32 != 2 || bits (w 0) 41 40 == 0 || bits (w 0) 63 43 != 0 ||
      (bit (w 0) 42 && bits (w 0) 41 40 != 1) then some 0
  else if bits (w 1) 15 0 == 0 || bits (w 1) 15 0 > 32768 || bits (w 1) 31 16 ≥ bits (w 1) 15 0 || bits (w 1) 36 32 > 16 ||
      bits (w 1) 63 37 != 0 then some 1
  else if bits (w 3) 63 32 != 0 then some 3
  else [12, 13, 14, 15].find? (fun i => w i != 0)

/-- Pages of the kernel store that an image of n instructions takes (R65). -/
def kernelPages (n : Nat) : Nat := ceilDiv (128 + 8 * n) 4096

/-- A kernel of a sound header and its instructions. -/
def kernelOf (hdr insns : List Word) : KImage :=
  let w := wordAt hdr
  let k1 := bit (w 0) 42
  { modes := (w 0).extractLsb' 40 2, k1 := k1, wide := !k1 && insns.any insnWide, entry := bits (w 1) 31 16,
    argCount := bits (w 1) 36 32, tileLive := w 2, creditMask := (w 3).extractLsb' 0 32,
    creditInit := (List.range 32).map (fun n => bits (w (4 + n / 4)) (16 * (n % 4) + 15) (16 * (n % 4))), insns := insns }

/-- Free pages of a cluster's kernel store (R65, R90). -/
def Cluster.freePages (c : Cluster) : Nat :=
  128 - c.slots.foldl (fun a p => a + p.2.elim 0 (fun k => kernelPages k.insns.length)) 0

/-- The core of a cluster that runs, or holds saved, a kernel from a slot (R65). A FAULTED core counts as running its kernel until its
reset: its launch may still be owed; the spec does not say (log entry 106). -/
def Mod.slotUser (m : Mod) (cl slot : Nat) : Option Nat :=
  (List.range 8).find? (fun i =>
    let c := m.core (cl * 8 + i)
    (c.launch.isSome && c.slot == slot) || (match c.saved with | some s => s.slot == slot | none => false))

/-- A read of an image on behalf of a cluster's command fails: recorded on the die, and replied with DETAIL 3 (R302). -/
def Mod.imageFail (m : Mod) (p : PktRef) (site unit : Nat) (e : AccErr) (addr : Nat) : Mod :=
  (m.recordAccess site unit (m.queueSector p.q) e addr).endCmd p e.status 3 0

/-- KERNEL_LOAD's work on an image (R65 to R67), once its lines are to be had (R180, R203). -/
def Mod.loadKernel (m : Mod) (p : PktRef) (cl slot image : Nat) : Mod :=
  let sector := m.queueSector p.q
  let before := m
  if m.holdsOff sector false image 128 then m
  else
  let m := m.touchRead sector image 128
  let fail := m.imageFail p (clusterSite cl) (0x0100 + cl % 8)
  match m.readPhys sector image 128 with
  | .error e => fail e image
  | .ok hb =>
    let hdr := wordsOf 16 hb
    match headerFault hdr with
    | some k => m.endCmd p 0x0105 (0x8000 + k) 0
    | none =>
      let n := bits (wordAt hdr 1) 15 0
      if kernelPages n > (m.cluster cl).freePages then m.endCmd p 0x0201 0 0
      else if m.holdsOff sector false (image + 128) (8 * n) then before
      else
        let m := m.touchRead sector (image + 128) (8 * n)
        let fail := m.imageFail p (clusterSite cl) (0x0100 + cl % 8)
        match m.readPhys sector (image + 128) (8 * n) with
        | .error e => fail e (image + 128)
        | .ok ib =>
          let insns := wordsOf n ib
          match (List.range n).find? (fun i => !insnOk (bit (wordAt hdr 0) 42) n i (wordAt insns i)) with
          | some i => m.endCmd p 0x0105 i 0
          | none =>
            (m.updCluster cl (fun c => { c with slots := Table.set none c.slots slot (some (kernelOf hdr insns)) })).endCmd
              p 0 0 (kernelPages n)

/-- An earlier KERNEL_LOAD of the slot has not acted: loads of one slot act in dispatch order (R306). -/
def Mod.loadAhead (m : Mod) (p : PktRef) (cl slot : Nat) : Bool :=
  let mine := (m.flight p).elim 0 Flight.order
  (m.clusterQueues cl).any (fun q => q.2.flights.any (fun f =>
    f.stage == .dispatched && pktOpc f.words == 0x100 && bits (wordAt f.words 2) 4 0 == slot && decide (f.order < mine)))

/-- KERNEL_LOAD (R65). A kernel launched from the slot after its dispatch has the kernel that the slot held then (R306). -/
def execKernelLoad (p : PktRef) (s : State) : Host.Outcome State Fault Refusal :=
  let m := s.toMod
  s.go (m.command p 0x100 (fun ws =>
    let cl := queueNum p.q / 128
    let slot := bits (wordAt ws 2) 4 0
    let image := bits (wordAt ws 3) 55 0
    if m.loadAhead p cl slot then m
    else
      if image = 0 then (m.updCluster cl (fun c => { c with slots := Table.set none c.slots slot none })).endCmd p 0 0 0
      else m.loadKernel p cl slot image))

/-! ## Launching (R68, R81) -/

/-- The effective PRIO of a packet (R285). -/
def Mod.effPrio (m : Mod) (p : PktRef) (ws : List Word) : Nat := min (pktPrio ws) (m.queue p.q).prioCap

/-- A core is held for a queue (R81). -/
def TCore.heldFor (c : TCore) (q : QRef) : Bool :=
  match c.hold with
  | some p => p.q == q
  | none => false

/-- A core can be preempted by work of a PRIO, in another bank where one is named (R81). -/
def TCore.preemptible (c : TCore) (prio : Nat) (bank : Option Bool) : Bool :=
  (c.st == .running || c.st == .waiting) && decide (c.prio < prio) && bank != some c.bank && c.saved.isNone && c.saveValid

/-- A launch reaches a core: it starts, preempts, or waits (R68, R81, R84). -/
def Mod.launchOn (m : Mod) (id : Nat) (l : LaunchWait) : Mod :=
  let c := m.core id
  let w2 := wordAt l.words 2
  let m := m.setCore id { c with queue := c.queue ++ [l] }
  if c.st = .idle then m.coreNext id
  else if bit w2 15 && c.preemptible l.prio (some (bit w2 13)) && (c.hold.isNone || c.heldFor l.pkt.q) then
    m.updCore id (fun c => { c with st := .stopping, preemptFor := some l })
  else m

/-- Why a launch is refused (R68, R81, R302): its DETAIL. -/
def Mod.badLaunch (m : Mod) (p : PktRef) (ws : List Word) (cl : Nat) (image : Option KImage) : Option Nat :=
  let w2 := wordAt ws 2
  match image with
  | none => some 4
  | some k =>
    if !k.modes.getLsbD (bits w2 14 14) then some 1
    else if k.wide && !bit w2 14 then some 2
    else if k.argCount != bits w2 20 16 then some 3
    else if (bitsSet (bits w2 12 5) 8).any (fun i =>
        let c := m.core (cl * 8 + i)
        c.heldFor p.q && (match c.saved with | some s => s.bank == bit w2 13 | none => false)) then some 5
    else none

/-- KERNEL_LAUNCH (R68), of the kernel that its slot held at dispatch (R305, R306). -/
def execKernelLaunch (p : PktRef) (s : State) : Host.Outcome State Fault Refusal :=
  let m := s.toMod
  s.go (m.command p 0x101 (fun ws =>
    let cl := queueNum p.q / 128
    let mask := bits (wordAt ws 2) 12 5
    let image := (m.flight p).bind Flight.image
    match m.badLaunch p ws cl image, image with
    | some d, _ => m.endCmd p 0x0106 d 0
    | none, none => m.endCmd p 0x0106 4 0
    | none, some k =>
      let l : LaunchWait := { pkt := p, words := ws, prio := m.effPrio p ws, image := k }
      (bitsSet mask 8).foldl (fun m i => m.launchOn (cl * 8 + i) l)
        (m.running p (.launch (BitVec.ofNat 8 mask) 0 0 [] false))))

/-- KERNEL_PREEMPT (R81): every named core that no other queue holds is held for this one, preempted where the conditions
hold and counted as idle where it is; the reply waits for the end of the holds. -/
def execKernelPreempt (p : PktRef) (s : State) : Host.Outcome State Fault Refusal :=
  let m := s.toMod
  s.go (m.command p 0x102 (fun ws =>
    let cl := queueNum p.q / 128
    let cores := bitsSet (bits (wordAt ws 2) 12 5) 8
    if bit (wordAt ws 2) 17 then (m.releaseHold p.q (cores.map (cl * 8 + ·)) (fun _ => true)).endCmd p 0 0 0
    else
      let mine := cores.filter (fun i => (m.core (cl * 8 + i)).hold.isNone || (m.core (cl * 8 + i)).heldFor p.q)
      if mine.isEmpty then m.endCmd p 0 0 0
      else
        let idle := mine.filter (fun i => (m.core (cl * 8 + i)).st == .idle)
        let prio := m.effPrio p ws
        let m := mine.foldl (fun (m : Mod) (i : Nat) => m.updCore (cl * 8 + i) (fun c =>
          if c.preemptible prio none then { c with hold := some p, st := .stopping, preemptFor := none }
          else { c with hold := some p })) m
        (m.running p (.preempt 0 (BitVec.ofNat 8 (maskOf idle)) (BitVec.ofNat 8 (maskOf mine)))).preemptPoint p.q))

/-! ## Posts and moves as commands -/

/-- The generation that GEN_CHECK of a TOKEN_POST finds is another (R302, R306). -/
def Mod.postFault (m : Mod) (ws : List Word) : Option (Nat × Nat) :=
  let gen := (m.core (tokCore ((wordAt ws 2).extractLsb' 0 18))).gen
  if bit (wordAt ws 2) 48 && bits (wordAt ws 2) 63 56 != gen.toNat then some (0x0402, gen.toNat) else none

/-- TOKEN_POST (R61, R300): sent, whatever its target does with it. -/
def execTokenPost (p : PktRef) (s : State) : Host.Outcome State Fault Refusal :=
  let m := s.toMod
  s.go (m.command p 0x103 (fun ws =>
    (m.sendPost ((wordAt ws 2).extractLsb' 0 18) (bits (wordAt ws 2) 47 32) (m.queueSector p.q)).endCmd p 0 0 0))

/-- A MOVE or FILL command begins its one descriptor (R294, R295, R303). A descriptor whose OP is not the command's fails as a
descriptor (log entry 13). -/
def Mod.beginMove (m : Mod) (p : PktRef) (ws : List Word) (op : Nat) : Mod :=
  let start := bits (wordAt ws 2) 31 0
  let desc := (ws.drop 8).take 8
  let d := Desc.ofWords desc
  match if d.op ≠ op then some MoveErr.format else descFault desc with
  | some e => m.cmdMoveFail p e 0 0
  | none =>
    if start ≥ d.blocks then m.endCmd p 0 0 d.blocks
    else
      let j : MoveJob := { serial := 0, pc := 0, parts := [MovePart.first desc 0 0], next := none, total := d.blocks, listPost := none }
      (m.running p (.move j start)).updFlight p (fun f => { f with progress := start })

/-- MOVE. -/
def execMove (p : PktRef) (s : State) : Host.Outcome State Fault Refusal :=
  s.go (s.toMod.command p 0x200 (fun ws => s.toMod.beginMove p ws 0))

/-- FILL. -/
def execFill (p : PktRef) (s : State) : Host.Outcome State Fault Refusal :=
  s.go (s.toMod.command p 0x202 (fun ws => s.toMod.beginMove p ws 1))

/-- MOVE_LIST (R78, R294): the first descriptor is read; blocks below START_BLOCK count as complete. -/
def execMoveList (p : PktRef) (s : State) : Host.Outcome State Fault Refusal :=
  let m := s.toMod
  s.go (m.command p 0x201 (fun ws =>
    let start := bits (wordAt ws 2) 31 0
    let addr := bits (wordAt ws 3) 55 0
    match m.listJob (m.queueSector p.q) 0 0 addr none with
    | (m, .error e) => m.cmdMoveFail p e 0 0
    | (m, .ok j) => (m.running p (.move j start)).updFlight p (fun f => { f with progress := leadingBlocks j start })))

end Sys2Proof.Machine
end

