-- ==== Sys2Proof/Machine/Preempt.lean ====
section
/-!
DEFINITION. Preemption: the stop, the save, the restore, and how each fails (R81 to R89).
-/
namespace Sys2Proof.Machine
open Sys2Proof

/-- The preempting side of a core is told that the core is IDLE or SAVED (R284, R305): the KERNEL_PREEMPT that holds it. -/
def Mod.preempted (m : Mod) (id : Nat) : Mod :=
  match (m.core id).hold with
  | none => m
  | some p =>
    (m.updQueue p.q (fun x => { x with flights := x.flights.map (fun f =>
      match f.work with
      | .preempt pre idle held =>
        if held.getLsbD (id % 8) then { f with work := .preempt (pre ||| BitVec.ofNat 8 (1 <<< (id % 8))) idle held } else f
      | _ => f) })).preemptPoint p.q

/-- A core stops with an instruction at a boundary: the core as the engine leaves it, whose memory the steps or rows up to the boundary
have changed (R82, R85, R121, R150). None where the report names no boundary that the core's engines can stand at; else the fault that a
step or row met, with the PC of its instruction. -/
def TCore.stopAt (c : TCore) (choice : Nat) (prog : EngineProgress) : Option (TCore × Option Nat) :=
  let n := prog.count.toNat
  match prog.kind.toNat, c.mat, c.pack with
  | 0, _, _ => if c.engineProgress = prog then some (c, none) else none
  | 1, j :: rest, _ =>
    if j.op = .mma && 0 < n && n % 64 = 0 && j.done ≤ n && n < j.k then
      match j.runMma c choice n with
      | some (c', j') => some ({ c' with mat := j' :: c'.carryJobs c.tile rest }, none)
      | none => some (c, some j.pc)
    else none
  | k, _, some p =>
    if (k = 2 && p.op ≠ 0x5A || k = 3 && p.op = 0x5A) && 0 < n && p.row ≤ n && n < p.rows then
      let r := p.runRows c.tile (n - p.row)
      some ({ c with tile := r.1, pack := some r.2.1 }, if r.2.2 then none else some p.pc)
    else none
  | _, _, none => none

/-- PREEMPT_STOPPED: every engine is at a boundary, the mover has finished the blocks whose reads it issued; the core begins to save
(R82, R85, R87, R88). -/
def execPreemptStopped (core : CoreId) (prog : EngineProgress) (s : State) : Host.Outcome State Fault Refusal :=
  let m := s.toMod
  let c := m.core core
  s.go (if c.st = .stopping && c.moves.all (fun j => j.parts.all (fun p => p.read.isEmpty)) then
      match c.stopAt m.free prog with
      | none => m
      | some (c', some pc) => (({ m with free := m.free + 1 } : Mod).setCore core c').coreFault core 0x03 0 pc
      | some (c', none) =>
        let h := c.headMove
        let m := ({ m with free := m.free + 1 } : Mod).setCore core { c' with
          st := .saving, progress := { count := prog.count, kind := prog.kind, moveBlocks := h.1, moveActive := h.2 } }
        match c.hold with
        | some p => m.preemptPoint p.q
        | none => m
    else m)

/-- The core domain's report to the Tender (R88, R383). -/
def Mod.reportCore (m : Mod) (id : Nat) : Mod := if h : id < 1024 then m.report (.core ⟨id, h⟩) else m

/-- PREEMPT_STOP_TIMEOUT: the preemption fails; CORE_STALL with CODE 3 is recorded and reported, the preempted kernel's launch
ends FENCED, and the preempting launch waits for the core (R88). -/
def execPreemptStopTimeout (core : CoreId) (s : State) : Host.Outcome State Fault Refusal :=
  let m := s.toMod
  let c := m.core core
  s.go (if c.st = .stopping then
      let m := m.record { site := coreSite core, cls := 0x09, sev := 2, unit := core.val % 64, code := 3, addr := 0, detail := 0,
                          sector := c.sector, injected := false }
      let m := m.setCore core { c with st := .fenced, launch := none, kernel := none, preemptFor := none, moves := [],
                                       heldPosts := [], fenceWait := false, endWait := false, wait := none }
      let m := match c.launch with
        | some p => m.launchCore p (core.val % 8) .lost
        | none => m
      m.report (.core core)
    else m)

/-! ## The save area (R83) -/

/-- The bytes of the two records, whose layout the spec does not give: undefined contents (log entry 4). -/
def recordBytes (epoch : Nat) : List Byte := (List.range 0x5000).map (Config.undefByte epoch)

/-- The bytes of n 32-bit words of a storage. -/
def WMem.bytes (w : WMem) (n : Nat) : List Byte := (List.range n).flatMap (fun i => bytesOf 4 (w.read i).toNat)

/-- A storage's words from bytes. -/
def WMem.load (w : WMem) (i : Nat) : Nat → List Byte → WMem
  | 0, _ => w
  | n + 1, bs => WMem.load (w.write i (BitVec.ofNat 32 (numOf (bs.take 4)))) (i + 1) n (bs.drop 4)

/-- What a core saves: the offsets in its save area, and the bytes there. -/
def TCore.saveParts (c : TCore) (epoch : Nat) : List (Nat × List Byte) :=
  [(0, recordBytes epoch), (0x5000, c.acc.bytes 32768), (0x25000, c.sram.bytes 65536)] ++
    (bitsSet (c.kernel.elim 0 (fun k => k.tileLive.toNat)) 64).map (fun i =>
      (0x65000 + i * 0x10000, c.tile.readN (i * 0x10000) 0x10000))

/-- The parts written to memory in order, up to the first access error. -/
def Mod.writeParts (m : Mod) (sector : Option SectorId) (base : Nat) : List (Nat × List Byte) → Except (AccErr × Nat) Mod
  | [] => .ok m
  | (off, bs) :: rest =>
    match m.writePhys sector (base + off) bs with
    | .error e => .error (e, base + off)
    | .ok m => Mod.writeParts m sector base rest

/-- A save or a restore fails (R84): recorded with its cause and as a core fault at the saved PC; the context is lost and its
launch is told so; the core is FAULTED and reported. -/
def Mod.contextFault (m : Mod) (id pc : Nat) (launch : Option PktRef) (e : AccErr) (addr : Nat) : Mod :=
  let c := m.core id
  let inj := e == .poison && m.poisonInjected addr
  let m := m.recordAccess (coreSite id) (id % 64) c.sector e addr
  let m := m.record { site := coreSite id, cls := 0x08, sev := 2, unit := id % 64, code := 0x05, addr := 0, detail := 0,
                      sector := c.sector, injected := inj }
  let m := m.setCore id { c with
    st := .faulted, launch := none, kernel := none, saved := none, preemptFor := none, moves := [], heldPosts := []
    fenceWait := false, endWait := false, wait := none
    fault := { code := 0x05, trapValue := 0, pc := BitVec.ofNat 15 pc, valid := true } }
  let m := match launch with
    | some p => m.launchCore p (id % 8) .ctxLost
    | none => m
  m.reportCore id

/-- The saved context of a core (R83, R84). A matrix instruction meets tile memory again as the restore leaves it. -/
def TCore.context (c : TCore) : Saved :=
  { pc := c.pc, s := c.s, progress := c.progress, slot := c.slot, bank := c.bank, opCache := c.opCache, prio := c.prio,
    launch := c.launch, kernel := c.kernel, vec := c.vec, sr := c.sr, moves := c.moves, heldPosts := c.heldPosts,
    wait := c.wait, mat := c.mat.map (fun j => { j with tile := { c.tile with cells := [] } }), pack := c.pack, vecQ := c.vecQ, chainQ := c.chainQ,
    matDone := c.matDone, vecDone := c.vecDone, chainDone := c.chainDone, nextMove := c.nextMove,
    fenceWait := c.fenceWait, endWait := c.endWait, base := c.saveBase.toNat * 65536, overflow := false }

/-- SAVE_DONE: the save is written, the core holds a saved context, and the preempting kernel starts (R82, R88). -/
def execSaveDone (core : CoreId) (s : State) : Host.Outcome State Fault Refusal :=
  let m := s.toMod
  let c := m.core core
  let base := c.saveBase.toNat * 65536
  s.go (if m.working && c.st = .saving && !m.partsWait c.sector true ((c.saveParts (m.free + 3)).map (fun x => (base + x.1, x.2.length))) then
      match ({ m with free := m.free + 1 } : Mod).writeParts c.sector base (c.saveParts (m.free + 3)) with
      | .error (e, addr) => m.contextFault core c.pc c.launch e addr
      | .ok m =>
        let m := m.setCore core { c with
          st := .idle, saved := some c.context, launch := none, kernel := none, preemptFor := none, moves := [],
          heldPosts := [], fenceWait := false, endWait := false, wait := none, mat := [], pack := none, vecQ := 0, chainQ := 0 }
        let m := m.preempted core
        match c.preemptFor with
        | some l =>
          if (m.core core).queue.any (fun x => x.pkt == l.pkt) then m.setCore core ((m.core core).start core l)
          else m.coreNext core
        | none => m.coreNext core
    else m)

/-- The parts of a save area read back (R83, R84): the records too, so that a poisoned line anywhere in it is met. -/
def Mod.readParts (m : Mod) (sector : Option SectorId) (base : Nat) : List (Nat × Nat) →
    Except (AccErr × Nat) (List (Nat × List Byte))
  | [] => .ok []
  | (off, n) :: rest =>
    match m.readPhys sector (base + off) n with
    | .error e => .error (e, base + off)
    | .ok bs =>
      match Mod.readParts m sector base rest with
      | .error e => .error e
      | .ok l => .ok ((off, bs) :: l)

/-- The parts of a save area put back into the core. -/
def TCore.loadParts (c : TCore) : List (Nat × List Byte) → TCore
  | [] => c
  | (off, bs) :: rest =>
    TCore.loadParts (if off = 0x5000 then { c with acc := c.acc.load 0 32768 bs }
      else if off = 0x25000 then { c with sram := c.sram.load 0 65536 bs }
      else if off ≥ 0x65000 then { c with tile := c.tile.writeN (off - 0x65000) bs } else c) rest

/-- A context continues on its core (R84, R86). -/
def TCore.resume (c : TCore) (x : Saved) : TCore :=
  { c with
    st := if x.wait.isSome then .waiting else .running
    saved := none, pc := x.pc, s := x.s, progress := ResumeProgress.reset, slot := x.slot, bank := x.bank,
    opCache := x.opCache, prio := x.prio, launch := x.launch, kernel := x.kernel, vec := x.vec, sr := x.sr,
    moves := x.moves, heldPosts := x.heldPosts, wait := x.wait, mat := x.mat.map (fun j => { j with tile := c.tile }),
    pack := x.pack, vecQ := x.vecQ, chainQ := x.chainQ, matDone := x.matDone, vecDone := x.vecDone, chainDone := x.chainDone,
    nextMove := x.nextMove, fenceWait := x.fenceWait, endWait := x.endWait }

/-- RESTORE_DONE: the context is read back and the kernel continues; a counter of its bank that overflowed meanwhile faults
it now (R63, R84, R88). -/
def execRestoreDone (core : CoreId) (s : State) : Host.Outcome State Fault Refusal :=
  let m := s.toMod
  let c := m.core core
  s.go (match c.saved with
    | none => m
    | some x =>
      if c.st = .restoring then
        let live := bitsSet (x.kernel.elim 0 (fun k => k.tileLive.toNat)) 64
        let parts := [(0, 0x5000), (0x5000, 0x20000), (0x25000, 0x40000)] ++ live.map (fun i => (0x65000 + i * 0x10000, 0x10000))
        if !m.working || m.partsWait c.sector false (parts.map (fun q => (x.base + q.1, q.2))) then m
        else
        let m := parts.foldl (fun (m : Mod) (q : Nat × Nat) => m.touchRead c.sector (x.base + q.1) q.2) m
        match m.readParts c.sector x.base parts with
        | .error (e, addr) => m.contextFault core x.pc x.launch e addr
        | .ok parts =>
          let m := m.setCore core ((c.loadParts parts).resume x)
          if x.overflow then m.coreFault core 0x01 0 x.pc else m.settleCore core
      else m)

end Sys2Proof.Machine
end

