-- ==== Sys2Proof/Machine/Queue.lean ====
section
/-!
DEFINITION. Queues: bells, acceptance, notifications, held replies, shutdowns and the queue opcodes (R270 to R293).
-/
namespace Sys2Proof.Machine
open Sys2Proof

/-! ## Bells (R274 to R276) -/

/-- The physical address of a queue's bell page (R26, R274, R421); none for what another module sends. -/
def bellPage : QRef → Nat
  | .csq n => cbBase (clusterSite (n / 128)) + 0x10000000 + n / 128 % 8 * 0x80000 + n % 128 * 0x1000
  | .mq n => cbBase kdSite + 0x100000 + n * 0x10000
  | .remote => 0

/-- A write of the bell at an offset of a queue's page that is ignored, recorded as BELL_ERROR (R274, R276, R397). -/
def Mod.bellError (m : Mod) (q : QRef) (off : Nat) : Mod :=
  m.record { site := queueSite q, cls := 0x11, sev := 1, unit := queueUnit q, code := 0, addr := bellPage q + off, detail := 0,
             sector := m.queueSector q, injected := false }

/-- An enabled queue stops fetching with an error; what it accepted is still dispatched (R290). -/
def Mod.queueError (m : Mod) (q : QRef) (code : Nat) : Mod := m.updQueue q (fun x => { x with st := .error, error := code })

/-- A producer index lies further than a ring beyond FETCH (R275). -/
def Queue.beyond (x : Queue) (pi : BitVec 32) : Bool := (pi - x.fetch).toNat > 2 ^ x.ringLog2

/-- A producer index written (R275). -/
def Mod.bellSq (m : Mod) (q : QRef) (pi : BitVec 32) : Mod :=
  let x := m.queue q
  if x.st = .free then m.bellError q 0
  else
    let m := m.setQueue q { x with producer := pi }
    if x.st = .enabled && x.beyond pi then m.queueError q 3 else m

/-- A consumer index written; one beyond REPLY_PI is ignored (R276). -/
def Mod.bellRq (m : Mod) (q : QRef) (ci : BitVec 32) : Mod :=
  let x := m.queue q
  if x.st = .free || (ci - x.replyCi).toNat > (x.replyPi - x.replyCi).toNat then m.bellError q 8
  else m.setQueue q { x with replyCi := ci }

/-- CSQ_BELL_SQ. -/
def execCsqBellSq (q : QRef) (pi : BitVec 32) (s : State) : Host.Outcome State Fault Refusal := s.go (s.toMod.bellSq q pi)

/-- CSQ_BELL_RQ. -/
def execCsqBellRq (q : QRef) (ci : BitVec 32) (s : State) : Host.Outcome State Fault Refusal := s.go (s.toMod.bellRq q ci)

/-! ## Acceptance (R278, R281) -/

/-- The queue may fetch: four packets at most ahead of dispatch, room for every reply owed, none held (R278, R281, R327). -/
def Mod.mayFetch (m : Mod) (q : QRef) : Bool :=
  let x := m.queue q
  m.working && !m.power.paused && (match q with | .csq _ => !m.fw.seqPause | _ => true) &&
    x.st == .enabled && x.held.isEmpty && x.owed.length < x.inFlightMax &&
    (x.replyPi + BitVec.ofNat 32 x.owed.length - x.replyCi).toNat < 2 ^ x.replyLog2 &&
    (x.flights.filter (fun f => f.stage = .accepted)).length < 4 && m.ringReachable q

/-- Entries of a command ring in device memory, from an index on (R272, R273). -/
def Mod.readEntries (m : Mod) (q : QRef) (ix : BitVec 32) : Nat → Except (AccErr × Nat) (List Word)
  | 0 => .ok []
  | n + 1 =>
    let x := m.queue q
    let addr := x.ring.toNat + ix.toNat % 2 ^ x.ringLog2 * 64
    match m.readPhys (m.ringSector q) addr 64 with
    | .error e => .error (e, addr)
    | .ok bs =>
      match Mod.readEntries m q (ix + 1) n with
      | .error e => .error e
      | .ok ws => .ok (wordsOf 8 bs ++ ws)

/-- Entries of a command ring in device memory are read. -/
def Mod.touchEntries (m : Mod) (q : QRef) (ix : BitVec 32) (n : Nat) : Mod :=
  (List.range n).foldl (fun (m : Mod) (i : Nat) =>
    m.touchRead (m.ringSector q) ((m.queue q).ring.toNat + (ix + BitVec.ofNat 32 i).toNat % 2 ^ (m.queue q).ringLog2 * 64) 64) m

/-- Entries of a command ring in device memory are not to be read yet (R180, R203). -/
def Mod.entriesWait (m : Mod) (q : QRef) (ix : BitVec 32) (n : Nat) : Bool :=
  let x := m.queue q
  m.partsWait (m.ringSector q) false
    ((List.range n).map (fun i => (x.ring.toNat + (ix + BitVec.ofNat 32 i).toNat % 2 ^ x.ringLog2 * 64, 64)))

/-- A fetch fails: ERROR with code 4; an access error is recorded (R24, R171, R278, R393). -/
def Mod.fetchFail (m : Mod) (q : QRef) (e : AccErr) (addr : Nat) : Mod :=
  (m.recordAccess (queueSite q) (queueUnit q) (m.ringSector q) e addr).queueError q 4

/-- A fetched packet whose entries have all been read: the LEN and SEQ tests, then acceptance (R278). -/
def Mod.acceptWords (m : Mod) (q : QRef) (ws : List Word) : Mod :=
  let x := m.queue q
  let bad := x.checkSeq && (match x.lastSeq with | some l => pktSeq ws != l + 1 | none => false)
  if bad then m.queueError q 2
  else
    let m := m.setQueue q { x with
      fetch := x.fetch + BitVec.ofNat 32 (pktLen ws), lastSeq := some (pktSeq ws)
      flights := x.flights ++ [{ ix := x.fetch, words := ws, stage := .accepted, past := false, progress := 0, work := .none, ports := [], effect := none }] }
    match q with
    | .csq n => m.updCluster (n / 128) (fun c => { c with accepted := satAdd c.accepted 1 0xFFFFFFFF })
    | .mq _ => m
    | .remote => m

/-- The next packet of a queue fetched from device memory. A fetch from a ring behind a port that access was withdrawn from is made
again later (R327). -/
def Mod.fetchDevice (m : Mod) (q : QRef) : Mod :=
  let x := m.queue q
  let before := m
  if m.entriesWait q x.fetch 1 then m
  else
  let m := m.touchEntries q x.fetch 1
  match m.readEntries q x.fetch 1 with
  | .error (e, a) => if e = .withdrawn then before else m.fetchFail q e a
  | .ok hdr =>
    if pktLen hdr = 0 || pktLen hdr > 64 then m.queueError q 1
    else if pktLen hdr > (x.producer - x.fetch).toNat then m
    else if m.entriesWait q x.fetch (pktLen hdr) then before
    else
      let m := m.touchEntries q x.fetch (pktLen hdr)
      match m.readEntries q x.fetch (pktLen hdr) with
      | .error (e, a) => if e = .withdrawn then before else m.fetchFail q e a
      | .ok ws => m.acceptWords q ws

/-- The next packet of a queue fetched from its host, whose answer comes from outside: none for a read that fails. -/
def Mod.fetchHost (m : Mod) (q : QRef) (host : Option (List Word)) : Mod :=
  let x := m.queue q
  match host with
  | none => m.queueError q 4
  | some ws =>
    if pktLen ws = 0 || pktLen ws > 64 then m.queueError q 1
    else if pktLen ws > (x.producer - x.fetch).toNat || ws.length < 8 * pktLen ws then m
    else m.acceptWords q (ws.take (8 * pktLen ws))

/-- PACKET_ACCEPT: the next packet of a queue is fetched, checked and accepted, or the queue goes to ERROR; a packet whose last
entry lies beyond PI waits (R275, R278). Entries of a ring in host memory are an operand. -/
def execPacketAccept (q : QRef) (host : Option (List Word)) (s : State) : Host.Outcome State Fault Refusal :=
  let m := s.toMod
  let x := m.queue q
  s.go (if !m.mayFetch q then m
    else if x.beyond x.producer then m.queueError q 3
    else if x.producer = x.fetch then m
    else if x.host then m.fetchHost q host else m.fetchDevice q)

/-! ## Notifications and held replies (R281, R282, R323) -/

/-- An MSI-X message of a function: held while the host cannot be reached, discarded with MSI-X disabled, pending while its
vector is masked (R323). -/
def Mod.sendVector (m : Mod) (port fn vec : Nat) : Option Mod :=
  let f := m.fn port fn
  if !f.reachable || !m.portCarries port then none
  else if !f.msixEnable then some m
  else if f.unmasked.contains vec then some (m.emit (.msix port fn vec))
  else some (m.setFn port fn { f with pendingVec := if f.pendingVec.contains vec then f.pendingVec else vec :: f.pendingVec })

/-- A function's replies are held in some queue's page. -/
def Mod.repliesHeld (m : Mod) (port fn : Nat) : Bool :=
  m.queues.any (fun x => !x.2.held.isEmpty && m.queueFn (.csq (Fin.ofNat 16384 x.1)) == some (port, fn))

/-- What is pending on a function's unmasked vectors is sent, once its host can be reached and no reply of it is held (R323). -/
def Mod.sendPending (m : Mod) (port fn : Nat) : Mod :=
  if m.repliesHeld port fn then m
  else
    ((m.fn port fn).pendingVec.filter (fun v => (m.fn port fn).unmasked.contains v)).foldl (fun (m : Mod) (v : Nat) =>
      let f := m.fn port fn
      ((m.setFn port fn { f with pendingVec := f.pendingVec.erase v }).sendVector port fn v).getD m) m

/-- The vector of a queue's notification where it is an MSI-X message (R282, R323, R403). -/
def Queue.vector (x : Queue) (q : QRef) : Option Nat :=
  match q with
  | .csq _ => if x.host then some (x.notifyData.toNat % 2048) else none
  | .mq n => if n.val ≤ 8 then some (x.notifyData.toNat % 64) else none
  | .remote => none

/-- The one write of a queue's notification; none while it is held (R282, R323, R403). -/
def Mod.notify (m : Mod) (q : QRef) : Option Mod :=
  let x := m.queue q
  match x.vector q with
  | none => some (m.sendMsi x.notifyAddr.toNat x.notifyData.toNat)
  | some v =>
    match m.queueFn q with
    | some (port, fn) => m.sendVector port fn v
    | none => none

/-- A queue's notification issued; one that cannot go out stays waiting. -/
def Mod.issueNotify (m : Mod) (q : QRef) : Mod :=
  ((m.updQueue q (fun x => { x with notifyPending := false })).notify q).getD (m.updQueue q (fun x => { x with notifyPending := true }))

/-- The zero-length read that a notification waits for: its ring lies behind a port other than the one it leaves by (R289). -/
def Mod.notifyFlush (m : Mod) (q : QRef) : Option (Nat × Nat) :=
  let x := m.queue q
  let out := (x.vector q).bind (fun _ => (m.queueFn q).map (·.1))
  x.replyPort.filter (fun w => some w.1 != out)

/-- The zero-length read before a notification has completed. One that a later reply has merged into meanwhile is still that one
notification: it waits until that reply is visible too (R282). -/
def Mod.notifyFlushed (m : Mod) (q : QRef) : Mod :=
  if (m.queue q).notifyWait then
    let m := m.updQueue q (fun x => { x with notifyWait := false })
    if (m.queue q).notifyPending then m else m.issueNotify q
  else m

/-- QUEUE_NOTIFY: a waiting notification is issued once, later ones having merged into it; while replies are held it waits
behind them, and the replies that it announces are visible first (R282, R289). -/
def execQueueNotify (q : QRef) (s : State) : Host.Outcome State Fault Refusal :=
  let m := s.toMod
  let x := m.queue q
  s.go (if x.notifyPending && x.held.isEmpty && !x.notifyWait then
      match m.notifyFlush q with
      | none => m.issueNotify q
      | some w =>
        if !m.flushGoes w.1 w.2 then m.issueNotify q
        else
          match m.flushRead (.notify q) w.1 w.2 with
          | none => m
          | some m => m.updQueue q (fun x => { x with notifyPending := false, notifyWait := true, replyPort := none })
    else m)

/-- Held replies written in order while the ring takes them (R281). -/
def Mod.writeHeld (m : Mod) (q : QRef) : List Reply → Mod
  | [] => m
  | r :: rest =>
    match (m.updQueue q (fun x => { x with held := rest })).putReply q r with
    | some m' => Mod.writeHeld m' q rest
    | none => m

/-- HELD_REPLY_WRITE: a shutdown that waited for the replies ends (R291). -/
def execHeldReplyWrite (q : QRef) (s : State) : Host.Outcome State Fault Refusal :=
  let m := s.toMod
  let x := m.queue q
  s.go (if x.st = .free then m
    else
      let m := (m.writeHeld q x.held).settleQueues shutdownChain [q]
      match m.queueFn q with
      | some (port, fn) => m.sendPending port fn
      | none => m)

/-! ## Shutdowns (R291, R292) -/

/-- A queue's shutdown begins, or is joined: a held enable is cancelled by a second one, and packets that are not dispatched are
replied FENCED (R291, R292). A FENCED queue is disabled once its domain has recovered (R290). -/
def Mod.startDisable (m : Mod) (q : QRef) (p : Option PktRef) : Mod :=
  let x := m.queue q
  let done := fun (m : Mod) => match p with
    | some p => m.endCmd p 0 0 0
    | none => m
  match x.st with
  | .free => done m
  | .disabled => done m
  | .fenced => m.setQueue q { x with before := if x.before = .enabled || x.before = .error then .disabled else x.before }
  | .disabling =>
    let m := m.setQueue q { x with disables := x.disables ++ p.toList, enable := none }
    match x.enable with
    | some (some e, _) => m.endCmd e 0x0802 0 0
    | _ => m
  | .enabled | .error =>
    let m := m.setQueue q { x with st := .disabling, disables := p.toList, aborted := 0 }
    let m := ((x.flights.filter (fun f => f.stage = .accepted)).map (fun f => (⟨q, f.ix⟩ : PktRef))).foldl
      (fun m r => m.reply r 0x0401 0 0) m
    m.settleQueues shutdownChain [q]

/-! ## Queue opcodes (R290 to R292, R305) -/

/-- The configuration that words 2 to 6 of QUEUE_CREATE, or 3 to 7 of SECTOR_CREATE, give a queue (R303). -/
def Queue.configured (x : Queue) (ws : List Word) (w : Nat) (admin : Bool) (st : QSt) : Queue :=
  let c := wordAt ws w
  { Queue.reset with
    st := st, ringLog2 := bits c 18 14, replyLog2 := bits c 23 19, prioCap := bits c 27 24, admin := admin, host := bit c 29,
    checkSeq := bit c 30, inFlightMax := bits c 37 31, notifyEn := bit c 38,
    ring := wordAt ws (w + 1) &&& 0xFFFFFFFFFFFFF000#64, reply := wordAt ws (w + 2) &&& 0xFFFFFFFFFFFFF000#64,
    notifyAddr := wordAt ws (w + 3) &&& 0xFFFFFFFFFFFFFFFC#64, notifyData := (wordAt ws (w + 4)).extractLsb' 0 32,
    drainMs := bits (wordAt ws (w + 4)) 47 32, gen := x.gen, flights := x.flights }

/-- The queue a packet names in word 2. -/
def namedQueue (ws : List Word) : QRef := .csq (Fin.ofNat 16384 (bits (wordAt ws 2) 13 0))

/-- A host queue's configuration is one R323 allows: the offset of the field that is not. -/
def hostFault (ws : List Word) (w : Nat) (attached : Bool) : Option Nat :=
  if bit (wordAt ws w) 29 then
    if !attached then some (8 * w + 3)
    else if wordAt ws (w + 3) >>> 2 != 0 then some (8 * (w + 3))
    else if bits (wordAt ws (w + 4)) 31 11 != 0 then some (8 * (w + 4))
    else none
  else none

/-- Why a QUEUE_CREATE is refused (R290, R305). -/
def Mod.queueCreateFault (m : Mod) (ws : List Word) : Option (Nat × Nat) :=
  let q := namedQueue ws
  if (m.queueSector q).isNone then some (0x0202, queueNum q / 128)
  else if (m.queue q).st ≠ .free then some (0x0202, queueNum q)
  else none

/-- QUEUE_CREATE (R270, R290, R305): replies that a reset left held in the queue's page are cleared (R328). -/
def execQueueCreate (p : PktRef) (s : State) : Host.Outcome State Fault Refusal :=
  let m := s.toMod
  s.go (m.command p 0x010 (fun ws =>
    m.checked p (m.queueCreateFault ws)
      ((m.setQueue (namedQueue ws) ((m.queue (namedQueue ws)).configured ws 2 (bit (wordAt ws 2) 28) .disabled)).endCmd p 0 0 0)))

/-- Why a QUEUE_DISABLE is refused (R290). -/
def Mod.queueDisableFault (m : Mod) (ws : List Word) : Option (Nat × Nat) :=
  if (m.queue (namedQueue ws)).st = .fenced then some (0x0202, queueNum (namedQueue ws)) else none

/-- QUEUE_DISABLE (R290, R291). -/
def execQueueDisable (p : PktRef) (s : State) : Host.Outcome State Fault Refusal :=
  let m := s.toMod
  s.go (m.command p 0x011 (fun ws =>
    m.checked p (m.queueDisableFault ws) ((m.running p .none).startDisable (namedQueue ws) (some p))))

/-- Why a QUEUE_ENABLE is refused (R290, R292). -/
def Mod.queueEnableFault (m : Mod) (ws : List Word) : Option (Nat × Nat) :=
  let x := m.queue (namedQueue ws)
  match x.st with
  | .enabled | .disabled => none
  | .disabling => if x.enable.isSome then some (0x0203, 0) else none
  | _ => some (0x0202, queueNum (namedQueue ws))

/-- QUEUE_ENABLE (R290, R292). -/
def execQueueEnable (p : PktRef) (s : State) : Host.Outcome State Fault Refusal :=
  let m := s.toMod
  s.go (m.command p 0x012 (fun ws =>
    let q := namedQueue ws
    let x := m.queue q
    let fetch := if bit (wordAt ws 2) 14 then some ((wordAt ws 3).extractLsb' 0 32) else none
    m.checked p (m.queueEnableFault ws)
      (match x.st with
       | .disabled => (m.setQueue q { x with st := .enabled, fetch := fetch.getD x.fetch, lastSeq := none }).endCmd p 0 0 0
       | .disabling => (m.setQueue q { x with enable := some (some p, fetch) }).running p .none
       | _ => m.endCmd p 0 0 0)))

/-- A queue freed: its configuration goes, replies held for its ring stay in its page, its generation stays (R290, R328), and so does work
that a fence has replied and not stopped (R293). -/
def Queue.freed (x : Queue) : Queue :=
  { Queue.reset with held := x.held, heldGen := x.heldGen, gen := x.gen, flights := x.flights.filter (·.answered) }

/-- Why a QUEUE_DESTROY is refused (R290, R305). -/
def Mod.queueDestroyFault (m : Mod) (p : PktRef) (ws : List Word) : Option (Nat × Nat) :=
  let q := namedQueue ws
  let x := m.queue q
  if q ≠ p.q && (x.st = .disabled || (x.st = .error && x.owed.isEmpty)) && x.held.isEmpty then none else some (0x0202, queueNum q)

/-- QUEUE_DESTROY (R290, R305). A FREE queue cannot be destroyed (log entry 14), nor one whose replies are held: each is owed (R279). -/
def execQueueDestroy (p : PktRef) (s : State) : Host.Outcome State Fault Refusal :=
  let m := s.toMod
  s.go (m.command p 0x013 (fun ws =>
    m.checked p (m.queueDestroyFault p ws) ((m.setQueue (namedQueue ws) (m.queue (namedQueue ws)).freed).endCmd p 0 0 0)))

/-- FLUSH_VISIBLE: a zero-length read on each named port, which completes behind the sector's earlier writes (R289, R305). -/
def execFlushVisible (p : PktRef) (s : State) : Host.Outcome State Fault Refusal :=
  let m := s.toMod
  s.go (m.command p 0x203 (fun ws =>
    let mask := bits (wordAt ws 2) 7 0
    (m.noteWrites p ((bitsSet mask 8).map (fun k => (k, (m.pciePort k).aptBase)))).endCmd p 0 0 (popCount mask 8)))

end Sys2Proof.Machine
end

