-- ==== Sys2Proof/Machine/Fences.lean ====
section
/-!
DEFINITION. Reset domains: how each is fenced, answered, given a new generation and restored (R291, R293, R382 to R390).
-/
namespace Sys2Proof.Machine
open Sys2Proof

/-! ## Domains (R31, R383, R392) -/

/-- The ED or TD number of a site. -/
def tdOf (site : Site) : Nat := (siteTd site.val).getD 0

/-- Domain a contains domain b, or is it. -/
def Domain.covers (a b : Domain) : Bool :=
  match a, b with
  | .moduleCold, _ => true
  | .moduleWarm, .moduleCold => false
  | .moduleWarm, _ => true
  | .core x, .core y => x == y
  | .cluster x, .core y => x.val == y.val / 8
  | .cluster x, .cluster y => x == y
  | .td s, .core y => s.val == coreSite y.val
  | .td s, .cluster y => s.val == clusterSite y.val
  | .td s, .td t => s == t
  | .engine x, .engine y => x == y
  | .port x, .port y => x == y
  | .stack x, .stack y => x == y
  | .edge x, .engine y => x.val == y.val / 16
  | .edge x, .port y => x.val == y.val / 8
  | .edge x, .edge y => x == y
  | _, _ => false

/-- The next larger domain (R392); none beyond a cold restart. -/
def nextLarger (d : Domain) : Option Domain :=
  match d with
  | .core c => some (.cluster (Fin.ofNat 128 (c.val / 8)))
  | .cluster c => some (.td (Fin.ofNat 25 (clusterSite c.val)))
  | .td _ => some .moduleWarm
  | .engine e => some (.edge (Fin.ofNat 4 (e.val / 16)))
  | .port p => some (.edge (Fin.ofNat 4 (p.val / 8)))
  | .stack _ => some .moduleWarm
  | .edge _ => some .moduleWarm
  | .slice _ => some .moduleWarm
  | .moduleWarm => some .moduleCold
  | .moduleCold => none

/-- The clusters inside a domain. -/
def domainClusters (d : Domain) : List Nat :=
  match d with
  | .cluster c => [c.val]
  | .td s => (List.range 8).map (8 * tdOf s + ·)
  | _ => []

/-- The cores inside a domain. -/
def domainCores (d : Domain) : List Nat :=
  match d with
  | .core c => [c.val]
  | _ => (domainClusters d).flatMap (fun c => (List.range 8).map (8 * c + ·))

/-- The engines inside a domain. -/
def domainEngines (d : Domain) : List Nat :=
  match d with
  | .engine e => [e.val]
  | .edge x => (List.range 16).map (16 * x.val + ·)
  | _ => []

/-! ## Replies that a fence owes (R293, R386) -/

/-- PROGRESS of a packet as far as it is known (R291, R293). A mark of a deferred create or assignment is none. -/
def Mod.flightProgress (m : Mod) (p : PktRef) (f : Flight) : Nat :=
  match f.work with
  | .move j start => leadingBlocks j start
  | .launch _ ended _ _ _ => ended.toNat
  | .preempt pre idle _ => pre.toNat + idle.toNat * 256
  | .plan e => if (m.engine e).plan = some p then (m.engine e).executed else 0
  | .booking ed i => ((Table.get none (m.ed ed).books i).map Booking.served).getD 0
  | .none | .instant _ | .apply _ => 0
  | .flushing _ _ n => n
  | .busy k _ => if k = 3 || k = 4 then 0 else f.progress

/-- DETAIL of a packet that a fence replies: a booking's port (R258). -/
def Mod.flightDetail (m : Mod) (f : Flight) : Nat :=
  match f.work with
  | .booking ed i => ((Table.get none (m.ed ed).books i).map Booking.port).getD 0
  | _ => 0

/-- What a packet's work loses with it: a plan or an armed set goes on without a packet, a booking ends at the next frame boundary, a
plan that waits for its engine is dropped, an enable is no longer held (R290, R291, R293). -/
def Mod.detach (m : Mod) (p : PktRef) (f : Flight) : Mod :=
  match f.work with
  | .plan e => m.updEngine e (fun x => { x with plan := if x.plan = some p then none else x.plan,
                                                queue := x.queue.filter (fun y => y.1 != p) })
  | .booking ed i => m.updBooking ed i (fun b => { b with pkt := none, ending := some (b.ending.getD 0x0401) })
  | .apply st => m.setSet st { m.set st with apply := none }
  | .none =>
    if pktOpc f.words = 0x012 && f.stage = .running then
      m.updQueue (namedQueue f.words) (fun x => if x.enable.map (·.1) = some (some p) then { x with enable := none } else x)
    else m
  | _ => m

/-- Every packet of a queue that is accepted and not replied is replied FENCED (R293). -/
def Mod.flushQueue (m : Mod) (q : QRef) : Mod :=
  (m.queue q).owed.foldl (fun (m : Mod) (f : Flight) =>
    let p : PktRef := ⟨q, f.ix⟩
    let n := m.flightProgress p f
    let d := m.flightDetail f
    (m.detach p f).reply p 0x0401 d n) m

/-- A packet's work stands outside its cluster and goes on though a fence replies it (R293): a command at the Keeper, one that waits for its
instant, a drain, and a test of a unit that is not fenced itself. -/
def Mod.outlives (m : Mod) (f : Flight) : Bool :=
  match f.stage, f.work with
  | .keeper, _ => true
  | .dispatched, _ => keeperBound (pktOpc f.words)
  | .running, .instant _ => true
  | .running, .busy k t => k != 5 && !(k == 6 && t / 2 ^ 32 == 0 && m.clusterFenced t)
  | _, _ => false

/-- The reply of a fence for a packet whose work goes on: no other will be written. -/
def Mod.fenceReply (m : Mod) (p : PktRef) (f : Flight) : Mod :=
  (m.updFlight p (fun f => { f with past := true, answered := true })).writeReply p.q
    (mkReply f 0x0401 0 (m.flightProgress p f) m.beacon.bt)

/-- A fence of its cluster replies every owed packet of a queue FENCED; work outside the cluster is not stopped (R293). -/
def Mod.answerQueue (m : Mod) (q : QRef) : Mod :=
  ((m.queue q).owed.filter m.outlives).foldl (fun (m : Mod) (f : Flight) => m.fenceReply ⟨q, f.ix⟩ f) m |>.flushQueue q

/-! ## Tensor cores -/

/-- A core is fenced (R385). -/
def Mod.fenceCore (m : Mod) (id : Nat) : Mod := m.updCore id (fun c => { c with st := .fenced })

/-- A command has blocks on a core's mover: one with eight or more outstanding has some on every mover; which movers fewer stand
on is free (R294). -/
def onMover (j : MoveJob) (start core block : Nat) : Bool :=
  let open_ := j.parts.flatMap (fun p => (List.range p.blocks).filter (fun k => start ≤ p.base + k && !p.done.contains k))
  decide (open_.length ≥ 8) || (!open_.isEmpty && Config.choose (2 ^ 40 + block) core % 2 == 1)

/-- The commands of a core's cluster with blocks on its mover are replied FENCED (R386). -/
def Mod.fenceMoves (m : Mod) (id : Nat) : Mod :=
  (m.clusterQueues (id / 8)).foldl (fun (m : Mod) (x : Nat × Queue) =>
    let q : QRef := .csq (Fin.ofNat 16384 x.1)
    x.2.flights.foldl (fun (m : Mod) (f : Flight) =>
      match f.work with
      | .move j start =>
        if onMover j start id j.completed then m.endCmd ⟨q, f.ix⟩ 0x0401 0 (leadingBlocks j start) else m
      | _ => m) m) m

/-- The commands that used a core which is reset alone are replied (R386). -/
def Mod.answerCore (m : Mod) (id : Nat) : Mod :=
  let c := m.core id
  let m := match c.launch with
    | some p => m.launchCore p (id % 8) .lost
    | none => m
  let m := match c.saved.bind Saved.launch with
    | some p => m.launchCore p (id % 8) .ctxLost
    | none => m
  let m := m.fenceMoves id
  match c.hold with
  | some p => m.releaseHold p.q [id] (fun _ => true)
  | none => m

/-- A core after its reset (R88, R385): its counters are 0, its memories undefined; its owner, generation and save area stay, and the
launches that wait for it. -/
def Mod.resetCore (m : Mod) (id : Nat) : Mod :=
  let e := m.free + 3
  ({ m with free := m.free + 3 } : Mod).updCore id (fun c =>
    { TCore.reset with
      st := if m.coreFenced id then .fenced else .idle, gen := c.gen, sector := c.sector, saveBase := c.saveBase, saveValid := c.saveValid
      fault := c.fault, queue := c.queue
      tile := { fill := .undef e, cells := [] }
      acc := { fill := .undef (e + 1), words := [] }
      sram := { fill := .undef (e + 2), words := [] } })

/-! ## Clusters -/

/-- A cluster is fenced: its queues are FENCED, its cores too (R290, R385). -/
def Mod.fenceCluster (m : Mod) (c : Nat) : Mod :=
  let m := (m.clusterQueues c).foldl (fun (m : Mod) (x : Nat × Queue) =>
    m.updQueue (.csq (Fin.ofNat 16384 x.1)) (fun q =>
      if q.st = .free || q.st = .fenced then q else { q with before := q.st, st := .fenced })) m
  let m := m.updCluster c (fun x => { x with fenced := true })
  (List.range 8).foldl (fun (m : Mod) (k : Nat) => m.fenceCore (8 * c + k)) m

/-- Every owed reply of a cluster's queues is written FENCED (R293). -/
def Mod.answerCluster (m : Mod) (c : Nat) : Mod :=
  (m.clusterQueues c).foldl (fun (m : Mod) (x : Nat × Queue) => m.answerQueue (.csq (Fin.ofNat 16384 x.1))) m

/-- A queue returns to its state before the fence; a shutdown under way counts as complete (R290). -/
def Mod.unfenceQueue (m : Mod) (q : QRef) : Mod :=
  let x := m.queue q
  if x.st ≠ .fenced then m
  else
    let m := m.setQueue q { x with st := x.before, before := .free }
    if x.before = .disabling then (m.finishDisable q).settleQueues shutdownChain x.waiters else m

/-- A cluster after its reset: its cores IDLE, its kernel store empty, its queues as they were (R385). -/
def Mod.resetCluster (m : Mod) (c : Nat) : Mod :=
  let m := (List.range 8).foldl (fun (m : Mod) (k : Nat) =>
    (m.resetCore (8 * c + k)).updCore (8 * c + k) (fun x => { x with queue := [] })) m
  let m := m.updCluster c (fun x => { x with fenced := m.clusterFenced c, slots := [] })
  if m.clusterFenced c then m else
  let m := (m.clusterQueues c).foldl (fun (m : Mod) (x : Nat × Queue) => m.unfenceQueue (.csq (Fin.ofNat 16384 x.1))) m
  match (m.cluster c).sector with
  | some s => m.settleSector s
  | none => m

/-! ## Collective engines -/

/-- An engine is fenced (R385): its flows are abandoned. -/
def Mod.fenceEngine (m : Mod) (e : Nat) : Mod :=
  { m.updEngine e (fun x => { x with st := .fenced, transfers := [] }) with
    txFlows := m.txFlows.filter (fun f => f.agent != e) }

/-- The running plan of an engine is replied FENCED (R401). -/
def Mod.answerEngine (m : Mod) (e : Nat) : Mod :=
  let x := m.engine e
  match x.plan with
  | some p => (m.updEngine e (fun x => { x with plan := none })).endCmd p 0x0401 0 x.executed
  | none => m

/-- An engine after its reset (R385): IDLE, its plan store and counters kept; a PLAN_START that waits begins. -/
def Mod.resetEngine (m : Mod) (e : Nat) : Mod :=
  let x := m.engine e
  let fenced := m.engineFenced e
  let m := m.setEngine e { x with st := if fenced then .fenced else .idle, step := 0, loops := [], transfers := [], plan := none,
                                  failing := false, queue := if fenced then x.queue else x.queue.drop 1 }
  if fenced then m else
  match x.queue with
  | (p, ws) :: _ => (m.startPlan e p ws).settlePlan e
  | [] => m

/-! ## Edge domains -/

/-- The fabric side of an edge domain is fenced: its ports RESET with DOWN_REASON 8, its engines fenced, what its ED holds dropped
(R385). -/
def Mod.fenceEdge (m : Mod) (x : Nat) : Mod :=
  let m := (List.range 8).foldl (fun (m : Mod) (k : Nat) => m.portReset (8 * x + k) 8) m
  let m := (List.range 16).foldl (fun (m : Mod) (k : Nat) => m.fenceEngine (16 * x + k)) m
  { m with inbox := m.inbox.filter (fun e => e.ed != x), routeWait := m.routeWait.filter (fun e => e.ed != x),
           arrived := m.arrived.filter (fun e => e.ed != x),
           rxFlows := m.rxFlows.filter (fun f => !(f.dstAgent < 64 && f.dstAgent / 16 == x)) }

/-- The plans of an edge domain are replied, its bookings end FENCED (R258). -/
def Mod.answerEdge (m : Mod) (x : Nat) : Mod :=
  let m := (List.range 16).foldl (fun (m : Mod) (k : Nat) => m.answerEngine (16 * x + k)) m
  (m.bookings.filter (fun b => b.1 == x)).foldl (fun (m : Mod) (b : Nat × Nat × Booking) => m.endBooking b.1 b.2.1 0x0401) m

/-! ## The steps of a recovery (R384) -/

/-- COMPUTE_UP of a die (R28). -/
def Mod.setCompute (m : Mod) (site : Nat) (up : Bool) : Mod :=
  let b : BitVec 25 := BitVec.ofNat 25 (1 <<< site)
  { m with computeUp := if up then m.computeUp ||| b else m.computeUp &&& ~~~b }

/-- The units of a domain are fenced and stopped (R384 steps 1 and 2). A port that has not reset itself goes to RESET with DOWN_REASON 8
(R224). -/
def Mod.fenceUnits (m : Mod) (d : Domain) : Mod :=
  match d with
  | .core c => m.fenceCore c
  | .cluster c => m.fenceCluster c
  | .td s => (domainClusters d).foldl Mod.fenceCluster (m.setCompute s false)
  | .engine e => m.fenceEngine e
  | .edge x => (m.fenceEdge x).setCompute (edSite x) false
  | .port p => if (m.port p).st = .reset then m else m.portReset p 8
  | .stack _ | .slice _ | .moduleWarm | .moduleCold => m

/-- Owed replies are written (R384 step 4). -/
def Mod.answerUnits (m : Mod) (d : Domain) : Mod :=
  match d with
  | .core c => m.answerCore c
  | .cluster c => m.answerCluster c
  | .td _ => (domainClusters d).foldl Mod.answerCluster m
  | .engine e => m.answerEngine e
  | .edge x => m.answerEdge x
  | .port _ | .stack _ | .slice _ | .moduleWarm | .moduleCold => m

/-- A requester lies in a domain (R390). -/
def requesterInside (r : Requester) (d : Domain) : Bool :=
  match r with
  | .core c => Domain.covers d (.core c)
  | .engine e => Domain.covers d (.engine e)
  | .pcie p => Domain.covers d (.edge (Fin.ofNat 4 (p.val / 2)))
  | .pd _ | .kd | .guest => false

/-- A die's or a stack's tag incremented (R387). -/
def Mod.bumpTag (m : Mod) (k : Nat) : Mod := { m with dieGens := Table.set 0 m.dieGens k ((Table.get 0 m.dieGens k + 1) % 256) }

/-- A core's tag incremented. -/
def Mod.bumpCore (m : Mod) (id : Nat) : Mod := m.updCore id (fun c => { c with gen := c.gen + 1 })

/-- A cluster's tag, those of its queues and of its cores incremented (R387). -/
def Mod.bumpCluster (m : Mod) (c : Nat) : Mod :=
  let m := m.updCluster c (fun x => { x with gen := x.gen + 1 })
  let m := (List.range 128).foldl (fun (m : Mod) (k : Nat) =>
    m.updQueue (.csq (Fin.ofNat 16384 (128 * c + k))) (fun q => { q with gen := q.gen + 1 })) m
  (List.range 8).foldl (fun (m : Mod) (k : Nat) => m.bumpCore (8 * c + k)) m

/-- Generation tags are incremented (R384 step 5): a port's own at its reset, and those of the disabled ports of an edge domain
here. -/
def Mod.bumpUnits (m : Mod) (d : Domain) : Mod :=
  match d with
  | .core c => m.bumpCore c
  | .cluster c => m.bumpCluster c
  | .td s => (domainClusters d).foldl Mod.bumpCluster (m.bumpTag (s.val * 8))
  | .engine e => m.updEngine e (fun x => { x with gen := x.gen + 1 })
  | .stack k => m.bumpTag (stackSite k * 8 + 1 + k.val % 4)
  | .edge x =>
    let m := (domainEngines d).foldl (fun (m : Mod) (e : Nat) => m.updEngine e (fun x => { x with gen := x.gen + 1 }))
      (m.bumpTag (edSite x * 8))
    (List.range 8).foldl (fun (m : Mod) (k : Nat) =>
      m.updPort (8 * x.val + k) (fun p => if p.st = .disabled then { p with generation := p.generation + 1 } else p)) m
  | .port _ | .slice _ | .moduleWarm | .moduleCold => m

/-- The domains inside a domain whose tags step 5 of its recovery increments, itself included (R388); a port's increment is counted at its
reset. -/
def Mod.bumpedBy (m : Mod) (d : Domain) : List Domain :=
  let cs := (domainClusters d).map (fun c => Domain.cluster (Fin.ofNat 128 c))
  let ks := (domainCores d).map (fun c => Domain.core (Fin.ofNat 1024 c))
  let es := (domainEngines d).map (fun e => Domain.engine (Fin.ofNat 64 e))
  match d with
  | .td _ => d :: cs ++ ks
  | .cluster _ | .core _ => cs ++ ks
  | .edge x => d :: es ++ ((List.range 8).filter (fun k => (m.port (8 * x.val + k)).st = .disabled)).map
      (fun k => Domain.port (Fin.ofNat 32 (8 * x.val + k)))
  | .engine _ => es
  | .port _ => []
  | _ => [d]

/-- The increments of a recovery are counted (R388). -/
def Mod.logIncrements (m : Mod) (d : Domain) : Mod := m.countBumps (m.bumpedBy d)

/-- The domain's transaction tags return to free, and its requests that wait are gone (R390). -/
def Mod.freeTags (m : Mod) (d : Domain) : Mod :=
  ({ m with txns := m.txns.filter (fun t => !requesterInside t.req d)
            tagWait := m.tagWait.filter (fun w => !requesterInside w.req d) } : Mod).resume

/-- The domain is reset, and its state restored (R384 step 6); what a slice kept for a fenced stack is written (R385). -/
def Mod.resetUnits (m : Mod) (d : Domain) : Mod :=
  match d with
  | .core c => (m.resetCore c).coreNext c
  | .cluster c => m.resetCluster c
  | .td s => (domainClusters d).foldl Mod.resetCluster (m.setCompute s true)
  | .engine e => m.resetEngine e
  | .edge x => (domainEngines d).foldl Mod.resetEngine (m.setCompute (edSite x) true)
  | .stack k => (m.cleanSlices (fun line => lineChan line < 2560 && lineChan line / 32 == k.val)).resume
  | .port _ | .slice _ | .moduleWarm | .moduleCold => m

/-! ## Aborts at DRAIN_MS (R291) -/

/-- A core's part in a launch that is aborted (R291): a core that runs it, or holds its saved context, is reported for reset; a
core it waits for drops it. -/
def Mod.abortLaunchOn (m : Mod) (p : PktRef) (id : Nat) : Mod :=
  let c := m.core id
  let k := id % 8
  if c.queue.any (fun l => l.pkt == p) then
    (m.setCore id { c with queue := c.queue.filter (fun l => l.pkt != p),
                           preemptFor := if (c.preemptFor.map LaunchWait.pkt) == some p then none else c.preemptFor }).launchCore p k .lost
  else if c.launch == some p || (match c.saved with | some s => s.launch == some p | none => false) then m.reportCore id
  else m

/-- One command of a queue aborted at DRAIN_MS (R291). Commands the table lets complete run on. -/
def Mod.abortCmd (m : Mod) (p : PktRef) (f : Flight) : Mod :=
  let counted := fun (m : Mod) => m.updQueue p.q (fun x => { x with aborted := x.aborted + 1 })
  let opc := pktOpc f.words
  match f.work with
  | .move j start => (counted m).endCmd p 0x0401 0 (leadingBlocks j start)
  | .launch mask _ _ _ _ =>
    (bitsSet mask.toNat 8).foldl (fun m i => m.abortLaunchOn p (queueNum p.q / 128 * 8 + i)) (counted m)
  | .preempt pre idle held =>
    ((counted m).endCmd p 0x0401 0 (pre.toNat + idle.toNat * 256)).releaseHold p.q
      ((bitsSet held.toNat 8).map (queueNum p.q / 128 * 8 + ·)) (fun _ => true)
  | .plan e =>
    if (m.engine e).plan = some p then (counted m).report (.engine e) else ((counted m).detach p f).endCmd p 0x0401 0 0
  | .booking ed i => (counted m).updBooking ed i (fun b => { b with ending := some (b.ending.getD 0x0401) })
  | .apply st =>
    if (m.set st).finalChecked then m else (counted m).leaveSet st 3 0x0401 0 0
  | .busy _ _ => if opc = 0x800 || opc = 0x602 then (counted m).endCmd p 0x0401 0 f.progress else m
  | .instant _ | .flushing _ _ _ => m
  | .none =>
    if f.stage = .running && m.remotes.any (fun r => r.pkt == p) then
      (counted { m with remotes := m.remotes.filter (fun r => r.pkt != p) }).endCmd p 0x0401 0 0
    else if f.stage = .dispatched && (opc = 0x101 || opc = 0x200 || opc = 0x201 || opc = 0x202) then
      (counted m).endCmd p 0x0401 0 0
    else m

/-- DRAIN_MS_EXPIRY: every command of a disabling queue that is still running is aborted; DRAIN_MS counts no time in the hold states (R376). -/
def execDrainMsExpiry (q : QRef) (s : State) : Host.Outcome State Fault Refusal :=
  let m := s.toMod
  let x := m.queue q
  s.go (if m.working && x.st = .disabling then x.owed.foldl (fun (m : Mod) (f : Flight) => m.abortCmd ⟨q, f.ix⟩ f) m else m)


end Sys2Proof.Machine
end

