-- ==== Sys2Proof/Machine/Sectors.lean ====
section
/-!
DEFINITION. Sectors: creation, assignment, teardown and scrubbing (R334 to R336, R352, R353), measurements (R348), sealed models
(R349 to R351), the anti-rollback fuses (R345).
-/
namespace Sys2Proof.Machine
open Sys2Proof

/-! ## Measurements (R348) -/

/-- KPR_PART_ID (R6). -/
def Part.word (p : Part) : Word :=
  pack [(0, 8, 0x19), (8, 4, 2), (16, 8, p.stackGib.toNat), (24, 4, p.fabricGenMax.toNat), (28, 1, flag p.guestSite),
        (32, 16, p.stepping.toNat)]

/-- SEC_SVN_FUSED and SEC_SVN_RUNNING: a counter a byte (R355). -/
def svnWord (t : Table Nat) : Word := pack ((List.range 4).map (fun c => (8 * c, 8, Table.get 0 t c)))

/-- A measurement takes a digest; the change is recorded (R348, R457). Index 8 of sector s stands at 16 + s. -/
def Mod.measure (m : Mod) (index : Nat) (d : BitVec 384) : Mod :=
  if Table.get 0 m.measurements index = d then m
  else ({ m with measurements := Table.set 0 m.measurements index d } : Mod).logEvent 0x05 (if index ≥ 16 then 8 else index) kdSite
    (if index ≥ 16 then index - 16 else 0x1F) (d.extractLsb' 0 64)

/-- Measurement 6 taken again. -/
def Mod.measureKeeper (m : Mod) : Mod :=
  m.measure 6 (Config.digest [m.part.word, svnWord m.svnFused, BitVec.ofNat 64 (flag m.part.hybridRequired),
    BitVec.ofNat 64 m.rootIndex, BitVec.ofNat 64 (flag m.unlocked)])

/-- A set of numbers as n words, 64 to a word. -/
def maskWords (l : List Nat) (n : Nat) : List Word :=
  (List.range n).map (fun i => BitVec.ofNat 64 (maskOf ((l.filter (fun x => x / 64 == i)).map (· % 64))))

/-- The ways of a sector, as 16 × md + way. -/
def Mod.sectorWays (m : Mod) (s : Nat) : List Nat :=
  (List.range 20).flatMap (fun md => (bitsSet (m.wayMask md s).toNat 16).map (16 * md + ·))

/-- SECTOR_CREATE words 2 and 8 to 63 with the masks now owned (R348). -/
def Mod.sectorRecord (m : Mod) (s : Nat) : List Word :=
  let ch := m.sectorChans s
  [wordAt (m.sector s).words 2] ++ maskWords (m.sectorClusters s) 2 ++ maskWords (m.sectorPds s) 6 ++
    maskWords (ch.filter (· < 2560)) 40 ++ maskWords ((ch.filter (· ≥ 2560)).map (· - 2560)) 1 ++
    maskWords (m.sectorEngines s) 1 ++ maskWords (m.sectorWays s) 5 ++ [m.bbPart 0 s]

/-- Measurement 8 of a sector taken again. -/
def Mod.measureSector (m : Mod) (s : Nat) : Mod := m.measure (16 + s) (Config.digest (m.sectorRecord s))

/-! ## Resources (R335, R336) -/

/-- Bits of a resource's mask field, by kind: 0 clusters, 1 PD cores, 2 tier-0 channels, 3 tier-1 channels, 4 engines, 5 ways. -/
def assignMask (ws : List Word) (kind : Nat) : List Nat := if kind < 6 then maskList ws kind 3 else []

/-- The words of SECTOR_CREATE that hold each kind's mask. -/
def createMask (ws : List Word) (kind : Nat) : List Nat := maskList ws kind ([8, 10, 16, 56, 57, 58].getD kind 8)

/-- The burst-buffer area of a word: first and one past the last 64 KiB unit (R269). -/
def bbRange (w : Word) : Nat × Nat := (bits w 9 0, bits w 9 0 + bits w 26 16)

/-- The records of the packets of every queue. -/
def Mod.allFlights (m : Mod) : List Flight :=
  m.queues.flatMap (fun q => q.2.flights) ++ m.mqs.flatMap (fun q => q.2.flights) ++ m.remoteQ.flights

/-- The SECTOR_ASSIGNs of a KIND that wait for their instant to add. -/
def Mod.addsWaiting (m : Mod) (kind : Nat) : List (List Word) :=
  m.allFlights.filterMap (fun f => match f.work with
    | .instant _ =>
      if pktOpc f.words == 0x022 && !bit (wordAt f.words 2) 4 && bits (wordAt f.words 2) 10 8 == kind then some f.words else none
    | _ => none)

/-- A create or an assignment that waits for its instant names a resource (log entry 29). -/
def Mod.claimed (m : Mod) (kind i : Nat) : Bool :=
  m.sectors.any (fun p => p.2.st == 1 && (createMask p.2.words kind).contains i) ||
    (m.addsWaiting kind).any (fun ws => (assignMask ws kind).contains i)

/-- A TEST_RUN of a KIND is running on a unit (R394). -/
def Mod.underTest (m : Mod) (kind n : Nat) : Bool := m.allFlights.any (fun f => f.work == .busy 6 (kind * 2 ^ 32 + n))

/-- A channel of either tier that a sector cannot take (R192, R335, R353). -/
def Mod.channelTaken (m : Mod) (ch s : Nat) : Bool :=
  let k := chanCtl ch
  let x := m.ctl k.1
  (m.chanOwner ch).isSome || !m.chanInService ch || x.dirty.getLsbD k.2 || m.underTest 1 ch ||
    m.sectors.any (fun p => p.1 != s && p.2.reserved.contains ch)

/-- A resource is owned, out of service, pending a fill, or a way in another sector's mask (R335). -/
def Mod.taken (m : Mod) (kind i s : Nat) : Bool :=
  m.claimed kind i ||
    (match kind with
     | 0 =>
       let c := m.cluster i
       c.sector.isSome || c.mappedOut || m.underTest 0 i || c.dirty
     | 1 =>
       let c := m.pdCore i
       c.owner.isSome || c.heldOut || c.dirty || m.guestAt (pdSite (i / 96))
     | 2 => m.channelTaken i s
     | 3 => m.channelTaken (2560 + i) s
     | 4 => (m.engine i).sector.isSome
     | _ =>
       m.guestAt (mdSite (i / 16)) || (m.slice (i / 16)).cleaning.getLsbD (i % 16) ||
         (List.range 16).any (fun t => m.holdsWays t && (m.wayMask (i / 16) t).getLsbD (i % 16)))

/-- The burst-buffer areas of the other sectors: those in force, and those of creates and assignments that wait for their instant. -/
def Mod.bbAreas (m : Mod) (s : Nat) : List Word :=
  ((List.range 16).filter (· != s)).map (m.bbPart 0) ++
    (m.sectors.filter (fun p => p.1 != s && p.2.st == 1)).map (fun p => wordAt p.2.words 63) ++
    ((m.addsWaiting 6).filter (fun ws => bits (wordAt ws 2) 3 0 != s)).map (fun ws => wordAt ws 3)

/-- A burst-buffer area overlaps another sector's. -/
def Mod.bbTaken (m : Mod) (w : Word) (s : Nat) : Bool :=
  let r := bbRange w
  (m.bbAreas s).any (fun a =>
    let o := bbRange a
    decide (r.1 < o.2) && decide (o.1 < r.2) && decide (r.1 < r.2) && decide (o.1 < o.2))

/-- A way leaves every mask that a warm restart left it in. -/
def Mod.takeWay (m : Mod) (md way : Nat) : Mod :=
  (List.range 16).foldl (fun (m : Mod) (t : Nat) =>
    m.setReg (mdSite md) (0x3000100 + t * 8) 0 (m.wayMask md t &&& ~~~(BitVec.ofNat 64 (1 <<< way)))) m

/-- A sector that begins owns only the ways it is given: what a warm restart left of its masks goes. -/
def Mod.clearWays (m : Mod) (s : Nat) : Mod := m.setRegs ((List.range 20).map mdSite) (0x3000100 + s * 8) 0 0

/-- Resources of a kind given to a sector. -/
def Mod.grantKind (m : Mod) (kind s : Nat) (l : List Nat) : Mod :=
  let sec : Option SectorId := some (Fin.ofNat 16 s)
  l.foldl (fun (m : Mod) (i : Nat) =>
    match kind with
    | 0 => m.ownCluster i sec
    | 1 => m.setPdCore i { m.pdCore i with owner := sec, running := true }
    | 2 => m.ownChannel i sec
    | 3 => m.ownChannel (2560 + i) sec
    | 4 => m.updEngine i (fun x => { x with sector := sec })
    | _ =>
      let old := m.wayMask (i / 16) s
      (m.takeWay (i / 16) (i % 16)).setReg (mdSite (i / 16)) (0x3000100 + s * 8) 0 (old ||| BitVec.ofNat 64 (1 <<< (i % 16)))) m

/-- The sites of the four EDs. -/
def edSites : List Nat := (List.range 4).map edSite

/-! ## Creation (R334, R335) -/

/-- The first refusal of a SECTOR_CREATE (R335): its status and DETAIL. -/
def Mod.createFault (m : Mod) (s : Nat) (ws : List Word) : Option (Nat × Nat) :=
  let w2 := wordAt ws 2
  let clusters := createMask ws 0
  let pds := createMask ws 1
  let attached := bit w2 4
  let pkey := bits w2 23 8
  let st := (m.sector s).st
  let busy := [0, 1, 2, 3, 4, 5].findSome? (fun k => (createMask ws k).find? (fun i => m.taken k i s))
  if st = 1 || st = 2 || st = 3 then some (0x0202, s)
  else if !clusters.contains (bits (wordAt ws 3) 13 0 / 128) then some (0x0104, 64)
  else if (if attached then !pds.isEmpty else pds.isEmpty) then some (0x0104, 80)
  else if attached && (m.pciePort (bits w2 7 5)).mode ≠ 2 then some (0x0104, 16)
  else if pkey = 0 || m.sectors.any (fun p => p.1 != s && p.2.st != 0 && p.2.st != 6 && p.2.pkey == pkey) then some (0x0104, 17)
  else
    match busy with
    | some i => some (0x0202, i)
    | none =>
      if m.bbTaken (wordAt ws 63) s then some (0x0202, 0) else none

/-- The first tick boundary at least 64 ticks after the dispatch of a packet (R301). -/
def Mod.localInstant (m : Mod) (p : PktRef) : Word :=
  BitVec.ofNat 64 (ceilDiv (((m.flight p).elim m.beacon.bt Flight.at_).toNat + 65536) 1024 * 1024)

/-- A sector receives fresh keys but for the retained slots it adopts, whether an entry still names them or not (R340, R341). -/
def Mod.sectorKeys (m : Mod) (s : Nat) : Mod :=
  [0, 1, 2, 3].foldl (fun (m : Mod) (i : Nat) =>
    let n := 4 * s + i
    if (m.keySlot n).valid && (m.keySlot n).retained then m else m.genKey n) m

/-- A SECTOR_CREATE is checked, and the sector is CREATING (R334). -/
def Mod.createSector (m : Mod) (p : PktRef) (ws : List Word) (deferred : Bool) : Mod :=
  let s := bits (wordAt ws 2) 3 0
  match m.createFault s ws with
  | some (st, d) => m.endCmd p st d 0
  | none =>
    let m := (m.sectorKeys s).sectorState s 1 0x020
    let x := m.sector s
    let m := m.setSector s { x with attached := bit (wordAt ws 2) 4, hostPort := bits (wordAt ws 2) 7 5,
                                    firstQueue := bits (wordAt ws 3) 13 0, pkey := bits (wordAt ws 2) 23 8, words := ws }
    (m.running p (.instant (m.localInstant p))).updFlight p (fun f => { f with progress := flag deferred })

/-- Why a SECTOR_CREATE is refused at dispatch (R335): during a teardown of the same number, because another is held (R292). Before
first-sector-ready it waits unchecked (log entry 30). -/
def Mod.newSectorFault (m : Mod) (ws : List Word) : Option (Nat × Nat) :=
  let n := bits (wordAt ws 2) 3 0
  let x := m.sector n
  if m.boot.phase ≠ 7 then none
  else if x.st = 4 || x.st = 5 then (if x.create.isSome then some (0x0203, 0) else none)
  else m.createFault n ws

/-- SECTOR_CREATE: before first-sector-ready it waits (log entry 30); during a teardown of the same number it is held (R292). -/
def execSectorCreate (p : PktRef) (s : State) : Host.Outcome State Fault Refusal :=
  let m := s.toMod
  s.go (if m.boot.phase ≠ 7 then m else m.command p 0x020 (fun ws =>
    let n := bits (wordAt ws 2) 3 0
    let x := m.sector n
    if x.st = 4 || x.st = 5 then
      if x.create.isSome then m.endCmd p 0x0203 0 0
      else (m.setSector n { x with create := some p }).running p .none
    else m.createSector p ws false))

/-! ## Teardown (R334) -/

/-- A sector's engine is fenced for good: the plan it runs and those that wait are replied FENCED. -/
def Mod.stopEngine (m : Mod) (e : Nat) : Mod :=
  let waiting := (m.engine e).queue
  let m := (m.fenceEngine e).answerEngine e
  waiting.foldl (fun (m : Mod) (x : PktRef × List Word) => m.endCmd x.1 0x0401 0 0)
    (m.updEngine e (fun x => { x with queue := [] }))

/-- A sector's bookings end at the next frame boundary, FENCED (R258). -/
def Mod.endBookings (m : Mod) (s : Nat) : Mod :=
  (m.bookings.filter (fun b => b.2.2.sector.val == s)).foldl (fun (m : Mod) (b : Nat × Nat × Booking) =>
    m.updBooking b.1 b.2.1 (fun x => { x with ending := some (x.ending.getD 0x0401) })) m

/-- A sector's staged set is emptied, unless it is being applied (R48, R457). -/
def Mod.dropSectorSets (m : Mod) (s : Nat) : Mod :=
  m.dropSets 5 0x0401 (fun x => x.owner == some (.sector (Fin.ofNat 16 s)) && x.st != .empty && x.st != .applying)

/-- A sector's moorings that a condition names are removed. -/
def Mod.dropMoorings (m : Mod) (which : Mooring → Bool) : Mod :=
  { m with moorings := m.moorings.filter (fun p => !which p.2) }

/-- The queues of a sector. -/
def Mod.sectorQueues (m : Mod) (s : Nat) : List QRef :=
  (m.sectorClusters s).flatMap (fun c => (m.clusterQueues c).map (fun q => .csq (Fin.ofNat 16384 q.1)))

/-- Queues that a reset in DRAINING fenced are FREE once nothing of them is owed (log entry 107). -/
def Mod.freeDrained (m : Mod) (s : Nat) : Mod :=
  if (m.sector s).st = 4 then
    ((m.sectorQueues s).foldl (fun (m : Mod) (q : QRef) => m.updQueue q (fun x =>
      if x.st = .fenced && x.before = .free && x.owed.isEmpty then x.freed else x)) m).settleSector s
  else m

/-- A teardown begins (R334): queues disabled, engines fenced, bookings ending, sets emptied, moorings removed. Queues that a reset under
way has fenced are FREE. -/
def Mod.startTeardown (m : Mod) (s : Nat) : Mod :=
  let queues := (m.sectorClusters s).flatMap (fun c => (m.clusterQueues c).map (·.1))
  let m := m.sectorState s 4 0x021
  let m := (m.sectorEngines s).foldl Mod.stopEngine m
  let m := ((m.endBookings s).dropSectorSets s).dropMoorings (fun x => x.sector == s)
  (queues.foldl (fun (m : Mod) (n : Nat) => m.startDisable (.csq (Fin.ofNat 16384 n)) none) m).freeDrained s

/-- SECTOR_TEARDOWN. -/
def execSectorTeardown (p : PktRef) (s : State) : Host.Outcome State Fault Refusal :=
  let m := s.toMod
  s.go (m.command p 0x021 (fun ws =>
    let n := bits (wordAt ws 2) 3 0
    let x := m.sector n
    let m1 := (m.setSector n { x with teardowns := x.teardowns ++ [p] }).running p .none
    match x.st with
    | 0 => m.endCmd p 0 0 0
    | 1 => m1
    | 4 | 5 =>
      let m2 := m1.setSector n { m1.sector n with create := none }
      (match x.create with
       | some c => m2.endCmd c 0x0802 0 0
       | none => m2)
    | 6 =>
      let m2 := (m1.dropKeys n).sectorState n 5 0x021
      m2.setSector n { m2.sector n with keysGone := m2.beacon.bt }
    | _ => m1.startTeardown n))

/-! ## Scrub and release (R352, R353) -/

/-- A line of a slice lies in a way that is taken from its sector. -/
def inLostWay (s way : Nat) (l : Option SliceLine) : Bool :=
  match l with
  | some l => l.sector.val == s && l.way == way
  | none => false

/-- The lines a slice holds for a sector in a way that is taken from it are gone, without writeback, and so are their entries of its snoop
filter (R352): a copy that a core holds is back-invalidated, as any line whose entry goes (R207, log entry 125). -/
def Mod.loseWay (m : Mod) (md s way : Nat) : Mod :=
  let x := m.slice md
  let lost := (x.lines.filter (fun p => inLostWay s way p.2)).map (·.1)
  let m := m.setSlice md { x with lines := x.lines.filter (fun p => !inLostWay s way p.2) }
  lost.foldl Mod.recall m

/-- A way leaves a sector by a release. -/
def Mod.freeWay (m : Mod) (i s : Nat) : Mod :=
  let md := i / 16
  let left := m.wayMask md s &&& ~~~(BitVec.ofNat 64 (1 <<< (i % 16)))
  (m.setReg (mdSite md) (0x3000100 + s * 8) 0 left).loseWay md s (i % 16)

/-- A sector's burst-buffer area is zero, and no area. -/
def Mod.freeBurst (m : Mod) (s : Nat) : Mod :=
  let r := bbRange (m.bbPart 0 s)
  (m.scrubBurst (r.1 * 65536) (r.2 * 65536)).setRegs edSites (0x300 + s * 8) 0 0

/-- An engine leaves its sector: what runs or waits on it is replied FENCED. -/
def Mod.releaseEngine (m : Mod) (e : Nat) : Mod := (m.stopEngine e).freeEngine e

/-- The sites of the memory controllers, with the offset of each one's block. -/
def controllerBlocks : List (Nat × Nat) :=
  (List.range 80).map (fun k => (mdSite (k / 4), 0x2000000 + k % 4 * 0x100000)) ++
    (List.range 16).map (fun k => (pdSite (k / 4), 0x2400000 + k % 4 * 0x100000))

/-- The registers of a sector return to their cold-reset values (R352). -/
def Mod.clearSectorRegs (m : Mod) (s : Nat) : Mod :=
  let m := controllerBlocks.foldl (fun (m : Mod) (b : Nat × Nat) =>
    [0, 1, 2, 3].foldl (fun (m : Mod) (i : Nat) => m.setReg b.1 (b.2 + 0x200 + s * 0x20 + i * 8) 0 0)
      (m.setReg b.1 (b.2 + 0x100 + s * 8) 0x400000 0x400000)) m
  let m := m.setRegs ((List.range 20).map mdSite) (0x3000100 + s * 8) 0 0
  let m := (m.setRegs edSites (0x100 + s * 8) 0 0).setRegs edSites (0x200 + s * 8) 0 0
  [0, 8].foldl (fun (m : Mod) (o : Nat) => m.setReg kdSite (0x60100 + s * 16 + o) 0x1B1B1B1B1B1B1B1B 0x1B1B1B1B1B1B1B1B) m

/-- A PCIe/CXL port whose link is down (R316). -/
def PciePort.down (x : PciePort) : PciePort :=
  { x with linkUp := false, rate := 0, width := 0, protocol := 0, ideActive := false, flit := false, devices := 0 }

/-- A PCIe/CXL port's link takes a new state; an adapter root's raises its PD's source 40 + P (R311). -/
def Mod.linkSet (m : Mod) (p : Nat) (x : PciePort) : Mod :=
  let m := m.updPcie p (fun _ => x)
  if x.mode = 1 then m.raiseSource (pdSite (tier2Home m.part.guestSite p)) (40 + p) else m

/-- An adapter root port leaves its sector: a hot reset of its link, which goes down and trains again, and its IOMMU instance reset
(R352). -/
def Mod.resetRoot (m : Mod) (p : Nat) : Mod :=
  let m : Mod := { m with iotlb := m.iotlb.filter (fun t => t.port.val != p), adapterWait := m.adapterWait.filter (fun t => t.port.val != p) }
  if (m.pciePort p).linkUp && (m.pciePort p).mode = 1 then m.linkSet p (m.pciePort p).down else m

/-- An adapter root port of a sector is released by its teardown (R352). -/
def Mod.freeRoot (m : Mod) (p : Nat) : Mod :=
  let off := 0x4800000 + p % 2 * 0x100000
  let c := m.reg (edSite (p / 2)) off 0x1F0C
  (m.resetRoot p).setReg (edSite (p / 2)) off 0x1F0C (c ||| 0x1F00)

/-- The adapter root ports of a sector. -/
def Mod.sectorRoots (m : Mod) (s : Nat) : List Nat :=
  (List.range 8).filter (fun p => bits (m.reg (edSite (p / 2)) (0x4800000 + p % 2 * 0x100000) 0x1F0C) 12 8 == s)

/-- The sector's region entries go; those of tier 2 with their fills pending (R352, R353). -/
def Mod.dropRegions (m : Mod) (s : Nat) (which : Region → Bool) : Mod :=
  (m.regions.filter (fun p => p.2.valid && p.2.sector == s && which p.2)).foldl (fun (m : Mod) (p : Nat × Region) =>
    let m := (m.scrubFootprint p.2).setRegion p.1 Region.reset
    if p.2.tier = 2 then { m with fills := m.fills ++ [.granules (p.2.base / 2097152) (p.2.size / 2097152)] } else m) m

/-- Everything but the deferred fills is clear, and ownership and grants are released (R334, R352). -/
def Mod.releaseSector (m : Mod) (s : Nat) : Mod :=
  let m := m.dropRegions s (fun _ => true)
  let m := (m.sectorClusters s).foldl Mod.freeCluster m
  let m := (m.sectorEngines s).foldl Mod.freeEngine m
  let m := (m.sectorPds s).foldl Mod.freePd m
  let m := (m.sectorChans s).foldl Mod.freeChannel m
  let m := (m.sector s).reserved.foldl Mod.freeChannel m
  let m := (List.range 20).foldl (fun (m : Mod) (md : Nat) => m.scrubWays md s) m
  let m := (m.sectorRoots s).foldl Mod.freeRoot m
  let x := m.sector s
  let m := if x.attached then m.setFn x.hostPort (1 + s) { Fn.reset with gen := (m.fn x.hostPort (1 + s)).gen } else m
  ((m.freeBurst s).clearSectorRegs s).dropMoorings (fun x => x.sector == s)

/-- SCRUB_COMPLETE: the sector is FREE, its teardown is replied with the time since its keys went, and a held create runs (R292,
R334, R353). -/
def execScrubComplete (sector : SectorId) (s : State) : Host.Outcome State Fault Refusal :=
  let m := s.toMod
  let x := m.sector sector
  s.go (if x.st ≠ 5 then m
    else
      let us := (m.bt - x.keysGone.toNat) / 1000
      let m := (m.releaseSector sector).sectorState sector 0 0
      let m := m.setSector sector Sector.reset
      let m := ({ m with scrubLast := min us 0xFFFFFFFF } : Mod).measureSector sector
      let m := x.teardowns.foldl (fun (m : Mod) (p : PktRef) => m.endCmd p 0 0 us) m
      match x.create with
      | some p =>
        (match m.flight p with
         | some f => m.createSector p f.words true
         | none => m)
      | none => m)

/-- DEFERRED_FILL_DONE: the n-th pending fill has ended, and its channel or granules can be owned again (R353). -/
def execDeferredFillDone (n : Nat) (s : State) : Host.Outcome State Fault Refusal :=
  let m := s.toMod
  s.go (match m.fills[n]? with
    | none => m
    | some f =>
      let m : Mod := { m with fills := m.fills.eraseIdx n }
      match f with
      | .channel ch => m.markChannel (2560 + ch) false
      | .granules _ _ => m)

/-! ## Assignment (R292, R305) -/

/-- Clusters of a list whose release from a sector is under way (R292). -/
def Mod.releasing (m : Mod) (l : List Nat) : Bool :=
  m.allFlights.any (fun f => match f.work with
    | .busy k _ => k == 3 && (assignMask f.words 0).any l.contains
    | _ => false)

/-- Packets of every queue whose record meets a condition. -/
def Mod.packetsWhere (m : Mod) (which : Flight → Bool) : List PktRef :=
  m.queues.flatMap (fun q => (q.2.flights.filter which).map (fun f => ⟨.csq (Fin.ofNat 16384 q.1), f.ix⟩)) ++
    m.mqs.flatMap (fun q => (q.2.flights.filter which).map (fun f => ⟨.mq (Fin.ofNat 64 q.1), f.ix⟩)) ++
    (m.remoteQ.flights.filter which).map (fun f => ⟨.remote, f.ix⟩)

/-- An assignment held for a release that names one of a list's clusters. -/
def heldFor (l : List Nat) (f : Flight) : Bool :=
  match f.work with
  | .busy k _ => k == 4 && (assignMask f.words 0).any l.contains
  | _ => false

/-- How many resources an assignment names. -/
def assignCount (ws : List Word) (kind : Nat) : Nat := if kind = 6 then 1 else (assignMask ws kind).length

/-- An addition is checked as a creation is, and waits for its instant: an attached sector takes no PD cores (R305, R319, R335). -/
def Mod.assignAdd (m : Mod) (p : PktRef) (ws : List Word) (deferred : Bool) : Mod :=
  let s := bits (wordAt ws 2) 3 0
  let kind := bits (wordAt ws 2) 10 8
  if kind = 1 && (m.sector s).attached && !(assignMask ws 1).isEmpty then m.endCmd p 0x0104 24 0
  else
  match (if kind = 6 then (if m.bbTaken (wordAt ws 3) s then some 0 else none)
         else (assignMask ws kind).find? (fun i => m.taken kind i s)) with
  | some i => m.endCmd p 0x0202 i 0
  | none => (m.running p (.instant (m.localInstant p))).updFlight p (fun f => { f with progress := flag deferred })

/-- A resource of a kind belongs to a sector. -/
def Mod.owned (m : Mod) (kind i s : Nat) : Bool :=
  let own := fun (o : Option SectorId) => match o with | some x => x.val == s | none => false
  match kind with
  | 0 => own (m.cluster i).sector
  | 1 => own (m.pdCore i).owner
  | 2 => own (m.chanOwner i)
  | 3 => own (m.chanOwner (2560 + i))
  | 4 => own (m.engine i).sector
  | _ => (m.wayMask (i / 16) s).getLsbD (i % 16)

/-- Clusters that all belong to a sector: assigning them to it asks for nothing new (R292). -/
def Mod.settled (m : Mod) (l : List Nat) (s : Nat) : Bool := !l.isEmpty && l.all (fun i => m.owned 0 i s)

/-- The valid entry whose channel list holds one of the channels (R177). -/
def Mod.listed (m : Mod) (l : List Nat) : Option Nat :=
  (m.regions.find? (fun p => p.2.valid && p.2.chans.any l.contains)).map (·.1)

/-- The clusters of a list hold the last ADMIN queue of their sector (R305). -/
def Mod.lastAdmin (m : Mod) (s : Nat) (l : List Nat) : Bool :=
  let admin := fun (c : Nat) => (m.clusterQueues c).any (fun q => q.2.admin && q.2.st != .free)
  l.any admin && !((m.sectorClusters s).filter (fun c => !l.contains c)).any admin

/-- The PD cores of a list are all that a self-hosted sector has, waiting releases counted: it owns at least one (R319). The spec gives no
status for their release; the model's is BAD_PARAM (DESIGN CHOICE, log entry 116). -/
def Mod.lastPds (m : Mod) (s : Nat) (l : List Nat) : Bool :=
  let leaving := m.allFlights.flatMap (fun f => match f.work with
    | .instant _ =>
      if pktOpc f.words == 0x022 && bit (wordAt f.words 2) 4 && bits (wordAt f.words 2) 10 8 == 1 then assignMask f.words 1 else []
    | _ => [])
  !(m.sector s).attached && !l.isEmpty && (m.sectorPds s).all (fun i => l.contains i || leaving.contains i)

/-- A release: clusters go through the shutdown of their queues, all else leaves at the instant (R292, R301). A second release
of a cluster under release cancels an assignment held for it. -/
def Mod.assignRelease (m : Mod) (p : PktRef) (ws : List Word) : Mod :=
  let s := bits (wordAt ws 2) 3 0
  let kind := bits (wordAt ws 2) 10 8
  let l := assignMask ws kind
  let chans := if kind = 2 then l else if kind = 3 then l.map (2560 + ·) else []
  if kind < 6 && l.any (fun i => !m.owned kind i s) then m.endCmd p 0x0302 24 0
  else if kind = 1 && m.lastPds s l then m.endCmd p 0x0104 24 0
  else
    match m.listed chans with
    | some n => m.endCmd p 0x0202 n 0
    | none =>
      if kind = 0 then
        if m.lastAdmin s l then
          m.endCmd p 0x0202 ((l.find? (fun c => (m.clusterQueues c).any (fun q => q.2.admin && q.2.st != .free))).getD 0) 0
        else
          let m := (m.packetsWhere (heldFor l)).foldl (fun (m : Mod) (r : PktRef) => m.endCmd r 0x0802 0 0) m
          let m := m.running p (.busy 3 (m.localInstant p).toNat)
          (l.flatMap (fun c => (m.clusterQueues c).map (·.1))).foldl (fun (m : Mod) (n : Nat) =>
            m.startDisable (.csq (Fin.ofNat 16384 n)) none) m
      else m.running p (.instant (m.localInstant p))

/-- SECTOR_ASSIGN: of a sector that is ACTIVE or RESETTING. Clusters that are the sector's already are assigned at once (R292). -/
def execSectorAssign (p : PktRef) (s : State) : Host.Outcome State Fault Refusal :=
  let m := s.toMod
  s.go (m.command p 0x022 (fun ws =>
    let n := bits (wordAt ws 2) 3 0
    let kind := bits (wordAt ws 2) 10 8
    let st := (m.sector n).st
    if st ≠ 2 && st ≠ 3 then m.endCmd p 0x0202 n 0
    else if bit (wordAt ws 2) 4 then m.assignRelease p ws
    else if kind = 0 && m.releasing (assignMask ws 0) then
      (if (m.packetsWhere (heldFor (assignMask ws 0))).isEmpty then m.running p (.busy 4 0) else m.endCmd p 0x0203 0 0)
    else if kind = 0 && m.settled (assignMask ws 0) n then m.endCmd p 0 0 0
    else m.assignAdd p ws false))

/-! ## Instants (R301) -/

/-- A created sector is ACTIVE (R334): ownership, grants, PKEY, floors, way masks and burst-buffer areas take effect, its first
queue is ENABLED, its PD cores run. -/
def Mod.activate (m : Mod) (s : Nat) : Mod :=
  let x := m.sector s
  let ws := x.words
  let m := x.reserved.foldl (fun (m : Mod) (ch : Nat) => m.ownChannel ch (some (Fin.ofNat 16 s))) m
  let m := [0, 1, 2, 3, 4, 5].foldl (fun (m : Mod) (k : Nat) => m.grantKind k s (createMask ws k)) (m.clearWays s)
  let m := m.setRegs edSites (0x100 + s * 8) 0 (pack [(0, 16, x.pkey), (16, 1, 1)])
  let m := m.setRegs edSites (0x200 + s * 8) 0 (pack [(0, 12, bits (wordAt ws 2) 35 24)])
  let m := m.setRegs edSites (0x300 + s * 8) 0 (wordAt ws 63 &&& 0x7FF03FF#64)
  let q : QRef := .csq (Fin.ofNat 16384 x.firstQueue)
  let m := m.setQueue q ((m.queue q).configured ws 3 true .enabled)
  let m := if x.attached then
      m.setFn x.hostPort (1 + s) { m.fn x.hostPort (1 + s) with active := true, ready := true }
    else m
  let m := m.setSector s { m.sector s with reserved := [] }
  (m.sectorState s 2 0x020).measureSector s

/-- A release of resources other than clusters. -/
def Mod.releaseKind (m : Mod) (kind s : Nat) (l : List Nat) : Mod :=
  l.foldl (fun (m : Mod) (i : Nat) =>
    match kind with
    | 1 => m.freePd i
    | 2 => m.freeChannel i
    | 3 => m.freeChannel (2560 + i)
    | 4 => m.releaseEngine i
    | _ => m.freeWay i s) m

/-- A SECTOR_ASSIGN takes effect. -/
def Mod.assignNow (m : Mod) (ws : List Word) : Mod :=
  let s := bits (wordAt ws 2) 3 0
  let kind := bits (wordAt ws 2) 10 8
  let l := assignMask ws kind
  (if bit (wordAt ws 2) 4 then (if kind = 6 then m.freeBurst s else m.releaseKind kind s l)
   else if kind = 6 then m.setRegs edSites (0x300 + s * 8) 0 (wordAt ws 3 &&& 0x7FF03FF#64)
   else m.grantKind kind s l).measureSector s

/-- A release of clusters is complete: they are scrubbed, and an assignment held for them runs (R292). -/
def Mod.releaseClusters (m : Mod) (p : PktRef) (ws : List Word) : Mod :=
  let l := assignMask ws 0
  let m := (l.foldl Mod.freeCluster m).measureSector (bits (wordAt ws 2) 3 0)
  let held := m.packetsWhere (heldFor l)
  let m := m.endCmd p 0 0 l.length
  held.foldl (fun (m : Mod) (r : PktRef) =>
    match m.flight r with
    | some f => if m.releasing (assignMask f.words 0) then m else m.assignAdd r f.words true
    | none => m) m

/-- The idle phase of a PHASE_SET's clusters (R303). -/
def Mod.phaseNow (m : Mod) (ws : List Word) : Mod :=
  (maskList ws 0 3).foldl (fun (m : Mod) (c : Nat) => m.updCluster c (fun x => { x with idlePhase := bits (wordAt ws 2) 3 0 })) m

/-- MODULE_LOCAL_INSTANT: the local beacon time has reached the instant of a packet. -/
def execModuleLocalInstant (p : PktRef) (s : State) : Host.Outcome State Fault Refusal :=
  let m := s.toMod
  s.go (match m.flight p with
    | none => m
    | some f =>
      let n := bits (wordAt f.words 2) 3 0
      let status := if f.progress = 1 then 0x0801 else 0
      match f.work with
      | .instant t =>
        if m.bt < t.toNat then m
        else if pktOpc f.words = 0x020 then
          let m := (m.activate n).endCmd p status 0 0
          if (m.sector n).teardowns.isEmpty then m else m.startTeardown n
        else if pktOpc f.words = 0x022 then
          (m.assignNow f.words).endCmd p status 0 (assignCount f.words (bits (wordAt f.words 2) 10 8))
        else (m.phaseNow f.words).endCmd p 0 0 0
      | .busy k t =>
        if k = 3 && t ≤ m.bt && (assignMask f.words 0).all m.clusterQuiet then m.releaseClusters p f.words else m
      | _ => m)

/-! ## Sealed models (R349 to R351) -/

/-- A SEALED_LOAD of a sector uses a model slot. -/
def Mod.loading (m : Mod) (s slot : Nat) : Bool :=
  m.queues.any (fun q => (match (m.cluster (q.1 / 128)).sector with | some x => x.val == s | none => false) &&
    q.2.flights.any (fun f => f.stage == .running && pktOpc f.words == 0x602 && bits (wordAt f.words 2) 2 0 == slot))

/-- The cause for which a blob is refused (R349): 3, or none. -/
def Mod.blobFault (m : Mod) (bs : List Byte) : Bool :=
  let num := fun (o n : Nat) => numOf ((bs.drop o).take n)
  let ext := num 6 2
  let nodes := (List.range (ext / 3)).map (fun i => num (44 + 3 * i) 3)
  let na := num 16 8
  bs.length != 92 + ext || ext % 3 != 0 || num 0 4 != 0x5345414C || num 4 1 != 1 || num 5 1 != 0 || num 28 4 != 0 ||
    (!nodes.isEmpty && !(match m.nodeId 0 with | some n => nodes.contains n | none => false)) ||
    (na != 0 && (decide (na ≤ m.bt) || !m.beacon.locked))

/-- What bytes decrypt to under AES-256-GCM (log entry 28). -/
def gcmPlain (key iv cipher : List Byte) : List Byte :=
  (cipher.zip (List.range cipher.length)).map (fun x => x.1 ^^^ Config.gcmStream key iv x.2)

/-- A tag is the one that AES-256-GCM gives a plaintext and its additional data (log entry 28). -/
def gcmSound (key iv aad plain tag : List Byte) : Bool := tag == (List.range 16).map (fun k => Config.gcm key iv aad plain (plain.length + k))

/-- The key that wraps a sector's model keys under a session (R349). -/
def wrapKey (ems s : Nat) : List Byte := (List.range 32).map (Config.hkdf ems (asciiBytes "kweran model wrap" ++ [BitVec.ofNat 8 s]))

/-- The model key of a blob, and whether its tag is valid (R349). -/
def unwrapBlob (ems s : Nat) (bs : List Byte) : List Byte × Bool :=
  let at_ := fun (o n : Nat) => (bs.drop o).take n
  let ext := numOf (at_ 6 2)
  let key := gcmPlain (wrapKey ems s) (at_ 32 12) (at_ (44 + ext) 32)
  (key, gcmSound (wrapKey ems s) (at_ 32 12) (bs.take (44 + ext)) key (at_ (76 + ext) 16))

/-- SEALED_KEY_INSTALL, with what the check of the blob's tag finds; a finding that is not the bytes' own is no such event. -/
def execSealedKeyInstall (p : PktRef) (tagOk : Bool) (s : State) : Host.Outcome State Fault Refusal :=
  let m := s.toMod
  s.go (m.command p 0x601 (fun ws =>
    match m.queueSector p.q with
    | none => m.endCmd p 0x0301 0 0
    | some sec =>
      let slot := bits (wordAt ws 2) 2 0
      let id : BitVec 32 := (wordAt ws 2).extractLsb' 32 32
      let k := sec.val * 8 + slot
      let blob := bits (wordAt ws 3) 55 0
      let busy := m.loading sec slot
      if blob = 0 then
        if busy then m.endCmd p 0x0306 4 0 else ({ m with models := Table.set none m.models k none } : Mod).endCmd p 0 0 0
      else
        match m.sessions.find? (fun x => x.id == id) with
        | none => m.endCmd p 0x0306 1 0
        | some x =>
          if x.owner != .sector sec || !x.authed then m.endCmd p 0x0306 2 0
          else if m.holdsOff (some sec) false blob (bits (wordAt ws 4) 15 0) then m
          else
            let m := m.touchRead (some sec) blob (bits (wordAt ws 4) 15 0)
            match m.readPhys (some sec) blob (bits (wordAt ws 4) 15 0) with
            | .error e => (m.recordAccess kdSite 0x0800 (some sec) e blob).endCmd p e.status 3 0
            | .ok bs =>
              if m.blobFault bs then m.endCmd p 0x0306 3 0
              else if tagOk != (unwrapBlob x.ems sec bs).2 then s.toMod
              else if !tagOk then m.endCmd p 0x0306 3 0
              else if busy then m.endCmd p 0x0306 4 0
              else
                let v : Model := { modelId := bytesWord ((bs.drop 8).take 8), maxChunks := numOf ((bs.drop 24).take 4),
                                   key := (unwrapBlob x.ems sec bs).1, session := id }
                ({ m with models := Table.set none m.models k (some v) } : Mod).endCmd p 0 0 0))

/-- Addresses from a to e lie in tier-0 and tier-1 regions of a sector, one after another (R350). -/
def Mod.loadFits (m : Mod) (s a e : Nat) : Nat → Bool
  | 0 => decide (e ≤ a)
  | n + 1 =>
    if e ≤ a then true
    else
      match m.regions.find? (fun p => p.2.valid && p.2.sector == s && p.2.tier < 2 && p.2.base ≤ a && a < p.2.base + p.2.size) with
      | some r => Mod.loadFits m s (r.2.base + r.2.size) e n
      | none => false

/-- Why a SEALED_LOAD is refused (R350). An empty slot is (log entry 31). -/
def Mod.sealedFault (m : Mod) (p : PktRef) (ws : List Word) : Option (Nat × Nat) :=
  match m.queueSector p.q with
  | none => some (0x0301, 0)
  | some sec =>
    let first := bits (wordAt ws 2) 63 32
    let n := bits (wordAt ws 5) 31 0
    let dst := bits (wordAt ws 4) 55 0
    match Table.get none m.models (sec.val * 8 + bits (wordAt ws 2) 2 0) with
    | none => some (0x0306, 0)
    | some v =>
      if first + n > v.maxChunks then some (0x0104, 16)
      else if !m.loadFits sec (dst + first * 4194304) (dst + (first + n) * 4194304) (m.regions.length + 1) then some (0x0104, 32)
      else none

/-- SEALED_LOAD: chunks from FIRST_CHUNK on, each by a SEALED_CHUNK_DONE. -/
def execSealedLoad (p : PktRef) (s : State) : Host.Outcome State Fault Refusal :=
  let m := s.toMod
  s.go (m.command p 0x602 (fun ws =>
    m.checked p (m.sealedFault p ws)
      ((m.running p (.busy 5 (bits (wordAt ws 2) 63 32))).updFlight p (fun f => { f with progress := bits (wordAt ws 2) 63 32 }))))

/-- A chunk's plaintext under its model's key, and whether its tag is valid: the IV is the chunk's number, the additional data MODEL_ID and that
number (R350). -/
def openChunk (v : Model) (n i : Nat) (bs : List Byte) : List Byte × Bool :=
  let plain := gcmPlain v.key (bigBytes 12 i) (bs.take n)
  (plain, gcmSound v.key (bigBytes 12 i) (wordBytes v.modelId ++ bytesOf 8 i) plain ((bs.drop n).take 16))

/-- The plain bytes of a sealed model's chunk (R350). -/
def chunkBytes : Nat := 4194304

/-- A chunk of n bytes of a SEALED_LOAD that a sector's cluster runs: its plain bytes are written where its tag is
sound, else zeros, and the load ends (R350, R351). What the check of the tag finds comes with the command; a finding that is not the bytes' own
is no such event. -/
def Mod.chunkDone (m : Mod) (n : Nat) (p : PktRef) (sec : SectorId) (v : Model) (i : Nat) (ws : List Word) (tagOk : Bool) : Mod :=
  let src := bits (wordAt ws 3) 55 0 + i * (n + 64)
  let dst := bits (wordAt ws 4) 55 0 + i * n
  let cl := queueNum p.q / 128
  let fail := fun (m : Mod) (e : AccErr) (side a : Nat) =>
    (m.recordAccess (clusterSite cl) (0x0100 + cl % 8) (some sec) e a).endCmd p e.status side i
  let before := m
  if m.holdsOff (some sec) false src (n + 16) then m
  else
  let m := m.touchRead (some sec) src (n + 16)
  match m.readPhys (some sec) src (n + 16) with
  | .error e => fail m e 0 src
  | .ok bs =>
    let r := openChunk v n i bs
    if tagOk != r.2 || m.holdsOff (some sec) true dst n then before
    else
    match m.writePhys (some sec) dst (if tagOk then r.1 else List.replicate n 0) with
    | .error e => fail m e 1 dst
    | .ok m =>
      if !tagOk then m.endCmd p 0x0307 (i % 65536) i
      else if i + 1 = bits (wordAt ws 2) 63 32 + bits (wordAt ws 5) 31 0 then m.endCmd p 0 0 (i + 1)
      else (m.running p (.busy 5 (i + 1))).updFlight p (fun f => { f with progress := i + 1 })

/-- SEALED_CHUNK_DONE: the chunk under way is written, or zero-filled where its tag fails; a load whose key is gone stops at this
boundary (R305, R350, R351). -/
def execSealedChunkDone (p : PktRef) (tagOk : Bool) (s : State) : Host.Outcome State Fault Refusal :=
  let m := s.toMod
  s.go (match m.flight p, m.queueSector p.q with
    | some f, some sec =>
      match f.work with
      | .busy 5 i =>
        match Table.get none m.models (sec.val * 8 + bits (wordAt f.words 2) 2 0) with
        | none => m.endCmd p 0x0401 0 i
        | some v => m.chunkDone chunkBytes p sec v i f.words tagOk
      | _ => m
    | _, _ => m)

/-! ## Anti-rollback fuses, SPDM sessions (R345, R347) -/

/-- The counters of components advance to the SVNs of the images running, never back (R345). -/
def Mod.svnCommit (m : Mod) (components : Nat) : Mod :=
  let m := (bitsSet components 4).foldl (fun (m : Mod) (c : Nat) =>
    let run := Table.get 0 m.svnRunning c
    if run ≤ Table.get 0 m.svnFused c then m
    else
      let set := bits (BitVec.ofNat 64 m.fw.runSet.toNat) c c
      let img := Table.get none m.fw.images (set * 4 + c)
      ({ m with svnFused := Table.set 0 m.svnFused c run } : Mod).logEvent 0x06 0x07 kdSite (c + 1 + set * 16)
        (pack [(0, 32, (img.map Image.version).getD 0), (32, 8, run)])) m
  m.measureKeeper

/-- SEC_SVN_COMMIT. -/
def execSecSvnCommit (components : BitVec 4) (s : State) : Host.Outcome State Fault Refusal := s.go (s.toMod.svnCommit components.toNat)

/-- Who a transport of SPDM belongs to (R347): a function's DOE, the management endpoint, a fabric link. -/
def spdmOwner (path : SpdmPath) : Option Issuer :=
  match path with
  | .doe _ fn => if fn.val = 0 then some .mgmt else some (.sector (Fin.ofNat 16 (fn.val - 1)))
  | .endpoint => some .mgmt
  | .link _ => none

/-- The digest GET_MEASUREMENTS returns for an index, 8 only on a session of a sector (R348). -/
def Mod.measurement (m : Mod) (index : Nat) (session : Option (BitVec 32)) : Option (BitVec 384) :=
  if index = 8 then
    match (session.bind (fun i => m.sessions.find? (fun x => x.id == i))).map Session.owner with
    | some (.sector s) => some (Table.get 0 m.measurements (16 + s.val))
    | _ => none
  else if index = 7 && !m.part.guestSite then none
  else if index = 1 then some Config.romDigest
  else if 1 ≤ index && index ≤ 7 then some (Table.get 0 m.measurements index)
  else none

/-- The sessions that count towards the 32: those of no fabric port (R347). -/
def Mod.responderSessions (m : Mod) : List Session := m.sessions.filter (fun x => x.link.isNone)

/-- A session opened on a transport: on a fabric link it is that port's one, else one of the 32 (R347). Its export master secret is a free one (log
entry 28). -/
def Mod.openSession (m : Mod) (path : SpdmPath) (id : BitVec 32) (authed : Bool) : Mod :=
  let answer := fun (m : Mod) (k : Nat) => m.emit (.answer 1 [k, id.toNat])
  let new := fun (o : Issuer) (l : Option PortId) => ({ id := id, owner := o, authed := authed, link := l, ems := 2 ^ 32 + m.free } : Session)
  match path, spdmOwner path with
  | .link port, _ =>
    let others := m.sessions.filter (fun x => x.link != some port)
    if others.any (fun x => x.id == id) then answer m 2
    else answer { m with sessions := others ++ [new .mgmt (some port)], free := m.free + 1 } 3
  | _, some o =>
    if m.responderSessions.length ≥ 32 || m.sessions.any (fun x => x.id == id) then answer m 2
    else answer { m with sessions := m.sessions ++ [new o none], free := m.free + 1 } 3
  | _, none => answer m 2

/-- The capabilities of R347, as SPDM's flags: CERT, CHAL, MEAS with signature, ENCRYPT, MAC, MUT_AUTH, KEY_EX, HBEAT, KEY_UPD, CHUNK. -/
def spdmCaps : Nat := maskOf [1, 2, 4, 6, 7, 8, 9, 13, 14, 17]

/-- SPDM_MESSAGE: a request is answered; a session opens or ends (R347, R348). What the protocol itself says of the other messages is not this
model's (log entry 28). -/
def execSpdmMessage (path : SpdmPath) (req : SpdmReq) (s : State) : Host.Outcome State Fault Refusal :=
  let m := s.toMod
  s.go (match req with
    | .other code => m.emit (.answer 1 [0, code.toNat])
    | .measurements index session =>
      (match m.measurement index.toNat session with
       | some d => m.emit (.answer 1 [1, index.toNat, d.toNat])
       | none => m.emit (.answer 1 [2, index.toNat]))
    | .openSession id authed => m.openSession path id authed
    | .version => m.emit (.answer 1 [5, 0x13, 0x12])
    | .capabilities => m.emit (.answer 1 [6, spdmCaps])
    | .algorithms => m.emit (.answer 1 [7, 384, 384, 384, 256])
    | .certificate slot => m.emit (.answer 1 (if slot.toNat < 2 then [8, slot.toNat] else [2, slot.toNat]))
    | .hybrid vendor => m.emit (.answer 1 (if vendor = 0x1F2B && m.part.identityHybrid then [9] else [2, vendor.toNat]))
    | .endSession id => ({ m with sessions := m.sessions.filter (fun x => x.id != id) } : Mod).emit (.answer 1 [4, id.toNat]))

/-- SPDM_HEARTBEAT_TIMEOUT: the session ends; the keys it installed stay (R347, R349). -/
def execSpdmHeartbeatTimeout (id : BitVec 32) (s : State) : Host.Outcome State Fault Refusal :=
  let m := s.toMod
  s.go { m with sessions := m.sessions.filter (fun x => x.id != id) }

/-- A session of the management endpoint belongs to a sector from now on (R347). -/
def Mod.bindSession (m : Mod) (id : BitVec 32) (sector : SectorId) : Mod :=
  { m with sessions := m.sessions.map (fun x => if x.id == id && x.owner == .mgmt && x.link.isNone then { x with owner := .sector sector } else x) }

/-- KPR_SESSION_BIND. -/
def execKprSessionBind (id : BitVec 32) (sector : SectorId) (s : State) : Host.Outcome State Fault Refusal :=
  s.go (s.toMod.bindSession id sector)

end Sys2Proof.Machine
end

