-- ==== Sys2Proof/Machine/RegView.lean ====
section
/-!
DEFINITION. What a read of a control-block register returns (R8, R10, R26, R27): the status fields that the units show, beside the
registers of RegMap.
-/
namespace Sys2Proof.Machine
open Sys2Proof

/-- The n registers of a block that lie step apart from a base: the number of the one at an offset. -/
def instanceAt (off base step n : Nat) : Option Nat :=
  if base ≤ off && (off - base) % step == 0 && (off - base) / step < n then some ((off - base) / step) else none

/-! ## Dies (R356, R380, R398) -/

/-- The fences of a TD and its clusters, of an edge domain, its ports and engines, and of a die's stacks (R398): a fenced domain's units are
fenced with it (R385). -/
def Mod.fenceWord (m : Mod) (site : Nat) : Word :=
  let has := fun (f : Domain → Bool) => m.tender.fenced.any f
  let die := has (fun d => match d with
    | .td s => s.val == site
    | .edge e => edSite e == site
    | _ => false)
  let cl := (List.range 8).map (fun c => match siteTd site with
    | some t => flag (has (fun d => Domain.covers d (.cluster (Fin.ofNat 128 (8 * t + c)))))
    | none => 0)
  let ports := (List.range 8).map (fun n => match siteEd site with
    | some e => flag (has (fun d => Domain.covers d (.port (Fin.ofNat 32 (8 * e + n)))))
    | none => 0)
  let engines := (List.range 16).map (fun k => match siteEd site with
    | some e => flag (has (fun d => Domain.covers d (.engine (Fin.ofNat 64 (16 * e + k)))))
    | none => 0)
  let tags := (List.range 4).map (fun k => match siteMd site with
    | some md => flag (m.stackFenced (4 * md + k))
    | none => 0)
  pack ([(0, 1, flag die)] ++ ((List.range 8).map (fun i => (8 + i, 1, cl.getD i 0))) ++
    ((List.range 8).map (fun i => (16 + i, 1, ports.getD i 0))) ++ ((List.range 16).map (fun i => (24 + i, 1, engines.getD i 0))) ++
    ((List.range 4).map (fun i => (40 + i, 1, tags.getD i 0))))

/-- The TND_ block of a die (R398). -/
def Mod.readTnd (m : Mod) (site o : Nat) : Option Word :=
  let r := m.err site
  match o with
  | 0x00 => some (pack [(0, 7, r.pending), (8, 6, r.oldest), (16, 16, r.lost), (32, 32, r.written)])
  | 0x08 => some 0
  | 0x10 => some (m.fenceWord site)
  | 0x18 => some (pack ((0, 8, Table.get 0 m.dieGens (site * 8)) ::
      (List.range 4).map (fun k => (8 + 8 * k, 8, Table.get 0 m.dieGens (site * 8 + 1 + k)))))
  | 0x28 => some (pack [(24, 1, flag (Table.get none m.injections site).isSome)])
  | _ =>
    match instanceAt o 0x100 8 256 with
    | some i => some (match Table.get none r.recs (i / 4) with | some x => wordAt x.words (i % 4) | none => 0)
    | none => none

/-- The PWR_ block of a die (R380). -/
def Mod.readPwrDie (m : Mod) (site o : Nat) : Option Word :=
  let d := m.die site
  if o = 0 then some (pack [(0, 5, d.volt), (8, 8, d.tj), (16, 7, d.limit), (32, 16, d.droops)])
  else
    match siteTd site, instanceAt o 0x100 8 8 with
    | some t, some c =>
      let x := m.cluster (8 * t + c)
      let d := m.demandOf (8 * t + c)
      some (pack [(0, 5, x.opPoint), (8, 5, d.1), (16, 4, x.idlePhase), (20, 1, flag d.2)])
    | _, _ => none

/-- SEC_DIE_STATE (R356), or the guest site's registers (R456). -/
def Mod.readSecDie (m : Mod) (site o : Nat) : Option Word :=
  if m.guestAt site then
    match o with
    | 0 => some (pack [(0, 4, m.guest.st), (4, 4, m.guest.edges.toNat), (8, 2, m.guest.protocol), (10, 3, m.guest.rate),
                       (16, 8, m.guest.gen.toNat), (24, 8, m.guest.reason), (32, 16, m.guest.modules)])
    | 0x70 => some (pack [(0, 16, m.guest.malformed), (16, 16, m.guest.admissions), (32, 16, m.guest.refusals)])
    | _ => none
  else if o = 0 then some (pack [(0, 1, flag (m.die site).fw), (1, 1, flag (m.die site).keys), (2, 1, flag m.unlocked)])
  else none

/-! ## Tensor dies (R89, R90, R296, R297) -/

/-- TDC_CORE_STATE.STATE (R89). -/
def CoreSt.num : CoreSt → Nat
  | .idle => 0 | .running => 1 | .waiting => 2 | .stopping => 3 | .saving => 4 | .restoring => 5 | .faulted => 6 | .fenced => 7

/-- A core's page (R89). -/
def Mod.readCore (m : Mod) (id o : Nat) : Option Word :=
  let c := m.core id
  match o with
  | 0x00 => some (pack [(0, 4, c.st.num), (4, 5, c.slot), (9, 1, flag c.bank), (10, 1, flag c.saved.isSome), (11, 1, flag c.opCache),
                        (12, 1, flag c.k1), (16, 8, c.gen.toNat), (24, 5, sectorNum c.sector)])
  | 0x08 => some (pack [(0, 15, c.pc), (16, 15, (c.saved.map Saved.pc).getD 0)])
  | 0x10 =>
    let x := c.progressNow
    some (pack [(0, 32, x.count.toNat), (32, 3, x.kind.toNat), (36, 20, x.moveBlocks.toNat), (56, 1, flag x.moveActive)])
  | 0x18 => some (pack [(0, 8, c.fault.code.toNat), (8, 8, c.fault.trapValue.toNat), (16, 15, c.fault.pc.toNat),
                        (31, 1, flag c.fault.valid)])
  | 0x20 => some (pack [(16, 40, c.saveBase.toNat), (63, 1, flag c.saveValid)])
  | _ =>
    if 0x400 ≤ o && o < 0x800 then some (BitVec.ofNat 64 (c.token (o ≥ 0x600) (o % 0x200 / 8)))
    else if 0x800 ≤ o && o < 0xA00 then some (BitVec.ofNat 64 (c.credit (o ≥ 0x900) (o % 0x100 / 8)))
    else none

/-- The die-control page of a TD (R90). -/
def Mod.readTdDie (m : Mod) (t o : Nat) : Option Word :=
  match o with
  | 0x00 => some (pack ([(0, 4, t), (8, 5, tdSite t)] ++
      (List.range 8).map (fun c => (16 + c, 1, flag (m.cluster (8 * t + c)).mappedOut))))
  | 0x08 => some (pack ((List.range 8).map (fun c => (8 * c, 5, sectorNum (m.cluster (8 * t + c)).shown))))
  | _ =>
    match instanceAt o 0x10 8 8 with
    | some c =>
      let x := m.cluster (8 * t + c)
      some (pack ((32, 20, x.freePages * 4096) :: (List.range 32).map (fun k => (k, 1, flag (Table.get none x.slots k).isSome))))
    | none => none

/-- CSQ_Q_STATUS.STATE (R297). -/
def QSt.num : QSt → Nat
  | .free => 0 | .enabled => 1 | .disabling => 2 | .disabled => 3 | .error => 4 | .fenced => 5

/-- The registers of a queue (R297, R403). -/
def Queue.view (x : Queue) (o : Nat) : Option Word :=
  match o with
  | 0x00 => some (pack [(0, 5, x.ringLog2), (5, 5, x.replyLog2), (10, 4, x.prioCap), (14, 1, flag x.admin), (15, 1, flag x.host),
                        (16, 1, flag x.checkSeq), (17, 7, x.inFlightMax), (24, 1, flag x.notifyEn)])
  | 0x08 => some x.ring
  | 0x10 => some x.reply
  | 0x18 => some (pack [(0, 32, x.fetch.toNat), (32, 32, x.producer.toNat)])
  | 0x20 => some (pack [(0, 32, x.replyPi.toNat), (32, 32, x.replyCi.toNat)])
  | 0x28 => some (pack [(0, 3, x.st.num), (4, 3, x.error), (7, 1, flag x.enable.isSome), (8, 7, x.inFlight),
                        (15, 1, flag (x.st != .free && !x.held.isEmpty)), (16, 8, x.gen.toNat)])
  | 0x30 => some x.notifyAddr
  | 0x38 => some (pack [(0, 32, x.notifyData.toNat), (32, 16, x.drainMs)])
  | _ => none

/-- The CSQ_ page of a cluster (R296, R297). -/
def Mod.readCsq (m : Mod) (cl o : Nat) : Option Word :=
  let c := m.cluster cl
  if o = 0 then some (pack [(0, 8, ((m.clusterQueues cl).filter (fun q => q.2.st == .enabled)).length), (8, 8, c.gen.toNat),
                            (16, 5, sectorNum c.sector)])
  else if o = 8 then some (pack [(0, 32, c.accepted), (32, 32, c.replied)])
  else if 0x1000 ≤ o && o < 0x3000 then (m.queue (.csq (Fin.ofNat 16384 (128 * cl + (o - 0x1000) / 0x40)))).view (o % 0x40)
  else none

/-- A bell page: the last values written (R274). -/
def Queue.bells (x : Queue) (o : Nat) : Option Word :=
  match o with
  | 0 => some (BitVec.ofNat 64 x.producer.toNat)
  | 8 => some (BitVec.ofNat 64 x.replyCi.toNat)
  | _ => none

/-- A TD's own blocks. -/
def Mod.readTd (m : Mod) (t off : Nat) : Option Word :=
  if off < 0x10000 then m.readTdDie t off
  else if 0x100000 ≤ off && off < 0x180000 then m.readCsq (8 * t + (off - 0x100000) / 0x10000) (off % 0x10000)
  else if 0x1000000 ≤ off && off < 0x1400000 then m.readCore (64 * t + (off - 0x1000000) / 0x10000) (off % 0x10000)
  else if 0x10000000 ≤ off && off < 0x10400000 then
    (m.queue (.csq (Fin.ofNat 16384 (1024 * t + (off - 0x10000000) / 0x1000)))).bells (off % 0x1000)
  else none

/-! ## Memory (R170, R182, R197, R208) -/

/-- A word of a region-table entry as a sector sees it: entries of other sectors read 0 (R339). -/
def Mod.regionWord (m : Mod) (who : Option Nat) (i k : Nat) : Word :=
  let r := m.region i
  if (match who with | some s => r.sector == s && r.valid | none => true) then [r.w0, r.w1, r.w2, r.w3].getD k 0 else 0

/-- MEM_CTL_STATE (R182): 3 when every channel of the controller is out of service. -/
def Mod.ctlState (m : Mod) (k : Nat) : Word :=
  let x := m.ctl k
  let n := if k < 80 then 32 else 1
  pack [(0, 2, if (List.range n).all (fun i => x.chOut.getLsbD i) then 3 else x.st), (2, 1, flag x.loss), (8, 32, x.chOut.toNat)]

/-- The read-only half of a hot-home register (R197). -/
def HotStat.word (h : HotStat) : Word := pack [(16, 16, h.epochs), (32, 8, h.lastAvg), (40, 1, flag h.hot)]

/-- A controller's block. -/
def Mod.readCtl (m : Mod) (k o : Nat) : Option Word :=
  if o = 0 then some (m.ctlState k) else if o = 0x400 then some (Table.get HotStat.reset m.ctlHot k).word else none

/-- A die's memory blocks. -/
def Mod.readMem (m : Mod) (who : Option Nat) (site off : Nat) : Option Word :=
  if 0x3120000 ≤ off && off < 0x3140000 then some (m.regionWord who ((off - 0x3120000) / 0x20) (off / 8 % 4))
  else if 0x3100100 ≤ off && off < 0x3100120 then
    some (Table.get HotStat.reset m.rtrHot (site * 4 + (off - 0x3100100) / 8)).word
  else
    match siteMd site, sitePd site with
    | some md, pd =>
      if 0x2000000 ≤ off && off < 0x2400000 then m.readCtl (4 * md + (off - 0x2000000) / 0x100000) (off % 0x100000)
      else if 0x2400000 ≤ off && off < 0x2800000 then
        pd.bind (fun p => m.readCtl (80 + 4 * p + (off - 0x2400000) / 0x100000) (off % 0x100000))
      else if off = 0x3000200 then some (m.slice md).hot.word
      else if off = 0x3000300 then
        some (pack [(0, 32, (m.slice md).backInval), (32, 20, (m.filterEntries md).length)])
      else if off = 0x3000308 then some (pack [(0, 32, (m.slice md).hintApplied), (32, 32, (m.slice md).hintDropped)])
      else none
    | none, _ => none

/-! ## Edge dies (R189, R238, R265, R269, R316) -/

/-- An ED's die-control page (R269). -/
def Mod.readEdDie (m : Mod) (e o : Nat) : Option Word :=
  let d := m.ed e
  if o = 0x400 then some (pack [(0, 16, d.noRoute), (16, 16, d.hopExpired), (32, 16, d.pkeyDrop), (48, 16, d.demoted)])
  else
    match instanceAt o 0x600 8 8, instanceAt o 0x1000 8 2048 with
    | some n, _ => some (pack [(0, 32, Table.get 0 d.slotCap n), (32, 17, Table.get 65536 d.floorScale n)])
    | none, some i =>
      (match Table.get none d.books (i / 4) with
       | some b =>
         some ([pack [(0, 6, b.port), (6, 1, 1), (8, 5, b.sector.val), (16, 16, b.bookId.toNat), (32, 32, b.volume)], b.mask,
                BitVec.ofNat 64 b.start, BitVec.ofNat 64 b.admitBt].getD (i % 4) 0)
       | none => some 0)
    | none, none => none

/-- A fabric port's block (R238). -/
def Mod.readFab (m : Mod) (p o : Nat) : Option Word :=
  let x := m.port p
  match o with
  | 0x08 => some (pack [(0, 4, x.st.num), (4, 2, x.gen), (6, 2, x.width), (8, 2, x.group), (16, 4, x.downReason),
                        (24, 8, x.generation.toNat), (32, 1, flag x.k1Partner), (33, 1, flag x.deferred)])
  | 0x10 => some (pack [(0, 6, x.partnerPort), (6, 1, flag x.partnerValid), (8, 56, x.partnerHash.toNat)])
  | 0x20 => some (pack [(0, 16, x.uncorr), (16, 16, x.retry), (32, 16, x.retrains), (48, 16, x.stepdowns)])
  | 0x28 => some (pack [(0, 32, x.txCtr.toNat / 2 ^ 32), (32, 16, x.authFail), (48, 16, x.replay)])
  | 0x30 => some (pack [(0, 32, x.malformed), (32, 16, x.authRefusals)])
  | _ =>
    match instanceAt o 0x40 8 8 with
    | some l => some (pack [(0, 32, Table.get 0 x.symCorr l), (32, 1, flag (x.bad.getLsbD l))])
    | none => none

/-- EDG_PCIE_FUNC of a sector on a port, without its RW field (R316). -/
def Fn.word (f : Fn) : Word :=
  pack [(0, 1, flag f.active), (1, 1, flag f.bme), (2, 1, flag f.mse), (3, 1, flag f.withdrawn), (4, 1, flag f.resetting),
        (8, 8, f.gen.toNat)]

/-- A PCIe/CXL port's block (R189, R316). -/
def Mod.readPcie (m : Mod) (p o : Nat) : Option Word :=
  let x := m.pciePort p
  match o with
  | 0x08 => some (pack [(0, 1, flag x.linkUp), (1, 3, x.rate), (4, 5, x.width), (9, 2, x.protocol), (11, 1, flag x.ideActive),
                        (12, 1, flag x.flit), (16, 4, x.devices)])
  | 0x10 => some (BitVec.ofNat 64 x.aptBase)
  | _ =>
    match instanceAt o 0x100 8 16, instanceAt o 0x80000 8 4096 with
    | some s, _ => some (m.fn p (1 + s)).word
    | none, some i =>
      let e := m.mooring (i / 4)
      some (if e.valid && e.port == p then [e.w0, e.w1, e.w2, e.w3].getD (i % 4) 0 else 0)
    | none, none => none

/-- EDG_CE_STATE.STATE (R265). -/
def EngSt.num : EngSt → Nat
  | .idle => 0 | .running => 1 | .waiting => 2 | .faulted => 3 | .fenced => 4

/-- A collective engine's page (R265). -/
def Mod.readEngine (m : Mod) (e o : Nat) : Option Word :=
  let x := m.engine e
  match o with
  | 0x00 => some (pack [(0, 4, x.st.num), (4, 8, x.step), (16, 8, x.gen.toNat), (24, 5, sectorNum x.sector)])
  | 0x08 => some 0
  | 0x10 => some (pack [(0, 8, x.faultCode), (8, 8, x.faultStep), (16, 1, flag x.faultValid)])
  | _ =>
    match instanceAt o 0x100 8 16, instanceAt o 0x1000 8 256 with
    | some c, _ => some (BitVec.ofNat 64 (Table.get 0 x.tokens c))
    | none, some c => some (BitVec.ofNat 64 (Table.get 0 x.arrive c))
    | none, none => none

/-- An ED's own blocks. -/
def Mod.readEd (m : Mod) (e off : Nat) : Option Word :=
  if off < 0x10000 then m.readEdDie e off
  else if 0x4000000 ≤ off && off < 0x4800000 then m.readFab (8 * e + (off - 0x4000000) / 0x100000) (off % 0x100000)
  else if 0x4800000 ≤ off && off < 0x4A00000 then m.readPcie (2 * e + (off - 0x4800000) / 0x100000) (off % 0x100000)
  else if 0x6000000 ≤ off && off < 0x6100000 then m.readEngine (16 * e + (off - 0x6000000) / 0x10000) (off % 0x10000)
  else none

/-! ## The Keeper die -/

/-- KPR_ page (R6, R28, R438, R447). -/
def Mod.readKpr (m : Mod) (o : Nat) : Option Word :=
  let b := m.boot
  let t := m.patrol
  match o with
  | 0x00 => some m.part.word
  | 0x10 => some (pack [(0, 25, m.harbourUp.toNat), (32, 25, m.computeUp.toNat), (57, 1, flag m.edgeLost)])
  | 0x20 => some (pack [(0, 3, b.phase), (3, 2, b.kind), (5, 3, b.cause), (8, 24, min 0xFFFFFF (b.elapsed / 1000000)), (32, 16, b.count),
                        (48, 1, flag b.thermtripSeen), (49, 1, flag b.undervoltSeen)])
  | 0x28 => some 0
  | 0x30 => some (pack [(0, 16, t.lanesFailed), (16, 16, t.fused), (32, 1, flag t.run),
                        (40, 8, (m.lanes.filter (fun x => x.2.disabled)).length), (48, 12, t.channelsHeld)])
  | _ =>
    match instanceAt o 0x100 8 80 with
    | some i =>
      let at_ := fun (k : Nat) => Table.get LaneMap.reset m.lanes (i * 24 + k)
      some (pack ((48, 1, flag ((List.range 24).any (fun k => !(at_ k).soft.isEmpty))) :: (List.range 24).map (fun k =>
        (2 * k, 2, if (at_ k).disabled then 3 else min 2 ((at_ k).fused.length + (at_ k).soft.length)))))
    | none => none

/-- The Lantern's registers (R355). -/
def Mod.readSec (m : Mod) (o : Nat) : Option Word :=
  match o with
  | 0x00 => some (pack [(0, 2, flag m.bootImage), (2, 1, flag m.part.hybridRequired), (3, 1, flag m.unlocked), (4, 2, m.rootIndex),
                        (6, 4, m.part.rootRevoked.toNat), (10, 1, flag m.part.identityHybrid)])
  | 0x08 => some (svnWord m.svnFused)
  | 0x10 => some (svnWord m.svnRunning)
  | 0x18 => some 0
  | 0xA00 =>
    let t1 := (m.fills.filter (fun f => match f with | .channel _ => true | _ => false)).length
    let t2 := m.fills.foldl (fun a f => match f with | .granules _ n => a + n | _ => a) 0
    some (pack [(0, 32, m.scrubLast), (32, 5, t1), (40, 24, ceilDiv t2 512)])
  | _ =>
    match instanceAt o 0x100 8 64, instanceAt o 0x400 8 128, instanceAt o 0x800 8 16 with
    | some n, _, _ =>
      let k := m.keySlot n
      some (pack [(0, 1, flag k.valid), (1, 1, flag (m.slotPreserved n)), (2, 1, flag k.retained), (8, 16, k.epoch)])
    | none, some i, _ =>
      some (match Table.get none m.models i with
        | some v => pack [(0, 1, 1), (1, 1, flag (m.loading (i / 8) (i % 8))), (32, 32, v.session.toNat)]
        | none => 0)
    | none, none, some s =>
      let x := m.sector s
      some (pack [(0, 3, x.st), (3, 1, flag x.attached), (4, 3, x.hostPort), (32, 13, m.regionsUsed s), (45, 11, m.mooringsUsed s)])
    | none, none, none => none

/-- The beacon unit's registers (R43 to R45). -/
def Mod.readBcn (m : Mod) (o : Nat) : Option Word :=
  let b := m.beacon
  match o with
  | 0x00 => some (pack [(0, 1, flag b.master), (1, 2, b.source.toNat)])
  | 0x08 => some (pack [(0, 3, b.st.num), (3, 1, flag b.conflict), (4, 1, flag b.traceable), (8, 10, b.hop.toNat),
                        (18, 6, b.upstreamNum), (24, 16, b.stepCount)])
  | 0x10 => some b.bt
  | 0x18 => some (pack [(0, 32, unsignedOf 32 b.offset), (32, 16, b.errBound)])
  | 0x20 => some (BitVec.ofNat 64 b.masterId.toNat)
  | _ =>
    match instanceAt o 0x100 8 32 with
    | some n =>
      let p := Table.get BcnPort.reset b.ports n
      some (pack [(0, 24, p.delay.toNat), (24, 1, flag p.valid)])
    | none => none

/-- The staged sets' registers (R52). -/
def Mod.readStage (m : Mod) (o : Nat) : Option Word :=
  match instanceAt o 0 8 8 with
  | some i =>
    let x := m.set (i / 2)
    if i % 2 = 0 then
      some (pack [(0, 3, x.st.num), (8, 5, x.ownerNum), (16, 13, x.entries.length), (32, 13, x.firstConflict.getD 0x1FFF)])
    else some (if x.st = .armed || x.st = .applying then x.instant else 0)
  | none => none

/-- The number of PWR_MOD_STATUS.STATE (R379). -/
def PwrSt.num : PwrSt → Nat
  | .standby => 0 | .poweringUp => 1 | .run => 2 | .poweringDown => 3 | .holdEntry => 4 | .hold => 5 | .resuming => 6

/-- The number of a request (R379). -/
def PwrReq.num : PwrReq → Nat
  | .on => 1 | .off => 2 | .hold => 3 | .release => 4

/-- The PWR_ module block (R379). -/
def Mod.readPwr (m : Mod) (o : Nat) : Option Word :=
  let p := m.power
  match o with
  | 0x08 => some (pack [(0, 3, p.st.num), (3, 3, p.pending.elim 0 PwrReq.num), (8, 16, p.inputW), (24, 16, p.allow / 1000),
                        (40, 16, p.holdCount)])
  | 0x30 => some (pack [(0, 5, p.ceiling), (5, 2, p.member), (16, 16, p.votesSent), (32, 16, p.lateVotes)])
  | 0x40 => some (pack [(0, 16, p.asserted.toNat), (16, 16, p.forced.toNat), (32, 16, p.alerts)])
  | _ => none

/-- A domain's index within its die (R399). -/
def domainIndex (d : Domain) : Nat :=
  match d with
  | .core c => c.val % 64 | .cluster c => c.val % 8 | .engine e => e.val % 16 | .port p => p.val % 8 | .stack s => s.val % 4
  | .td _ | .edge _ | .slice _ | .moduleWarm | .moduleCold => 0

/-- The Tender's block (R399). -/
def Mod.readTender (m : Mod) (o : Nat) : Option Word :=
  let t := m.tender
  match o with
  | 0x00 =>
    let d := match t.current with
      | some d => [(8, 4, domainKind d), (16, 5, domainSite d), (24, 6, domainIndex d)]
      | none => []
    some (pack ([(0, 3, t.step), (32, 7, t.queue.length)] ++ d))
  | 0x10 => some (pack [(0, 16, t.recoveries), (16, 16, t.escalations), (32, 16, t.forced)])
  | 0x18 => some t.last
  | _ => none

/-- Management-queue and firmware registers (R403, R404, R421). -/
def Mod.readMgmt (m : Mod) (o : Nat) : Option Word :=
  let f := m.fw
  if o < 0x2000 then
    if o % 0x80 < 0x40 then (m.queue (.mq (Fin.ofNat 64 (o / 0x80)))).view (o % 0x80) else if o % 0x80 = 0x48 then some 0 else none
  else
    match o with
    | 0x4000 => some (pack [(0, 1, flag f.booted), (1, 4, f.runSet.toNat), (7, 1, flag f.inactiveOk), (8, 16, f.level),
                            (24, 16, f.inactiveLevel)])
    | 0x4008 | 0x4020 | 0x4028 => some 0
    | 0x4010 => some (pack [(0, 1, flag f.seqPause), (1, 1, flag f.edgePause), (2, 1, flag f.platformNew)])
    | 0x4030 => some (pack [(0, 32, m.nextSeq.toNat), (32, 32, m.overwritten)])
    | _ => none

/-- The words of a notice entry (R415). -/
def Notice.words (n : Notice) : List Word :=
  [pack [(0, 12, n.source), (12, 5, issuerNum n.owner), (17, 1, flag n.up.armed), (18, 1, flag n.down.armed), (19, 1, flag n.up.fired),
         (20, 1, flag n.down.fired)],
   pack [(0, 32, n.up.mark), (32, 32, n.down.mark)],
   pack [(0, 16, n.up.crossings), (16, 16, n.down.crossings), (32, 32, n.current)],
   pack [(0, 32, n.up.extreme), (32, 32, n.down.extreme)], n.up.bt, n.down.bt, 0, 0]

/-- The Keeper die's own blocks. -/
def Mod.readKd (m : Mod) (off : Nat) : Option Word :=
  if off < 0x10000 then m.readKpr off
  else if 0x30000 ≤ off && off < 0x40000 then m.readSec (off - 0x30000)
  else if 0x40000 ≤ off && off < 0x50000 then m.readBcn (off - 0x40000)
  else if 0x50000 ≤ off && off < 0x60000 then m.readStage (off - 0x50000)
  else if 0x60000 ≤ off && off < 0x70000 then m.readPwr (off - 0x60000)
  else if 0x70000 ≤ off && off < 0x80000 then m.readTender (off - 0x70000)
  else if 0x80000 ≤ off && off < 0x90000 then m.readMgmt (off - 0x80000)
  else if 0x90000 ≤ off && off < 0x98000 then
    some (match Table.get none m.notices ((off - 0x90000) / 64) with
      | some n => wordAt n.words (off / 8 % 8)
      | none => if off % 64 = 0 then pack [(12, 5, 0x1F)] else 0)
  else if 0xA0000 ≤ off && off < 0xC0000 then
    some (match Table.get none m.events ((off - 0xA0000) / 32) with
      | some e => wordAt e.words (off / 8 % 4)
      | none => 0)
  else if 0xC0000 ≤ off && off < 0xC8000 then some (BitVec.ofNat 64 (Table.get 0 m.levels ((off - 0xC0000) / 8)))
  else if 0x100000 ≤ off && off < 0x500000 then (m.queue (.mq (Fin.ofNat 64 ((off - 0x100000) / 0x10000)))).bells (off % 0x10000)
  else none

/-! ## The whole control block -/

/-- The status fields at an offset of a site's control block. -/
def Mod.statusReg (m : Mod) (who : Option Nat) (site off : Nat) : Option Word :=
  if 0x10000 ≤ off && off < 0x20000 then m.readPwrDie site (off - 0x10000)
  else if 0x20000 ≤ off && off < 0x30000 then m.readTnd site (off - 0x20000)
  else if 0x30000 ≤ off && off < 0x40000 && site ≠ kdSite then m.readSecDie site (off - 0x30000)
  else if m.guestAt site then none
  else if 0x3100000 ≤ off && off < 0x3200000 then m.readMem who site off
  else
    match siteTd site, siteEd site with
    | some t, _ => (m.readTd t off).orElse (fun _ => m.readMem who site off)
    | none, some e => m.readEd e off
    | none, none => if site = kdSite then m.readKd off else m.readMem who site off

/-- A register as it reads: its RW bits and its status fields; none where no register stands (R27). -/
def Mod.readReg (m : Mod) (who : Option Nat) (site off : Nat) : Option Word :=
  if off % 8 ≠ 0 || site ≥ 25 then none
  else
    match m.regDef site off, m.statusReg who site off with
    | some d, some w => some (m.rawReg site off d ||| w)
    | some d, none => some (m.rawReg site off d)
    | none, w => w

/-! ## Grants (R339) -/

/-- A sector owns a unit. -/
def ownedBy (o : Option SectorId) (s : Nat) : Bool :=
  match o with
  | some x => x.val == s
  | none => false

/-- A sector's access to an offset of a PD's control block (R310, R339): the IMSIC page of a core it owns, the IOMMU page of an adapter
root port it owns on the PD that serves the port. -/
def Mod.pdGrant (m : Mod) (s pd off : Nat) : Nat :=
  if 0x7200000 ≤ off && off < 0x7800000 then (if ownedBy (m.pdCore (96 * pd + (off - 0x7200000) / 0x10000)).owner s then 2 else 0)
  else if 0x7800000 ≤ off && off < 0x7880000 then
    let port := (off - 0x7800000) / 0x10000
    (if tier2Home m.part.guestSite port = pd && (m.pciePort port).mode = 1 && m.portOwner port = s then 2 else 0)
  else 0

/-- A sector's access to an offset of a site's control block (R339): 0 none, 1 read, 2 read and write. -/
def Mod.grantAt (m : Mod) (s site off : Nat) : Nat :=
  if m.guestAt site then 0
  else if 0x3120000 ≤ off && off < 0x3140000 then 1
  else
    match siteTd site, siteEd site with
    | some t, _ =>
      if 0x1000000 ≤ off && off < 0x1400000 then
        (if ownedBy (m.cluster (8 * t + (off - 0x1000000) / 0x80000)).sector s then 2 else 0)
      else if 0x100000 ≤ off && off < 0x180000 then
        (if ownedBy (m.cluster (8 * t + (off - 0x100000) / 0x10000)).sector s then 1 else 0)
      else if 0x10000000 ≤ off && off < 0x10400000 then
        (if ownedBy (m.cluster (8 * t + (off - 0x10000000) / 0x80000)).sector s then 2 else 0)
      else if off < 0x10000 && (List.range 8).any (fun c => ownedBy (m.cluster (8 * t + c)).sector s) then 1
      else 0
    | none, some e =>
      if 0x6000000 ≤ off && off < 0x6100000 then
        (if ownedBy (m.engine (16 * e + (off - 0x6000000) / 0x10000)).sector s then 2 else 0)
      else if 0x8000000 ≤ off && off < 0xC000000 then (if bits (m.bbPart e s) 26 16 ≠ 0 then 2 else 0)
      else 0
    | none, none =>
      if (sitePd site).isSome then m.pdGrant s ((sitePd site).getD 0) off
      else if site = kdSite && (off < 0x10000 || (0x40000 ≤ off && off < 0x60000)) then 1
      else if site = kdSite && ((0x80000 ≤ off && off < 0x82000) || (0x100000 ≤ off && off < 0x500000)) then
        let q := if off < 0x90000 then (off - 0x80000) / 0x80 else (off - 0x100000) / 0x10000
        (if ownedBy (Table.get none m.mqSector q) s then 2 else 0)
      else 0

/-- What an aligned 8-byte read by a sector or by the management function returns; none where it is an access of R27. -/
def Mod.viewReg (m : Mod) (who : Option Nat) (site off : Nat) : Option Word :=
  match who with
  | none => m.readReg none site off
  | some s =>
    if m.grantAt s site off = 0 then none
    else if site = kdSite && off < 0x10000 && off ≠ 0 && off ≠ 0x10 then (m.readReg who site off).map (fun _ => 0)
    else m.readReg who site off

end Sys2Proof.Machine
end

