-- ==== Sys2Proof/Machine/Host.lean ====
section
/-!
DEFINITION. Hosts: withdrawn access, function-level and conventional resets, sector resets, admin queues, link states (R319 to R333).
-/
namespace Sys2Proof.Machine
open Sys2Proof

/-! ## Dependent commands (R328) -/

/-- Addresses from a to b meet the aperture of a port (R317). -/
def Mod.inAperture (m : Mod) (port a b : Nat) : Bool :=
  let x := m.pciePort port
  x.aptBase < b && a < x.aptBase + x.aptGib * 2 ^ 30

/-- The bytes a move's rows span. -/
def spanOf (base stride : Nat) (d : Desc) : Nat × Nat := (base, base + (d.rows - 1) * stride + d.rowBytes)

/-- A descriptor reads from behind a port, and writes behind it. -/
def Mod.descTouches (m : Mod) (port : Nat) (ws : List Word) : Bool × Bool :=
  let d := Desc.ofWords ws
  let s := spanOf d.src d.srcStride d
  let t := spanOf d.dst d.dstStride d
  (d.op == 0 && d.srcSpace == 0 && m.inAperture port s.1 s.2, d.dstSpace == 0 && m.inAperture port t.1 t.2)

/-- The descriptors of a list from an address on, as far as they can be read. -/
def Mod.listRest (m : Mod) (sector : Option SectorId) (addr : Nat) : Nat → List (List Word)
  | 0 => []
  | n + 1 =>
    match m.readPhys sector addr 64 with
    | .error _ => []
    | .ok bs =>
      let ws := wordsOf 8 bs
      if (Desc.ofWords ws).last then [ws] else ws :: Mod.listRest m sector (addr + 64) n

/-- What a move has still to read from behind a port, and to write behind it. -/
def Mod.jobTouches (m : Mod) (port : Nat) (sector : Option SectorId) (j : MoveJob) : List (Bool × Bool) :=
  let rest := match j.next with
    | some (addr, _, _) => m.listRest sector addr 65536
    | none => []
  (j.parts.map MovePart.desc ++ rest).map (m.descTouches port)

/-- A plan has still to read from behind a port: packets of its transfers, or steps that it has not reached, at the addresses that its index
registers give now. -/
def Mod.planTouches (m : Mod) (port e : Nat) : Bool :=
  let x := m.engine e
  x.transfers.any (fun t => t.sent < t.total && m.inAperture port (t.laddr + 4096 * t.sent) (t.laddr + t.len)) ||
    (x.steps.drop x.step).any (fun ws =>
      let op := bits (wordAt ws 0) 3 0
      let a := x.indexed ws (bits (wordAt ws 1) 55 0)
      (op == 1 || op == 3) && m.inAperture port a (a + bits (wordAt ws 0) 63 32))

/-- A launch's cores that have moves outstanding which reach through a port. -/
def Mod.launchTouches (m : Mod) (port : Nat) (p : PktRef) : Bool :=
  (List.range 8).any (fun k =>
    let c := m.core (queueNum p.q / 128 * 8 + k)
    c.launch == some p && c.moves.any (fun j => (m.jobTouches port c.sector j).any (fun x => x.1 || x.2)))

/-- A command must still reach through a port: it reads from behind it, or writes behind it, or it owes the read that confirms its writes
there (R289); none where it does none of these. -/
def Mod.depends (m : Mod) (port : Nat) (q : QRef) (f : Flight) : Option Bool :=
  let sector := m.queueSector q
  let answer := fun (l : List (Bool × Bool)) =>
    if l.any (fun x => x.2) then some true else if l.any (fun x => x.1) then some false else none
  if f.ports.any (fun x => x.1 == port) then some true
  else
  match f.work with
  | .move j _ => answer (m.jobTouches port sector j)
  | .launch _ _ _ _ _ => if m.launchTouches port ⟨q, f.ix⟩ then some false else none
  | .plan e => if (m.engine e).plan == some ⟨q, f.ix⟩ && m.planTouches port e then some false else none
  | .busy 5 i =>
    let src := bits (wordAt f.words 3) 55 0
    let last := bits (wordAt f.words 2) 63 32 + bits (wordAt f.words 5) 31 0
    if m.inAperture port (src + i * 4194368) (src + last * 4194368) then some false else none
  | .flushing _ _ _ =>
    if m.upstream.any (fun u => u.port == port && u.flush == some (.cmd ⟨q, f.ix⟩)) then some true else none
  | _ => none

/-- A dependent command stops as R291 says: a launch's cores are reset, and a plan's engine is fenced. -/
def Mod.stopDependent (m : Mod) (p : PktRef) (f : Flight) : Mod :=
  match f.work with
  | .launch mask _ _ _ _ =>
    (bitsSet mask.toNat 8).foldl (fun (m : Mod) (k : Nat) => m.abortLaunchOn p (queueNum p.q / 128 * 8 + k)) m
  | .plan e => m.report (.engine e)
  | _ => m

/-- Dependent commands of a sector's queues are replied HOST_ACCESS_WITHDRAWN (R328). -/
def Mod.replyDependents (m : Mod) (port s : Nat) : Mod :=
  (m.sectorQueues s).foldl (fun (m : Mod) (q : QRef) =>
    (m.queue q).flights.foldl (fun (m : Mod) (f : Flight) =>
      let p : PktRef := ⟨q, f.ix⟩
      match m.depends port q f with
      | some dst =>
        ((m.detach p f).replyNow p 0x0701 0 (if dst then 0 else m.flightProgress p f)).stopDependent p f
      | none => m) m) m

/-! ## Bus-master and memory-space enables (R327) -/

/-- The sector of a function, if it is attached there. -/
def Mod.fnSector (m : Mod) (port fn : Nat) : Option Nat :=
  if fn = 0 then none
  else
    let x := m.sector (fn - 1)
    if x.attached && x.hostPort == port && x.st != 0 && x.st != 6 then some (fn - 1) else none

/-- Bus master cleared: no upstream request is issued from now on; the generation moves, dependent commands are replied. -/
def Mod.bmeClear (m : Mod) (port fn : Nat) : Mod :=
  let f := m.fn port fn
  if !f.bme then m
  else
    let m := m.setFn port fn { f with bme := false, withdrawn := true, gen := f.gen + 1 }
    match m.fnSector port fn with
    | some x => m.replyDependents port x
    | none => m

/-- BME_CLEAR. -/
def execBmeClear (port : Fin 9) (fn : Fin 17) (s : State) : Host.Outcome State Fault Refusal := s.go (s.toMod.bmeClear port fn)

/-- Bus master set: access returns unless a reset is under way; held replies are then within reach, and what is pending on its vectors
is sent where none is held (R323). -/
def Mod.bmeSet (m : Mod) (port fn : Nat) : Mod :=
  let f := m.fn port fn
  if f.resetting then m else (m.setFn port fn { f with bme := true, withdrawn := false }).sendPending port fn

/-- BME_SET. -/
def execBmeSet (port : Fin 9) (fn : Fin 17) (s : State) : Host.Outcome State Fault Refusal := s.go (s.toMod.bmeSet port fn)

/-- MSE_CLEAR. -/
def execMseClear (port : Fin 9) (fn : Fin 17) (s : State) : Host.Outcome State Fault Refusal :=
  let m := s.toMod
  s.go (m.setFn port fn { m.fn port fn with mse := false })

/-! ## Resets (R327 to R330) -/

/-- A function as its reset leaves it until it is done: every RW field clear, the generation moved (R322, R327). -/
def Fn.startReset (f : Fn) : Fn :=
  { Fn.reset with active := f.active, gen := f.gen + 1, bar2Log2 := f.bar2Log2, withdrawn := f.active, resetting := f.active }

/-- A packet is the APPLY_AT of a set that is being applied. -/
def Mod.midApply (m : Mod) (f : Flight) : Bool :=
  match f.work with
  | .apply i => (m.set i).st == .applying
  | _ => false

/-- Every packet of a sector's queue is replied: a dependent one HOST_ACCESS_WITHDRAWN, the others FENCED (R328). A QUEUE_DISABLE of it that
came from another queue is replied too, its shutdown being over, and a held QUEUE_ENABLE FENCED (R279). The APPLY_AT of a set that is
being applied is replied when the apply is done (R48). -/
def Mod.resetQueue (m : Mod) (port : Option Nat) (q : QRef) : Mod :=
  let m := (m.queue q).flights.foldl (fun (m : Mod) (f : Flight) =>
    let p : PktRef := ⟨q, f.ix⟩
    let n := m.flightProgress p f
    if m.midApply f then m
    else
      match port.bind (fun k => m.depends k q f) with
      | some dst => (m.detach p f).reply p 0x0701 0 (if dst then 0 else n)
      | none => (m.detach p f).reply p 0x0401 (m.flightDetail f) n) m
  let x := m.queue q
  let m := x.disables.foldl (fun (m : Mod) (p : PktRef) => m.replyNow p 0 0 x.aborted) m
  let m := match x.enable with
    | some (some p, _) => m.replyNow p 0x0401 0 0
    | _ => m
  m.updQueue q (fun x => if x.st = .free then x else { x with st := .fenced, before := .free, disables := [], enable := none })

/-- The sector of a reset stops: queues fenced, cores and engines fenced, bookings ending, its staged set emptied (R327, R329). -/
def Mod.stopSector (m : Mod) (s : Nat) : Mod :=
  let x := m.sector s
  let m := (m.sectorQueues s).foldl (fun (m : Mod) (q : QRef) => m.resetQueue (if x.attached then some x.hostPort else none) q) m
  let m := (m.sectorClusters s).foldl (fun (m : Mod) (c : Nat) =>
    (List.range 8).foldl (fun (m : Mod) (k : Nat) => m.fenceCore (8 * c + k)) m) m
  let m := (m.sectorEngines s).foldl Mod.stopEngine m
  (m.endBookings s).dropSectorSets s

/-- A reset of a sector: kind 1 function-level, 2 conventional, 3 with a restart of its PD cores (R327, R332). One that falls in
another reset adds what the other does not do (R330). In a sector that is DRAINING its queues are fenced and then FREE, and their held
replies stay in their pages: no access returns for them (log entry 107). -/
def Mod.resetSector (m : Mod) (s kind : Nat) : Mod :=
  let x := m.sector s
  let m := if x.attached && kind ≠ 3 || x.attached && x.st = 2 then m.setFn x.hostPort (1 + s) (m.fn x.hostPort (1 + s)).startReset
           else m
  if x.st = 4 then
    ((m.sectorQueues s).foldl (fun (m : Mod) (q : QRef) =>
      m.resetQueue (if x.attached then some x.hostPort else none) q) m).freeDrained s
  else if x.st ≠ 2 && x.st ≠ 3 then m
  else
    let m := if x.st = 2 then (m.sectorState s 3 0).stopSector s else m
    let m := m.setSector s { m.sector s with resetKind := max kind x.resetKind, flr := x.flr || kind ≠ 2 }
    if kind = 2 then m
    else
      let m := (m.dropRegions s (fun r => !r.preserve)).dropModels s
      m.dropMoorings (fun e => e.sector == s && !m.moored e)

/-- FUNCTION_LEVEL_RESET of a function of a port; a second one before READY is absorbed (R330). -/
def execFunctionLevelReset (port : Fin 9) (fn : Fin 17) (s : State) : Host.Outcome State Fault Refusal :=
  let m := s.toMod
  s.go (match m.fnSector port fn with
    | some x => if (m.sector x).st = 3 && (m.sector x).flr then m else m.resetSector x 1
    | none => m.setFn port fn { (m.fn port fn).startReset with resetting := false, ready := (m.fn port fn).active })

/-- BAR2_LOG2 of a sector's function, as its register asks for (R316). -/
def Mod.bar2Asked (m : Mod) (port s : Nat) : Nat :=
  min 46 (max 30 (bits (m.reg (edSite (port / 2)) (0x4800000 + port % 2 * 0x100000 + 0x100 + s * 8) 0x1E0000) 20 16))

/-- The sizes of BAR2 take effect (R316). -/
def Mod.sizeBars (m : Mod) (port : Nat) : Mod :=
  if port ≥ 8 then m
  else (List.range 16).foldl (fun (m : Mod) (s : Nat) =>
    m.setFn port (1 + s) { m.fn port (1 + s) with bar2Log2 := m.bar2Asked port s }) m

/-- A conventional reset of every function of a port (R316, R327). -/
def Mod.conventional (m : Mod) (port : Nat) : Mod :=
  let m := m.setFn port 0 { (m.fn port 0).startReset with resetting := false, ready := (m.fn port 0).active }
  let m := m.sizeBars port
  (List.range 16).foldl (fun (m : Mod) (s : Nat) =>
    match m.fnSector port (1 + s) with
    | some _ => m.resetSector s 2
    | none =>
      let f := m.fn port (1 + s)
      m.setFn port (1 + s) { f.startReset with resetting := false, ready := f.active }) m

/-- CONVENTIONAL_RESET. -/
def execConventionalReset (port : Fin 9) (s : State) : Host.Outcome State Fault Refusal := s.go (s.toMod.conventional port)

/-! ## PD cores (R332) -/

/-- A component runs from the inactive set: its measurement, its SVN and its event (R418, R457). -/
def Mod.activateImage (m : Mod) (c : Nat) : Mod :=
  let set := 1 - flag m.fw.booted
  match Table.get none m.fw.images (set * 4 + c) with
  | none => m
  | some img =>
    let b : BitVec 4 := BitVec.ofNat 4 (1 <<< c)
    let run := if set = 1 then m.fw.runSet ||| b else m.fw.runSet &&& ~~~b
    let m : Mod := { m with
      fw := { m.fw with runSet := run, level := min m.fw.level m.fw.inactiveLevel }
      svnRunning := Table.set 0 m.svnRunning c img.svn }
    (m.measure (2 + c) img.digest).logEvent 0x06 0x03 kdSite (c + 1 + set * 16 + m.fw.inactiveLevel % 65536 * 65536)
      (pack [(0, 32, img.version), (32, 8, img.svn)])

/-- A PD core writes back its L2, is reset and starts again; its IMSIC files are cleared (R332). -/
def Mod.restartPd (m : Mod) (a : Nat) : Mod :=
  let dirty := m.caches.filter (fun p => p.1 / 2 ^ 60 == a && p.2.st.dirty)
  let m : Mod := { m.clearFiles a with caches := m.caches.filter (fun p => p.1 / 2 ^ 60 != a) }
  (dirty.foldl (fun (m : Mod) (p : Nat × CacheLine) => m.restBack (p.1 % 2 ^ 60) p.2.data) m).setPdCore a
    { m.pdCore a with running := !(m.pdCore a).heldOut, window := none, reservation := none }

/-- The PD cores of a sector restart; the first restart after a platform activation runs the new image (R332, R418). -/
def Mod.restartPds (m : Mod) (s : Nat) : Mod :=
  let l := m.sectorPds s
  let m := if m.fw.platformNew && !l.isEmpty then
      { m.activateImage 2 with fw := { (m.activateImage 2).fw with platformNew := false } }
    else m
  l.foldl Mod.restartPd m

/-- SBI_SRST: a self-hosted sector restarts its own cores. -/
def execSbiSrst (sector : SectorId) (s : State) : Host.Outcome State Fault Refusal := s.go (s.toMod.restartPds sector)

/-- HOST_CORE_RESTART (KPR_HOST_CTRL). -/
def execHostCoreRestart (sector : SectorId) (s : State) : Host.Outcome State Fault Refusal := s.go (s.toMod.restartPds sector)

/-- HOST_SECTOR_RESET (KPR_HOST_CTRL). -/
def execHostSectorReset (sector : SectorId) (s : State) : Host.Outcome State Fault Refusal :=
  s.go (s.toMod.resetSector sector 3)

/-- A ring lies inside a valid region of a sector. -/
def Mod.ringInside (m : Mod) (s base bytes : Nat) : Bool :=
  m.regions.any (fun p => p.2.valid && p.2.sector == s && p.2.base ≤ base && base + bytes ≤ p.2.base + p.2.size)

/-- The admin queue of a self-hosted sector is created anew: ENABLED with its reply ring zeroed where its rings lie in regions of
the sector, else DISABLED (R333). -/
def Mod.restoreAdmin (m : Mod) (s : Nat) : Mod :=
  let x := m.sector s
  let q : QRef := .csq (Fin.ofNat 16384 x.firstQueue)
  let c := (m.queue q).configured x.words 3 true .enabled
  let bytes := 2 ^ c.replyLog2 * 32
  if m.ringInside s c.ring.toNat (2 ^ c.ringLog2 * 64) && m.ringInside s c.reply.toNat bytes then
    match m.writePhys (some (Fin.ofNat 16 s)) c.reply.toNat (List.replicate bytes 0) with
    | .ok m => m.setQueue q c
    | .error _ => m.setQueue q { c with st := .disabled }
  else m.setQueue q { c with st := .disabled }

/-- FUNCTION_RESET_DONE: the scrub is complete, every queue is FREE with its held replies kept, READY is set, and the sector is ACTIVE
again; a sector reset brings back the admin queue and the PD cores (R327 to R329, R333). A set that is being applied finishes first
(R48). -/
def execFunctionResetDone (sector : SectorId) (s : State) : Host.Outcome State Fault Refusal :=
  let m := s.toMod
  let x := m.sector sector
  s.go (if x.st ≠ 3 || m.applies sector then m
    else
      let m := (m.sectorQueues sector).foldl (fun (m : Mod) (q : QRef) => m.updQueue q Queue.freed) m
      let m := (m.sectorClusters sector).foldl Mod.scrubCluster m
      let m := (m.sectorEngines sector).foldl Mod.scrubEngine m
      let m := if x.attached then
          let f := m.fn x.hostPort (1 + sector.val)
          m.setFn x.hostPort (1 + sector.val) { f with resetting := false, ready := true }
        else m
      let m := if x.resetKind = 3 && !x.attached then m.restoreAdmin sector else m
      let m := if x.resetKind = 3 then m.restartPds sector else m
      (m.setSector sector { m.sector sector with resetKind := 0, flr := false }).sectorState sector 2 0)

/-! ## Admin queues (R322) -/

/-- The function of an attached sector takes writes: ACTIVE, memory space enabled, no reset under way (R324, R330). -/
def Mod.funcOpen (m : Mod) (s : Nat) : Bool :=
  let x := m.sector s
  let f := m.fn x.hostPort (1 + s)
  x.attached && f.active && f.mse && !f.resetting

/-- FUNC_CTRL.ADMIN_ENABLE, by the admin queue's state. -/
def Mod.adminEnable (m : Mod) (s : Nat) : Mod :=
  if !m.funcOpen s then m
  else
    let sec := m.sector s
    let q : QRef := .csq (Fin.ofNat 16384 sec.firstQueue)
    let x := m.queue q
    let c := (m.fn sec.hostPort (1 + s)).adminQueue x
    match x.st with
    | .free => if c.sound then m.setQueue q { c with st := .enabled } else m.funcIgnored s
    | .disabled => m.adminAgain s q
    | .disabling => if x.enable.isSome then m.funcIgnored s else m.setQueue q { x with enable := some (none, none) }
    | .enabled | .error | .fenced => m.funcIgnored s

/-- ADMIN_ENABLE. -/
def execAdminEnable (sector : SectorId) (s : State) : Host.Outcome State Fault Refusal := s.go (s.toMod.adminEnable sector)

/-- FUNC_CTRL.ADMIN_DISABLE: a QUEUE_DISABLE without a reply. -/
def Mod.adminDisable (m : Mod) (s : Nat) : Mod :=
  if m.funcOpen s then m.startDisable (.csq (Fin.ofNat 16384 (m.sector s).firstQueue)) none else m

/-- ADMIN_DISABLE. -/
def execAdminDisable (sector : SectorId) (s : State) : Host.Outcome State Fault Refusal := s.go (s.toMod.adminDisable sector)

/-- A vector unmasked: what is pending on it is sent (R323). -/
def Mod.unmask (m : Mod) (port fn vec : Nat) : Mod :=
  let f := m.fn port fn
  let m := m.setFn port fn { f with unmasked := if f.unmasked.contains vec then f.unmasked else f.unmasked ++ [vec] }
  if f.pendingVec.contains vec then m.sendPending port fn else m

/-- MSIX_UNMASK. -/
def execMsixUnmask (port : Fin 9) (fn : Fin 17) (vec : Fin 2048) (s : State) : Host.Outcome State Fault Refusal :=
  s.go (s.toMod.unmask port fn vec)

/-! ## Links (R311, R314, R327) -/

/-- A link can train as a report says: the port is not disabled, its rate is one that GEN_MAX allows, its width is one of R314's; an
endpoint speaks PCIe alone, and a memory root CXL; up to eight devices stand behind a memory root, none behind another port (R314, R316). -/
def Mod.trains (m : Mod) (p : PcieId) (l : LinkReport) : Bool :=
  let x := m.pciePort p
  let genMax := bits (m.reg (edSite (p.val / 2)) (0x4800000 + p.val % 2 * 0x100000) 0x1F0C) 3 2
  x.mode != 0 && 1 ≤ l.rate.toNat && l.rate.toNat ≤ 4 + genMax && [1, 2, 4, 8, 16].contains l.width.toNat &&
    (x.mode != 2 || l.protocol == 0) && (x.mode != 3 || l.protocol != 0) && (if x.mode = 3 then l.devices.toNat ≤ 8 else l.devices == 0)

/-- A PCIe/CXL link's new state: an adapter root's raises its PD's source 40 + P; an endpoint's loss resets its functions. A link of a
fenced edge domain stays down (R385); without REFCLK_PCIE and its own clock it does not train (R428). Flit mode is that of the rates of
64 GT/s and above (R314). -/
def Mod.linkState (m : Mod) (p : PcieId) (l : LinkReport) : Mod :=
  let x := m.pciePort p
  if l.up && (!m.trains p l || m.edgeFenced (p / 2) || (m.boot.noPcie && !l.ownClock)) then m
  else
    let m := m.linkSet p (if l.up then
        { x with linkUp := true, rate := l.rate.toNat, width := l.width.toNat, protocol := l.protocol.toNat, ideActive := l.ide,
                 flit := 6 ≤ l.rate.toNat, devices := l.devices.toNat }
      else x.down)
    if x.mode = 2 && x.linkUp && !l.up then m.conventional p
    else (List.range 17).foldl (fun (m : Mod) (fn : Nat) => m.sendPending p fn) m

/-- PCIE_LINK_STATE_EVENT. -/
def execPcieLinkStateEvent (p : PcieId) (l : LinkReport) (s : State) : Host.Outcome State Fault Refusal := s.go (s.toMod.linkState p l)

end Sys2Proof.Machine
end

