-- ==== Sys2Proof/Machine/Power.lean ====
section
/-!
DEFINITION. Operating points, isophase votes, alerts, droop and the ramp allowance (R357 to R372), and the hold state's two ends (R375
to R377).
-/
namespace Sys2Proof.Machine
open Sys2Proof

/-! ## Events (R457) -/

/-- PENDING as a number (R379). -/
def Power.pendingNum (p : Power) : Nat := p.pending.elim 0 PwrReq.num

/-- The module's power state changes; the change is recorded (R457). -/
def Mod.powerTo (m : Mod) (st : PwrSt) : Mod :=
  let old := m.power.st.num
  let m : Mod := { m with power := { m.power with st := st } }
  m.powerLog st.num kdSite (old + m.power.pendingNum * 8)

/-- A request without effect, recorded (R373, R432). -/
def Mod.powerRefuse (m : Mod) (r : PwrReq) : Mod := m.powerLog 0x10 kdSite (r.num + m.power.st.num * 8)

/-- The tick of the local beacon time. -/
def Mod.tick (m : Mod) : Nat := m.bt / 1024

/-! ## Isophase groups (R363 to R366) -/

/-- VOTE_LEAD; 0 acts as 1. -/
def Mod.voteLead (m : Mod) : Nat := max 1 (bits m.isoCtrl 31 24)
/-- GROUP_MAX. -/
def Mod.groupMax (m : Mod) : Nat := bits m.isoCtrl 36 32
/-- RISE_STEP; 0 acts as 1. -/
def Mod.riseStep (m : Mod) : Nat := max 1 (bits m.isoCtrl 44 40)

/-- The group forms at the apply instant of PWR_ISO_CTRL: a member is joined at the ceiling GROUP_MAX (R363). -/
def Mod.formGroup (m : Mod) : Mod :=
  let p := m.power
  if bit m.isoCtrl 16 then { m with power := { p with member := 1, ceiling := m.groupMax, votes := [], lastEffect := none } }
  else { m with power := { p with member := 0, ceiling := 0, votes := [], lastEffect := none } }

/-- A vote takes effect at E or within the epoch that ends there (R365). -/
def Power.blocked (p : Power) (e : Nat) : Bool :=
  let hit := fun (t : Nat) => t ≤ e && e ≤ t + 1024
  p.lastEffect.any hit || p.votes.any (fun v => !v.adopt && hit v.tick)

/-- The lowest ceiling of the votes pending for ticks from a to b, and a bound. -/
def Power.lowest (p : Power) (a b bound : Nat) : Nat :=
  (p.votes.filter (fun v => !v.adopt && a ≤ v.tick && v.tick ≤ b)).foldl (fun c v => min c v.ceiling) bound

/-- The ceiling at a later tick, as a voter computes it with its own vote in place (R364, R365). -/
def Mod.ceilingAt (m : Mod) (t : Nat) : Nat :=
  let p := m.power
  let e := (m.tick / 1024 + 1) * 1024
  if t < e then p.lowest 0 t p.ceiling
  else
    let c := p.lowest 0 (e - 1) p.ceiling
    p.lowest e t (if p.blocked e then c else max c (min m.groupMax (c + m.riseStep)))

/-- A vote message's packet: one hop (R406). -/
def Mod.votePkt (m : Mod) (ceiling result seq t : Nat) : TPkt :=
  let own := (m.nodeId 0).getD 0
  mkPkt 0xFFFFFF own (m.hopInit 0) true 5 0 0 0 64 0 0 0 64 0 0
    ([pack [(0, 8, 3)], pack [(0, 16, m.isoGroup), (16, 5, ceiling), (24, 5, result), (32, 32, seq)], BitVec.ofNat 64 (t * 1024),
      pack [(0, 24, own)]].flatMap wordBytes)

/-- A vote sent on the ACTIVE ports of PWR_ISO_PORTS, but one (R364). -/
def Mod.spreadVote (m : Mod) (t : TPkt) (except_ : Option PortId) : Mod :=
  ((List.range 32).filter (fun k => (m.reg kdSite 0x60028 0).getLsbD k && m.portActive k &&
    (match except_ with | some p => p.val != k | none => true))).foldl (fun (m : Mod) (k : Nat) => m.sendLink k 0 none t) m

/-- A vote posted for a tick (R364). -/
def Mod.postVote (m : Mod) (ceiling t : Nat) : Mod :=
  let p := m.power
  let own : Vote := { tick := t, ceiling := ceiling, result := ceiling, adopt := false }
  let result := ({ m with power := { p with votes := p.votes ++ [own] } } : Mod).ceilingAt t
  let m := m.spreadVote (m.votePkt ceiling result p.nextVote t) none
  let m : Mod := { m with power := { p with
    votes := p.votes ++ [{ own with result := result }], votesSent := satAdd p.votesSent 1 0xFFFF,
    nextVote := (p.nextVote + 1) % 2 ^ 32, seen := ((m.nodeId 0).getD 0, p.nextVote) :: p.seen, posted := some (ceiling, t) } }
  m.logEvent 0x02 0x13 kdSite (ceiling + result * 32 + m.isoGroup * 65536) (BitVec.ofNat 64 (t * 1024))

/-- The first MGMT message delivered at the Keeper of a type, and where it came in; messages of a reserved type before it are dropped
as malformed, and so is one of another length than its type's (R406). -/
def Mod.mgmtArrival (m : Mod) (ty : Nat) (size : TPkt → Bool) : Option Entering × Mod :=
  let kind := fun (e : Entering) => bits (bytesWord (e.pkt.payload.take 8)) 7 0
  let isMgmt := fun (e : Entering) => e.pkt.kind == 5
  let bad := m.arrived.filter (fun e => isMgmt e && (!([1, 2, 3, 4].contains (kind e)) || (kind e == ty && !size e.pkt)))
  let m := bad.foldl (fun (m : Mod) (e : Entering) => ({ m with arrived := m.arrived.erase e } : Mod).dropMalformed e) m
  match m.arrived.find? (fun e => isMgmt e && kind e == ty) with
  | some e => (some e, { m with arrived := m.arrived.erase e })
  | none => (none, m)

/-- VOTE: a vote message arrives; a new one is forwarded once, and taken by a member of its group (R364, R366). -/
def Mod.takeVote (m : Mod) (e : Entering) : Mod :=
  let w := wordsOf 4 e.pkt.payload
  let ceiling := bits (wordAt w 1) 20 16
  let id := (bits (wordAt w 3) 23 0, bits (wordAt w 1) 63 32)
  let p := m.power
  if p.member = 0 || p.seen.contains id then m
  else
    let m : Mod := { m with power := { p with seen := id :: p.seen } }
    let m := m.spreadVote e.pkt e.port
    let p := m.power
    let t := (wordAt w 2).toNat / 1024
    let late := t < m.tick
    let vote : Vote := { tick := if late then m.tick + 1 else t, ceiling := ceiling, result := bits (wordAt w 1) 28 24,
                         adopt := p.member = 2 }
    if bits (wordAt w 1) 15 0 ≠ m.isoGroup then m
    else if p.member = 2 && (!m.beacon.locked || p.votes.any (fun v => v.adopt)) then
      (if p.votes.any (fun v => v.adopt) then { m with power := { p with votes := p.votes ++ [{ vote with adopt := false }] } } else m)
    else { m with power := { p with votes := p.votes ++ [vote], lateVotes := if late then satAdd p.lateVotes 1 0xFFFF else p.lateVotes } }

/-- VOTE. -/
def execVote (s : State) : Host.Outcome State Fault Refusal :=
  let r := s.toMod.checkMember.mgmtArrival 3 (fun t => t.payload.length == 32)
  s.go (match r.1 with
    | some e => r.2.takeVote e
    | none => r.2)

/-- One vote's effect: a joined member lowers its ceiling; a detached one adopts the result and is joined again (R364, R366). -/
def Mod.effectVote (m : Mod) (v : Vote) : Mod :=
  let p := m.power
  let logged := fun (m : Mod) (c : Nat) =>
    m.logEvent 0x02 0x14 kdSite (v.ceiling + c * 32 + m.isoGroup * 65536) (BitVec.ofNat 64 (v.tick * 1024))
  if p.member = 2 && v.adopt then
    let m : Mod := { m with power := { p with member := 1, ceiling := v.result, lastEffect := some v.tick } }
    (logged m v.result).powerLog 0x16 kdSite (v.result + m.isoGroup * 65536)
  else if p.member = 1 && !v.adopt then
    let c := min p.ceiling v.ceiling
    logged { m with power := { p with ceiling := c, lastEffect := some v.tick } } c
  else m

/-- VOTE_EFFECTIVE: votes whose tick has come take effect, the one that rejoins first. -/
def execVoteEffective (s : State) : Host.Outcome State Fault Refusal :=
  let m := s.toMod.checkMember
  let due := m.power.votes.filter (fun v => v.tick ≤ m.tick)
  let m : Mod := { m with power := { m.power with votes := m.power.votes.filter (fun v => !(v.tick ≤ m.tick)) } }
  s.go ((due.filter (fun v => v.adopt) ++ due.filter (fun v => !v.adopt)).foldl Mod.effectVote m)

/-- ISOPHASE_RISE: at a management-epoch boundary, which is now, a joined member raises the ceiling unless a vote blocks it (R365). -/
def execIsophaseRise (s : State) : Host.Outcome State Fault Refusal :=
  let m := s.toMod.checkMember
  let p := m.power
  s.go (if p.member = 1 && !p.blocked m.tick then
      { m with power := { p with ceiling := max p.ceiling (min m.groupMax (p.ceiling + m.riseStep)) } }
    else m)

/-! ## Alerts and droop (R367 to R369) -/

/-- A rail group covers a die (R368). -/
def lineCovers (line site : Nat) : Bool :=
  if line < 8 then siteTd site == some (2 * line) || siteTd site == some (2 * line + 1)
  else if line < 12 then sitePd site == some (line - 8)
  else if line = 12 then site / 5 < 2 && site != kdSite
  else if line = 13 then site / 5 ≥ 2 && site != kdSite
  else if line = 14 then (siteEd site).isSome
  else (siteMd site).isSome

/-- Some forced group covers a die. -/
def Mod.alertOn (m : Mod) (site : Nat) : Bool :=
  (List.range 16).any (fun l => m.power.forced.getLsbD l && lineCovers l site)

/-- Some forced group of compute or core rails covers a die: its points are forced to 0 (R368). -/
def Mod.pointsForced (m : Mod) (site : Nat) : Bool :=
  (List.range 12).any (fun l => m.power.forced.getLsbD l && lineCovers l site)

/-- A group's alert forces the points of the TDs and PDs it covers (R368). -/
def Mod.forcePoints (m : Mod) (line : Nat) : Mod :=
  if line < 8 then
    (List.range 16).foldl (fun (m : Mod) (k : Nat) => m.updCluster (16 * line + k) (fun c => { c with opPoint := 0 })) m
  else if line < 12 then m.updDie (pdSite (line - 8)) (fun d => { d with volt := 0 })
  else m

/-- One bit of a line. -/
def lineBit (line : Nat) : BitVec 16 := BitVec.ofNat 16 (1 <<< line)

/-- A group is forced from now on (R369). -/
def Mod.forceGroup (m : Mod) (line : Nat) : Mod :=
  if m.power.forced.getLsbD line then m
  else (({ m with power := { m.power with forced := m.power.forced ||| lineBit line } } : Mod).forcePoints line).powerLog 0x11 kdSite line

/-- REG_ALERT: in the hold entry and the hold nothing is forced until resume (R369). -/
def execRegAlert (line : Fin 16) (s : State) : Host.Outcome State Fault Refusal :=
  let m := s.toMod
  let p := m.power
  let m : Mod := { m with power := { p with asserted := p.asserted ||| lineBit line, alerts := satAdd p.alerts 1 0xFFFF } }
  s.go (if p.st = .holdEntry || p.st = .hold then
      { m with power := { m.power with laterForced := m.power.laterForced ||| lineBit line } }
    else m.forceGroup line)

/-- REG_ALERT_RELEASE. -/
def execRegAlertRelease (line : Fin 16) (s : State) : Host.Outcome State Fault Refusal :=
  let m := s.toMod
  s.go { m with power := { m.power with asserted := m.power.asserted &&& ~~~(lineBit line) } }

/-- ALERT_HOLDOFF_END: the group's line has been released for 1 ms; its points return at the next tick. -/
def execAlertHoldoffEnd (line : Fin 16) (s : State) : Host.Outcome State Fault Refusal :=
  let m := s.toMod
  let p := m.power
  s.go (if p.asserted.getLsbD line then m
    else
      let m : Mod := { m with power := { p with forced := p.forced &&& ~~~(lineBit line),
                                                laterForced := p.laterForced &&& ~~~(lineBit line) } }
      if p.forced.getLsbD line then m.powerLog 0x12 kdSite line else m)

/-- A die has droop detectors: a TD, or a PD (R367). -/
def drooping (site : Nat) : Bool := (siteTd site).isSome || (sitePd site).isSome

/-- DROOP. -/
def execDroop (site : Site) (s : State) : Host.Outcome State Fault Refusal :=
  let m := s.toMod
  s.go (if drooping site then m.updDie site (fun d => { d with stretched := true, droopRun := satAdd d.droopRun 1 0xFFFF }) else m)

/-- DROOP_END. -/
def execDroopEnd (site : Site) (s : State) : Host.Outcome State Fault Refusal :=
  let m := s.toMod
  s.go (if drooping site then m.updDie site (fun d => { d with stretched := false }) else m)

/-! ## Operating points (R357 to R362) -/

/-- A cluster's demand and gating at a tick (R360). -/
def Mod.setDemand (m : Mod) (c : Nat) : Mod :=
  let d := m.demandOf c
  m.updCluster c (fun x => { x with demand := d.1, gated := d.2 })

/-- TJ_LIMIT (R379). -/
def Mod.tjLimit (m : Mod) : Nat := min 105 (max 70 (bits (m.reg kdSite 0x60018 0x5F0064) 23 16))

/-- The highest point of a TD's clusters by a measure. -/
def Mod.tdMax (m : Mod) (td : Nat) (f : Cluster → Nat) : Nat := ((List.range 8).map (fun k => f (m.cluster (8 * td + k)))).foldl max 0

/-- The highest point that a test lets through; point 0 where it lets none. -/
def highestPoint (fits : Nat → Bool) : Nat := ((List.range 32).filter fits).foldl max 0

/-- The module cap in mW: CAP_KW, 4 to 22 kW (R379). -/
def Mod.capDraw (m : Mod) : Nat := min 22 (max 4 (bits (m.reg kdSite 0x60000 0x160600) 20 16)) * 1000000

/-- A die's power limit in mW: 900 W for a TD, 400 W for a PD (R362). -/
def dieDrawLimit (site : Nat) : Nat := if (siteTd site).isSome then 900000 else 400000

/-- What limits a die (R362): LIMIT's bit, and the highest point it allows. The module cap and the ramp allowance allow the highest point at which
the module's draw fits them, the same for every die (log entry 126). An alert of harbour, edge or memory rails slows other clocks and leaves the
points alone (R368). -/
def Mod.dieLimits (m : Mod) (x : PowerSample) (site : Nat) : List (Nat × Nat) :=
  let cur := match siteTd site with
    | some td => m.tdMax td Cluster.opPoint
    | none => (m.die site).volt
  [(0, highestPoint (fun p => x.total p ≤ m.capDraw))] ++
  (match x.dies.find? (fun d => d.site.val == site) with
   | some d => [(1, highestPoint (fun p => d.at p ≤ dieDrawLimit site))]
   | none => []) ++
  (if m.power.allow < x.demand then [(3, highestPoint (fun p => x.total p ≤ m.power.allow))] else []) ++
  (if (m.die site).tj > m.tjLimit then [(2, cur - 1)] else []) ++ (if m.alertOn site then [(4, if m.pointsForced site then 0 else 31)] else [])

/-- The lowest of the limits. -/
def lowestOf (l : List (Nat × Nat)) : Nat := (l.map (·.2)).foldl min 31

/-- A die's LIMIT changes: recorded once an epoch (R457). -/
def Mod.setLimit (m : Mod) (site bits_ : Nat) : Mod :=
  let d := m.die site
  if d.limit = bits_ then m
  else
    let m := m.updDie site (fun d => { d with limit := bits_, logged := true })
    if d.logged then m else m.powerLog 0x17 site bits_

/-- The point a cluster is to run at (R362, R363, R366). -/
def Mod.target (m : Mod) (limits : List (Nat × Nat)) (demand : Nat) : Nat :=
  let p := m.power
  let forced := limits.any (fun l => l.1 == 4 && l.2 == 0)
  if forced then 0
  else if p.member = 1 then min demand p.ceiling
  else min (min demand (lowestOf limits)) (if p.member = 2 then p.ceiling else 31)

/-- A TD at a tick (R361): lowerings take effect; a raise beyond the voltage waits for it. The voltage is that of the highest
demand. -/
def Mod.tickTd (m : Mod) (x : PowerSample) (td : Nat) : Mod :=
  let site := tdSite td
  let m := (List.range 8).foldl (fun (m : Mod) (k : Nat) => m.setDemand (8 * td + k)) m
  let limits := m.dieLimits x site
  let volt := (m.die site).volt
  let m := (List.range 8).foldl (fun (m : Mod) (k : Nat) =>
    m.updCluster (8 * td + k) (fun c =>
      let t := m.target limits c.demand
      if t ≤ c.opPoint || t ≤ volt then { c with opPoint := t } else c)) m
  let most := m.tdMax td Cluster.demand
  let m := m.updDie site (fun d => { d with wanted := most, volt := if most ≤ d.volt then most else d.volt })
  let bitsOn := (limits.filter (fun l => l.1 == 4 || l.2 < most)).map (·.1)
  m.setLimit site (maskOf (bitsOn ++ (if m.power.member ≠ 0 && m.power.ceiling < most then [5] else [])))

/-- A PD at a tick: the highest point its limits and its cap allow (R358). -/
def Mod.tickPd (m : Mod) (x : PowerSample) (pd : Nat) : Mod :=
  let site := pdSite pd
  let limits := m.dieLimits x site
  let cap := min 12 (bits (m.reg kdSite (0x60300 + pd * 8) 12) 3 0)
  let m := m.updDie site (fun d => { d with volt := min cap (lowestOf limits) })
  m.setLimit site (maskOf ((limits.filter (fun l => l.1 == 4 || l.2 < cap)).map (·.1)))

/-- Another die at a tick: only an alert limits it. -/
def Mod.tickDie (m : Mod) (site : Nat) : Mod :=
  if drooping site then m else m.setLimit site (if m.alertOn site then 16 else 0)

/-- The lowest limit of the TDs, alerts among them: what a joined member votes by (R363, R364, R369). -/
def Mod.tdLimit (m : Mod) (x : PowerSample) : Nat :=
  ((List.range 16).map (fun td => lowestOf (m.dieLimits x (tdSite td)))).foldl min 31

/-- A joined member's votes at a tick: a limit below the ceiling, or one that the next rise would pass (R364, R365). -/
def Mod.tickVotes (m : Mod) (x : PowerSample) : Mod :=
  let p := m.power
  if p.member ≠ 1 then m
  else
    let limit := m.tdLimit x
    let t := m.tick + m.voteLead
    let soon := p.lowest 0 t p.ceiling
    if limit < soon then m.postVote limit t
    else if t % 1024 = 0 && !p.blocked t && limit < min m.groupMax (soon + m.riseStep) then m.postVote limit t
    else m

/-! ## The ramp allowance (R370 to R372) -/

/-- What A moves by in a tick: RAMP_RATE × 1.024 µs, in mW (R370). -/
def Mod.rampStep (m : Mod) : Nat := 256 * min 40 (max 1 (bits (m.reg kdSite 0x60000 0x160600) 13 8))

/-- A rise may start at a tick (R371). -/
def Mod.rampStart (m : Mod) : Bool :=
  let r := m.reg kdSite 0x60010 0x1400000000
  let period := bits r 15 0
  m.power.ramping || m.power.allow > bits r 39 32 * 100000 || period = 0 || m.tick % period == bits r 31 16 % period

/-- A moves towards the demand. -/
def Mod.tickAllow (m : Mod) (demand : Nat) : Mod :=
  let p := m.power
  if p.allow < demand then
    if m.rampStart then { m with power := { p with allow := min demand (p.allow + m.rampStep), ramping := true } } else m
  else { m with power := { p with allow := max demand (p.allow - m.rampStep), ramping := false } }

/-! ## The tick -/

/-- Time counts in a start (R437). -/
def Mod.startCounts (m : Mod) : Bool := m.boot.count ≠ 0 && m.boot.phase < 7 && m.working && !m.power.paused

/-- The samples of a tick, and what turns at a management epoch. -/
def Mod.tickSamples (m : Mod) (x : PowerSample) : Mod :=
  let m : Mod := { m with
    power := { m.power with inputW := x.inputW.toNat }
    boot := { m.boot with elapsed := if m.startCounts then m.boot.elapsed + 1024 else m.boot.elapsed, time := m.boot.time + 1024 } }
  let m := x.temps.foldl (fun (m : Mod) (t : Site × BitVec 8) => m.updDie t.1 (fun d => { d with tj := t.2.toNat })) m
  if m.tick % 1024 = 0 then
    { m with dies := Table.mapAll Die.reset m.dies (fun _ d => { d with droops := d.droopRun, droopRun := 0, logged := false })
             guest := { m.guest with malformedRun := 0 } }
  else m

/-- Points, limits and votes at a tick of a module that runs. -/
def Mod.tickPoints (m : Mod) (x : PowerSample) : Mod :=
  let m := m.tickVotes x
  let m := (List.range 16).foldl (fun (m : Mod) (td : Nat) => m.tickTd x td) m
  let m := (List.range 4).foldl (fun (m : Mod) (pd : Nat) => if m.guestAt (pdSite pd) then m else m.tickPd x pd) m
  (List.range 25).foldl (fun (m : Mod) (site : Nat) => m.tickDie site) m

/-- POWER_TICK: the power controller's work at a tick. In the hold states the points stand still, LIMIT shows the hold, and the
allowance rests (R372, R375). -/
def execPowerTick (x : PowerSample) (s : State) : Host.Outcome State Fault Refusal :=
  let m := (s.toMod.checkMember).tickSamples x
  s.go (match m.power.st with
    | .run => (m.tickPoints x).tickAllow x.demand
    | .holdEntry | .hold => (List.range 25).foldl (fun (m : Mod) (site : Nat) => m.setLimit site 64) m
    | .resuming => ((List.range 25).foldl (fun (m : Mod) (site : Nat) => m.setLimit site 64) m).tickAllow x.demand
    | .standby | .poweringUp | .poweringDown => m.tickAllow x.demand)

/-- VOLTAGE_SETTLED: the TD's voltage is that of the demand; waiting raises take effect at the next tick (R361). -/
def execVoltageSettled (site : Site) (s : State) : Host.Outcome State Fault Refusal :=
  let m := s.toMod
  s.go (if (siteTd site).isSome then m.updDie site (fun d => { d with volt := max d.volt d.wanted }) else m)

/-! ## The two ends of a hold (R375 to R377) -/

/-- Hold entry begins (R375). -/
def Mod.startHold (m : Mod) : Mod :=
  ({ m with power := { m.power with holdCount := satAdd m.power.holdCount 1 0xFFFF } } : Mod).powerTo .holdEntry

/-- Every line of the caching agents is written back and invalidated (R375). -/
def Mod.writeBackAll (m : Mod) : Mod :=
  let held := m.caches.map (fun (p : Nat × CacheLine) => p.1 % 2 ^ 60)
  let owed := (m.evictions.filter (fun (p : Nat × Eviction) => p.2.owed)).map (fun (p : Nat × Eviction) => p.1 % 2 ^ 60)
  let lines := (held ++ owed).eraseDups
  let m := lines.foldl Mod.recall m
  { m with pdCores := Table.mapAll PdCore.reset m.pdCores (fun _ c => { c with reservation := none }) }

/-- Every slice is written back and powered off (R375). -/
def Mod.emptySlices (m : Mod) : Mod :=
  let m := m.cleanSlices (fun _ => true)
  { m with slices := Table.mapAll Slice.reset m.slices (fun _ x => { x with lines := [], plru := [], cleaning := 0, filter := [] }) }

/-- Running controllers in self-refresh, or back from it (R375, R377). -/
def Mod.refresh (m : Mod) (on : Bool) : Mod :=
  { m with controllers := Table.mapAll Controller.reset m.controllers (fun _ c =>
             if on then (if c.st = 1 then { c with st := 2 } else c) else (if c.st = 2 then { c with st := 1 } else c)) }

/-- Resume begins: the allowance starts at the hold draw (R377). -/
def Mod.startResume (m : Mod) : Mod :=
  ({ m with power := { m.power with allow := m.power.inputW * 1000, ramping := false } } : Mod).powerTo .resuming

/-- Every stopped unit goes on: alerts of the hold apply, engines send again (R369, R377). -/
def Mod.finishResume (m : Mod) : Mod :=
  let m := (m.refresh false).powerTo .run
  let later := m.power.laterForced
  let m : Mod := { m with power := { m.power with laterForced := 0 } }
  let m := ((List.range 16).filter (fun l => later.getLsbD l)).foldl (fun (m : Mod) (l : Nat) => m.forceGroup l) m
  ((List.range 64).filter (fun e => (m.engine e).active)).foldl (fun (m : Mod) (e : Nat) => m.pumpEngine e 2048) m

end Sys2Proof.Machine
end

