-- ==== Sys2Proof/Machine/Restart.lean ====
section
/-!
DEFINITION. What a restart of the module leaves: the reply flush, and the module after a warm restart, a cold one, and with its rails
off (R191, R192, R293, R341, R352, R387, R437).
-/
namespace Sys2Proof.Machine
open Sys2Proof

/-! ## The reply flush (R293) -/

/-- The staged sets are emptied, and every owed reply of every queue is written FENCED (R48, R293). -/
def Mod.replyFlush (m : Mod) : Mod :=
  let m := m.dropSets 5 0x0401 (fun _ => true)
  let m := m.queues.foldl (fun (m : Mod) (q : Nat × Queue) => m.flushQueue (.csq (Fin.ofNat 16384 q.1))) m
  m.mqs.foldl (fun (m : Mod) (q : Nat × Queue) => m.flushQueue (.mq (Fin.ofNat 64 q.1))) m

/-! ## Helpers -/

/-- A table of n units given by a function. -/
def buildTable {α : Type} [DecidableEq α] (dflt : α) (n : Nat) (f : Nat → α) : Table α :=
  (List.range n).filterMap (fun i => if f i = dflt then none else some (i, f i))

/-- A tag one higher. -/
def nextTag (n : Nat) : Nat := (n + 1) % 256

/-- The registers that keep their values through a warm reset (R8). -/
def Mod.keptRegs (m : Mod) : Table Word :=
  m.regs.filter (fun (p : Nat × Word) =>
    match m.regDef (p.1 / 2 ^ 32) (p.1 % 2 ^ 32) with
    | some d => d.kept
    | none => false)

/-- A routing table after a warm reset: of an entry's fields R241 has VALID alone keep its value. -/
def keptRoutes (t : Table Word) : Table Word := Table.mapAll 0 t (fun _ w => w &&& ones 28 28)

/-- Queues of which only the held replies are left in their pages (R328). -/
def heldPages (t : Table Queue) : Table Queue :=
  (t.filter (fun (p : Nat × Queue) => !p.2.held.isEmpty)).map (fun (p : Nat × Queue) =>
    (p.1, { Queue.reset with held := p.2.held, heldGen := p.2.heldGen }))

/-- The next start boots the set that FW_STATE.NEXT names; an unconfirmed trial falls back to the other set, and TRIAL clears
(R417); the record names the set that it falls back to, with its feature level (R457). -/
def Mod.fallBack (m : Mod) (trial booted : Bool) (level : Nat) : Mod :=
  if trial then
    let w := m.reg kdSite 0x84000 0x2580000000000
    (m.setReg kdSite 0x84000 0x2580000000000 (maskedWrite w (ones 6 5) (pack [(5, 1, flag (!booted))]))).logEvent
      0x06 0x05 kdSite (16 * flag (!booted) + level % 65536 * 65536) 0
  else m

/-! ## Warm (R191, R192, R341, R387) -/

/-- A valid PRESERVE entry whose sector is not SCRUBBING comes through a warm restart (R191, R334). -/
def Mod.survives (m : Mod) (r : Region) : Bool := r.valid && r.preserve && (m.sector r.sector).st != 5

/-- A key slot that comes through a warm restart (R341). -/
def Mod.keySurvives (m : Mod) (slot : Nat) : Bool :=
  (m.keySlot slot).valid && m.regions.any (fun p => m.survives p.2 && p.2.key == slot)

/-- Keys of the preserved entries are retained, all others destroyed, with what was stored under them (R341). -/
def Mod.warmKeys (m : Mod) : Mod :=
  let keep := (List.range 64).filter m.keySurvives
  let m := ((List.range 64).filter (fun k => !keep.contains k)).foldl Mod.destroyKey m
  let m := keep.foldl (fun (m : Mod) (k : Nat) =>
    { m with keySlots := Table.upd KeySlot.reset m.keySlots k (fun x => { x with retained := true }) }) m
  let live := fun (line : Nat) => keep.contains (lineKey line) && lineChan line < 2600
  { m with dram := m.dram.filter (fun (p : Host.Cell) => live (p.1 / 128)), poison := m.poison.filter live }

/-- What of a SCRUBBING sector is filled later stays pending: its tier-1 channels, those reserved for its preserved entries among them, and its
tier-2 footprints (R334, R353). -/
def Mod.warmFills (m : Mod) : Mod :=
  let going := (List.range 16).filter (fun s => (m.sector s).st == 5)
  let chans := (going.flatMap (fun s => (m.sectorChans s ++ (m.sector s).reserved).filter (fun c => decide (2560 ≤ c)))).eraseDups
  let m := chans.foldl (fun (m : Mod) (c : Nat) => { m.markChannel c true with fills := m.fills ++ [.channel (c - 2560)] }) m
  let far := m.regions.filter (fun p => p.2.valid && going.contains p.2.sector && p.2.tier = 2)
  { m with fills := m.fills ++ far.map (fun p => .granules (p.2.base / 2097152) (p.2.size / 2097152)) }

/-- The sectors after a warm restart: PRESERVED with their channels reserved, or FREE (R192, R334). -/
def Mod.warmSectors (m : Mod) (old : Mod) : Mod :=
  (List.range 16).foldl (fun (m : Mod) (s : Nat) =>
    let mine := old.regions.filter (fun (p : Nat × Region) => old.survives p.2 && p.2.sector == s)
    let chans := ((mine.filter (fun (p : Nat × Region) => p.2.tier != 2)).flatMap (fun (p : Nat × Region) => old.chanList p.2)).eraseDups
    let st := if mine.isEmpty then 0 else 6
    let m := m.setSector s { Sector.reset with st := (old.sector s).st, reserved := chans }
    if (old.sector s).st = st then m else m.sectorState s st 0) m

/-- The module after a warm restart, before its start runs (R191, R192, R293, R341, R345, R387, R388, R445). -/
def Mod.warm (m : Mod) (cause : Nat) : Mod :=
  let m := m.cleanSlices (fun _ => true)
  let old := m
  let m := m.warmFills.warmKeys
  let r : Mod := { Mod.reset with
    part := m.part, regs := m.keptRegs
    cores := buildTable TCore.reset 1024 (fun i =>
      let c := m.core i
      { TCore.reset with gen := c.gen + 1, saveBase := c.saveBase, saveValid := c.saveValid })
    clusters := Table.mapAll Cluster.reset m.clusters (fun _ c => { Cluster.reset with mappedOut := c.mappedOut, shown := c.shown })
    dram := m.dram, poison := m.poison
    regions := m.regions.filter (fun (p : Nat × Region) => m.survives p.2)
    controllers := Table.mapAll Controller.reset m.controllers (fun _ c =>
      { Controller.reset with chOut := c.chOut, dirty := c.dirty, lost := c.lost, injPoison := c.injPoison })
    hdm := m.hdm
    pdCores := Table.mapAll PdCore.reset m.pdCores (fun _ c => { PdCore.reset with heldOut := c.heldOut })
    sectors := m.sectors
    fns := buildTable Fn.reset 256 (fun i =>
      if i % 32 = 0 || i % 32 > 16 then Fn.reset
      else { Fn.reset with gen := (Table.get Fn.reset m.fns i).gen + 1, bar2Log2 := (Table.get Fn.reset m.fns i).bar2Log2 })
    queues := heldPages m.queues, mqs := heldPages m.mqs, mqPath := m.mqPath, mqSector := m.mqSector
    ports := buildTable Port.reset 32 (fun p => { Port.reset with generation := (m.port p).generation + 1 })
    engines := buildTable Engine.reset 64 (fun e => { Engine.reset with gen := (m.engine e).gen + 1 })
    groupRoute := keptRoutes m.groupRoute, memberRoute := keptRoutes m.memberRoute
    holdoff := true
    tender := { Tender.reset with recoveries := m.tender.recoveries, escalations := m.tender.escalations,
                                  forced := m.tender.forced, last := m.tender.last,
                                  increments := (m.countBumps [.moduleWarm]).tender.increments }
    dieGens := buildTable 0 200 (fun k =>
      let site := k / 8
      if (k % 8 = 0 && ((siteTd site).isSome || (siteEd site).isSome)) || (1 ≤ k % 8 && k % 8 ≤ 4 && (siteMd site).isSome && !m.guestAt site)
      then nextTag (Table.get 0 m.dieGens k) else 0)
    nextCmd := m.nextCmd, nextIncoming := m.nextIncoming
    keySlots := m.keySlots, fills := m.fills, zeros := m.zeros, keyEpochs := m.keyEpochs
    unlocked := m.unlocked, starts := m.starts + 1, svnFused := m.svnFused
    measurements := m.measurements.filter (fun (p : Nat × BitVec 384) => p.1 ≤ 6)
    fw := { Firmware.reset with flashA := m.fw.flashA, flashB := m.fw.flashB }
    power := { Power.reset with
      st := .run, holdCount := m.power.holdCount, asserted := m.power.asserted, forced := m.power.forced,
      thermtrip := m.power.thermtrip, paused := m.boot.warnLow, pending := if m.boot.warnLow then some .hold else none }
    boot := { m.boot with phase := 0, kind := 2, cause := cause, elapsed := 0, count := satAdd m.boot.count 1 0xFFFF,
                          request := none, stopped := false }
    patrol := { m.patrol with run := false }, lanes := m.lanes
    tap := m.tap, guest := { Guest.reset with gen := m.guest.gen }
    beacon := { Beacon.reset with master := m.beacon.master, source := m.beacon.source, bt := m.beacon.bt,
                                  stepCount := m.beacon.stepCount }
    errs := m.errs, events := m.events, nextSeq := m.nextSeq, overwritten := m.overwritten
    out := m.out, free := m.free }
  ((r.warmSectors old).checkRole m.beacon.master).fallBack m.fw.trial m.fw.booted m.fw.inactiveLevel

/-! ## Cold (R191, R341, R387, R437, R445) -/

/-- Every key is gone, and what was stored under it (R341). -/
def Mod.coldKeys (m : Mod) : Table Nat := buildTable 0 64 (fun k => Table.get 0 m.keyEpochs k + 1)

/-- What no restart of the module touches: fuses, flash, the fused repair map, pins. -/
def Mod.fixed (m : Mod) : Mod :=
  { Mod.reset with
    part := m.part, svnFused := m.svnFused, keyEpochs := m.coldKeys, starts := m.starts + 1
    fw := { Firmware.reset with flashA := m.fw.flashA, flashB := m.fw.flashB }
    power := { Power.reset with asserted := m.power.asserted, forced := m.power.forced, thermtrip := m.power.thermtrip }
    boot := { m.boot with phase := 0, elapsed := 0, time := 0, request := none, railsGood := 0, parked := false, stopped := false, patrol := [] }
    patrol := { Patrol.reset with fused := m.patrol.fused }
    lanes := Table.mapAll LaneMap.reset m.lanes (fun _ l => { LaneMap.reset with fused := l.fused })
    tap := m.tap, out := m.out, free := m.free }

/-- The module after a cold start or a cold restart, before its start runs (R437); after a restart the EDs originate nothing at first (R388). -/
def Mod.cold (m : Mod) (kind cause : Nat) : Mod :=
  let r := m.fixed
  let r : Mod := { r with boot := { r.boot with kind := kind, cause := cause, count := satAdd r.boot.count 1 0xFFFF }, holdoff := kind == 1 }
  r.fallBack m.fw.trial m.fw.booted m.fw.inactiveLevel

/-- The module in STANDBY with every rail off but the KD's (R432, R433, R436): memory and every other die's state are lost, while the
Keeper's own stays. -/
def Mod.railsCut (m : Mod) : Mod :=
  let r := m.fixed
  let m1 : Mod := { r with
    regs := m.regs.filter (fun (p : Nat × Word) => p.1 / 2 ^ 32 == kdSite)
    mqs := m.mqs, mqPath := m.mqPath, mqSector := m.mqSector, mqTurn := m.mqTurn
    fns := m.fns.filter (fun (p : Nat × Fn) => p.1 / 32 == 8)
    tender := { m.tender with step := 0, current := none, queue := [], fenced := [], injected := [] }
    nextCmd := m.nextCmd, nextIncoming := m.nextIncoming
    unlocked := m.unlocked, starts := m.starts, bootImage := m.bootImage, rootIndex := m.rootIndex
    svnRunning := m.svnRunning.filter (fun (p : Nat × Nat) => p.1 == 0)
    measurements := m.measurements.filter (fun (p : Nat × BitVec 384) => p.1 ≤ 6)
    sectors := m.sectors, keySlots := Table.mapAll KeySlot.reset m.keySlots (fun _ k => { k with valid := false, retained := false })
    harbourUp := m.harbourUp &&& 0x1000, computeUp := m.computeUp &&& 0x1000
    fw := m.fw
    power := { m.power with paused := false, allow := 0, ramping := false, member := 0, ceiling := 0, votes := [] }
    boot := { m.boot with railsGood := 0, phase := min 1 m.boot.phase, request := none, stopped := false, patrol := [] }
    levels := m.levels, notices := m.notices
    beacon := { m.beacon with upstream := none, ports := [], events := [], late := [] }
    errs := m.errs.filter (fun (p : Nat × ErrRing) => p.1 == kdSite)
    events := m.events, nextSeq := m.nextSeq, overwritten := m.overwritten }
  (List.range 16).foldl (fun (x : Mod) (s : Nat) =>
    if (m.sector s).st = 0 then x.setSector s Sector.reset
    else (x.sectorState s 0 0).setSector s Sector.reset) m1

end Sys2Proof.Machine
end

