-- ==== Sys2Proof/Machine/Boot.lean ====
section
/-!
DEFINITION. Module power states, reset pins, protective events, restarts and the phases of a start (R18, R343, R373 to R377, R392,
R395, R432 to R439, R446).
-/
namespace Sys2Proof.Machine
open Sys2Proof

/-! ## Restarts (R373, R392, R434, R437 to R439) -/

/-- A warm restart begins: the fabric partners hear LINK_DOWN, and what caches and slices hold stands in memory (R191, R401, R437;
log entry 33). -/
def Mod.beginWarm (m : Mod) (cause : Nat) : Mod := (m.linksDown.writeBackAll.replyFlush).warm cause

/-- A cold start or restart begins; the fabric partners of a module that was up hear LINK_DOWN (R401, R437). -/
def Mod.beginCold (m : Mod) (kind cause : Nat) : Mod := (m.linksDown.replyFlush).cold kind cause

/-- A warm restart has to be a cold one: from STANDBY or POWERING_UP, or before memory training completes (R434, R439). -/
def Mod.mustBeCold (m : Mod) : Bool := m.power.st == .standby || m.power.st == .poweringUp || m.boot.phase < 5

/-- A warm restart as the module's state makes it. -/
def Mod.restartWarm (m : Mod) (cause : Nat) : Mod := if m.mustBeCold then m.beginCold 1 cause else m.beginWarm cause

/-- A restart asked for; a cold one that waits is replaced only by a write of KPR_BOOT_CTRL that asked for it (R439). -/
def Mod.askRestart (m : Mod) (cold : Bool) (cause : Nat) : Mod :=
  match m.boot.request with
  | some (true, c) => if c = 4 || cold then { m with boot := { m.boot with request := some (cold, cause) } } else m
  | _ => { m with boot := { m.boot with request := some (cold, cause) } }

/-- A boot that stops, with its cause in the KD error record (R18, R343, R373, R395; log entry 32). -/
def Mod.bootFail (m : Mod) (code detail : Nat) : Mod :=
  m.record { site := kdSite, cls := 0x17, sev := 3, unit := 0x0800, code := code, addr := 0, detail := detail, sector := none, 
             injected := false }

/-! ## Module power states (R373, R374) -/

/-- An ON request is refused: THERMTRIP_N low, a junction too hot, or EXTEST selected (R432, R448). -/
def Mod.onRefused (m : Mod) : Bool :=
  m.power.thermtrip || m.tap.ir == 0 || (List.range 25).any (fun s => (m.die s).tj > m.tjLimit)

/-- The Keeper's die is up (R28). -/
def Mod.keeperUp (m : Mod) : Mod :=
  { m with harbourUp := m.harbourUp ||| 0x1000, computeUp := m.computeUp ||| 0x1000 }

/-- The cold restart of a module that waits in STANDBY: its first phase is complete already, because the Keeper runs on with its image,
the image's measurement and the management endpoint (R8, R373, R437). -/
def Mod.restartParked (m : Mod) : Mod :=
  let r := m.replyFlush
  let c := r.fixed
  let c : Mod := { c with
    holdoff := true
    fw := r.fw, bootImage := r.bootImage, rootIndex := r.rootIndex
    svnRunning := r.svnRunning.filter (fun (p : Nat × Nat) => p.1 == 0)
    measurements := r.measurements.filter (fun (p : Nat × BitVec 384) => p.1 == 2)
    boot := { c.boot with phase := 1, kind := 1, cause := 7, count := satAdd c.boot.count 1 0xFFFF } }
  (c.setFn 8 0 { Fn.reset with active := true }).keeperUp

/-- ON in STANDBY: from a parked module a cold restart with the Keeper running, else the start goes on (R373, R435). -/
def Mod.startUp (m : Mod) : Mod :=
  let m := if m.boot.parked then m.restartParked else m
  ({ m with boot := { m.boot with railsGood := 0 } } : Mod).powerTo .poweringUp

/-- Every TD, edge and memory-stack domain is fenced (R373, R436). -/
def Mod.fenceAll (m : Mod) : Mod :=
  let ds := (List.range 16).map (fun t => Domain.td (Fin.ofNat 25 (tdSite t))) ++ (List.range 4).map (fun e => Domain.edge (Fin.ofNat 4 e)) ++
    (List.range 80).map (fun k => Domain.stack (Fin.ofNat 80 k))
  ds.foldl Mod.fenceUnits { m with tender := { m.tender with fenced := m.tender.fenced ++ ds } }

/-- POWERING_DOWN begins: the reply flush, and the fence of every domain (R373, R436). -/
def Mod.startDown (m : Mod) : Mod :=
  (({ (m.replyFlush).fenceAll with power := { (m.replyFlush).fenceAll.power with paused := false, pending := none } } : Mod)).powerTo
    .poweringDown

/-- A request held as PENDING, or none (R374). -/
def Mod.pend (m : Mod) (r : Option PwrReq) : Mod := { m with power := { m.power with pending := r } }

/-- The start pauses (R373, R439). -/
def Mod.pauseStart (m : Mod) : Mod := { m with power := { m.power with paused := true, pending := some .hold } }

/-- RELEASE in HOLD: a warm restart that waits for the end of the hold runs; otherwise the resume begins (R373, R439). -/
def Mod.endHold (m : Mod) : Mod :=
  match m.boot.request with
  | some (false, cause) => (m.refresh false).beginWarm cause
  | _ => m.startResume

/-- A request by the module's power state (R373, R374). -/
def Mod.powerEvent (m : Mod) (r : PwrReq) : Mod :=
  match m.power.st, r with
  | .standby, .on =>
    if m.boot.phase = 0 then m
    else if m.onRefused then ({ m with boot := { m.boot with parked := true } } : Mod).powerRefuse .on
    else m.startUp
  | .standby, .off => m
  | .standby, .hold | .poweringDown, .hold => m.powerRefuse .hold
  | .standby, .release | .poweringDown, .release => m.powerRefuse .release
  | .poweringUp, .on | .poweringUp, .release => m.pend none
  | .poweringUp, .off => m.pend (some .off)
  | .poweringUp, .hold => m.pend (some .hold)
  | .run, .on => m
  | .run, .off => m.startDown
  | .run, .hold => if m.boot.phase ≥ 5 then m.startHold else m.pauseStart
  | .run, .release => if m.power.paused then { m with power := { m.power with paused := false, pending := none } } else m
  | .poweringDown, .on => m.pend (some .on)
  | .poweringDown, .off => m.pend none
  | .holdEntry, .hold => m.pend none
  | .holdEntry, r => m.pend (some r)
  | .hold, .release => m.endHold
  | .hold, .off => m.startDown
  | .hold, .on | .hold, .hold => m
  | .resuming, .on | .resuming, .release => m.pend none
  | .resuming, r => m.pend (some r)

/-- A stable state is reached: the pending request runs as an event of it (R374). -/
def Mod.runPending (m : Mod) : Mod :=
  match m.power.pending with
  | some r => (m.pend none).powerEvent r
  | none => m

/-- POWER_ON_REQUEST. -/
def execPowerOnRequest (s : State) : Host.Outcome State Fault Refusal := s.go (s.toMod.powerEvent .on)

/-- POWER_OFF_REQUEST. -/
def execPowerOffRequest (s : State) : Host.Outcome State Fault Refusal := s.go (s.toMod.powerEvent .off)

/-- PWR_WARN_ASSERT: HOLD (R373, R439). -/
def execPwrWarnAssert (s : State) : Host.Outcome State Fault Refusal :=
  let m := s.toMod
  s.go (({ m with boot := { m.boot with warnLow := true } } : Mod).powerEvent .hold)

/-- PWR_WARN_RELEASE: RELEASE (R373, R439). -/
def execPwrWarnRelease (s : State) : Host.Outcome State Fault Refusal :=
  let m := s.toMod
  s.go (({ m with boot := { m.boot with warnLow := false } } : Mod).powerEvent .release)

/-- HOLD_ENTRY_DONE: caches and slices are written back, memory refreshes itself, and the module is in HOLD (R375). -/
def execHoldEntryDone (s : State) : Host.Outcome State Fault Refusal :=
  let m := s.toMod
  s.go (if m.power.st = .holdEntry then (((m.writeBackAll.emptySlices).refresh true).powerTo .hold).runPending else m)

/-- RESUME_DONE (R377). -/
def execResumeDone (s : State) : Host.Outcome State Fault Refusal :=
  let m := s.toMod
  s.go (if m.power.st = .resuming then m.finishResume.runPending else m)

/-- The module in STANDBY with its rails off, waiting for ON (R373, R435). -/
def Mod.toStandby (m : Mod) : Mod :=
  let c := m.railsCut
  ({ c with boot := { c.boot with parked := true } } : Mod).powerTo .standby

/-- A restart that waited for STANDBY begins there; else the pending request runs. -/
def Mod.settleStandby (m : Mod) (request : Option (Bool × Nat)) : Mod :=
  match request with
  | some (_, cause) => m.beginCold 1 cause
  | none => m.runPending

/-- RAILS_OFF (R373, R436). -/
def execRailsOff (s : State) : Host.Outcome State Fault Refusal :=
  let m := s.toMod
  s.go (if m.power.st = .poweringDown then
      let c := m.toStandby
      ({ c with power := { c.power with pending := m.power.pending } } : Mod).settleStandby m.boot.request
    else m)

/-- RAIL_GROUP_GOOD (R435). -/
def execRailGroupGood (line : Fin 16) (s : State) : Host.Outcome State Fault Refusal :=
  let m := s.toMod
  s.go (if m.power.st = .poweringUp then { m with boot := { m.boot with railsGood := m.boot.railsGood ||| lineBit line } } else m)

/-- DIES_OUT_OF_RESET: with every rail group good the module is in RUN, and the start goes on (R373, R435). -/
def execDiesOutOfReset (s : State) : Host.Outcome State Fault Refusal :=
  let m := s.toMod
  s.go (if m.power.st = .poweringUp && m.boot.railsGood == 0xFFFF then
      let m := ({ m with boot := { m.boot with phase := 2 } } : Mod).powerTo .run
      let m := m.runPending
      if m.boot.warnLow && m.power.st = .run then m.pauseStart else m
    else m)

/-- POWERING_UP_TIMEOUT: STANDBY again, with the cause recorded (R373, R435). -/
def execPoweringUpTimeout (s : State) : Host.Outcome State Fault Refusal :=
  let m := s.toMod
  s.go (if m.power.st = .poweringUp then
      let c := m.toStandby.bootFail 2 m.boot.railsGood.toNat
      ({ c with power := { c.power with pending := m.power.pending } } : Mod).runPending
    else m)

/-! ## Protective events (R432, R433) -/

/-- THERMTRIP (R432): STANDBY at once, with no transition and nothing pending. -/
def execThermtrip (s : State) : Host.Outcome State Fault Refusal :=
  let m := s.toMod
  let c := m.toStandby
  s.go { c with power := { c.power with thermtrip := true, pending := none }
                boot := { c.boot with thermtripSeen := true }
                out := .pin 0 false :: c.out }

/-- UNDERVOLTAGE (R433). -/
def execUndervoltage (s : State) : Host.Outcome State Fault Refusal :=
  let m := s.toMod
  let c := m.toStandby
  s.go { c with power := { c.power with pending := none }, boot := { c.boot with undervoltSeen := true, lost := true, parked := false } }

/-- INPUT_RETURN: the input is in range, a cold start begins; also at the first application of 48 V (R433, R437). -/
def execInputReturn (s : State) : Host.Outcome State Fault Refusal :=
  let m := s.toMod
  s.go (if m.boot.lost then
      let c := m.cold 0 6
      { c with boot := { c.boot with lost := false } }
    else if m.boot.count = 0 then m.cold 0 0
    else m)

/-! ## Reset pins (R434, R439) -/

/-- MOD_RESET_ASSERT: the reply flush; THERMTRIP_N is let go (R432). -/
def execModResetAssert (s : State) : Host.Outcome State Fault Refusal :=
  let m := s.toMod.replyFlush
  s.go { m with boot := { m.boot with modResetLow := true }, power := { m.power with thermtrip := false }
                out := if m.power.thermtrip then .pin 0 true :: m.out else m.out }

/-- MOD_RESET_LONG: every rail but the KD's turns off, and the KD is held in reset. -/
def execModResetLong (s : State) : Host.Outcome State Fault Refusal :=
  let m := s.toMod
  s.go (if m.boot.modResetLow then
      let c := m.railsCut
      let c : Mod := { c with boot := { c.boot with modResetLong := true, phase := 0, parked := false }
                              power := { c.power with st := .standby, pending := none } }
      { c with harbourUp := 0, computeUp := 0 }
    else m)

/-- MOD_RESET_RELEASE: a warm or a cold restart; during a hold the warm one waits for RELEASE. -/
def execModResetRelease (s : State) : Host.Outcome State Fault Refusal :=
  let m := s.toMod
  let c : Mod := { m with boot := { m.boot with modResetLow := false, modResetLong := false } }
  s.go (if !m.boot.modResetLow then m
    else if m.boot.modResetLong then c.beginCold 1 1
    else if m.power.st = .holdEntry || m.power.st = .hold then c.askRestart false 1
    else c.restartWarm 1)

/-! ## Management queues by their control register (R421) -/

/-- A write to a management queue's control register that is ignored and recorded. -/
def Mod.mqIgnored (m : Mod) (q : Nat) : Mod := m.malformed kdSite (cbBase kdSite + 0x80048 + q * 0x80) 8 none

/-- KPR_MQ_CTRL.DISABLE. -/
def Mod.mqDisable (m : Mod) (n : Fin 64) : Mod :=
  if (m.queue (.mq n)).st = .free then m.mqIgnored n else m.startDisable (.mq n) none

/-- MGMT_PERST: queue 0 is disabled, its replies held until the link returns; the endpoint's MSI-X state is cleared (R434). -/
def execMgmtPerst (s : State) : Host.Outcome State Fault Refusal :=
  let m := s.toMod
  let m : Mod := (({ m with boot := { m.boot with perstLow := true } } : Mod).setFn 8 0
    { m.fn 8 0 with withdrawn := true, msixEnable := false, unmasked := [], pendingVec := [] })
  s.go (if (m.queue (.mq 0)).st = .free then m else m.mqDisable 0)

/-- MGMT_PERST_RELEASE: the link is back, and the held replies of queue 0 are written (R434). -/
def execMgmtPerstRelease (s : State) : Host.Outcome State Fault Refusal :=
  let m := s.toMod
  let m : Mod := ({ m with boot := { m.boot with perstLow := false } } : Mod).setFn 8 0 { m.fn 8 0 with withdrawn := false }
  s.go (m.writeHeld (.mq 0) (m.queue (.mq 0)).held)

/-! ## Restarts asked for -/

/-- KPR_BOOT_CTRL_WARM. -/
def execKprBootCtrlWarm (s : State) : Host.Outcome State Fault Refusal := s.go (s.toMod.askRestart false 4)

/-- KPR_BOOT_CTRL_COLD. -/
def execKprBootCtrlCold (s : State) : Host.Outcome State Fault Refusal := s.go (s.toMod.askRestart true 4)

/-- WARM_RESTART: the warm restart that is asked for begins; not in a hold, nor while the module powers down (R374, R439). -/
def execWarmRestart (s : State) : Host.Outcome State Fault Refusal :=
  let m := s.toMod
  s.go (match m.boot.request with
    | some (false, cause) =>
      if m.power.st = .holdEntry || m.power.st = .hold || m.power.st = .poweringDown then m else m.restartWarm cause
    | _ => m)

/-- COLD_RESTART: the cold restart that is asked for begins. -/
def execColdRestart (s : State) : Host.Outcome State Fault Refusal :=
  let m := s.toMod
  s.go (match m.boot.request with
    | some (true, cause) => if m.power.st = .poweringDown then m else m.beginCold 1 cause
    | _ => m)

/-- WARM_RESTART_TIMEOUT: a warm restart that misses its limit escalates (R392, R437). -/
def execWarmRestartTimeout (s : State) : Host.Outcome State Fault Refusal :=
  let m := s.toMod
  s.go (if m.boot.kind = 2 && m.boot.phase < 7 then
      (({ m with tender := { m.tender with step := 1, current := some .moduleCold, queue := [],
                                           escalations := satAdd m.tender.escalations 1 0xFFFF } } : Mod).record
        { site := kdSite, cls := 0x14, sev := 3, unit := 0x0800, code := 8, addr := 0, detail := 0, sector := none, 
          injected := false }).askRestart true 2
    else m)

/-! ## Die-to-die lanes (R17, R18, R444 to R447) -/

/-- The number of a die-to-die module's lane map. -/
def laneKey (edge : Nat) (back : Bool) (k : Nat) : Nat := (edge * 2 + flag back) * 24 + k

/-- A die-to-die module's lane map in one direction. -/
def Mod.laneMap (m : Mod) (edge : Nat) (back : Bool) (k : Nat) : LaneMap := Table.get LaneMap.reset m.lanes (laneKey edge back k)

/-- Modules of an edge (R17). -/
def edgeModules (edge : Nat) : Nat := if edge < 20 then 24 else 12

/-- The edge is one of the mesh: not one of the guest's (R19). -/
def Mod.meshEdge (m : Mod) (edge : Nat) : Bool := !(m.part.guestSite && [14, 15, 33, 38].contains edge)

/-- Every module of an edge is disabled (R18). -/
def Mod.edgeDead (m : Mod) (edge : Nat) : Bool :=
  (List.range (edgeModules edge)).all (fun k => (m.laneMap edge false k).disabled || (m.laneMap edge true k).disabled)

/-- Lanes of a module fail: onto the spares that are free, or the module is disabled (R18, R446). Fused at once by a patrol. -/
def Mod.failLanes (m : Mod) (edge : Nat) (back : Bool) (k : Nat) (lanes : List Nat) (fuse : Bool) : Mod :=
  let x := m.laneMap edge back k
  let new := (lanes.filter (fun l => !x.fused.contains l && !x.soft.contains l)).eraseDups
  let y := if x.fused.length + x.soft.length + new.length > 2 then { x with disabled := true }
           else if fuse then { x with fused := x.fused ++ new } else { x with soft := x.soft ++ new }
  let m : Mod := { m with lanes := Table.set LaneMap.reset m.lanes (laneKey edge back k) y }
  if fuse then { m with patrol := { m.patrol with fused := satAdd m.patrol.fused (y.fused.length - x.fused.length) 0xFFFF } } else m

/-- A die at an end of an edge: its north or west one (R16). -/
def edgeEnd (edge : Nat) : Nat := if edge < 20 then edge / 4 * 5 + edge % 4 else edge - 20

/-- A lane's failure at run time, each failed lane recorded at the mesh router of a die of its edge (R397, log entry 129): an edge that loses its
last module sets EDGE_LOST, and is a module restart that patrols it (R18, R28). -/
def Mod.lanesFail (m : Mod) (edge : Nat) (back : Bool) (k : Nat) (lanes : List Nat) : Mod :=
  if (m.laneMap edge back k).disabled then m
  else
    let m := (lanes.eraseDups).foldl (fun (m : Mod) (l : Nat) =>
      m.record { site := edgeEnd edge, cls := 0x0E, sev := 0, unit := 0x0400, code := 0, addr := 0, detail := l, sector := none,
                 injected := false }) (m.failLanes edge back k lanes false)
    if m.meshEdge edge && m.edgeDead edge then
      ({ m with edgeLost := true, boot := { m.boot with patrol := m.boot.patrol ++ [edge] } } : Mod).report .moduleWarm
    else m

/-- DIE_TO_DIE_LANE_FAILURE. -/
def execDieToDieLaneFailure (edge : Fin 40) (back : Bool) (module : Fin 24) (lanes : List (Fin 66)) (s : State) :
    Host.Outcome State Fault Refusal :=
  let m := s.toMod
  s.go (if module.val ≥ edgeModules edge then m else m.lanesFail edge back module (lanes.map (·.val)))

/-! ## The phases of a start (R28, R343, R395, R437, R446) -/

/-- A phase is complete. -/
def Mod.phaseDone (m : Mod) (n : Nat) : Mod := { m with boot := { m.boot with phase := n } }

/-- The boot stops before first-sector-ready. -/
def Mod.bootStop (m : Mod) (code detail : Nat) : Mod :=
  ({ m with boot := { m.boot with stopped := true } } : Mod).bootFail code detail

/-- An image is accepted as component c + 1: every check of R344 holds. -/
def Mod.imageOk (m : Mod) (c : Nat) (x : ImageReport) : Bool :=
  let id := m.part.word
  x.magic == 0x4B57494D && x.hdrVersion == 1 && x.component.toNat == c + 1 && x.reservedZero &&
  decide (Table.get 0 m.svnFused c ≤ x.svn.toNat) && decide (x.svn.toNat ≤ 64) &&
  x.member.toNat == bits id 7 0 && x.archGen.toNat == bits id 11 8 && decide (x.steppingMin.toNat ≤ m.part.stepping.toNat) &&
  decide (x.rootKey.toNat < 4) && !m.part.rootRevoked.getLsbD x.rootKey.toNat &&
  x.bodyOk && x.keysOk && x.ecdsaOk && (x.mldsaOk || !m.part.hybridRequired)

/-- An image of a set runs: its SVN, its measurement (R344, R348). -/
def Mod.runImage (m : Mod) (c set : Nat) (x : ImageReport) : Mod :=
  let b : BitVec 4 := BitVec.ofNat 4 (1 <<< c)
  ({ m with
    svnRunning := Table.set 0 m.svnRunning c x.svn.toNat
    fw := { m.fw with
      runSet := if set = 1 then m.fw.runSet ||| b else m.fw.runSet &&& ~~~b
      images := Table.put m.fw.images (set * 4 + c) (some { svn := x.svn.toNat, version := x.version.toNat, digest := x.digest }) } } : Mod).measure
    (2 + c) x.digest

/-- An image refused at boot, with what its header says of it, if it has one (R343, R457). -/
def Mod.imageRefused (m : Mod) (c set level : Nat) (x : Option ImageReport) : Mod :=
  m.logEvent 0x06 0x08 kdSite (c + 1 + 16 * set + level % 65536 * 65536)
    (match x with
     | some x => pack [(0, 32, x.version.toNat), (32, 8, x.svn.toNat)]
     | none => 0)

/-- Phase 1: the Keeper's image of set NEXT, or of the other; with neither the module is held in firmware recovery (R343, R417). Then
the Keeper asks for ON (R435). Without MGMT_REFCLK the management endpoint does not train (R428). -/
def Mod.bootKeeper (m : Mod) (r : BootReport) : Mod :=
  let w := m.reg kdSite 0x84000 0x2580000000000
  let next := flag (bit w 5)
  let run := fun (m : Mod) (set : Nat) (x : ImageReport) =>
    let trial := bit w 6 && set == next
    let m : Mod := { m with fw := { m.fw with booted := set == 1, trial := trial, level := r.level.toNat }, bootImage := set == 1
                            rootIndex := x.rootKey.toNat }
    let m := (m.runImage 0 set x).logEvent 0x06 0x04 kdSite (16 * set + r.level.toNat * 65536) 0
    let m : Mod := { m with boot := { m.boot with noMgmt := r.noMgmt } }
    let m := (m.setFn 8 0 { m.fn 8 0 with active := !r.noMgmt }).keeperUp.phaseDone 1
    if m.boot.kind ≠ 2 && m.power.st = .standby then m.powerEvent .on else m
  match (r.images.getD 0 none).filter (m.imageOk 0), (r.images.getD 1 none).filter (m.imageOk 0) with
  | some x, _ => run m next x
  | none, some y =>
    let m := m.imageRefused 0 next r.level.toNat (r.images.getD 0 none)
    let m := if bit w 6 then m.fallBack true (next == 1) r.level.toNat else m
    run m (1 - next) y
  | none, none => ((m.imageRefused 0 next r.level.toNat (r.images.getD 0 none)).imageRefused 0 (1 - next) r.level.toNat (r.images.getD 1 none)).bootStop 1 0

/-- The harbour domains of the dies but the KD (R28). -/
def Mod.harbours (m : Mod) : BitVec 25 := if m.part.guestSite then 0x1FBFFFF else 0x1FFFFFF

/-- The clocks found absent at the start (R428): without REFCLK_FAB, which is recorded (log entry 108), fabric ports stay DISABLED. -/
def Mod.noteClocks (m : Mod) (r : BootReport) : Mod :=
  let m : Mod := { m with boot := { m.boot with noFab := r.noFab, noPcie := r.noPcie } }
  if r.noFab then m.bootFail 8 0 else m

/-- Phase 3: the lane patrol of a cold start; of a warm one on the edges lost at run time alone (R18, R446). An edge that is still lost
sets EDGE_LOST and is named in the KD error record; where several are, the spec speaks of one, and that the record names the lowest is
the model's choice (log entry 32). -/
def Mod.bootMesh (m : Mod) (r : BootReport) : Mod :=
  let m := m.noteClocks r
  let warm := m.boot.kind = 2
  let mine := fun (e : Nat) => !warm || m.boot.patrol.contains e
  let found := r.lanes.filter (fun x => mine x.1.val && x.2.2.1.val < edgeModules x.1)
  let retried : Mod := { m with lanes := Table.mapAll LaneMap.reset m.lanes (fun k l =>
    if warm && !m.boot.patrol.contains (k / 48) then l else { l with disabled := false }) }
  let m := found.foldl (fun (m : Mod) (x : Fin 40 × Bool × Fin 24 × List (Fin 66)) =>
    m.failLanes x.1 x.2.1 x.2.2.1 (x.2.2.2.map (·.val)) true) retried
  let ran := !warm || !m.boot.patrol.isEmpty
  let m : Mod := if ran then { m with patrol := { m.patrol with
      lanesFailed := min 0xFFFF ((found.map (fun x => x.2.2.2.length)).foldl (· + ·) 0), run := true
      channelsHeld := if warm then m.patrol.channelsHeld else min 0xFFF r.channels.length } }
    else m
  let m := if warm then m else r.channels.foldl (fun (m : Mod) (c : Fin 2560) =>
    let k := chanCtl c
    m.setCtl k.1 { m.ctl k.1 with chOut := (m.ctl k.1).chOut ||| BitVec.ofNat 32 (1 <<< k.2) }) m
  let dead := (List.range 40).filter (fun e => m.meshEdge e && m.edgeDead e)
  let m : Mod := { m with boot := { m.boot with patrol := [] } }
  match dead with
  | [] => { m with harbourUp := m.harbours }.phaseDone 3
  | e :: _ =>
    if warm then ({ m with edgeLost := true } : Mod).bootStop 3 e
    else ({ m.toStandby with edgeLost := true } : Mod).bootFail 3 e

/-- Phase 4: a PD core that fails is held out; any other failure stops the boot (R395). -/
def Mod.bootTests (m : Mod) (r : BootReport) : Mod :=
  let m := r.cores.foldl (fun (m : Mod) (a : Fin 384) => m.setPdCore a { m.pdCore a with heldOut := true }) m
  if r.failed then m.bootStop 4 0 else m.phaseDone 4

/-- Phase 5: the fitted stacks and DDR5 channels run; one that fails is a stack fault (R193, R383). -/
def Mod.bootMemory (m : Mod) (r : BootReport) : Mod :=
  let fits := fun (k : Nat) => if k < 80 then m.stackFitted k else m.dimmBytes ((k - 80) / 4) ≠ 0
  let m := ((List.range 96).filter fits).foldl (fun (m : Mod) (k : Nat) => m.setCtl k { m.ctl k with st := 1 }) m
  let m := r.untrained.foldl (fun (m : Mod) (k : Fin 80) =>
    (m.record { site := stackSite k, cls := 0x10, sev := 2, unit := 0x0200 + k.val % 4, code := 1, addr := 0, detail := 0, sector := none,
                injected := false }).report (.stack k)) m
  m.phaseDone 5

/-- The tier-2 window as the Keeper lays it out: the ranges of the memory roots' devices, eight a port, and of the guest in ascending port
order, then the apertures (R168, R314, R317). -/
def Mod.layoutTier2 (m : Mod) (hdm : List (Fin 9 × Nat)) : Mod :=
  let root := fun (p : Nat) => p = 8 || bits (m.reg (edSite (p / 2)) (0x4800000 + p % 2 * 0x100000) 0x1F0C) 1 0 = 3
  let ranges := ((List.range 9).filter root).flatMap (fun p =>
    ((hdm.filter (fun x => x.1.val == p)).take 8).map (fun x => (p, ceilDiv x.2 2097152 * 2097152)))
  let used := (ranges.map (·.2)).foldl (· + ·) 0
  let start := ceilDiv used (2 ^ 30) * 2 ^ 30
  let m : Mod := { m with hdm := ranges ++ [(9, start - used)] }
  ((List.range 8).foldl (fun (a : Mod × Nat) (p : Nat) =>
    let c := m.reg (edSite (p / 2)) (0x4800000 + p % 2 * 0x100000) 0x1F0C
    let mode := bits c 1 0
    let gib := if mode = 1 || mode = 2 then bits c 31 16 else 0
    let x := a.1.updPcie p (fun x => { x with mode := mode, aptGib := gib, aptBase := if gib = 0 then 0 else a.2 })
    ({ x with hdm := x.hdm ++ [(p, gib * 2 ^ 30)] }, a.2 + gib * 2 ^ 30)) (m, tierBase 2 + start)).1

/-- The functions that a start brings up: function 0 of an endpoint port with MGMT_FN_EN; BAR2 sizes (R316, R320). -/
def Mod.startFns (m : Mod) : Mod :=
  (List.range 8).foldl (fun (m : Mod) (p : Nat) =>
    let base := 0x4800000 + p % 2 * 0x100000
    let c := m.reg (edSite (p / 2)) base 0x1F0C
    (m.setFn p 0 { m.fn p 0 with active := bits c 1 0 = 2 && bit c 5 }).sizeBars p) m

/-- Admission of the guest die begins, or stays away (R449). -/
def Mod.startGuest (m : Mod) : Mod :=
  if !m.part.guestSite then m
  else if bit (m.reg 18 0x30008 0x1D1F0) 0 then { m with guest := { m.guest with st := 1, reason := 0 } }
  else { m with guest := { m.guest with reason := 7 } }

/-- A die holds key caches: of stack controllers on the MDs, of DDR5 controllers on the PDs, of memory-root ports on the EDs (R340, R356). -/
def hasKeyCache (site : Nat) : Bool := (siteMd site).isSome || (sitePd site).isSome || (siteEd site).isSome

/-- Phase 6: the other images, measurement 6, every domain's firmware, the layout of tier 2 (R28, R343). -/
def Mod.bootFirmware (m : Mod) (r : BootReport) : Mod :=
  let set := flag m.fw.booted
  let good := fun (m : Mod) (i : Nat) => (r.images.getD i none).filter (m.imageOk (1 + i))
  let bad := (List.range 3).filter (fun i => (good m i).isNone)
  let m := (List.range 3).foldl (fun (m : Mod) (i : Nat) =>
    match good m i with
    | some x => m.runImage (1 + i) set x
    | none => m.imageRefused (1 + i) set r.level.toNat (r.images.getD i none)) m
  let okDie := fun (s : Nat) =>
    if (siteTd s).isSome then !bad.contains 0 else if (sitePd s).isSome then !bad.contains 1 && !m.guestAt s
    else if (siteEd s).isSome then !bad.contains 2 else true
  let up := (List.range 25).filter (fun s => okDie s && !m.guestAt s)
  let m := up.foldl (fun (m : Mod) (s : Nat) => (m.updDie s (fun d => { d with fw := true, keys := hasKeyCache s })).setCompute s true) m
  if bad.isEmpty then
    let m := m.measureKeeper
    ((({ m with fw := { m.fw with level := min m.fw.level r.level.toNat } } : Mod).layoutTier2 r.hdm).startFns.startGuest).phaseDone 6
  else m.bootStop 6 (maskOf (bad.map (· + 1)))

/-- A start goes on: it is under way, not stopped, not paused, not in a hold (R437, R439). -/
def Mod.starting (m : Mod) : Bool := m.boot.count ≠ 0 && !m.boot.stopped && m.working && !m.power.paused && !m.boot.modResetLow

/-- BOOT_PHASE_COMPLETE: the phase under way ends with what it found. -/
def execBootPhaseComplete (r : BootReport) (s : State) : Host.Outcome State Fault Refusal :=
  let m := s.toMod
  let running := m.power.st == .run
  s.go (if !m.starting then m
    else match m.boot.phase with
      | 0 => if m.boot.lost then m else m.bootKeeper r
      | 1 => if m.boot.kind = 2 && running then m.phaseDone 2 else m
      | 2 => if running then m.bootMesh r else m
      | 3 => if !running then m else if m.boot.kind = 2 then m.bootMemory r else m.bootTests r
      | 4 => if running then m.bootMemory r else m
      | 5 => if running then m.bootFirmware r else m
      | 6 => if running then m.phaseDone 7 else m
      | _ => m)

end Sys2Proof.Machine
end

