-- ==== Sys2Proof/Machine/Tender.lean ====
section
/-!
DEFINITION. Watchdogs, the Tender, the end of the coherent domain, error acknowledgement, fault injection and patrol scrub (R215, R313,
R381 to R392, R398 to R400).
-/
namespace Sys2Proof.Machine
open Sys2Proof

/-! ## The end of the coherent domain (R215, R392) -/

/-- A caching agent's lines that its home's filter holds EXCLUSIVE or OWNED (R207, R215), and those whose owner has given its dirty data up to a
transaction that is still open. -/
def Mod.ownedLines (m : Mod) : List Nat :=
  let yielded := m.slices.flatMap (fun (p : Nat × Slice) => p.2.txns.filterMap (fun (x : Nat × Option HomeTxn) =>
    (x.2.bind (·.carried)).map (fun _ => x.1)))
  ((m.caches.filter (fun (p : Nat × CacheLine) => p.2.st != LineSt.shared)).map (fun (p : Nat × CacheLine) => p.1 % 2 ^ 60) ++
    (m.evictions.filter (fun (p : Nat × Eviction) => !p.2.acked && p.2.line.st != LineSt.shared)).map
      (fun (p : Nat × Eviction) => p.1 % 2 ^ 60) ++ yielded).eraseDups

/-- The dirty lines of a slice. -/
def Slice.dirtyLines (x : Slice) : List Nat :=
  (x.lines.filter (fun (p : Nat × Option SliceLine) => match p.2 with | some l => !l.cells.isEmpty | none => false)).map
    (fun (p : Nat × Option SliceLine) => p.1)

/-- Some lines read as poison. -/
def Mod.poisonLines (m : Mod) (lines : List Nat) : Mod :=
  { m with poison := lines.filter (fun l => !m.poison.contains l) ++ m.poison }

/-- Every caching agent is stopped, its lines gone with it, and every slice is empty. -/
def Mod.stopAgents (m : Mod) : Mod :=
  { m with
    pdCores := Table.mapAll PdCore.reset m.pdCores (fun _ c => { c with running := false, window := none, reservation := none })
    caches := [], evictions := [], slices := Table.mapAll Slice.reset m.slices (fun _ x =>
      { x with lines := [], plru := [], cleaning := 0, txns := [], waiting := [], filter := [] }) }

/-- A failing slice's dirty lines are lost, and LOST is set in every valid entry with a footprint on its die's channels (R193, R215); a reader
of a lost line meets poison, as R193 says of lost granules (log entry 33). -/
def Mod.loseSlice (m : Mod) (md : Nat) : Mod :=
  let m := m.poisonLines (m.slice md).dirtyLines
  { m with regions := Table.mapAll Region.reset m.regions (fun _ (r : Region) =>
      if r.valid && (m.listOf r).any (fun ch => (if ch < 2560 then ch / 128 else pdMd ((ch - 2560) / 4)) == md)
      then { r with w0 := r.w0 ||| 1#64 <<< 25 } else r) }

/-- Steps 1 to 4 of R215: agents stop, sound slices write their dirty lines back, lines that an agent may have changed are poisoned, and a
failing slice's dirty lines are lost. -/
def Mod.endCoherent (m : Mod) (failing : Option MdId) : Mod :=
  let owned := m.ownedLines
  let m := m.cleanSlices (fun line => failing.all (fun md => m.homeOf line != md.val))
  let m := match failing with
    | some md => m.loseSlice md
    | none => m
  ({ m.poisonLines owned with cohError := false } : Mod).stopAgents

/-- A restart that the KD's Foghorn forces: caches and slices are not written back, and their lines hold what memory last held (R215, R392;
log entry 33). -/
def Mod.beginForced (m : Mod) : Mod :=
  (m.linksDown.replyFlush.stopAgents).warm 3

/-! ## Module faults (R383, R391, R392) -/

/-- An escalation from a domain to a larger one, counted and recorded on the first one's die (R392, R396, R397, R400; log
entry 34). -/
def Mod.recordEscalation (m : Mod) (old d : Domain) (injected : Bool) : Mod :=
  ({ m with tender := { m.tender with escalations := satAdd m.tender.escalations 1 0xFFFF } } : Mod).record
    { site := domainSite old, cls := 0x14, sev := if domainKind d ≥ 7 then 3 else 2, unit := 0x0800, code := domainKind d, addr := 0, detail := 0,
      sector := none, injected := injected }

/-- The module is the domain to recover: a warm restart, which absorbs every recovery; during a warm restart, a cold one; during the cold
restart that one led to, none (R391, R392). -/
def Mod.moduleFault (m : Mod) (injected : Bool) : Mod :=
  let starting := m.boot.phase < 7 && m.power.st != .standby
  let m : Mod := { m with tender := { m.tender with step := 1, current := some .moduleWarm, queue := [] } }
  if starting && m.boot.kind = 2 then
    let m : Mod := { m with tender := { m.tender with current := some .moduleCold } }
    (m.recordEscalation .moduleWarm .moduleCold injected).askRestart true 2
  else if starting && m.boot.kind = 1 && m.boot.cause = 2 then (m.toStandby).bootFail m.boot.phase 0
  else m.askRestart false 2

/-! ## Recoveries (R384 to R391) -/

/-- STORM_LIMIT (R388, R399). -/
def Mod.stormLimit (m : Mod) : Nat := min 30 (max 1 (bits (m.reg kdSite 0x70008 16) 5 0))

/-- A warm restart incremented the domain's tag (R387): every one but a cluster's, which returned to 0. -/
def warmBumps (d : Domain) : Bool :=
  match d with
  | .cluster _ => false
  | _ => true

/-- The domain's tag was incremented STORM_LIMIT times within the last 1,000 ms before its fault (R388): the reset that a port has gone
through for the fault itself is not counted. -/
def Mod.storming (m : Mod) (d : Domain) : Bool :=
  let own := match d with
    | .port p => flag ((m.port p).st == .reset)
    | _ => 0
  decide ((m.tender.increments.filter (fun (x : Domain × Nat) =>
    (x.1 == d || (x.1 == .moduleWarm && warmBumps d)) && decide (m.bt < x.2 + 1000000000))).length ≥ m.stormLimit + own)

/-- A PCIe/CXL link that is down (R316). -/
def linkLost : LinkReport := { up := false, ownClock := false, rate := 0, width := 0, protocol := 0, ide := false, devices := 0 }

/-- Steps 1 and 2 of R384: the domain is fenced, for an injected fault or not, and its units stop; the links of an edge domain go down. -/
def Mod.fenceDomain (m : Mod) (d : Domain) (injected : Bool) : Mod :=
  let m : Mod := { m with tender := { m.tender with fenced := m.tender.fenced ++ [d]
                                                    injected := if injected then m.tender.injected ++ [d] else m.tender.injected } }
  let m := m.fenceUnits d
  match d with
  | .edge x => ((m.linkState (Fin.ofNat 8 (2 * x.val)) linkLost)).linkState (Fin.ofNat 8 (2 * x.val + 1)) linkLost
  | _ => m

/-- A recovery begins, absorbing what it contains of the queue (R391). -/
def Mod.beginRecovery (m : Mod) (d : Domain) (injected : Bool) : Mod :=
  ({ m with tender := { m.tender with step := 3, current := some d, queue := m.tender.queue.filter (fun x => !Domain.covers d x) } } : Mod).fenceDomain d
    injected

/-- A domain waits for its recovery, in place of those it contains (R391). -/
def queueIn (d : Domain) : List Domain → List Domain
  | [] => [d]
  | x :: rest => if Domain.covers d x then d :: rest.filter (fun y => !Domain.covers d y) else x :: queueIn d rest

/-- A fault in a domain, injected or not: recovered, queued, absorbed or escalated (R388, R391, R392, R400); n bounds the
escalations. -/
def Mod.takeFault : Nat → Mod → Domain → Bool → Mod
  | 0, m, _, _ => m
  | n + 1, m, d, injected =>
    let larger := fun (m : Mod) => match nextLarger d with
      | some d' => Mod.takeFault n (m.recordEscalation d d' injected) d' injected
      | none => m
    match d with
    | .moduleCold => ({ m with tender := { m.tender with step := 1, current := some .moduleCold, queue := [] } } : Mod).askRestart true 2
    | .moduleWarm | .slice _ => m.moduleFault injected
    | _ =>
      if m.tender.current == some d then larger m
      else if m.tender.current.any (fun c => Domain.covers c d) || m.tender.queue.any (fun c => Domain.covers c d) then m
      else if m.storming d then larger m
      else if m.tender.current.isNone || m.tender.current.any (fun c => Domain.covers d c) then m.beginRecovery d injected
      else if !m.tender.queue.any (fun c => Domain.covers d c) && m.tender.queue.length ≥ 64 then m.moduleFault injected
      else ({ m with tender := { m.tender with queue := queueIn d m.tender.queue } } : Mod).fenceDomain d injected

/-- What a detector outside the model's own commands records before it reports (R397): an engine's state error, a stack's training
failure or device fault. -/
def Mod.detected (m : Mod) (d : Domain) : Mod :=
  match d with
  | .engine e => m.record { site := engineSite e, cls := 0x16, sev := 2, unit := 0x0600 + e.val % 16, code := 0, addr := 0, detail := 0,
                            sector := (m.engine e).sector, injected := false }
  | .stack k => m.recordStack k (if (m.ctl k).st = 0 then 1 else 2)
  | _ => m

/-- FAULT_REPORT: a fault that a detector has reported, or one that it reports now. A stopped Tender does nothing with it (R392). A fault
of a harbour domain, a PD or the KD ends the coherent domain first (R215). -/
def execFaultReport (d : Domain) (s : State) : Host.Outcome State Fault Refusal :=
  let m := s.toMod
  let known := m.reports.contains d
  let injected := m.injectedReports.contains d
  let m : Mod := { m with reports := m.reports.erase d, injectedReports := m.injectedReports.erase d }
  let m := if known then m else m.detected d
  s.go (if m.tender.stopped then m
    else match d with
      | .moduleWarm => (m.endCoherent none).moduleFault injected
      | .slice md => (m.endCoherent (some md)).moduleFault injected
      | _ => m.takeFault 5 d injected)

/-- RECOVERY_DRAIN_END: steps 3 to 5 of R384; the domain's tags are free again (R390). -/
def execRecoveryDrainEnd (s : State) : Host.Outcome State Fault Refusal :=
  let m := s.toMod
  s.go (match m.tender.current with
    | some d =>
      if m.tender.step = 3 && !m.tender.stopped then
        let m := (((m.answerUnits d).freeTags d).bumpUnits d).logIncrements d
        { m with tender := { m.tender with step := 6 } }
      else m
    | none => m)

/-- The next recovery of the queue begins; it is fenced already (R391). -/
def Mod.nextRecovery (m : Mod) : Mod :=
  match m.tender.queue with
  | d :: rest => { m with tender := { m.tender with step := 3, current := some d, queue := rest } }
  | [] => { m with tender := { m.tender with step := 0, current := none } }

/-- RECOVERY_RESET_DONE: steps 6 and 7 of R384. -/
def execRecoveryResetDone (s : State) : Host.Outcome State Fault Refusal :=
  let m := s.toMod
  s.go (match m.tender.current with
    | some d =>
      if m.tender.step = 6 && !m.tender.stopped then
        let m : Mod := { m with tender := { m.tender with
          fenced := m.tender.fenced.filter (fun x => !Domain.covers d x),
          injected := m.tender.injected.filter (fun x => !Domain.covers d x), recoveries := satAdd m.tender.recoveries 1 0xFFFF, last := m.beacon.bt } }
        (m.resetUnits d).nextRecovery
      else m
    | none => m)

/-- COHERENCE_ERROR: a reported protocol error ends the coherent domain and restarts the module (R215). -/
def execCoherenceError (failing : Option MdId) (s : State) : Host.Outcome State Fault Refusal :=
  let m := s.toMod
  let injected := m.injectedReports.contains .moduleWarm
  let ended : Mod := { m.endCoherent failing with injectedReports := m.injectedReports.erase .moduleWarm }
  s.go (if m.cohError && !m.tender.stopped then ended.moduleFault injected else m)

/-! ## Guest faults (R449, R452) -/

/-- The guest is refused (R449). -/
def Mod.guestRefuse (m : Mod) (reason : Nat) : Mod :=
  { m with guest := { m.guest with st := 6, reason := reason, refusals := satAdd m.guest.refusals 1 0xFFFF } }

/-- A guest fault: recorded for site 18 with one of R397's classes (R452 names none: a free value, log entry 3), and the four edges are
fenced; before its admission it is a failure of the state of admission that it meets (R449, R452, R455). -/
def Mod.guestFault (m : Mod) : Mod :=
  if 1 ≤ m.guest.st && m.guest.st ≤ 4 then m.guestRefuse m.guest.st
  else if m.guest.st = 5 then
    let f := m.takeFree
    ({ f.2 with guest := { m.guest with st := 7 }, computeUp := m.computeUp &&& ~~~(0x40000#25) } : Mod).record
      { site := 18, cls := 1 + f.1.toNat % 0x17, sev := 2, unit := 0x0800, code := 0, addr := 0, detail := 0, sector := m.guestSector,
        injected := false }
  else m

/-! ## Watchdogs (R381, R382, R392) -/

/-- A core is reported hung (R383, R397). -/
def Mod.coreStall (m : Mod) (core : CoreId) (injected : Bool) : Mod :=
  let c := m.core core
  (m.record { site := coreSite core, cls := 0x09, sev := 2, unit := core.val % 64, code := c.st.num, addr := 0, detail := 0,
              sector := c.sector, injected := injected }).reportAs (.core core) injected

/-- A cluster is reported hung, or a command of it (R383, R397). -/
def Mod.clusterHang (m : Mod) (cl : ClusterId) (cls code detail : Nat) (injected : Bool) : Mod :=
  let c := m.cluster cl
  (m.record { site := clusterSite cl, cls := cls, sev := 2, unit := 0x0100 + cl.val % 8, code := code, addr := 0, detail := detail,
              sector := c.sector, injected := injected }).reportAs (.cluster cl) injected

/-- CORE_PROGRESS_WDT. -/
def execCoreProgressWdt (core : CoreId) (s : State) : Host.Outcome State Fault Refusal :=
  let m := s.toMod
  let c := m.core core
  s.go (if (c.st = .running || c.st = .waiting) && m.working then m.coreStall core false else m)

/-- A sequencer holds work: packets accepted, or to be fetched. -/
def Mod.holdsWork (m : Mod) (cl : Nat) : Bool :=
  (m.clusterQueues cl).any (fun p => !p.2.owed.isEmpty || (p.2.st == .enabled && p.2.producer != p.2.fetch))

/-- SEQ_HEARTBEAT_WDT. -/
def execSeqHeartbeatWdt (cluster : ClusterId) (s : State) : Host.Outcome State Fault Refusal :=
  let m := s.toMod
  s.go (if m.holdsWork cluster && m.working && !m.fw.seqPause then m.clusterHang cluster 0x0A 0 0 false else m)

/-- The opcodes whose commands are watched (R381). -/
def watched (opc : Nat) : Bool := [0x200, 0x201, 0x202, 0x203, 0x100, 0x300, 0x602, 0x800].contains opc

/-- CMD_WDT. -/
def execCmdWdt (p : PktRef) (s : State) : Host.Outcome State Fault Refusal :=
  let m := s.toMod
  s.go (match p.q, m.flight p with
    | .csq n, some f =>
      if watched (pktOpc f.words) && f.stage != .accepted && m.working then
        m.clusterHang (Fin.ofNat 128 (n.val / 128)) 0x0B (pktOpc f.words) n.val false
      else m
    | _, _ => m)

/-- A request that went out through an aperture and has a tag of its port gets no answer (R382): an address error, recorded at the port, whose
tag is free for a request that waits. -/
def Mod.upstreamTimeout (m : Mod) (r : Requester) (tag : Nat) : Mod :=
  match m.upstream.find? (fun u => u.flush.isNone && samePool u.req r && u.tag == some tag) with
  | none => m
  | some u =>
    let m : Mod := { m with upstream := m.upstream.erase u }
    (((m.record { site := edSite (u.port / 2), cls := 0x0C, sev := 1, unit := 0x0700 + u.port % 2, code := 0, addr := 0, detail := tag,
                  sector := m.requesterSector u.req, injected := false }).tellError u.req 0 .addressError u.pa).settleDrains).sendWaiting u.port

/-- TXN_TIMEOUT (R382): a transaction of this module's memory restarts it; one through a port answers with an address error, one to the
guest die's memory too, and that is a guest fault (R452). -/
def execTxnTimeout (r : Requester) (tag : Nat) (s : State) : Host.Outcome State Fault Refusal :=
  let m := s.toMod
  s.go (if !m.working then m else match m.txns.find? (fun t => samePool t.req r && t.tag == tag) with
    | none => m.upstreamTimeout r tag
    | some t =>
      let ch := lineChan (t.cells.headD 0 / 128)
      let m : Mod := ({ m with txns := m.txns.erase t } : Mod).tagFreed r
      let f := fun (site unit_ sev : Nat) =>
        ({ site := site, cls := 0x0C, sev := sev, unit := unit_, code := 0, addr := 0, detail := tag, sector := t.sector, 
           injected := false } : Fail)
      if 2576 ≤ ch && ch < 2584 then
        ((m.record (f (edSite ((ch - 2576) / 2)) (0x0700 + (ch - 2576) % 2) 1)).tellError t.req t.outerTag .addressError 0).settleDrains
      else if ch = 2584 then (m.guestFault.tellError t.req t.outerTag .addressError 0).settleDrains
      else (m.record (f (requesterUnit t.req).1 (requesterUnit t.req).2 3)).report .moduleWarm)

/-- A restart that the KD's Foghorn forces, counted and recorded (R392). -/
def Mod.forceRestart (m : Mod) : Mod :=
  let m : Mod := { m with tender := { m.tender with forced := satAdd m.tender.forced 1 0xFFFF } }
  let m := m.record { site := kdSite, cls := 0x15, sev := 3, unit := 0x0800, code := 0, addr := 0, detail := 0, sector := none, 
                      injected := m.tender.stopped }
  if m.mustBeCold then m.beginCold 1 3 else m.beginForced

/-- TENDER_HEARTBEAT_WDT: the forced restart (R392); the watchdog counts no time in the hold states (R376, R381). -/
def execTenderHeartbeatWdt (s : State) : Host.Outcome State Fault Refusal :=
  let m := s.toMod
  s.go (if m.working then m.forceRestart else m)

/-! ## Acknowledging error records (R398) -/

/-- The oldest records of a die freed (R396, R398). -/
def Mod.ackErr (m : Mod) (site count : Nat) : Mod :=
  let r := m.err site
  let n := min count r.pending
  m.setErr site { r with pending := r.pending - n, oldest := (r.oldest + n) % 64 }

/-- TND_ERR_ACK. -/
def execTndErrAck (site : Site) (count : BitVec 7) (s : State) : Host.Outcome State Fault Refusal := s.go (s.toMod.ackErr site count.toNat)

/-! ## Fault injection (R400) -/

/-- UNIT names a unit of a class that can be injected on the die. -/
def Mod.injectOk (m : Mod) (site cls unit : Nat) : Bool :=
  let td := (siteTd site).isSome
  let ed := (siteEd site).isSome
  let md := (siteMd site).isSome && !m.guestAt site
  match cls with
  | 0x05 | 0x06 => true
  | 0x09 => td && unit < 0x40
  | 0x0A => td && 0x100 ≤ unit && unit < 0x108
  | 0x16 => ed && 0x600 ≤ unit && unit < 0x610
  | 0x0E => ed && 0x500 ≤ unit && unit < 0x508
  | 0x10 => md && 0x200 ≤ unit && unit < 0x204 && m.stackFitted (4 * (siteMd site).getD 0 + (unit - 0x200))
  | 0x0D => md && unit == 0x300
  | 0x15 => site == kdSite && unit == 0x800
  | _ => false

/-- The address of TND_INJECT of a die. -/
def injectAddr (site : Nat) : Nat := cbBase site + 0x20028

/-- An injected error goes to the controller of the line that an address decodes to (R400). -/
def Mod.injectMem (m : Mod) (site pa : Nat) (uncorrectable : Bool) : Mod :=
  match m.lineAt pa with
  | some line =>
    let k := (chanCtl (lineChan line)).1
    if lineChan line < 2576 then m.setCtl k { m.ctl k with inject := (m.ctl k).inject ++ [(line, pa, uncorrectable)] }
    else m.malformed site (injectAddr site) 8 none
  | none => m.malformed site (injectAddr site) 8 none

/-- An injection fires: it runs what a real fault does. A lane error stands on the lane that ADDR names, modulo 8 (log entry 34). -/
def Mod.fire (m : Mod) (site : Nat) (i : Injection) : Mod :=
  let m : Mod := { m with injections := Table.set none m.injections site none }
  let td := (siteTd site).getD 0
  let ed := (siteEd site).getD 0
  let md := (siteMd site).getD 0
  match i.cls with
  | 0x05 => m.injectMem site i.addr false
  | 0x06 => m.injectMem site i.addr true
  | 0x09 => m.coreStall (Fin.ofNat 1024 (64 * td + i.unit)) true
  | 0x0A => m.clusterHang (Fin.ofNat 128 (8 * td + (i.unit - 0x100))) 0x0A 0 0 true
  | 0x16 =>
    let e : EngineId := Fin.ofNat 64 (16 * ed + (i.unit - 0x600))
    (m.record { site := site, cls := 0x16, sev := 2, unit := i.unit, code := 0, addr := 0, detail := 0, sector := (m.engine e).sector,
                injected := true }).reportAs (.engine e) true
  | 0x0E => m.updPort (8 * ed + (i.unit - 0x500)) (fun p => { p with injectLane := some (i.addr % 8) })
  | 0x10 =>
    let k : StackId := Fin.ofNat 80 (4 * md + (i.unit - 0x200))
    (m.record { site := site, cls := 0x10, sev := 2, unit := i.unit, code := 2, addr := 0, detail := 0, sector := none,
                injected := true }).reportAs (.stack k) true
  | 0x0D =>
    { m.record { site := site, cls := 0x0D, sev := 3, unit := 0x0300, code := 1, addr := 0, detail := 0, sector := none, 
                 injected := true } with cohError := true, injectedReports := m.injectedReports ++ [.moduleWarm] }
  | 0x15 => { m with tender := { m.tender with stopped := true } }
  | _ => m

/-- A write of TND_INJECT (R398, R400). -/
def Mod.writeInject (m : Mod) (site : Nat) (value : Word) : Mod :=
  if (Table.get none m.injections site).isSome || (bit value 24 && !m.injectOk site (bits value 7 0) (bits value 23 8)) then
    m.malformed site (injectAddr site) 8 none
  else
    let m := m.setReg site 0x20028 0 (value &&& (ones 23 0 ||| ones 25 25))
    if !bit value 24 then m
    else
      let at_ := m.reg site 0x20030 0
      let i : Injection := { cls := bits value 7 0, unit := bits value 23 8, addr := (m.reg site 0x20038 0).toNat, bt := at_ }
      if bit value 25 && m.bt < at_.toNat then { m with injections := Table.set none m.injections site (some i) }
      else m.fire site i

/-- TND_INJECT_ARM. -/
def execTndInjectArm (site : Site) (value : Word) (s : State) : Host.Outcome State Fault Refusal := s.go (s.toMod.writeInject site value)

/-- INJECT_FIRE: ADDR is read as the injection fires (R400). -/
def execInjectFire (site : Site) (s : State) : Host.Outcome State Fault Refusal :=
  let m := s.toMod
  s.go (match Table.get none m.injections site with
    | some i => m.fire site { i with addr := (m.reg site 0x20038 0).toNat }
    | none => m)

/-! ## Patrol scrub (R313) -/

/-- PATROL_SCRUB: the scrub visits the DDR5 line of an address. -/
def execPatrolScrub (pa : PAddr) (s : State) : Host.Outcome State Fault Refusal :=
  let m := s.toMod
  s.go (match m.lineAt pa.toNat with
    | some line => if 2560 ≤ lineChan line && lineChan line < 2576 && m.working then m.channelRead [line] else m
    | none => m)

end Sys2Proof.Machine
end

