-- ==== Sys2Proof/Machine/Packets.lean ====
section
/-!
DEFINITION. The parameters of the opcodes, the checks of a packet's format, privilege and ownership, and the Keeper's turns (R277,
R283 to R285, R298 to R300, R303, R304, R338, R404). The order of all checks, and dispatch, are in Admission.
-/
namespace Sys2Proof.Machine
open Sys2Proof

/-! ## Parameters (R303, R304) -/

/-- The words of a SECTOR_ASSIGN mask, by KIND, and the bits of the last one. -/
def assignWords (kind : Nat) : Nat × Word :=
  match kind with
  | 0 => (2, ones 63 0) | 1 => (6, ones 63 0) | 2 => (40, ones 63 0) | 3 => (1, ones 15 0) | 4 => (1, ones 63 0) | 5 => (5, ones 63 0)
  | _ => (1, ones 9 0 ||| ones 26 16)

/-- A field on which LEN depends is out of range: its byte offset (R299). -/
def lenField (ws : List Word) : Option Nat :=
  let w2 := wordAt ws 2
  match pktOpc ws with
  | 0x101 => if bits w2 20 16 > 16 then some 18 else none
  | 0x401 => if bits w2 14 8 = 0 || bits w2 14 8 > 126 then some 17 else none
  | 0x022 => if bits w2 10 8 > 6 then some 17 else none
  | _ => none

/-- The LEN an opcode takes; none for an opcode that is not assigned. -/
def opLen (ws : List Word) : Option Nat :=
  let w2 := wordAt ws 2
  match pktOpc ws with
  | 0x020 => some 8
  | 0x022 => some (ceilDiv (3 + (assignWords (bits w2 10 8)).1) 8)
  | 0x101 => some (ceilDiv (32 + 8 * bits w2 20 16) 64)
  | 0x200 | 0x202 => some 2
  | 0x401 => some (1 + ceilDiv (bits w2 14 8) 2)
  | 0x010 | 0x011 | 0x012 | 0x013 | 0x021 | 0x100 | 0x102 | 0x103 | 0x201 | 0x203 | 0x300 | 0x301 | 0x302 | 0x303 | 0x400 | 0x402 | 0x403
  | 0x404 | 0x500 | 0x501 | 0x502 | 0x503 | 0x601 | 0x602 | 0x700 | 0x701 | 0x800 | 0x801 | 0x802 => some 1
  | _ => none

/-- The bits of TARGET by unit (R304): 0 cluster or stack, 1 channel, 2 die-to-die lane, 3 port and lane. -/
def targetBits (unit_ : Nat) : Word :=
  match unit_ with
  | 0 => ones 6 0 | 1 => ones 11 0 | 2 => ones 5 0 ||| ones 12 8 ||| ones 23 16 | _ => ones 4 0 ||| ones 10 8

/-- The unit of a TEST_RUN's TARGET, and of a MAP_OUT's; every bit is taken for a KIND out of range. -/
def targetOf (test : Bool) (kind : Nat) : Word :=
  if test then (if kind < 4 then targetBits kind else ones 63 0)
  else if kind < 6 then targetBits ([0, 0, 1, 1, 2, 3].getD kind 0) else ones 63 0

/-- The bits a queue's configuration takes at a word from its first on. -/
def queueBits (k : Nat) : Word :=
  match k with
  | 0 => ones 38 0 | 1 | 2 => ones 63 12 | 3 => ones 63 2 | 4 => ones 47 0 | _ => 0

/-- The bits of parameter word i that an opcode assigns. -/
def paramBits (ws : List Word) (i : Nat) : Word :=
  let w2 := wordAt ws 2
  let one := fun (a b c d : Word) => if i = 2 then a else if i = 3 then b else if i = 4 then c else if i = 5 then d else 0
  match pktOpc ws with
  | 0x010 => if 2 ≤ i then queueBits (i - 2) else 0
  | 0x011 | 0x013 => one (ones 13 0) 0 0 0
  | 0x012 => one (ones 14 0) (ones 31 0) 0 0
  | 0x020 =>
    if i = 2 then ones 35 0 else if i < 8 then queueBits (i - 3)
    else if i = 56 then ones 15 0 else if i = 63 then ones 9 0 ||| ones 26 16 else ones 63 0
  | 0x021 => one (ones 3 0) 0 0 0
  | 0x022 =>
    let a := assignWords (bits w2 10 8)
    if i = 2 then ones 4 0 ||| ones 10 8 else if i < 3 + a.1 then a.2 else 0
  | 0x100 => one (ones 4 0) (ones 55 0) 0 0
  | 0x101 => if i = 2 then ones 20 0 else if i < 4 + bits w2 20 16 then ones 63 0 else 0
  | 0x102 => one (ones 12 5 ||| ones 17 17) 0 0 0
  | 0x103 => one (ones 17 0 ||| ones 48 32 ||| ones 63 56) 0 0 0
  | 0x200 | 0x202 => if i = 2 then ones 31 0 else if 8 ≤ i then ones 63 0 else 0
  | 0x201 => one (ones 31 0) (ones 55 0) 0 0
  | 0x203 => one (ones 7 0) 0 0 0
  | 0x300 => one (ones 5 0) (ones 55 0) 0 0
  | 0x301 =>
    if i = 2 then ones 8 0 ||| ones 23 16 else if i = 3 || i = 4 then ones 63 0 else if i = 5 || i = 6 then ones 23 0 ||| ones 55 32 else 0
  | 0x302 => one (ones 19 0 ||| ones 47 24) (ones 63 0) (ones 31 0) (ones 63 0)
  | 0x303 => one (ones 15 0) 0 0 0
  | 0x401 =>
    if i = 2 then ones 1 0 ||| ones 14 8
    else if 8 ≤ i && i < 8 + 4 * bits w2 14 8 then (if i % 4 = 0 then ones 55 0 else if i % 4 = 3 then 0 else ones 63 0) else 0
  | 0x402 | 0x404 => one (ones 1 0) 0 0 0
  | 0x403 => one (ones 1 0) (ones 63 0) 0 0
  | 0x500 => if i = 2 then ones 13 0 else if 3 ≤ i && i < 7 then ones 63 0 else 0
  | 0x501 => if i = 2 then ones 10 0 else if 3 ≤ i && i < 7 then ones 63 0 else 0
  | 0x502 => one (ones 9 0) 0 0 0
  | 0x503 => one (ones 12 0 ||| ones 63 32) 0 0 0
  | 0x601 => one (ones 2 0 ||| ones 63 32) (ones 55 0) (ones 15 0) 0
  | 0x602 => one (ones 2 0 ||| ones 63 32) (ones 55 0) (ones 55 0) (ones 31 0)
  | 0x700 => one 0x9F9F9F9F9F9F9F9F 0x9F9F9F9F9F9F9F9F (ones 3 0) 0
  | 0x701 => one (ones 3 0) (ones 63 0) (ones 63 0) 0
  | 0x800 => one (ones 3 0) (targetOf true (bits w2 3 0)) 0 0
  | 0x801 => one (ones 5 0) (targetOf false (bits w2 3 0)) 0 0
  | 0x802 => one (ones 13 0) (ones 63 0) 0 0
  | _ => 0

/-- The bits of word i that a packet may have set. -/
def assignedBits (ws : List Word) (i : Nat) : Word :=
  if i = 0 then ones 27 0 ||| ones 63 32 else if i = 1 then ones 18 0 else paramBits ws i

/-- The first byte that holds a reserved bit that is set (R298, R299). -/
def reservedByte (ws : List Word) : Option Nat :=
  ((List.range (8 * pktLen ws)).find? (fun i => wordAt ws i &&& ~~~assignedBits ws i != 0)).map (fun i =>
    8 * i + ((List.range 8).find? (fun k => bits (wordAt ws i &&& ~~~assignedBits ws i) (8 * k + 7) (8 * k) != 0)).getD 0)

/-! ## Ranges (R299, R303) -/

/-- The first check of a list that fails: its byte offset. -/
def firstBad (l : List (Bool × Nat)) : Option Nat := (l.find? (fun x => x.1)).map (·.2)

/-- A queue's configuration from a word on: fields out of range. -/
def queueRanges (ws : List Word) (w : Nat) : List (Bool × Nat) :=
  let c := wordAt ws w
  let off := fun (lo hi v : Nat) => v < lo || v > hi
  [(off 6 16 (bits c 18 14), 8 * w + 1), (off 6 16 (bits c 23 19), 8 * w + 2),
   (off 1 64 (bits c 37 31) || bits c 37 31 > 2 ^ bits c 23 19, 8 * w + 3), (off 1 60000 (bits (wordAt ws (w + 4)) 47 32), 8 * w + 36)]

/-- A notice source that R409 lists. -/
def sourceOk (n : Nat) : Bool :=
  let k := n % 256
  match n / 256 with
  | 0 => k < 20 | 1 => k < 80 | 2 => k < 100 | 3 => k < 25 | 4 => k < 2 | 5 => k < 32 | 8 => k % 16 < 3
  | _ => false

/-- A TARGET names a unit of R304's ranges (R17, R167): a stack, a channel, a lane of a grid edge. Whether this part has it is a matter of
its state. -/
def targetInRange (test : Bool) (kind : Nat) (w : Word) : Bool :=
  let lane := bits w 5 0 < 40 && bits w 12 8 < edgeModules (bits w 5 0) && bits w 22 16 < 66
  match test, kind with
  | true, 1 | false, 2 => bits w 11 0 < 2560
  | true, 2 | false, 4 => lane
  | false, 1 => bits w 6 0 < 80
  | false, 3 => bits w 11 0 < 16
  | _, _ => true

/-- A burst-buffer area's fields are out of range (R269, R303): BB_BASE is 256 to 1,023 and the area lies in the 64 MiB buffer. No area, with
BB_SIZE 0, is in range whatever its BASE: EDG_BB_PART resets to 0 (DESIGN CHOICE, log entry 116). -/
def bbRanges (ws : List Word) (w : Nat) : List (Bool × Nat) :=
  let c := wordAt ws w
  [(bits c 26 16 != 0 && bits c 9 0 < 256, 8 * w), (bits c 26 16 != 0 && bits c 9 0 + bits c 26 16 > 1024, 8 * w + 2)]

/-- The first field of an opcode that is out of range or inconsistent: its byte offset. -/
def rangeFault (ws : List Word) : Option Nat :=
  let w := wordAt ws
  match pktOpc ws with
  | 0x010 => firstBad (queueRanges ws 2)
  | 0x020 => firstBad ((!bit (w 2) 4 && bits (w 2) 7 5 != 0, 16) :: queueRanges ws 3 ++ bbRanges ws 63)
  | 0x022 => if bits (w 2) 10 8 = 6 && !bit (w 2) 4 then firstBad (bbRanges ws 3) else none
  | 0x100 => firstBad [(bits (w 3) 55 0 % 128 != 0, 24)]
  | 0x101 => firstBad [(bits (w 2) 12 5 == 0, 16)]
  | 0x103 => firstBad [(bit (w 2) 16 && bits (w 2) 15 10 ≥ 32, 16), (bits (w 2) 47 32 == 0, 20)]
  | 0x201 | 0x300 => firstBad [(bits (w 3) 55 0 % 64 != 0, 24)]
  | 0x302 => firstBad [(bits (w 4) 31 0 == 0, 32)]
  | 0x401 =>
    firstBad ((List.range (bits (w 2) 14 8)).map (fun e =>
      let a := bits (w (8 + 4 * e)) 55 0
      (a % 8 != 0 || a < cbBase 0 || cbBase 25 ≤ a, 64 + 32 * e)))
  | 0x403 => firstBad [((w 3).toNat % 1024 != 0, 24)]
  | 0x501 => firstBad [(!hintOk (bits (w 3) 31 16), 26)]
  | 0x601 => firstBad [(bits (w 4) 15 0 < 64 || bits (w 4) 15 0 > 4096, 32)]
  | 0x602 => firstBad [(bits (w 4) 55 0 % 4194304 != 0, 32), (bits (w 5) 31 0 == 0, 40)]
  | 0x800 => firstBad [(bits (w 2) 3 0 > 3, 16), (!targetInRange true (bits (w 2) 3 0) (w 3), 24)]
  | 0x801 => firstBad [(bits (w 2) 3 0 > 5, 16), (!targetInRange false (bits (w 2) 3 0) (w 3), 24)]
  | 0x802 =>
    firstBad [(!sourceOk (bits (w 2) 11 0), 16), (bit (w 2) 12 && bit (w 2) 13, 17),
              (!bit (w 2) 12 && bits (w 3) 63 32 > bits (w 3) 31 0, 28)]
  | _ => none

/-- The first format checks of R299, in order, up to the reserved bits: the status and DETAIL of the first that fails. -/
def encodingFault (ws : List Word) : Option (Nat × Nat) :=
  match opLen ws with
  | none => some (0x0102, 0)
  | some n =>
    match lenField ws with
    | some off => some (0x0104, off)
    | none => if pktLen ws ≠ n then some (0x0103, n) else (reservedByte ws).map (fun b => (0x0101, b))

/-- The lower of two byte offsets. -/
def lowerOff (a b : Option Nat) : Option Nat :=
  match a, b with
  | some x, some y => some (min x y)
  | some x, none => some x
  | none, y => y

/-- The fields of a host queue that R323 does not allow: of the sector that owns the queue's cluster, or that is created. -/
def Mod.hostRange (m : Mod) (ws : List Word) : Option Nat :=
  match pktOpc ws with
  | 0x010 => (m.queueSector (namedQueue ws)).bind (fun s => hostFault ws 2 (m.sector s).attached)
  | 0x020 => hostFault ws 3 (bit (wordAt ws 2) 4)
  | _ => none

/-- The format checks of R299, in order: the status and DETAIL of the first that fails. -/
def Mod.formatFault (m : Mod) (ws : List Word) : Option (Nat × Nat) :=
  match encodingFault ws with
  | some e => some e
  | none => (lowerOff (rangeFault ws) (m.hostRange ws)).map (fun off => (0x0104, off))

/-! ## Permission (R271, R299, R300, R305) -/

/-- The queue may not issue the opcode. -/
def Mod.forbidden (m : Mod) (q : QRef) (ws : List Word) : Bool :=
  let opc := pktOpc ws
  match m.issuer q with
  | some .mgmt => opc / 256 == 1 || opc / 256 == 2 || [0x300, 0x301, 0x602].contains opc
  | some (.sector _) =>
    [0x020, 0x021, 0x022, 0x801].contains opc || (opc == 0x800 && bits (wordAt ws 2) 3 0 ≥ 2) ||
      (!(m.queue q).admin && [0, 4, 5, 6, 7, 8].contains (opc / 256))
  | none => true

/-- An object of a sector is one that an issuer may name (R300). -/
def nameable (who : Issuer) (o : Option SectorId) : Bool :=
  match who, o with
  | .sector s, some t => s == t
  | .mgmt, some _ => true
  | _, none => false

/-- The issuer is a sector, and not the one of a number. -/
def otherSector (who : Issuer) (n : Nat) : Bool :=
  match who with
  | .sector s => s.val != n
  | .mgmt => false

/-- The first field that names an object of another sector, or of none: its byte offset (R299, R300). -/
def Mod.ownerFault (m : Mod) (who : Issuer) (ws : List Word) : Option Nat :=
  let w := wordAt ws
  let set := m.set (bits (w 2) 1 0)
  match pktOpc ws with
  | 0x010 =>
    let o := (m.cluster (bits (w 2) 13 0 / 128)).sector
    firstBad [(o.isSome && !nameable who o, 16)]
  | 0x011 | 0x012 | 0x013 => firstBad [(!nameable who (m.cluster (bits (w 2) 13 0 / 128)).sector, 16)]
  | 0x300 | 0x301 => firstBad [(!nameable who (m.engine (bits (w 2) 5 0)).sector, 16)]
  | 0x302 => firstBad [(otherSector who (bits (w 2) 19 16), 18)]
  | 0x401 | 0x402 | 0x403 | 0x404 => firstBad [(who != .mgmt && set.owner != some who, 16)]
  | 0x500 =>
    let r := m.region (bits (w 2) 11 0)
    if bit (w 2) 12 then firstBad [(!r.valid || otherSector who r.sector, 16)]
    else firstBad [(!bit (w 2) 13 && r.valid && otherSector who r.sector, 16), (otherSector who (bits (w 3) 14 10), 25)]
  | 0x501 =>
    let x := m.mooring (bits (w 2) 9 0)
    firstBad [(!bit (w 2) 10 && x.valid && otherSector who x.sector, 16), (otherSector who (bits (w 3) 12 8), 25)]
  | 0x502 => let x := m.mooring (bits (w 2) 9 0); firstBad [(!x.valid || otherSector who x.sector, 16)]
  | 0x503 => let r := m.region (bits (w 2) 11 0); firstBad [(!r.valid || otherSector who r.sector, 16)]
  | 0x701 => firstBad [((maskList ws 0 3).any (fun c => !nameable who (m.cluster c).sector), 24)]
  | 0x800 =>
    let o := if bits (w 2) 3 0 = 0 then (m.cluster (bits (w 3) 6 0)).sector else m.chanOwner (bits (w 3) 11 0)
    firstBad [(who != .mgmt && !nameable who o, 24)]
  | 0x801 =>
    let kind := bits (w 2) 3 0
    firstBad [(1 ≤ kind && kind ≤ 3 && (m.set (bits (w 2) 5 4)).owner != some .mgmt, 16)]
  | 0x802 =>
    let n := bits (w 2) 11 0
    firstBad [(who != .mgmt && (n / 256 != 8 || otherSector who (n / 16 % 16)), 16)]
  | _ => none

/-! ## Dispatch (R283 to R285, R299, R338, R404) -/

/-- KIND and NODE of a management queue's binding, if it is a fabric one (R404, R421). -/
def Mod.fabricNode (m : Mod) (q : QRef) : Option Nat :=
  match q with
  | .mq n =>
    let w := m.reg kdSite (0x80040 + n.val * 0x80) (if n.val ≤ 8 then 0x5A0000000001 else 0x5A0000000000)
    if bits w 1 0 = 2 then some (bits w 31 8) else none
  | _ => none

/-- A fabric-bound queue's packet is sent as a COMMAND message (R404, R406). -/
def Mod.sendCommand (m : Mod) (p : PktRef) (node : Nat) (ws : List Word) : Mod :=
  let r := m.keeperSend node ([pack [(0, 8, 1), (32, 32, m.nextCmd.toNat)], pack [(0, 14, queueNum p.q)]] ++ ws)
  let m1 : Mod := { r.1 with nextCmd := m.nextCmd + 1, remotes := r.1.remotes ++
    [{ id := m.nextCmd, pkt := p, dst := node, seq := r.2, acked := false }] }
  m1.running p .none

/-- Commands of an issuer that wait at the Keeper. -/
def Mod.keeperWaits (m : Mod) (who : Option Issuer) : List PktRef :=
  m.keeperQueue.filter (fun p => m.issuer p.q == who && (m.flight p).any (fun f => f.stage == .keeper))

/-- The head packet of a queue: the first accepted one that no fence holds back (R283, R284). A command before it whose reply is held, at
one of these indices, is not complete: its reply is not written. -/
def headPacket (held : List (BitVec 32)) : List Flight → Bool → Option Flight
  | [], _ => none
  | f :: rest, clear =>
    if f.stage = .accepted && (!pktFence f.words || (clear && held.all (fun ix => !laterPkt f.ix ix))) then some f
    else headPacket held rest (clear && f.past)

/-- The packet a queue has ready to dispatch: of a queue that is not fenced; a sector's Keeper command while fewer than eight wait there
(R290, R338). -/
def Mod.ready (m : Mod) (q : QRef) : Option Flight :=
  let x := m.queue q
  if x.st = .fenced || x.st = .free then none
  else
    match headPacket ((x.held.filter (fun r => !r.past)).map Reply.ix) x.flights true with
    | none => none
    | some f =>
      match m.issuer q with
      | some (.sector s) => if keeperBound (pktOpc f.words) && (m.keeperWaits (some (.sector s))).length ≥ 8 then none else some f
      | _ => some f

/-- Of queues with a ready packet, each a number, a reference and its packet's effective PRIO: the highest first, equals in turn (R285). -/
def pickQueue (l : List (Nat × QRef × Nat)) (turn : Nat) : Option (Nat × QRef × Nat) :=
  let top := (l.map (·.2.2)).foldl max 0
  let best := l.filter (fun x => x.2.2 == top)
  match best.find? (fun x => decide (turn ≤ x.1)) with
  | some x => some x
  | none => best.head?

/-- The queues a queue shares its sequencer, or the Keeper, with. -/
def Mod.peers (m : Mod) (q : QRef) : List (Nat × QRef) :=
  match q with
  | .csq n => (m.clusterQueues (n / 128)).map (fun x => (x.1, QRef.csq (Fin.ofNat 16384 x.1)))
  | .mq _ => m.mqs.map (fun x => (x.1, QRef.mq (Fin.ofNat 64 x.1)))
  | .remote => [(0, .remote)]

/-- The queue whose packet goes next. -/
def Mod.nextQueue (m : Mod) (q : QRef) : Option QRef :=
  let l := (m.peers q).filterMap (fun x => (m.ready x.2).map (fun f => (x.1, x.2, m.effPrio ⟨x.2, f.ix⟩ f.words)))
  let turn := match q with
    | .csq n => (m.cluster (n / 128)).turn
    | _ => m.mqTurn
  (pickQueue l turn).map (fun x => x.2.1)

/-- The next turn is the queue's after this one. -/
def Mod.turned (m : Mod) (q : QRef) : Mod :=
  match q with
  | .csq n => m.updCluster (n / 128) (fun c => { c with turn := n.val + 1 })
  | .mq n => { m with mqTurn := n.val + 1 }
  | .remote => m

/-! ## The Keeper's turns (R338) -/

/-- The issuer of a turn: a sector, 16 the management function. -/
def turnIssuer (n : Nat) : Issuer := if h : n < 16 then .sector ⟨n, h⟩ else .mgmt

/-- KEEPER_COMMAND_SERVE: the oldest command of the next issuer that has one waiting is free to act. -/
def execKeeperCommandServe (s : State) : Host.Outcome State Fault Refusal :=
  let m := s.toMod
  s.go (match ((List.range 17).map (fun i => (m.keeperTurn + i) % 17)).find? (fun n => !(m.keeperWaits (some (turnIssuer n))).isEmpty) with
    | none => m
    | some n =>
      match m.keeperWaits (some (turnIssuer n)) with
      | [] => m
      | p :: _ =>
        ({ m with keeperQueue := m.keeperQueue.erase p, keeperTurn := (n + 1) % 17 } : Mod).updFlight p
          (fun f => { f with stage := .dispatched }))

end Sys2Proof.Machine
end

