-- ==== Sys2Proof/Machine/Staging.lean ====
section
/-!
DEFINITION. Staged sets: their commands, their checks, and the apply instant (R46 to R51, R194, R241, R363, R418, R419).
-/
namespace Sys2Proof.Machine
open Sys2Proof

/-! ## Targets (R46, R305) -/

/-- The site and offset of a control-block address (R25). -/
def cbPlace (addr : Nat) : Nat × Nat := ((addr - cbBase 0) / 2 ^ 32, (addr - cbBase 0) % 2 ^ 32)

/-- The region-table entry and word at an offset of a site's control block (R170). -/
def Mod.tableWord (m : Mod) (site off : Nat) : Option (Nat × Nat) :=
  if 0x3120000 ≤ off && off < 0x3140000 && !m.guestAt site then some ((off - 0x3120000) / 0x20, off / 8 % 4) else none

/-- The region-table entry that a staged entry writes. -/
def Mod.stagedRegion (m : Mod) (e : StageEntry) : Option Nat :=
  match e with
  | .write addr _ _ => (m.tableWord (cbPlace addr.toNat).1 (cbPlace addr.toNat).2).map (·.1)
  | .mapOut _ _ => none

/-- The region-table entries that a set writes. -/
def Mod.stagedRegions (m : Mod) (l : List StageEntry) : List Nat := l.filterMap m.stagedRegion

/-- The stack whose controller a staged entry acts on. -/
def entryStack (e : StageEntry) : Option Nat :=
  match e with
  | .mapOut kind target => if kind = 1 then some target else if kind = 2 then some (target / 32) else none
  | .write addr _ _ =>
    let x := cbPlace addr.toNat
    match siteMd x.1 with
    | some md => if 0x2000000 ≤ x.2 && x.2 < 0x2400000 then some (4 * md + (x.2 - 0x2000000) / 0x100000) else none
    | none => none

/-- A register of a TD lies in its harbour domain (R14): the slice's, the stack controllers', the mesh router's. -/
def harbourOff (off : Nat) : Bool := 0x2000000 ≤ off && off < 0x4000000

/-- The site of the fenced or recovering domain that a staged entry targets (R47, R51). The region table belongs to no domain smaller
than the module; a TD's compute domain holds neither its harbour's registers nor its stacks. -/
def Mod.fencedTarget (m : Mod) (e : StageEntry) : Option Nat :=
  if (m.stagedRegion e).isSome then none
  else
    let (site, harbour) := match e with
      | .write addr _ _ => ((cbPlace addr.toNat).1, harbourOff (cbPlace addr.toNat).2)
      | .mapOut kind target => (if kind = 3 then pdSite (target / 4) else stackSite (if kind = 1 then target else target / 32), true)
    let die := m.tender.fenced.any (fun d => match d with
      | .td s => s.val == site && !harbour
      | .edge x => edSite x == site && !harbour
      | _ => false)
    if die || (match entryStack e with | some k => m.stackFenced k | none => false) then some site else none

/-- What two sets may not both target (R49): a register, a region-table entry, a word of the routing tables, a channel. -/
inductive StageKey where
  | reg (site off : Nat)
  | region (n : Nat)
  | route (i : Nat)
  | chan (ch : Nat)
  deriving DecidableEq, Repr

/-- The targets of a staged entry. -/
def Mod.stageKeys (m : Mod) (e : StageEntry) : List StageKey :=
  match e with
  | .mapOut kind target => (outChannels kind target).map StageKey.chan
  | .write addr _ _ =>
    let x := cbPlace addr.toNat
    match m.tableWord x.1 x.2 with
    | some t => [.region t.1]
    | none =>
      if (siteEd x.1).isSome && 0x5000000 ≤ x.2 && x.2 < 0x5010000 then [.route ((x.2 - 0x5000000) / 8)] else [.reg x.1 x.2]

/-! ## Checks (R47, R177, R184, R418, R419) -/

/-- Two sectors' way masks overlap at a slice, whatever state the sectors are in (R184). -/
def Mod.waysOverlap (m : Mod) (md : Nat) : Bool :=
  (List.range 16).any (fun a => (List.range a).any (fun b => m.wayMask md a &&& m.wayMask md b != 0))

/-- An activation entry conflicts (R418): nothing verified is inactive, or its image is older than the fuses. -/
def Mod.activationConflict (m : Mod) (c : Nat) : Bool :=
  !m.fw.inactiveOk ||
    (match Table.get none m.fw.images ((1 - flag m.fw.booted) * 4 + c) with
     | some img => img.svn < Table.get 0 m.svnFused c
     | none => true)

/-- What a staged register conflicts with, its bits written. -/
def Mod.registerConflict (m : Mod) (site off : Nat) (set : Word) (written : List Nat) : Bool :=
  let active := (List.range 32).filter m.portActive
  (match siteMd site with | some md => 0x3000100 ≤ off && off < 0x3000180 && m.waysOverlap md | none => false) ||
    (0x2000000 ≤ off && off < 0x2800000 && 0x200 ≤ off % 0x100000 && off % 0x100000 < 0x400 && m.tableConflict written) ||
    (site == kdSite && off == 0x84010 && ((bit set 0 && m.activationConflict 1) || (bit set 1 && m.activationConflict 3))) ||
    (site == kdSite && off == 0x84018 &&
      active.any (fun p => Table.get 0 m.linkLevels p < bits (m.reg kdSite 0x84018 0) 15 0))

/-- The bits that a staged write of a register takes (R305). -/
def RegDef.stagedBits (d : RegDef) (mask : Word) : Word := mask &&& (d.direct ||| d.staged)

/-- A staged write in the check of a set: the module as the write would leave it; none where it is refused (R49). -/
def Mod.stageWrite (m : Mod) (owner : Option Issuer) (written : List Nat) (next : Option StageEntry) (site off : Nat) (mask value : Word) :
    Option Mod :=
  match m.tableWord site off with
  | some t =>
    let m := m.setRegion t.1 ((m.region t.1).withWord t.2 mask value)
    if owner ≠ some .mgmt || ((next.bind m.stagedRegion) ≠ some t.1 && m.tableConflict written) then none else some m
  | none =>
    match m.regDef site off with
    | none => none
    | some d =>
      let m := m.writeBits site off d (d.stagedBits mask) value
      if d.staged = 0 || m.registerConflict site off (value &&& d.stagedBits mask) written then none else some m

/-- A staged entry in the check of a set. -/
def Mod.stageOne (m : Mod) (owner : Option Issuer) (written : List Nat) (next : Option StageEntry) (e : StageEntry) : Option Mod :=
  if (m.fencedTarget e).isSome then none
  else
    match e with
    | .mapOut kind target =>
      let m := (outChannels kind target).foldl (fun (m : Mod) (ch : Nat) => m.outChannel ch) m
      if m.tableConflict written then none else some m
    | .write addr mask value => m.stageWrite owner written next (cbPlace addr.toNat).1 (cbPlace addr.toNat).2 mask value

/-- The entries of a set taken in order on a copy of the module: the module they leave, or the index of the first conflict. -/
def Mod.stageRun (m : Mod) (owner : Option Issuer) (written : List Nat) (i : Nat) : List StageEntry → Except Nat Mod
  | [] => .ok m
  | e :: rest =>
    match m.stageOne owner written rest.head? e with
    | some m => Mod.stageRun m owner written (i + 1) rest
    | none => .error i

/-- Sets checked together, in order, against the live state: the first that conflicts, and its entry (R47, R50). A later set finds the entries that
an earlier one rewrites with the channels they then have (R177). -/
def Mod.checkSets (m : Mod) : List Nat → Option (Nat × Nat)
  | [] => none
  | i :: rest =>
    let x := m.set i
    match m.stageRun x.owner (m.stagedRegions x.entries) 0 x.entries with
    | .error k => some (i, k)
    | .ok m' => Mod.checkSets ((m.stagedRegions x.entries).foldl (fun (m : Mod) (n : Nat) => m.writeRegion n (m.region n)) m') rest

/-! ## The commands of a set (R46 to R49, R305, R337) -/

/-- A set that STAGE_WRITE, STAGE_CHECK and MAP_OUT accept. -/
def StagedSet.open_ (x : StagedSet) : Bool := x.st == .opened || x.st == .checked

/-- STAGE_BEGIN: a sector holds at most one set, of sets 0 to 2. -/
def execStageBegin (p : PktRef) (s : State) : Host.Outcome State Fault Refusal :=
  let m := s.toMod
  s.go (m.command p 0x400 (fun _ =>
    let who := m.issuer p.q
    let sets := if who = some .mgmt then [0, 1, 2, 3] else [0, 1, 2]
    if who ≠ some .mgmt && [0, 1, 2, 3].any (fun i => (m.set i).owner == who && (m.set i).st != .empty) then m.endCmd p 0x0201 0 0
    else
      match sets.find? (fun i => (m.set i).st == .empty) with
      | none => m.endCmd p 0x0201 0 0
      | some i => (m.setSet i { StagedSet.reset with st := .opened, owner := who }).endCmd p 0 i 0))

/-- The entries of a STAGE_WRITE (R303). -/
def stageEntries (ws : List Word) : List StageEntry :=
  (List.range (bits (wordAt ws 2) 14 8)).map (fun e =>
    .write ((wordAt ws (8 + 4 * e)).truncate 56) (wordAt ws (9 + 4 * e)) (wordAt ws (10 + 4 * e)))

/-- The owner of a set may not reach the target of an entry (R46, R339). -/
def Mod.notGranted (m : Mod) (owner : Option Issuer) (e : StageEntry) : Bool :=
  match owner, e with
  | some (.sector s), .write addr _ _ => m.grantAt s (cbPlace addr.toNat).1 (cbPlace addr.toNat).2 == 0
  | _, _ => false

/-- The issuer of a packet may act on a set when the Keeper serves it (R46): the set may have changed hands since its dispatch. -/
def Mod.ownsSet (m : Mod) (p : PktRef) (i : Nat) : Bool :=
  match m.issuer p.q with
  | some .mgmt => true
  | who => who.isSome && (m.set i).owner == who

/-- A command on the set that word 2 names, refused where its issuer may no longer act on it (R46, R300). -/
def Mod.setCommand (m : Mod) (p : PktRef) (opc : Nat) (act : List Word → Nat → Mod) : Mod :=
  m.command p opc (fun ws =>
    let i := bits (wordAt ws 2) 1 0
    if m.ownsSet p i then act ws i else m.endCmd p 0x0302 16 0)

/-- STAGE_WRITE. -/
def execStageWrite (p : PktRef) (s : State) : Host.Outcome State Fault Refusal :=
  let m := s.toMod
  s.go (m.setCommand p 0x401 (fun ws i =>
    let x := m.set i
    let new := stageEntries ws
    match (List.range new.length).find? (fun k => new[k]?.any (m.notGranted x.owner)) with
    | some k => m.endCmd p 0x0305 k 0
    | none =>
      if !x.open_ then m.endCmd p 0x0206 x.st.num 0
      else if x.entries.length + new.length > 4096 then m.endCmd p 0x0201 (4096 - x.entries.length) 0
      else
        (m.setSet i { x with st := .opened, entries := x.entries ++ new }).endCmd p 0 x.entries.length
          (x.entries.length + new.length)))

/-- STAGE_CHECK. -/
def execStageCheck (p : PktRef) (s : State) : Host.Outcome State Fault Refusal :=
  let m := s.toMod
  s.go (m.setCommand p 0x402 (fun _ i =>
    let x := m.set i
    if !x.open_ then m.endCmd p 0x0206 x.st.num 0
    else
      match m.checkSets [i] with
      | some c => (m.setSet i { x with st := .opened, firstConflict := some c.2 }).endCmd p 0x0204 c.2 (c.2 + 1)
      | none => (m.setSet i { x with st := .checked }).endCmd p 0 0 x.entries.length))

/-- The other set whose instant is too near an instant, or that shares a target at it (R49). -/
def Mod.clashingSet (m : Mod) (i instant : Nat) : Option Nat :=
  let keys := (m.set i).entries.flatMap m.stageKeys
  [0, 1, 2, 3].find? (fun k =>
    let x := m.set k
    let t := x.instant.toNat
    k != i && x.st == .armed &&
      (if t = instant then (x.entries.flatMap m.stageKeys).any keys.contains else t < instant + 65536 && instant < t + 65536))

/-- APPLY_AT. -/
def execApplyAt (p : PktRef) (s : State) : Host.Outcome State Fault Refusal :=
  let m := s.toMod
  s.go (m.setCommand p 0x403 (fun ws i =>
    let t := wordAt ws 3
    let x := m.set i
    if x.st ≠ .checked then m.endCmd p 0x0206 x.st.num 0
    else if !m.beacon.locked then m.endCmd p 0x0502 0 0
    else if t.toNat < m.bt + 65536 then m.endCmd p 0x0501 0 0
    else if t.toNat > m.bt + 2 ^ 36 then m.endCmd p 0x0507 0 0
    else
      match m.clashingSet i t.toNat with
      | some k => m.endCmd p 0x0506 k 0
      | none =>
        (m.setSet i { x with st := .armed, instant := t, apply := some p, finalChecked := false }).running p
          (.apply (Fin.ofNat 4 i))))

/-- STAGE_DISCARD. -/
def execStageDiscard (p : PktRef) (s : State) : Host.Outcome State Fault Refusal :=
  let m := s.toMod
  s.go (m.setCommand p 0x404 (fun _ i =>
    let x := m.set i
    match x.st with
    | .opened | .checked => (m.emptySet i).endCmd p 0 0 0
    | .armed => if x.finalChecked then m.endCmd p 0x0501 0 0 else (m.leaveSet i 3 0x0505 0 0).endCmd p 0 0 0
    | .applying => m.endCmd p 0x0501 0 0
    | .empty => m.endCmd p 0x0206 0 0))

/-! ## The apply instant (R50, R51) -/

/-- The armed sets of an instant, in set-number order. -/
def Mod.armedAt (m : Mod) (t : Word) : List Nat := [0, 1, 2, 3].filter (fun i => (m.set i).st == .armed && (m.set i).instant == t)

/-- The earliest instant of the armed sets that a condition names. -/
def Mod.nextInstant (m : Mod) (which : StagedSet → Bool) : Option Word :=
  (([0, 1, 2, 3].map m.set).filter (fun x => x.st == .armed && which x)).foldl (fun a x =>
    match a with
    | none => some x.instant
    | some t => some (if x.instant.toNat < t.toNat then x.instant else t)) none

/-- Sets of one instant checked again until none of those left conflicts (R50). -/
def Mod.finalCheck (m : Mod) : Nat → List Nat → Mod
  | 0, _ => m
  | n + 1, l =>
    match m.checkSets l with
    | none => l.foldl (fun (m : Mod) (i : Nat) => m.setSet i { m.set i with finalChecked := true }) m
    | some c => (m.leaveSet c.1 2 0x0204 c.2 0).finalCheck n (l.erase c.1)

/-- STAGE_FINAL_CHECK: the sets of the next instant, from 32 ticks before it. -/
def execStageFinalCheck (s : State) : Host.Outcome State Fault Refusal :=
  let m := s.toMod
  s.go (match m.nextInstant (fun x => !x.finalChecked) with
    | some t => if t.toNat ≤ m.bt + 32768 then m.finalCheck 5 (m.armedAt t) else m
    | none => m)

/-- A sequencer or edge image activated (R418): the units pause. -/
def Mod.activateStaged (m : Mod) (set : Word) : Mod :=
  let m := if bit set 0 then
      let m := m.activateImage 1
      ({ m with fw := { m.fw with seqPause := true } } : Mod)
    else m
  if bit set 1 then
    let m := m.activateImage 3
    { m with fw := { m.fw with edgePause := true } }
  else m

/-- The PCIe/CXL port whose EDG_PCIE_CTRL stands at an offset (R316). -/
def pcieCtrlAt (site off : Nat) : Option Nat :=
  match siteEd site with
  | some e => if off = 0x4800000 then some (2 * e) else if off = 0x4900000 then some (2 * e + 1) else none
  | none => none

/-- A staged value reaches a register: KPR_FW_ACTIVATE and PWR_ISO_GROUP act on it (R418, R366); an adapter root port that loses its OWNER
is reset (R352). -/
def Mod.applyRegister (m : Mod) (site off : Nat) (d : RegDef) (mask value : Word) : Mod :=
  let place := (site, off)
  if place = (kdSite, 0x84010) then m.activateStaged (value &&& mask)
  else
    let old := m
    let m := m.writeBits site off d mask value
    if place = (kdSite, 0x60020) then m.formGroup
    else
      match pcieCtrlAt site off with
      | some p => if old.portOwner p < 16 && m.portOwner p ≠ old.portOwner p then m.resetRoot p else m
      | none => m

/-- A staged write other than the region table's. -/
def Mod.applyWrite (m : Mod) (site off : Nat) (mask value : Word) : Mod :=
  match m.tableWord site off, m.regDef site off with
  | none, some d => m.applyRegister site off d (d.stagedBits mask) value
  | _, _ => m

/-- The writes of a set other than the region table's, to targets that are not fenced (R51). -/
def Mod.applyEntry (m : Mod) (e : StageEntry) : Mod :=
  if (m.fencedTarget e).isSome then m
  else
    match e with
    | .mapOut kind target => (outChannels kind target).foldl (fun (m : Mod) (ch : Nat) => m.outChannel ch) m
    | .write addr mask value => m.applyWrite (cbPlace addr.toNat).1 (cbPlace addr.toNat).2 mask value

/-- A region-table entry as the set leaves it: its words take effect together (R47, R51). -/
def Mod.stagedValue (m : Mod) (l : List StageEntry) (n : Nat) : Region :=
  l.foldl (fun (r : Region) (e : StageEntry) =>
    match e with
    | .write addr mask value =>
      (match m.tableWord (cbPlace addr.toNat).1 (cbPlace addr.toNat).2 with
       | some t => if t.1 = n then r.withWord t.2 mask value else r
       | none => r)
    | .mapOut _ _ => r) (m.region n)

/-- The APPLY_AT of a set has completed for a fence, and its BT_DONE is fixed: every target has taken its writes (R51, R284). -/
def Mod.applied (m : Mod) (i : Nat) : Mod :=
  match (m.set i).apply with
  | some p => m.updFlight p (fun f => { f with past := true, effect := some m.beacon.bt })
  | none => m

/-- A set takes effect (R51, R176, R194); sector records that it changes are measured again (R348); requests that waited on what it
changes go on. -/
def Mod.applySet (m : Mod) (i : Nat) : Mod :=
  let x := m.set i
  let regions := (m.stagedRegions x.entries).eraseDups
  let olds := regions.map (fun n => (n, m.region n, m.listOf (m.region n)))
  let news := regions.map (fun n => (n, m.stagedValue x.entries n))
  let fenced := x.entries.filterMap m.fencedTarget
  let m := x.entries.foldl (fun (m : Mod) (e : StageEntry) => m.applyEntry e) m
  let m := news.foldl (fun (m : Mod) (p : Nat × Region) => m.writeRegion p.1 p.2) m
  let m := regions.foldl (fun (m : Mod) (n : Nat) => m.dropMoved n olds) m
  let m := ((List.range 16).filter (fun s => (m.sector s).st == 2 || (m.sector s).st == 3)).foldl Mod.measureSector m
  ((m.setSet i { m.set i with st := .applying, fencedSite := fenced.head?, applied := x.entries.length - fenced.length }).applied i).resume

/-- STAGE_APPLY: BT reaches the instant of sets whose final check is done. -/
def execStageApply (s : State) : Host.Outcome State Fault Refusal :=
  let m := s.toMod
  s.go (match m.nextInstant (fun x => x.finalChecked) with
    | some t => if t.toNat ≤ m.bt then (m.armedAt t).foldl (fun (m : Mod) (i : Nat) => m.applySet i) m else m
    | none => m)

/-- A set whose apply is done: its APPLY_AT is replied, the set is EMPTY, and a teardown that waited for it goes on (R48, R51). -/
def Mod.applyDone (m : Mod) (i : Nat) : Mod :=
  let x := m.set i
  let m := match x.fencedSite with
    | some site => m.leaveSet i 1 0x0401 site x.applied
    | none => m.leaveSet i 0 0 0 x.applied
  match x.owner with
  | some (.sector t) => m.freeDrained t
  | _ => m

/-- STAGE_APPLY_DONE: every set that is APPLYING is replied and emptied. -/
def execStageApplyDone (s : State) : Host.Outcome State Fault Refusal :=
  let m := s.toMod
  s.go ([0, 1, 2, 3].foldl (fun (m : Mod) (i : Nat) => if (m.set i).st = .applying then m.applyDone i else m) m)

end Sys2Proof.Machine
end

