-- ==== Sys2Proof/Machine/Commands.lean ====
section
/-!
DEFINITION. Phase tables, online tests, map-outs, notices and telemetry (R18, R305, R359, R360, R394, R409 to R415).
-/
namespace Sys2Proof.Machine
open Sys2Proof

/-! ## Phases (R359, R360) -/

/-- A register of a sector's phase table with the bytes that a PHASE_TABLE word writes. -/
def phaseWord (old w : Word) : Word :=
  (List.range 8).foldl (fun (a : Word) (q : Nat) =>
    if bit w (8 * q + 7) then maskedWrite a (ones (8 * q + 7) (8 * q)) (pack [(8 * q, 5, bits w (8 * q + 4) (8 * q))]) else a) old

/-- PHASE_TABLE: of the issuer's sector, or of the one a management packet names. -/
def execPhaseTable (p : PktRef) (s : State) : Host.Outcome State Fault Refusal :=
  let m := s.toMod
  s.go (m.command p 0x700 (fun ws =>
    let n := match m.issuer p.q with
      | some (.sector x) => x.val
      | _ => bits (wordAt ws 4) 3 0
    ([0, 1].foldl (fun (m : Mod) (k : Nat) =>
      let o := 0x60100 + n * 16 + 8 * k
      m.setReg kdSite o 0x1B1B1B1B1B1B1B1B (phaseWord (m.reg kdSite o 0x1B1B1B1B1B1B1B1B) (wordAt ws (2 + k)))) m).endCmd p 0 0 0))

/-- PHASE_SET: at its module-local instant (R301). -/
def execPhaseSet (p : PktRef) (s : State) : Host.Outcome State Fault Refusal :=
  let m := s.toMod
  s.go (m.command p 0x701 (fun _ => m.running p (.instant (m.localInstant p))))

/-! ## Targets (R304) -/

/-- EDGE, module, direction and lane of a die-to-die lane. -/
structure LaneRef where
  edge : Nat
  module : Nat
  back : Bool
  lane : Nat
  deriving DecidableEq, Repr

/-- The lane that a TARGET names. -/
def laneRef (w : Word) : LaneRef := { edge := bits w 5 0, module := bits w 12 8, back := bit w 23, lane := bits w 22 16 }

/-- The lane exists on this part. -/
def Mod.laneOk (m : Mod) (l : LaneRef) : Bool :=
  l.edge < 40 && m.meshEdge l.edge && l.module < edgeModules l.edge && l.lane < 66

/-- The module of a lane, in its direction. -/
def Mod.laneSite (m : Mod) (l : LaneRef) : LaneMap := m.laneMap l.edge l.back l.module

/-- The TARGET of a lane (R304). -/
def LaneRef.unit (l : LaneRef) : Nat := l.edge + l.module * 2 ^ 8 + l.lane * 2 ^ 16 + flag l.back * 2 ^ 23

/-- A spare of the lane's module and direction is free (R17): not taken by a repair, nor by a lane whose traffic a test has moved onto
it (R394). -/
def Mod.spareFree (m : Mod) (l : LaneRef) : Bool :=
  let x := m.laneSite l
  let tested := (List.range 66).filter (fun k => m.underTest 2 (LaneRef.unit { l with lane := k }) && !x.fused.contains k && !x.soft.contains k)
  !x.disabled && x.fused.length + x.soft.length + tested.length < 2

/-- A lane moved onto a spare, in the soft map (R445). -/
def Mod.repairLane (m : Mod) (l : LaneRef) : Mod :=
  let x := m.laneSite l
  if x.fused.contains l.lane || x.soft.contains l.lane then m
  else { m with lanes := Table.set LaneMap.reset m.lanes (laneKey l.edge l.back l.module) { x with soft := x.soft ++ [l.lane] } }

/-! ## Online tests (R394) -/

/-- The number of a test's unit. -/
def testUnit (kind : Nat) (w : Word) : Nat :=
  if kind = 0 then bits w 6 0 else if kind = 1 then bits w 11 0 else if kind = 2 then (laneRef w).unit else bits w 4 0

/-- The die and unit that a failed test is recorded for (R397). -/
def testSite (kind n : Nat) : Nat × Nat :=
  match kind with
  | 0 => (clusterSite n, 0x0100 + n % 8)
  | 1 => (stackSite (n / 32), 0x0200 + n / 32 % 4)
  | 2 => (kdSite, 0x0800)
  | _ => (portSite n, 0x0500 + n % 8)

/-- What keeps a test from starting (R305, R394): its status and DETAIL. -/
def Mod.testFault (m : Mod) (kind n : Nat) (w : Word) : Option (Nat × Nat) :=
  let busy := if m.underTest kind n then some (0x0202, n) else none
  match kind with
  | 0 =>
    (match (m.clusterQueues n).find? (fun q => q.2.st != .free && q.2.st != .disabled) with
     | some q => some (0x0202, q.1)
     | none => busy)
  | 1 =>
    if n ≥ 2560 || !m.stackFitted (n / 32) then some (0x0104, 24)
    else
      (match m.regions.find? (fun p => p.2.valid && (m.listOf p.2).contains n) with
       | some p => some (0x0202, p.1)
       | none => busy)
  | 2 =>
    if !m.laneOk (laneRef w) then some (0x0104, 24)
    else if busy.isSome then busy
    else if !m.spareFree (laneRef w) then some (0x0207, 0)
    else none
  | _ => if (m.port n).st ≠ .disabled then some (0x0202, n) else busy

/-- TEST_RUN: a channel's test destroys its contents. -/
def execTestRun (p : PktRef) (s : State) : Host.Outcome State Fault Refusal :=
  let m := s.toMod
  s.go (m.command p 0x800 (fun ws =>
    let kind := bits (wordAt ws 2) 3 0
    let n := testUnit kind (wordAt ws 3)
    match m.testFault kind n (wordAt ws 3) with
    | some e => m.endCmd p e.1 e.2 0
    | none => (if kind = 1 then m.scrubChannel n else m).running p (.busy 6 (kind * 2 ^ 32 + n))))

/-- TEST_DONE: the patterns run, and the DETAIL of R394 where the test found a fault; a lane that fails stays on its spare. -/
def execTestDone (p : PktRef) (patterns : Nat) (fault : Option (BitVec 16)) (s : State) : Host.Outcome State Fault Refusal :=
  let m := s.toMod
  s.go (match m.flight p with
    | none => m
    | some f =>
      match f.work with
      | .busy 6 t =>
        let kind := t / 2 ^ 32
        (match fault with
         | none => m.endCmd p 0 0 patterns
         | some d =>
           let u := testSite kind (t % 2 ^ 32)
           let m := m.record { site := u.1, cls := 0x13, sev := 1, unit := u.2, code := kind, addr := 0, detail := d.toNat,
                               sector := m.queueSector p.q, injected := false }
           let l := laneRef (wordAt f.words 3)
           let m := if kind = 2 then m.lanesFail l.edge l.back l.module [l.lane] else m
           m.endCmd p 0x0406 d.toNat patterns)
      | _ => m)

/-! ## MAP_OUT (R18, R194, R230, R305) -/

/-- The stack or channel of a MAP_OUT exists on this part. -/
def Mod.outOk (m : Mod) (kind target : Nat) : Bool :=
  match kind with
  | 1 => m.stackFitted target
  | 2 => target < 2560 && m.stackFitted (target / 32)
  | _ => target < 16 && m.dimmBytes target > 0

/-- A map-out entry appended to a set. -/
def Mod.stageMapOut (m : Mod) (p : PktRef) (kind target i : Nat) : Mod :=
  let x := m.set i
  (m.setSet i { x with st := .opened, entries := x.entries ++ [.mapOut kind target] }).endCmd p 0 x.entries.length 0

/-- Why a MAP_OUT is refused (R18, R305): of a die-to-die lane or a cluster; the others are checked as they are staged. -/
def Mod.mapOutFault (m : Mod) (ws : List Word) : Option (Nat × Nat) :=
  let w := wordAt ws 3
  let kind := bits (wordAt ws 2) 3 0
  let x := m.set (bits (wordAt ws 2) 5 4)
  let staged := fun (target : Nat) =>
    if x.owner ≠ some .mgmt then some (0x0302, 16)
    else if !m.outOk kind target then some (0x0104, 24)
    else if !x.open_ then some (0x0206, x.st.num)
    else if x.entries.length ≥ 4096 then some (0x0201, 0)
    else none
  match kind with
  | 0 =>
    let n := bits w 6 0
    if (m.cluster n).sector.isSome || m.underTest 0 n || m.claimed 0 n then some (0x0202, n) else none
  | 1 => staged (bits w 6 0)
  | 2 | 3 => staged (bits w 11 0)
  | 4 =>
    let l := laneRef w
    let x := m.laneSite l
    if !m.laneOk l then some (0x0104, 24)
    else if !(x.fused.contains l.lane || x.soft.contains l.lane) && !m.spareFree l then some (0x0207, 0)
    else none
  | _ => none

/-- MAP_OUT. -/
def execMapOut (p : PktRef) (s : State) : Host.Outcome State Fault Refusal :=
  let m := s.toMod
  s.go (m.command p 0x801 (fun ws =>
    let w := wordAt ws 3
    let i := bits (wordAt ws 2) 5 4
    m.checked p (m.mapOutFault ws)
    (match bits (wordAt ws 2) 3 0 with
    | 0 => (m.updCluster (bits w 6 0) (fun c => { c with mappedOut := true, gated := true })).endCmd p 0 0 0
    | 1 => m.stageMapOut p 1 (bits w 6 0) i
    | 2 => m.stageMapOut p 2 (bits w 11 0) i
    | 3 => m.stageMapOut p 3 (bits w 11 0) i
    | 4 => (m.repairLane (laneRef w)).endCmd p 0 0 0
    | _ =>
      let n := bits w 4 0
      let x := m.port n
      let m := m.setPort n { x with bad := x.bad ||| BitVec.ofNat 8 (1 <<< bits w 10 8) }
      (if x.st = .active then m.stepDown n ((List.range 8).map (fun k => Table.get 0 x.symCorr k)) else m).endCmd p 0 0 0)))

/-! ## Notices (R410 to R415) -/

/-- A level lies beyond a watermark: above an up mark, below a down mark. -/
def beyond (up : Bool) (mark level : Nat) : Bool := if up then level > mark else level < mark

/-- A watermark armed, with a clear record. -/
def armedMark (mark : Nat) : Mark := { armed := true, fired := false, mark := mark, crossings := 0, extreme := 0, bt := 0 }

/-- A watermark fires (R411). -/
def Mark.fire (x : Mark) (level : Nat) (bt : Word) : Mark :=
  { x with armed := false, fired := true, crossings := 1, extreme := level, bt := bt }

/-- A watermark takes a sample after the one before it (R411, R412). -/
def Mark.sample (x : Mark) (up : Bool) (prev level : Nat) (bt : Word) : Mark :=
  let crossing := beyond up x.mark level && !beyond up x.mark prev
  if x.armed then (if crossing then x.fire level bt else x)
  else if x.fired then
    { x with crossings := if crossing then satAdd x.crossings 1 0xFFFF else x.crossings
             extreme := if up then max x.extreme level else min x.extreme level }
  else x

/-- A watermark compared with the last sample at once (R411). -/
def Mark.compare (x : Mark) (up : Bool) (level : Nat) (bt : Word) : Mark :=
  if x.armed && beyond up x.mark level then x.fire level bt else x

/-- A sector's notice page (R414). -/
def Mod.noticePage (m : Mod) (s : Nat) : Option Nat :=
  (m.regions.find? (fun p => p.2.valid && p.2.tier < 2 && p.2.sector == s && bits p.2.w3 63 32 == 0x4E4F5443)).map (fun p => p.2.base)

/-- The copy of an entry in its sector's notice page (R414); one whose line is not to be had yet is written at a later epoch (R203). -/
def Mod.copyNotice (m : Mod) (i : Nat) (x : Notice) : Mod :=
  match x.owner with
  | .mgmt => m
  | .sector s =>
    match m.noticePage s with
    | none => m
    | some base =>
      if m.holdsOff (some s) true (base + 64 * i) 64 then
        { m with notices := Table.set none m.notices i (some { x with stale := true }) }
      else
      match m.writePhys (some s) (base + 64 * i) (x.words.flatMap wordBytes) with
      | .ok m' => m'
      | .error _ => m

/-- The signal of a firing (R311, R322, R414). -/
def Mod.noticeSignal (m : Mod) (owner : Issuer) : Mod :=
  match owner with
  | .mgmt => (List.range 9).foldl (fun (m : Mod) (port : Nat) => (m.sendVector port 0 0).getD m) m
  | .sector s =>
    let pds := m.sectorPds s
    let m := ((List.range 4).filter (fun k => pds.any (fun a => a / 96 == k))).foldl (fun (m : Mod) (k : Nat) =>
      m.raiseSource (pdSite k) 2) m
    if (m.sector s).attached then
      let port := (m.sector s).hostPort
      (m.sendVector port (1 + s.val) (bits (m.fn port (1 + s.val)).adminMisc 10 0)).getD m
    else m

/-- A watermark that has just fired is logged and signalled (R414). -/
def Mod.noticeFired (m : Mod) (i : Nat) (x : Notice) (down : Bool) (y : Mark) : Mod :=
  (m.logEvent 0x07 (flag down) kdSite (x.source + issuerNum x.owner * 4096 + i * 2 ^ 17)
    (pack [(0, 32, y.extreme), (32, 16, y.crossings)])).noticeSignal x.owner

/-- An entry takes a new value: its firings, and its copy where its record changes (R414). -/
def Mod.setNotice (m : Mod) (i : Nat) (old new : Notice) : Mod :=
  let m : Mod := { m with notices := Table.set none m.notices i (some { new with stale := false }) }
  let m := if new.up.fired && (!old.up.fired || new.up.bt != old.up.bt) then m.noticeFired i new false new.up else m
  let m := if new.down.fired && (!old.down.fired || new.down.bt != old.down.bt) then m.noticeFired i new true new.down else m
  if old.stale || (new != old && (new.up.fired || new.down.fired || old.up.fired || old.down.fired)) then
    m.copyNotice i { new with stale := false }
  else m

/-- The notice entry of an issuer and a source. -/
def Mod.noticeOf (m : Mod) (who : Issuer) (source : Nat) : Option (Nat × Notice) :=
  m.notices.findSome? (fun p => p.2.bind (fun x => if x.owner = who ∧ x.source = source then some (p.1, x) else none))

/-- Entries that an issuer holds. -/
def Mod.noticesOf (m : Mod) (who : Issuer) : Nat := (m.notices.filter (fun p => p.2.any (fun x => x.owner == who))).length

/-- NOTICE_ARM. -/
def execNoticeArm (p : PktRef) (s : State) : Host.Outcome State Fault Refusal :=
  let m := s.toMod
  s.go (m.command p 0x802 (fun ws =>
    let w2 := wordAt ws 2
    let w3 := wordAt ws 3
    let source := bits w2 11 0
    let who := (m.issuer p.q).getD .mgmt
    let level := Table.get 0 m.levels source
    let bt := m.beacon.bt
    match m.noticeOf who source with
    | some (i, x) =>
      if bit w2 13 then ({ m with notices := Table.set none m.notices i none } : Mod).endCmd p 0 i 0
      else if bit w2 12 then
        let again := fun (up : Bool) (y : Mark) => if y.fired then (armedMark y.mark).compare up level bt else y
        let cleared : Notice := { x with up := if x.up.fired then armedMark x.up.mark else x.up
                                         down := if x.down.fired then armedMark x.down.mark else x.down }
        let new : Notice := { x with up := again true x.up, down := again false x.down }
        let m := if new = cleared then m.setNotice i x new else m.setNotice i cleared new
        m.endCmd p 0 i 0
      else
        let blank : Notice := { x with up := armedMark (bits w3 31 0), down := armedMark (bits w3 63 32), current := level }
        ((m.setNotice i x blank).setNotice i blank
          { blank with up := blank.up.compare true level bt, down := blank.down.compare false level bt }).endCmd p 0 i 0
    | none =>
      if bit w2 12 || bit w2 13 then m.endCmd p 0x0104 16 0
      else
        let blank : Notice := { source := source, owner := who, up := armedMark (bits w3 31 0), down := armedMark (bits w3 63 32)
                                current := level }
        match (List.range 512).find? (fun i => (Table.get none m.notices i).isNone) with
        | none => m.endCmd p 0x0201 0 0
        | some i =>
          if who ≠ .mgmt && m.noticesOf who ≥ 32 then m.endCmd p 0x0201 0 0
          else
            (m.setNotice i blank { blank with up := blank.up.compare true level bt, down := blank.down.compare false level bt }).endCmd
              p 0 i 0))

/-! ## Telemetry (R409) -/

/-- The level of every source at an epoch: the outside gives what each sector's controllers moved and its engines sent, in MiB. -/
def Mod.sampleLevels (m : Mod) (moved : List (SectorId × BitVec 32 × BitVec 32)) : Table Nat :=
  let of := fun (s : Nat) => (moved.find? (fun x => x.1.val == s)).map (·.2)
  let all : List (Nat × Nat) :=
    (List.range 20).map (fun md => (md, flag (m.slice md).hot.hot)) ++
    (List.range 80).map (fun k => (0x100 + k, flag (Table.get HotStat.reset m.ctlHot k).hot)) ++
    (List.range 100).map (fun k => (0x200 + k, flag (Table.get HotStat.reset m.rtrHot k).hot)) ++
    (List.range 25).map (fun k => (0x300 + k, (m.die k).tj)) ++
    [(0x400, m.power.inputW), (0x401, m.power.allow / 1000)] ++
    (List.range 32).map (fun k => (0x500 + k, (m.port k).uncorr)) ++
    (List.range 16).flatMap (fun s =>
      [(0x800 + 16 * s, ((of s).map (·.1.toNat)).getD 0), (0x801 + 16 * s, ((of s).map (·.2.toNat)).getD 0),
       (0x802 + 16 * s, ((m.sectorQueues s).filter (fun q => (m.queue q).st == .error)).length)])
  all.filter (fun p => p.2 != 0)

/-- TELEMETRY_SAMPLE: every source is sampled, and every notice entry takes its sample. -/
def execTelemetrySample (moved : List (SectorId × BitVec 32 × BitVec 32)) (s : State) : Host.Outcome State Fault Refusal :=
  let m := s.toMod
  let old := m.levels
  let new := m.sampleLevels moved
  let m : Mod := { m with levels := new }
  s.go (m.notices.foldl (fun (m : Mod) (p : Nat × Option Notice) =>
    match p.2 with
    | none => m
    | some x =>
      let prev := Table.get 0 old x.source
      let level := Table.get 0 new x.source
      m.setNotice p.1 x { x with up := x.up.sample true prev level m.beacon.bt, down := x.down.sample false prev level m.beacon.bt
                                 current := level }) m)

end Sys2Proof.Machine
end

