-- ==== Sys2Proof/Machine/Admission.lean ====
section
/-!
DEFINITION. The checks of a packet at dispatch, in the order of R299, and dispatch itself (R283 to R285, R299, R301, R305, R306).
-/
namespace Sys2Proof.Machine
open Sys2Proof

/-- The state, resources, timing and booking admission that a command's packet meets at dispatch (R299): the status and DETAIL of the first
check that fails. A command of the Keeper meets them when the Keeper serves it (R338; DEDUCED, log entry 117). -/
def Mod.stateFault (m : Mod) (p : PktRef) (ws : List Word) : Option (Nat × Nat) :=
  let cl := queueNum p.q / 128
  let slot := bits (wordAt ws 2) 4 0
  match pktOpc ws with
  | 0x010 => m.queueCreateFault ws
  | 0x011 => m.queueDisableFault ws
  | 0x012 => m.queueEnableFault ws
  | 0x013 => m.queueDestroyFault p ws
  | 0x020 => m.newSectorFault ws
  | 0x100 => (m.slotUser cl slot).map (fun i => (0x0202, i))
  | 0x101 => (m.badLaunch p ws cl (Table.get none (m.cluster cl).slots slot)).map (fun d => (0x0106, d))
  | 0x103 => m.postFault ws
  | 0x300 => m.planLoadFault ws
  | 0x301 => m.planStartFault ws
  | 0x302 => m.bookFault ws
  | 0x303 => if (m.bookingNamed p ws).isNone then some (0x0605, 0) else none
  | 0x602 => m.sealedFault p ws
  | 0x800 => m.testFault (bits (wordAt ws 2) 3 0) (testUnit (bits (wordAt ws 2) 3 0) (wordAt ws 3)) (wordAt ws 3)
  | 0x801 => m.mapOutFault ws
  | _ => none

/-- The first check of R299 that a packet fails. -/
def Mod.packetFault (m : Mod) (p : PktRef) (ws : List Word) : Option (Nat × Nat) :=
  match m.formatFault ws with
  | some e => some e
  | none =>
    if m.forbidden p.q ws then some (0x0301, 0)
    else
      match (m.issuer p.q).bind (fun who => m.ownerFault who ws) with
      | some off => some (0x0302, off)
      | none => m.stateFault p ws

/-- What a packet's record keeps of its dispatch: the BT (R301), its place in the cluster's order of dispatches (R306), and the kernel that
its slot holds (R305). -/
def Mod.noteDispatch (m : Mod) (p : PktRef) (ws : List Word) (stage : Stage) : Mod :=
  let cl := queueNum p.q / 128
  let image := if pktOpc ws = 0x101 then Table.get none (m.cluster cl).slots (bits (wordAt ws 2) 4 0) else none
  let order := (m.cluster cl).dispatches
  let m := m.updFlight p (fun f => { f with stage := stage, at_ := m.beacon.bt, order := order, image := image })
  match p.q with
  | .csq _ => m.updCluster cl (fun c => { c with dispatches := order + 1 })
  | .mq _ | .remote => m

/-- A packet is dispatched: refused by the first check that fails, or free to act, or sent to the Keeper for its turn. -/
def Mod.dispatch (m : Mod) (p : PktRef) (ws : List Word) : Mod :=
  match m.fabricNode p.q with
  | some node => m.sendCommand p node ws
  | none =>
    m.checked p (m.packetFault p ws)
      (if keeperBound (pktOpc ws) then
        let m := m.noteDispatch p ws .keeper
        { m with keeperQueue := m.keeperQueue ++ [p] }
      else m.noteDispatch p ws .dispatched)

/-- PACKET_DISPATCH: the packet, if it is the one that goes next. -/
def execPacketDispatch (p : PktRef) (s : State) : Host.Outcome State Fault Refusal :=
  let m := s.toMod
  let runs := m.working && !m.power.paused && (match p.q with | .csq _ => !m.fw.seqPause | _ => true)
  s.go (match m.ready p.q with
    | some f => if runs && f.ix = p.ix && m.nextQueue p.q = some p.q then (m.turned p.q).dispatch p f.words else m
    | none => m)

end Sys2Proof.Machine
end

