-- ==== Sys2Proof/Machine/Mgmt.lean ====
section
/-!
DEFINITION. Management queues by their control register, messages between Keepers, firmware rollout (R402 to R407, R416 to R421).
-/
namespace Sys2Proof.Machine
open Sys2Proof

/-! ## KPR_MQ_CTRL (R421) -/

/-- A management queue is bound as a sector relay, whose rings are device memory (R404, R421). -/
def Mod.mqRelay (m : Mod) (n : Fin 64) : Bool := decide (9 ≤ n.val) && bits (m.reg kdSite (0x80040 + n.val * 0x80) 0) 1 0 == 3

/-- KPR_MQ_CTRL.ENABLE, by the queue's state: a relay with a ring in host memory is out of range (R404). -/
def Mod.mqEnable (m : Mod) (n : Fin 64) : Mod :=
  let x := m.queue (.mq n)
  match x.st with
  | .free =>
    if x.sound && x.notifyAddr.toNat % 4 == 0 && !(m.mqRelay n && x.host) then
      m.setQueue (.mq n) { x with st := .enabled, fetch := 0, producer := 0, replyPi := 0, replyCi := 0, error := 0, lastSeq := none }
    else m.mqIgnored n
  | .disabled => m.setQueue (.mq n) { x with st := .enabled }
  | .enabled => m
  | .disabling => if x.enable.isSome then m.mqIgnored n else m.setQueue (.mq n) { x with enable := some (none, none) }
  | .error | .fenced => m.mqIgnored n

/-- KPR_MQ_ENABLE. -/
def execKprMqEnable (n : Fin 64) (s : State) : Host.Outcome State Fault Refusal := s.go (s.toMod.mqEnable n)

/-- KPR_MQ_DISABLE. -/
def execKprMqDisable (n : Fin 64) (s : State) : Host.Outcome State Fault Refusal := s.go (s.toMod.mqDisable n)

/-- KPR_MQ_CTRL.DESTROY, by the queue's state. -/
def Mod.mqDestroy (m : Mod) (n : Fin 64) : Mod :=
  let x := m.queue (.mq n)
  match x.st with
  | .disabled => m.setQueue (.mq n) x.freed
  | .error => if x.owed.isEmpty && x.held.isEmpty then m.setQueue (.mq n) x.freed else m.mqIgnored n
  | .free | .enabled | .disabling | .fenced => m.mqIgnored n

/-- KPR_MQ_DESTROY. -/
def execKprMqDestroy (n : Fin 64) (s : State) : Host.Outcome State Fault Refusal := s.go (s.toMod.mqDestroy n)

/-! ## COMMAND and REPLY (R404 to R407) -/

/-- A COMMAND message holds one whole packet (R406). -/
def commandSize (t : TPkt) : Bool :=
  let n := t.payload.length
  n ≥ 80 && n == 16 + 64 * pktLen [bytesWord ((t.payload.drop 16).take 8)]

/-- A valid KPR_MGMT_SRC entry matches a node (R407, R421). -/
def Mod.mgmtSource (m : Mod) (node : Nat) : Bool :=
  (List.range 16).any (fun n =>
    let w := m.reg kdSite (0x85400 + n * 8) 0
    bit w 48 && bits (w ^^^ BitVec.ofNat 64 node) 23 0 &&& bits w 47 24 == 0)

/-- A COMMAND of another module runs here, or is refused by policy. -/
def Mod.takeCommand (m : Mod) (e : Entering) : Mod :=
  let all := wordsOf (e.pkt.payload.length / 8) e.pkt.payload
  let id : BitVec 32 := BitVec.ofNat 32 (bits (wordAt all 0) 63 32)
  let ws := all.drop 2
  let ix := m.nextIncoming
  let m : Mod := { m with
    nextIncoming := ix + 1
    incoming := m.incoming ++ [{ ix := ix, src := e.pkt.src, cmdId := id, queue := bits (wordAt all 1) 13 0 }]
    remoteQ := { m.remoteQ with flights := m.remoteQ.flights ++
      [{ ix := ix, words := ws, stage := .accepted, past := false, progress := 0, work := .none, ports := [], effect := none }] } }
  if m.mgmtSource e.pkt.src then m.dispatch ⟨.remote, ix⟩ ws else m.endCmd ⟨.remote, ix⟩ 0x0301 0 0

/-- COMMAND: at most 64 run at once; further messages wait. -/
def execCommand (s : State) : Host.Outcome State Fault Refusal :=
  let m := s.toMod
  let r := m.mgmtArrival 1 commandSize
  s.go (match r.1 with
    | some e => if m.incoming.length ≥ 64 || !m.working || m.power.paused then m else r.2.inFlow e (fun m => .ok (m.takeCommand e))
    | none => r.2)

/-- The REPLY of another module becomes the queue's reply (R405). -/
def Mod.takeReply (m : Mod) (e : Entering) : Mod :=
  let w := wordsOf 6 e.pkt.payload
  let id : BitVec 32 := BitVec.ofNat 32 (bits (wordAt w 0) 63 32)
  match m.remotes.find? (fun r => r.id == id && r.dst == e.pkt.src) with
  | none => m
  | some r =>
    let m : Mod := { m with remotes := m.remotes.erase r }
    match m.flight r.pkt with
    | none => m
    | some f =>
      let m := m.updQueue r.pkt.q (fun q => { q with flights := q.flights.filter (fun x => x.ix != r.pkt.ix) })
      let y : Reply := { ix := f.ix, past := f.past, tag := BitVec.ofNat 32 (bits (wordAt w 2) 31 0), seq := BitVec.ofNat 16 (bits (wordAt w 2) 47 32)
                         status := BitVec.ofNat 16 (bits (wordAt w 2) 63 48), detail := BitVec.ofNat 16 (bits (wordAt w 3) 15 0)
                         progress := wordAt w 4, bt := wordAt w 5, notify := pktNotify f.words }
      (m.writeReply r.pkt.q y).settleQueues shutdownChain [r.pkt.q]

/-- REPLY: a late one is dropped. -/
def execReply (s : State) : Host.Outcome State Fault Refusal :=
  let r := s.toMod.mgmtArrival 2 (fun t => t.payload.length == 48)
  s.go (match r.1 with
    | some e => r.2.inFlow e (fun m => .ok (m.takeReply e))
    | none => r.2)

/-- REMOTE_TO_EXPIRY: an acknowledged COMMAND without its REPLY (R405). -/
def execRemoteToExpiry (id : BitVec 32) (s : State) : Host.Outcome State Fault Refusal :=
  let m := s.toMod
  s.go (match m.remotes.find? (fun r => r.id == id && r.acked) with
    | some r => ({ m with remotes := m.remotes.erase r } : Mod).endCmd r.pkt 0x0401 0 0
    | none => m)

/-! ## HELLO (R419) -/

/-- HELLO: the link runs at the lower level; a partner more than one level away, or below SYSTEM_LEVEL, is refused. -/
def execHello (s : State) : Host.Outcome State Fault Refusal :=
  let r := s.toMod.mgmtArrival 4 (fun t => t.payload.length == 16)
  let m := r.2
  s.go (match r.1.bind (fun e => e.port.map (fun p => (e, p))) with
    | none => m
    | some (e, p) =>
      let theirs := bits (bytesWord (e.pkt.payload.drop 8)) 15 0
      let ours := m.fw.level
      if !m.portActive p then m
      else if theirs > ours + 1 || ours > theirs + 1 || theirs < bits (m.reg kdSite 0x84018 0) 15 0 then
        (m.refusePartner p true).updPort p (fun x => { x with open_ := false })
      else { m with linkLevels := Table.set 0 m.linkLevels p (min theirs ours) })

/-! ## Firmware (R416 to R418, R421) -/

/-- The boot flash of a set. -/
def Firmware.flash (f : Firmware) (b : Bool) : Mem := if b then f.flashB else f.flashA

/-- The inactive set's flash changed: nothing there is verified any more. -/
def Mod.setInactive (m : Mod) (x : Mem) : Mod :=
  let set := 1 - flag m.fw.booted
  let f := if m.fw.booted then { m.fw with flashA := x } else { m.fw with flashB := x }
  { m with fw := { f with inactiveOk := false, images := f.images.filter (fun p => p.1 / 4 != set) } }

/-- A 64 KiB sector of the window erased. -/
def Mod.eraseFlash (m : Mod) (sector : Nat) : Mod :=
  let x := m.fw.flash (!m.fw.booted)
  m.setInactive { x with cells := x.cells.filter (fun c => c.1 / 65536 != sector) }

/-- FW_ERASE. -/
def execFwErase (sector : Fin 1024) (s : State) : Host.Outcome State Fault Refusal := s.go (s.toMod.eraseFlash sector)

/-- Bytes programmed at an offset of the 64 MiB window. -/
def Mod.writeFlash (m : Mod) (off : Nat) (data : List Byte) : Mod :=
  m.setInactive ((m.fw.flash (!m.fw.booted)).writeN off (data.take (67108864 - off)))

/-- FLASH_WINDOW_WRITE. -/
def execFlashWindowWrite (off : Fin 67108864) (data : List Byte) (s : State) : Host.Outcome State Fault Refusal :=
  s.go (s.toMod.writeFlash off data)

/-- The check of the inactive set begins. -/
def Mod.verifySet (m : Mod) : Mod := { m with fw := { m.fw with verifying := true } }

/-- FW_VERIFY. -/
def execFwVerify (s : State) : Host.Outcome State Fault Refusal := s.go s.toMod.verifySet

/-- The four images of a set, Keeper, sequencer, platform and edge, are accepted by R344 (R416). -/
def Mod.imagesOk (m : Mod) (l : List ImageReport) : Bool :=
  l.length == 4 && (List.range 4).all (fun c => (l[c]?).any (m.imageOk c))

/-- FW_VERIFY_DONE: the four images and their set's FEATURE_LEVEL; no image where the check failed. -/
def execFwVerifyDone (images : List ImageReport) (level : BitVec 16) (s : State) : Host.Outcome State Fault Refusal :=
  let m := s.toMod
  let set := 1 - flag m.fw.booted
  let kept := m.fw.images.filter (fun p => p.1 / 4 != set)
  let word := 16 * set + level.toNat * 65536
  s.go (if !m.fw.verifying then m
    else if m.imagesOk images then
      ({ m with fw := { m.fw with
          verifying := false, inactiveOk := true, inactiveLevel := level.toNat
          images := (List.range 4).foldl (fun (t : Table (Option Image)) (c : Nat) =>
            match images[c]? with
            | some x => Table.put t (set * 4 + c) (some { svn := x.svn.toNat, version := x.version.toNat, digest := x.digest })
            | none => t) kept } } : Mod).logEvent 0x06 0x01 kdSite word 0
    else
      ({ m with fw := { m.fw with verifying := false, inactiveOk := false, images := kept } } : Mod).logEvent 0x06 0x02 kdSite word 0)

/-- The trial boot is confirmed (R417). -/
def Mod.confirmTrial (m : Mod) : Mod :=
  if !m.fw.trial then m
  else
    let w := m.reg kdSite 0x84000 0x2580000000000
    let m : Mod := ({ m with fw := { m.fw with trial := false } } : Mod).setReg kdSite 0x84000 0x2580000000000 (maskedWrite w (ones 6 6) 0)
    m.logEvent 0x06 0x06 kdSite (16 * flag m.fw.booted + m.fw.level * 65536) 0

/-- FW_CONFIRM. -/
def execFwConfirm (s : State) : Host.Outcome State Fault Refusal := s.go s.toMod.confirmTrial

/-- CONFIRM_TIMEOUT: a warm restart takes the other set (R417). -/
def execConfirmTimeout (s : State) : Host.Outcome State Fault Refusal :=
  let m := s.toMod
  s.go (if m.fw.trial then m.askRestart false 5 else m)

/-- KPR_FW_ACTIVATE.PLATFORM: PD cores restarted later run the new image (R418). -/
def Mod.platformActivate (m : Mod) : Mod := { m with fw := { m.fw with platformNew := true } }

/-- PLATFORM_ACTIVATE. -/
def execPlatformActivate (s : State) : Host.Outcome State Fault Refusal := s.go s.toMod.platformActivate

/-- SEQUENCER_ACTIVATE_DONE: the sequencers fetch and dispatch again (R418). -/
def execSequencerActivateDone (s : State) : Host.Outcome State Fault Refusal :=
  let m := s.toMod
  s.go { m with fw := { m.fw with seqPause := false } }

/-- EDGE_ACTIVATE_DONE: the collective engines go on (R418). -/
def execEdgeActivateDone (s : State) : Host.Outcome State Fault Refusal :=
  let m : Mod := { s.toMod with fw := { s.toMod.fw with edgePause := false } }
  s.go ((m.engines.map (·.1)).foldl (fun (m : Mod) (e : Nat) => m.pumpEngine e 2048) m)

end Sys2Proof.Machine
end

