-- ==== Sys2Proof/Machine/Guest.lean ====
section
/-!
DEFINITION. The TAP (R354, R448) and the guest die of a G1 module (R449 to R456).
-/
namespace Sys2Proof.Machine
open Sys2Proof

/-! ## The TAP (R448) -/

/-- The TAP takes an instruction. -/
def Mod.tapTo (m : Mod) (ir : BitVec 8) : Mod := { m with tap := { m.tap with ir := ir } }

/-- What the TAP answers: its instruction, and what its data register shows. -/
def Mod.tapShows (m : Mod) (ir : Nat) (fields : List Nat) : Mod := m.emit (.answer 2 (ir :: fields))

/-- EXTEST: the boundary register drives the connector pins; in any other power state than STANDBY it is not accepted. -/
def execExtest (s : State) : Host.Outcome State Fault Refusal :=
  let m := s.toMod
  s.go (if m.power.st = .standby then (m.tapTo 0x00).tapShows 0x00 [m.tap.boundary] else m.tapTo 0xFF)

/-- SAMPLE_PRELOAD: the pins are sampled, and the boundary register loaded. -/
def execSamplePreload (pins preload : Nat) (s : State) : Host.Outcome State Fault Refusal :=
  let m := s.toMod.tapTo 0x01
  s.go (({ m with tap := { m.tap with boundary := preload } } : Mod).tapShows 0x01 [pins])

/-- IDCODE. -/
def execIdcode (s : State) : Host.Outcome State Fault Refusal := s.go ((s.toMod.tapTo 0x02).tapShows 0x02 [0x17250767])

/-- DIE_SELECT: locked until an unlock (R354); the guest die is not on the chain. -/
def execDieSelect (site : Site) (s : State) : Host.Outcome State Fault Refusal :=
  let m := s.toMod
  s.go (if m.unlocked && !m.guestAt site then { m.tapTo 0x10 with tap := { (m.tapTo 0x10).tap with site := site.val } } else m.tapTo 0xFF)

/-- WRAPPER: locked until an unlock; the core wrappers of the selected die. -/
def execWrapper (s : State) : Host.Outcome State Fault Refusal :=
  let m := s.toMod
  s.go (if m.unlocked then (m.tapTo 0x11).tapShows 0x11 [m.tap.site] else m.tapTo 0xFF)

/-- BYPASS. -/
def execBypass (s : State) : Host.Outcome State Fault Refusal := s.go (s.toMod.tapTo 0xFF)

/-- TRST_N_ASSERT: the TAP is reset, and EXTEST ends. -/
def execTrstNAssert (s : State) : Host.Outcome State Fault Refusal :=
  let m := s.toMod
  s.go { m with tap := Tap.reset }

/-- Every key slot and model key is destroyed (R354). -/
def Mod.destroyAll (m : Mod) : Mod :=
  { (List.range 64).foldl (fun (m : Mod) (k : Nat) => m.destroyKey k) m with models := [] }

/-- UNLOCK: the current nonce shifts out, and the token shifted in is accepted if it is a sound image of component 5 and names the module
and the nonce drawn at this start (R344, R354, R448; log entry 28). -/
def execUnlock (token : ImageReport) (identity : BitVec 384) (nonce : Nat) (s : State) : Host.Outcome State Fault Refusal :=
  let m := s.toMod
  let now := (Config.unlockNonce m.starts).toNat
  let shown := (m.tapTo 0x20).tapShows 0x20 [now]
  s.go (if m.imageOk 4 token && identity == m.part.idHash && nonce == now then
      ({ shown.destroyAll with unlocked := true } : Mod).measureKeeper
    else shown)

/-! ## Admission (R449, R450, R455) -/

/-- SEC_GUEST_CTRL. -/
def Mod.guestCtrl (m : Mod) : Word := m.reg 18 0x30008 0x1D1F0

/-- An admission starts from sideband detection. -/
def Mod.guestDetect (m : Mod) : Mod :=
  { m with guest := { m.guest with st := 1, edges := 0, protocol := 0, rate := 0, modules := 0, reason := 0 } }

/-- An event of admission acts in one state of a module that has a guest site; the states do not count time in the hold. -/
def Mod.guestIn (m : Mod) (st : Nat) (f : Mod → Mod) : Mod := if m.part.guestSite && m.guest.st == st then f m else m

/-- READMIT: from ABSENT (R449) or REFUSED; otherwise ignored and recorded, as R455 has it of every state but REFUSED (DEDUCED, log entry
114). -/
def Mod.readmit (m : Mod) : Mod :=
  if !m.part.guestSite then m
  else if m.guest.st = 0 || m.guest.st = 6 then m.guestDetect
  else m.malformed 18 (cbBase 18 + 0x30008) 8 none

/-- READMIT. -/
def execReadmit (s : State) : Host.Outcome State Fault Refusal := s.go s.toMod.readmit

/-- GUEST_SIDEBAND_ANSWER: edges answer; with all four the capabilities are compared at once. -/
def execGuestSidebandAnswer (edges : BitVec 4) (s : State) : Host.Outcome State Fault Refusal :=
  s.go (s.toMod.guestIn 1 (fun m =>
    let up := m.guest.edges ||| edges
    { m with guest := { m.guest with edges := up, st := if up = 0xF then 2 else 1 } }))

/-- GUEST_SIDEBAND_TIMEOUT: time in the hold does not count (R449). -/
def execGuestSidebandTimeout (s : State) : Host.Outcome State Fault Refusal :=
  s.go (s.toMod.guestIn 1 (fun m =>
    if m.power.st = .hold then m else if m.guest.edges = 0 then m.guestRefuse 1 else { m with guest := { m.guest with st := 2 } }))

/-- A rate and protocol that SEC_GUEST_CTRL permits (R456). -/
def Mod.guestSetting (m : Mod) (rate protocol : Nat) : Bool :=
  rate ≤ min 5 (bits m.guestCtrl 14 12) && ((protocol == 1 && bit m.guestCtrl 16) || (protocol == 2 && bit m.guestCtrl 15))

/-- GUEST_NEGOTIATED: a coherent offer is refused (R451). -/
def execGuestNegotiated (rate : BitVec 3) (protocol : BitVec 2) (coherent : Bool) (s : State) : Host.Outcome State Fault Refusal :=
  s.go (s.toMod.guestIn 2 (fun m =>
    if coherent then m.guestRefuse 8
    else if !m.guestSetting rate.toNat protocol.toNat then m.guestRefuse 2
    else { m with guest := { m.guest with st := 3, rate := rate.toNat, protocol := protocol.toNat } }))

/-- GUEST_TRAINED. -/
def execGuestTrained (modules : Fin 73) (s : State) : Host.Outcome State Fault Refusal :=
  s.go (s.toMod.guestIn 3 (fun m =>
    if modules.val = 0 then m.guestRefuse 3 else { m with guest := { m.guest with st := 4, modules := modules.val } }))

/-- Six registers that hold a hash (R456). -/
def Mod.guestHash (m : Mod) (off : Nat) : Nat :=
  ((List.range 6).map (fun i => (m.reg 18 (off + 8 * i) 0).toNat * 2 ^ (64 * i))).foldl (· + ·) 0

/-- GUEST_ATTESTED: the chain's root, and the hash of the measurement blocks, are compared (R450). -/
def execGuestAttested (passed : Bool) (root meas : BitVec 384) (s : State) : Host.Outcome State Fault Refusal :=
  s.go (s.toMod.guestIn 4 (fun m =>
    if !passed then m.guestRefuse 4
    else if root.toNat ≠ m.guestHash 0x30010 then m.guestRefuse 5
    else if bit m.guestCtrl 1 && meas.toNat ≠ m.guestHash 0x30040 then m.guestRefuse 6
    else
      ({ m with guest := { m.guest with st := 5, admissions := satAdd m.guest.admissions 1 0xFFFF }
                computeUp := m.computeUp ||| 0x40000 } : Mod).measure 7 meas))

/-- GUEST_STATE_TIMEOUT: of NEGOTIATE, TRAIN and ATTEST, in which time in the hold does not count (R449). -/
def execGuestStateTimeout (s : State) : Host.Outcome State Fault Refusal :=
  let m := s.toMod
  s.go (if m.part.guestSite && m.power.st ≠ .hold && 2 ≤ m.guest.st && m.guest.st ≤ 4 then m.guestRefuse m.guest.st else m)

/-- GUEST_FAULT. -/
def execGuestFault (s : State) : Host.Outcome State Fault Refusal :=
  let m := s.toMod
  s.go (if m.part.guestSite then m.guestFault else m)

/-- GUEST_FENCE_DRAINED: the generation changes, and admission starts again (R449). -/
def execGuestFenceDrained (s : State) : Host.Outcome State Fault Refusal :=
  s.go (s.toMod.guestIn 7 (fun m => { m with guest := { m.guestDetect.guest with gen := m.guest.gen + 1 } }))

/-! ## Messages (R451 to R454) -/

/-- A malformed message: the sixteenth in an epoch is a guest fault (R452). One whose TAG is reserved is not answered: the answer would
carry a reserved value, which the T25 never produces (R11, R453). -/
def Mod.guestMalformed (m : Mod) (tag : Nat) : Mod :=
  let g := m.guest
  let m : Mod := { m with guest := { g with malformed := satAdd g.malformed 1 0xFFFF, malformedRun := g.malformedRun + 1 } }
  let m := if tag < 3072 then m.guestAnswer 0xF tag (guestErr 3) [] else m
  if g.malformedRun + 1 ≥ 16 then m.guestFault else m

/-- An address into the control blocks (R25, R451); tile memory has none. -/
def guestForbidden (pa : Nat) : Bool := cbBase 0 ≤ pa && pa < cbBase 25

/-- An access error told to the guest: 1 REGION_FAULT, 2 ADDRESS_ERROR (R453). -/
def Mod.guestError (m : Mod) (tag : Nat) (e : AccErr) (pa : Nat) : Mod :=
  (m.recordAccess 18 0x0800 m.guestSector e pa).guestAnswer 0xF tag (guestErr (if e = .addressError then 2 else 1)) []

/-- A streaming message of an admitted guest: one of an older generation is dropped (R387), a reserved bit or TAG is malformed, and
without a sector, or into the control blocks, it is a region fault; the CXL protocol takes no upstream request (R451, R454). While
the module holds, it waits. -/
def Mod.guestMessage (m : Mod) (tag : BitVec 12) (gen : BitVec 8) (sound : Bool) (pa : Nat) (f : Mod → Mod) : Mod :=
  if !m.part.guestSite || m.guest.st ≠ 5 || !m.working then m
  else if m.guest.protocol = 2 then m.emit (.answer 4 [tag.toNat])
  else if gen ≠ m.guest.gen then m
  else if !sound || tag.toNat ≥ 3072 then m.guestMalformed tag.toNat
  else if m.guestSector.isNone || guestForbidden pa then m.guestError tag.toNat .regionFault pa
  else f m

/-- A memory access of the guest, decoded at its router (R172): answered as soon as it is served at its homes (R203). -/
def Mod.guestRequest (m : Mod) (tag base n pa : Nat) (act : List Nat → TxnAct) : Mod :=
  match m.decodeN m.guestSector base n with
  | .error e => m.guestError tag e pa
  | .ok cells => m.leaveRouter .guest tag tag m.guestSector none 0 pa cells none (some (act cells))

/-- GUEST_READ: whole lines. -/
def execGuestRead (tag : BitVec 12) (gen : BitVec 8) (sound : Bool) (beats : BitVec 4) (pa : PAddr) (s : State) :
    Host.Outcome State Fault Refusal :=
  s.go (s.toMod.guestMessage tag gen sound pa.toNat (fun m =>
    m.guestRequest tag.toNat (pa.toNat / 128 * 128) (128 * (beats.toNat + 1)) pa.toNat (fun _ => .read beats.toNat)))

/-- GUEST_WRITE: beats, each with its enables, committed as R389 says; partial beats without a valid end marker stay until
BURST_DISCARD. -/
def execGuestWrite (tag : BitVec 12) (gen : BitVec 8) (sound : Bool) (pa : PAddr) (beats : List (BitVec 128 × List Byte)) (valid : Bool)
    (s : State) : Host.Outcome State Fault Refusal :=
  s.go (s.toMod.guestMessage tag gen (sound && 1 ≤ beats.length && beats.length ≤ 16) pa.toNat (fun m =>
    let base := pa.toNat / 128 * 128
    m.guestRequest tag.toNat base (128 * beats.length) pa.toNat (fun cells => .write ((List.range beats.length).map (fun i =>
      { line := cells.getD (128 * i) 0 / 128, entry := (m.entryAt base).map (·.1), pa := base + 128 * i, enables := (beats.getD i (0, [])).1,
        data := (beats.getD i (0, [])).2 })) valid)))

/-- The operation of an AOP: the order of R186's table. -/
def guestAtom (aop : Nat) : Option AtomOp :=
  [AtomOp.add, .addF32, .addBf16x2, .minS, .maxS, .minU, .maxU, .minF32, .maxF32, .swap, .cas][aop]?

/-- GUEST_ATOMIC: on 8 bytes or 4. -/
def execGuestAtomic (tag : BitVec 12) (gen : BitVec 8) (sound : Bool) (aop : BitVec 4) (wide : Bool) (pa : PAddr) (v c : Word) (s : State) :
    Host.Outcome State Fault Refusal :=
  let op := guestAtom aop.toNat
  let size := match op with
    | some o => if wide && !fourOnly o then 8 else 4
    | none => 4
  s.go (s.toMod.guestMessage tag gen (sound && op.isSome && pa.toNat % size == 0) pa.toNat (fun m =>
    match op with
    | none => m
    | some o =>
      m.guestRequest tag.toNat pa.toNat size pa.toNat (fun _ =>
        .atomic o size (v.toNat % 2 ^ (8 * size)) (c.toNat % 2 ^ (8 * size)))))

/-- GUEST_POST: a post of an increment to a token address (R59, R63). -/
def execGuestPost (tag : BitVec 12) (gen : BitVec 8) (sound : Bool) (target : BitVec 18) (incr : BitVec 16) (s : State) :
    Host.Outcome State Fault Refusal :=
  let reserved := target.getLsbD 16 && target.getLsbD 15
  s.go (s.toMod.guestMessage tag gen (sound && incr != 0 && !reserved) 0 (fun m => m.sendPost target incr.toNat m.guestSector))

end Sys2Proof.Machine
end

