-- ==== Sys2Proof/Machine/RegWrite.lean ====
section
/-!
DEFINITION. What a write to a control-block register does (R8, R10, R26, R27): the registers with behaviour of their own, beside the
registers of RegMap.
-/
namespace Sys2Proof.Machine
open Sys2Proof

/-! ## Who writes (R339, R402) -/

/-- The sector of a writer; none for the management function. -/
def Mod.writerSector (m : Mod) (w : RegWriter) : Option SectorId :=
  match w with
  | .sector s => some s
  | .firmware a => (m.pdCore a).owner
  | .mgmt _ => none

/-- An offset lies in a CSQ_ page, which its cluster's owner reaches as the register tables say: its read-only fields ignore what is written
(R8, R339). -/
def csqPage (site off : Nat) : Bool := (siteTd site).isSome && 0x100000 ≤ off && off < 0x180000

/-- A writer may write at an offset of a site's control block (R339, R404). -/
def Mod.mayWrite (m : Mod) (w : RegWriter) (site off : Nat) : Bool :=
  match w, m.writerSector w with
  | .mgmt _, _ => true
  | _, some s => m.grantAt s.val site off == 2 || (m.grantAt s.val site off == 1 && csqPage site off)
  | _, none => false

/-- A write that is ignored and recorded (R10, R27). -/
def Mod.writeIgnored (m : Mod) (w : RegWriter) (site off : Nat) : Mod := m.malformed site (cbBase site + off) 8 (m.writerSector w)

/-- A register without behaviour of its own: its RW bits take the value's; a read-only one ignores it (R8). Requests that waited on it go on
(R180). -/
def Mod.writePlain (m : Mod) (site off : Nat) (value : Word) : Mod :=
  match m.regDef site off with
  | some d =>
    let m := m.writeBits site off d d.direct value
    if waitedOn site off then m.resume else m
  | none => m

/-! ## Tensor dies (R89, R274) -/

/-- A core's page: the save area changes only outside a stop, a save or a restore (R89). R89 names no UNIT for the record of an ignored write: the
model writes the core within the die (DESIGN CHOICE, log entry 101). -/
def Mod.writeCore (m : Mod) (w : RegWriter) (id site off : Nat) (value : Word) : Mod :=
  if off % 0x10000 ≠ 0x20 then m
  else
    match (m.core id).st with
    | .stopping | .saving | .restoring =>
      m.record { site := site, cls := 0x01, sev := 1, unit := id % 64, code := 0, addr := cbBase site + off, detail := 8,
                 sector := m.writerSector w, injected := false }
    | .idle | .running | .waiting | .faulted | .fenced =>
      m.updCore id (fun c => { c with saveBase := BitVec.ofNat 40 (bits value 55 16), saveValid := bit value 63 })

/-- A bell page (R274). -/
def Mod.writeBell (m : Mod) (q : QRef) (o : Nat) (value : Word) : Mod :=
  match o with
  | 0 => m.bellSq q (BitVec.ofNat 32 (bits value 31 0))
  | 8 => m.bellRq q (BitVec.ofNat 32 (bits value 31 0))
  | _ => m

/-- A TD's own blocks. -/
def Mod.writeTd (m : Mod) (w : RegWriter) (t site off : Nat) (value : Word) : Mod :=
  if 0x1000000 ≤ off && off < 0x1400000 then m.writeCore w (64 * t + (off - 0x1000000) / 0x10000) site off value
  else if 0x10000000 ≤ off && off < 0x10400000 then
    m.writeBell (.csq (Fin.ofNat 16384 (1024 * t + (off - 0x10000000) / 0x1000))) (off % 0x1000) value
  else m.writePlain site off value

/-! ## Edge dies (R238, R265, R316) -/

/-- FAB_PORT_CTRL: its RW fields, ENABLE, RESET and RETRAIN (R238). -/
def Mod.writeFabCtrl (m : Mod) (p site off : Nat) (value : Word) : Mod :=
  let m := m.writePlain site off value
  let m := if bit value 0 then m.portEnable p else m.portDisable p
  let m := if bit value 16 then m.portReset p 1 else m
  if bit value 17 then m.startRetrain p else m

/-- EDG_PCIE_CTRL: in endpoint mode MGMT_FN_EN exposes function 0 (R316, R320). -/
def Mod.writePcieCtrl (m : Mod) (p site off : Nat) (value : Word) : Mod :=
  let m := m.writePlain site off value
  if (m.pciePort p).mode = 2 then m.setFn p 0 { m.fn p 0 with active := bit value 5 } else m

/-- EDG_CE_POST: a counter and its increment (R265). -/
def Mod.writeCePost (m : Mod) (e : Nat) (value : Word) : Mod := m.enginePost e (bits value 3 0) (bits value 31 16)

/-- An ED's own blocks. -/
def Mod.writeEd (m : Mod) (e site off : Nat) (value : Word) : Mod :=
  if 0x4000000 ≤ off && off < 0x4800000 && off % 0x100000 = 0 then
    m.writeFabCtrl (8 * e + (off - 0x4000000) / 0x100000) site off value
  else if 0x4800000 ≤ off && off < 0x4A00000 && off % 0x100000 = 0 then
    m.writePcieCtrl (2 * e + (off - 0x4800000) / 0x100000) site off value
  else if 0x6000000 ≤ off && off < 0x6100000 then
    if off % 0x10000 = 8 then m.writeCePost (16 * e + (off - 0x6000000) / 0x10000) value else m
  else m.writePlain site off value

/-! ## The Keeper die (R43, R44, R355, R379, R403, R404, R421, R438) -/

/-- The configuration fields of a management queue, which are RW while it is FREE (R403). -/
def Queue.configure (x : Queue) (o : Nat) (value : Word) : Queue :=
  match o with
  | 0x00 => { x with ringLog2 := bits value 4 0, replyLog2 := bits value 9 5, prioCap := bits value 13 10, admin := bit value 14,
                     host := bit value 15, checkSeq := bit value 16, inFlightMax := bits value 23 17, notifyEn := bit value 24 }
  | 0x08 => { x with ring := value &&& ones 63 12 }
  | 0x10 => { x with reply := value &&& ones 63 12 }
  | 0x30 => { x with notifyAddr := value &&& ones 63 2 }
  | 0x38 => { x with notifyData := BitVec.ofNat 32 (bits value 31 0), drainMs := bits value 47 32 }
  | _ => x

/-- KPR_MQ_BIND: of queues 9 to 63 only through a path of queues 0 to 8, and only while the queue is FREE (R404). -/
def Mod.writeBind (m : Mod) (w : RegWriter) (n : Fin 64) (off : Nat) (value : Word) : Mod :=
  if n.val ≤ 8 then m.writePlain kdSite off value
  else
    match w, (m.queue (.mq n)).st with
    | .mgmt port, .free =>
      let m := m.writePlain kdSite off value
      let kind := bits value 1 0
      { m with
        mqPath := Table.set 8 m.mqPath n.val port.val
        mqSector := Table.set none m.mqSector n.val (if kind = 3 && bits value 36 32 < 16 then some (Fin.ofNat 16 (bits value 36 32)) else none) }
    | _, _ => m.writeIgnored w kdSite off

/-- KPR_MQ_CTRL: one of its three bits (R421). -/
def Mod.writeMqCtrl (m : Mod) (n : Fin 64) (value : Word) : Mod :=
  match bits value 2 0 with
  | 0 => m
  | 1 => m.mqEnable n
  | 2 => m.mqDisable n
  | 4 => m.mqDestroy n
  | _ => m.mqIgnored n

/-- A management queue's registers (R403, R421). -/
def Mod.writeMq (m : Mod) (w : RegWriter) (n : Fin 64) (off : Nat) (value : Word) : Mod :=
  let o := off % 0x80
  match o with
  | 0x00 | 0x08 | 0x10 | 0x30 | 0x38 =>
    if (m.queue (.mq n)).st = .free then m.updQueue (.mq n) (fun x => x.configure o value) else m.writeIgnored w kdSite off
  | 0x40 => m.writeBind w n off value
  | 0x48 => m.writeMqCtrl n value
  | _ => m

/-- The beacon unit's registers (R43, R44). -/
def Mod.writeBcn (m : Mod) (o : Nat) (value : Word) : Mod :=
  match o with
  | 0 => m.beaconCtrl (bit value 0) (BitVec.ofNat 2 (bits value 2 1))
  | 8 => if bit value 3 then m.clearConflict else m
  | _ => m

/-- PWR_MOD_CTRL: its RW fields, and REQ (R379). -/
def Mod.writeModCtrl (m : Mod) (value : Word) : Mod :=
  let m := m.writePlain kdSite 0x60000 value
  match bits value 1 0 with
  | 1 => m.powerEvent .on
  | 2 => m.powerEvent .off
  | _ => m

/-- KPR_BOOT_STATUS: its W1C bits (R438). -/
def Mod.writeBootStatus (m : Mod) (value : Word) : Mod :=
  { m with boot := { m.boot with thermtripSeen := m.boot.thermtripSeen && !bit value 48
                                 undervoltSeen := m.boot.undervoltSeen && !bit value 49 } }

/-- KPR_BOOT_CTRL (R438). -/
def Mod.writeBootCtrl (m : Mod) (value : Word) : Mod :=
  match bits value 1 0 with
  | 1 => m.askRestart false 4
  | 2 => m.askRestart true 4
  | _ => m

/-- KPR_FW_CTRL: erase, verify and confirm, in that order (R421). -/
def Mod.writeFwCtrl (m : Mod) (value : Word) : Mod :=
  let m := if bit value 10 then m.eraseFlash (bits value 9 0) else m
  let m := if bit value 11 then m.verifySet else m
  if bit value 12 then m.confirmTrial else m

/-- KPR_HOST_CTRL (R332, R421). -/
def Mod.writeHostCtrl (m : Mod) (value : Word) : Mod :=
  match bits value 5 4 with
  | 1 => m.restartPds (bits value 3 0)
  | 2 => m.resetSector (bits value 3 0) 3
  | _ => m

/-- KPR_SESSION_BIND (R347); there is no sector above 15. -/
def Mod.writeSessionBind (m : Mod) (w : RegWriter) (off : Nat) (value : Word) : Mod :=
  if bits value 36 32 < 16 then m.bindSession (BitVec.ofNat 32 (bits value 31 0)) (Fin.ofNat 16 (bits value 36 32))
  else m.writeIgnored w kdSite off

/-- The Keeper die's own blocks. -/
def Mod.writeKd (m : Mod) (w : RegWriter) (off : Nat) (value : Word) : Mod :=
  if 0x80000 ≤ off && off < 0x82000 then m.writeMq w (Fin.ofNat 64 ((off - 0x80000) / 0x80)) off value
  else if 0x100000 ≤ off && off < 0x500000 then m.writeBell (.mq (Fin.ofNat 64 ((off - 0x100000) / 0x10000))) (off % 0x10000) value
  else if 0x40000 ≤ off && off < 0x50000 then m.writeBcn (off - 0x40000) value
  else
    match off with
    | 0x20 => m.writeBootStatus value
    | 0x28 => m.writeBootCtrl value
    | 0x30018 => m.svnCommit (bits value 3 0)
    | 0x60000 => m.writeModCtrl value
    | 0x84008 => m.writeFwCtrl value
    | 0x84010 => if bit value 2 then m.platformActivate else m
    | 0x84020 => m.writeHostCtrl value
    | 0x84028 => m.writeSessionBind w off value
    | _ => m.writePlain kdSite off value

/-! ## Every die (R182, R398, R456) -/

/-- The TND_ block of a die (R398). -/
def Mod.writeTnd (m : Mod) (site off : Nat) (value : Word) : Mod :=
  match off - 0x20000 with
  | 0x08 => m.ackErr site (bits value 6 0)
  | 0x28 => m.writeInject site value
  | _ => m.writePlain site off value

/-- MEM_CTL_STATE.LOSS, W1C, of the controller whose block an offset lies in; none elsewhere (R182). -/
def Mod.lossAt (m : Mod) (site off : Nat) : Option Nat :=
  if off % 0x100000 ≠ 0 || m.guestAt site then none
  else if 0x2000000 ≤ off && off < 0x2400000 then (siteMd site).map (fun md => 4 * md + (off - 0x2000000) / 0x100000)
  else if 0x2400000 ≤ off && off < 0x2800000 then (sitePd site).map (fun p => 80 + 4 * p + (off - 0x2400000) / 0x100000)
  else none

/-- SEC_GUEST_CTRL: its RW fields, and READMIT (R456). -/
def Mod.writeGuestCtrl (m : Mod) (value : Word) : Mod :=
  let m := m.writePlain 18 0x30008 value
  if bit value 2 then m.readmit else m

/-- A write of a register by a writer that may write it. -/
def Mod.writeRegister (m : Mod) (w : RegWriter) (site off : Nat) (value : Word) : Mod :=
  if 0x20000 ≤ off && off < 0x30000 then m.writeTnd site off value
  else if m.guestAt site then (if off = 0x30008 then m.writeGuestCtrl value else m.writePlain site off value)
  else
    match m.lossAt site off with
    | some k => if bit value 2 then m.setCtl k { m.ctl k with loss := false } else m
    | none =>
      match siteTd site, siteEd site with
      | some t, _ => m.writeTd w t site off value
      | none, some e => m.writeEd e site off value
      | none, none => if site = kdSite then m.writeKd w off value else m.writePlain site off value

/-! ## The windows and the ranges of other specifications (R10, R268, R310, R416) -/

/-- What stands at an offset of a site's control block. -/
inductive CbRange where
  | registers
  /-- The inactive boot flash, at an offset of its window. -/
  | flash (o : Nat)
  /-- The burst buffer of an ED, at an offset of its window. -/
  | burst (o : Nat)
  /-- An IMSIC file's page: of the M-level, or of the S-level and the guests; and the core of the PD. -/
  | imsic (machine : Bool) (core : Nat)
  /-- The APLIC's domains: the M-level, or the S-level. -/
  | aplic (machine : Bool)
  /-- The IOMMU instance of a port. -/
  | iommu (port : Nat)
  deriving DecidableEq, Repr

/-- The range of an offset (R26, R310). -/
def Mod.cbRange (m : Mod) (site off : Nat) : CbRange :=
  if m.guestAt site then .registers
  else if 0x8000000 ≤ off && off < 0xC000000 && site == kdSite then .flash (off - 0x8000000)
  else if 0x8000000 ≤ off && off < 0xC000000 && (siteEd site).isSome then .burst (off - 0x8000000)
  else if (sitePd site).isSome then
    if 0x7000000 ≤ off && off < 0x7008000 then .aplic (off < 0x7004000)
    else if 0x7100000 ≤ off && off < 0x7160000 then .imsic true ((off - 0x7100000) / 0x1000)
    else if 0x7200000 ≤ off && off < 0x7800000 then .imsic false ((off - 0x7200000) / 0x10000)
    else if 0x7800000 ≤ off && off < 0x7880000 && pdSite (tier2Home m.part.guestSite ((off - 0x7800000) / 0x10000)) == site then
      .iommu ((off - 0x7800000) / 0x10000)
    else .registers
  else .registers

/-- A write into a burst buffer's window: its first 16 MiB ignore writes, an access outside a sector's area is a region fault
(R268). -/
def Mod.writeBurst (m : Mod) (w : RegWriter) (site o : Nat) (data : List Byte) : Mod :=
  let pa := cbBase site + 0x8000000 + o
  match m.writePhys (m.writerSector w) pa data with
  | .ok m => m
  | .error e => m.recordAccess site 0x0800 (m.writerSector w) e pa

/-- A PD's AIA and IOMMU pages are open to the management function; to a core's owner its S-level IMSIC page, to a port's owner its
IOMMU page, to platform firmware the M-level pages of its own PD (R310, R339). -/
def Mod.aiaOpen (m : Mod) (w : RegWriter) (site : Nat) (r : CbRange) : Bool :=
  let own := fun (o : Option SectorId) => o.isSome && o == m.writerSector w
  let machine := match w with
    | .firmware a => pdSite (a.val / 96) == site
    | .mgmt _ => true
    | .sector _ => false
  match w, r with
  | .mgmt _, _ => true
  | _, .imsic true _ => machine
  | _, .imsic false c => own (m.pdCore (96 * (sitePd site).getD 0 + c)).owner
  | _, .aplic b => b && machine
  | _, .iommu p => own (m.requesterSector (.pcie (Fin.ofNat 8 p)))
  | _, _ => false

/-- The APLIC domain that an offset of a PD's control block lies in (R310). -/
def aplicDomain (site off : Nat) : Nat := 2 * (sitePd site).getD 0 + (off - 0x7000000) / 0x4000

/-- A write into a control block: of a register, or into a window (R10, R27). -/
def Mod.writeBlock (m : Mod) (w : RegWriter) (site off size : Nat) (value : Word) : Mod :=
  let bad := m.malformed site (cbBase site + off) size (m.writerSector w)
  let range := m.cbRange site off
  let sized := (size = 4 || size = 8) && off % size = 0 && m.aiaOpen w site range
  match range with
  | .registers =>
    if size = 8 && off % 8 = 0 && m.mayWrite w site off && (m.readReg none site off).isSome then m.writeRegister w site off value else bad
  | .flash o =>
    (match w with
     | .mgmt _ => m.writeFlash o ((wordBytes value).take size)
     | .sector _ | .firmware _ => bad)
  | .burst o => m.writeBurst w site o ((wordBytes value).take size)
  | .imsic machine _ =>
    if !sized then bad
    else if machine || off % 0x10000 < 0x8000 then
      m.sendMsi (cbBase site + off) (bits value 31 0)
    else m
  | .aplic _ =>
    if sized then
      let m := m.writeAplic (aplicDomain site off) (off % 0x4000) (bits value 31 0)
      if size = 8 then m.writeAplic (aplicDomain site off) (off % 0x4000 + 4) (bits value 63 32) else m
    else bad
  | .iommu p =>
    if sized then
      m.writeIommu p (off % 0x10000) (if size = 8 then ones 63 0 else if off % 8 = 4 then ones 63 32 else ones 31 0)
        (if off % 8 = 4 then value <<< 32 else value)
    else bad

/-- REGISTER_WRITE. -/
def execRegisterWrite (w : RegWriter) (site : Site) (off : BitVec 32) (size : Nat) (value : Word) (s : State) :
    Host.Outcome State Fault Refusal := s.go (s.toMod.writeBlock w site off.toNat size value)

end Sys2Proof.Machine
end

