-- ==== Sys2Proof/Machine/HostAccess.lean ====
section
/-!
DEFINITION. What hosts and adapters ask of the module through its PCIe/CXL ports, and what the module asks of them through apertures
(R188, R312, R316 to R328, R402).
-/
namespace Sys2Proof.Machine
open Sys2Proof

/-! ## Reads of a control block (R10, R26, R27) -/

/-- A read in a control block: a register, or bytes of a window; what is not readable returns zeros and is recorded. -/
def Mod.readBlock (m : Mod) (w : RegWriter) (site off n : Nat) : Mod × List Byte :=
  let zeros := List.replicate n (0 : Byte)
  let bad := (m.malformed site (cbBase site + off) n (m.writerSector w), zeros)
  let range := m.cbRange site off
  let sized := (n = 4 || n = 8) && off % n = 0 && m.aiaOpen w site range
  match range with
  | .registers =>
    if n = 8 && off % 8 = 0 then
      match m.viewReg (match w with | .mgmt _ => none | _ => (m.writerSector w).map Fin.val) site off with
      | some v => (m, wordBytes v)
      | none => bad
    else bad
  | .flash o => (match w with
    | .mgmt _ => (m, (m.fw.flash (!m.fw.booted)).readN o n)
    | .sector _ | .firmware _ => bad)
  | .burst _ =>
    let pa := cbBase site + off
    match m.readPhys (m.writerSector w) pa n with
    | .ok bs => (m, bs)
    | .error e => (m.recordAccess site 0x0800 (m.writerSector w) e pa, zeros)
  | .imsic _ _ => if sized then (m, zeros) else bad
  | .aplic _ =>
    if sized then (m, bytesOf 4 (m.readAplic (aplicDomain site off) (off % 0x4000)) ++
      (if n = 8 then bytesOf 4 (m.readAplic (aplicDomain site off) (off % 0x4000 + 4)) else []))
    else bad
  | .iommu p => if sized then (m, ((wordBytes (m.readIommu p (off % 0x10000))).drop (off % 8)).take n) else bad

/-! ## MSI-X tables (R320, R321, R402) -/

/-- A word of a function's MSI-X table: an address, or data and the mask bit. -/
def Fn.msixWord (f : Fn) (i : Nat) : Word :=
  let w := Table.get 0 f.msixTable i
  if i % 2 = 0 then w else if f.unmasked.contains (i / 2) then w else w ||| ones 32 32

/-- A word of a function's pending bits. -/
def Fn.pbaWord (f : Fn) (i : Nat) : Word :=
  BitVec.ofNat 64 ((List.range 64).foldl (fun a k => if f.pendingVec.contains (64 * i + k) then a + 2 ^ k else a) 0)

/-- A word of a function's MSI-X table written under a mask; a vector unmasked sends what is pending (R323). -/
def Mod.writeMsix (m : Mod) (port fn i : Nat) (mask value : Word) : Mod :=
  let f := m.fn port fn
  let new := maskedWrite (f.msixWord i) mask value
  let m := m.setFn port fn { f with msixTable := Table.set 0 f.msixTable i (if i % 2 = 0 then new else new &&& ones 31 0) }
  if i % 2 = 0 then m
  else if bit new 32 then
    m.setFn port fn { m.fn port fn with unmasked := (m.fn port fn).unmasked.erase (i / 2) }
  else if f.unmasked.contains (i / 2) then m
  else m.unmask port fn (i / 2)

/-- The mask and value of an aligned access of 4 or 8 bytes within its word. -/
def laneOf (off n : Nat) (data : List Byte) : Word × Word :=
  let v := BitVec.ofNat 64 (numOf data)
  if n = 8 then (ones 63 0, v) else if off % 8 = 4 then (ones 63 32, v <<< 32) else (ones 31 0, v)

/-- The bytes of an aligned access of 4 or 8 bytes of a word. -/
def laneBytes (off n : Nat) (w : Word) : List Byte := ((wordBytes w).drop (off % 8)).take n

/-! ## BAR0 of a sector's function (R321, R322, R328) -/

/-- A function register (R322). -/
def Mod.readFunc (m : Mod) (port s o : Nat) : Option Word :=
  let f := m.fn port (1 + s)
  let x := m.sector s
  match o with
  | 0x00 =>
    some (pack [(0, 4, s), (4, 1, flag f.ready), (5, 1, flag ((m.queue (.csq (Fin.ofNat 16384 x.firstQueue))).st == .enabled)),
                (6, 1, flag f.withdrawn), (8, 8, f.gen.toNat), (16, 14, x.firstQueue)])
  | 0x08 => some (f.adminCfg ||| ones 15 14)
  | 0x10 => some f.adminRing
  | 0x18 => some f.adminReply
  | 0x20 => some f.adminMisc
  | 0x28 => some 0
  | _ => none

/-- A function register written (R322). -/
def Mod.writeFunc (m : Mod) (port s o : Nat) (value : Word) : Mod :=
  let f := m.fn port (1 + s)
  match o with
  | 0x08 => m.setFn port (1 + s) { f with adminCfg := value &&& (ones 13 0 ||| ones 24 16) }
  | 0x10 => m.setFn port (1 + s) { f with adminRing := value &&& ones 63 12 }
  | 0x18 => m.setFn port (1 + s) { f with adminReply := value &&& ones 63 12 }
  | 0x20 => m.setFn port (1 + s) { f with adminMisc := value &&& (ones 10 0 ||| ones 47 32) }
  | 0x28 =>
    let m := if bit value 0 then m.adminEnable s else m
    if bit value 1 then m.adminDisable s else m
  | _ => m

/-- A word of a queue's held-reply page (R328). -/
def Mod.heldWord (m : Mod) (q : Fin 16384) (o : Nat) : Word :=
  let x := m.queue (.csq q)
  if o = 0 then pack [(0, 7, x.held.length), (8, 8, x.heldGen.toNat)]
  else if o < 0x20 then 0
  else
    match x.held[o / 32 - 1]? with
    | some r => wordAt (r.entry q.val x.replyLog2 (x.replyPi + BitVec.ofNat 32 (o / 32 - 1))) (o / 8 % 4)
    | none => 0

/-- A word that a read of BAR0 returns; none where the target is foreign or nothing stands there (R321). -/
def Mod.readBar0 (m : Mod) (port s off : Nat) : Option Word :=
  let own := fun (c : Nat) => ownedBy (m.cluster c).sector s
  if off < 0x4000000 then
    (if own (off / 0x80000) then (m.queue (.csq (Fin.ofNat 16384 (off / 0x1000)))).bells (off % 0x1000) else none)
  else if off < 0x4800000 then (if own ((off - 0x4000000) / 0x10000) then m.readCsq ((off - 0x4000000) / 0x10000) (off % 0x10000) else none)
  else if off < 0x4810000 then m.readFunc port s (off - 0x4800000)
  else if off < 0x4818000 then some ((m.fn port (1 + s)).msixWord ((off - 0x4810000) / 8))
  else if off < 0x4818100 then some ((m.fn port (1 + s)).pbaWord ((off - 0x4818000) / 8))
  else if 0x4900000 ≤ off && off < 0x4920000 then
    (let n := (off - 0x4900000) / 0x20
     if (m.region n).sector = s && (m.region n).valid then some (m.regionWord (some s) n (off / 8 % 4)) else none)
  else if 0x8000000 ≤ off && off < 0xC000000 then
    (let q := (off - 0x8000000) / 0x1000
     if own (q / 128) then some (m.heldWord (Fin.ofNat 16384 q) (off % 0x1000)) else none)
  else none

/-- An offset of BAR0 follows PCIe's access rule, not R10's: the MSI-X table and its pending bits. -/
def bar0Msix (off : Nat) : Bool := 0x4810000 ≤ off && off < 0x4818100

/-- The die that an offset of BAR0 addresses, and the physical address it stands for, 0 where no control block holds it (R27, R274,
R296, R321): a bell page or a view of a cluster's TD, a held-reply page's TD, the region table at the port's router, else the port's
own ED. -/
def bar0Target (port off : Nat) : Nat × Nat :=
  if off < 0x4000000 then
    let c := off / 0x80000
    (clusterSite c, cbBase (clusterSite c) + 0x10000000 + c % 8 * 0x80000 + off % 0x80000)
  else if off < 0x4800000 then
    let c := (off - 0x4000000) / 0x10000
    (clusterSite c, cbBase (clusterSite c) + 0x100000 + c % 8 * 0x10000 + off % 0x10000)
  else if 0x4900000 ≤ off && off < 0x4920000 then
    (edSite (port / 2), cbBase (edSite (port / 2)) + 0x3120000 + (off - 0x4900000))
  else if 0x8000000 ≤ off && off < 0xC000000 then (clusterSite ((off - 0x8000000) / 0x80000), 0)
  else (edSite (port / 2), 0)

/-- An access of BAR0 that does nothing and is recorded on the die it addresses (R27, R321). -/
def Mod.bar0Ignored (m : Mod) (port s off n : Nat) : Mod :=
  m.malformed (bar0Target port off).1 (bar0Target port off).2 n (some (Fin.ofNat 16 s))

/-- A host reads BAR0 of a sector's function. -/
def Mod.hostRead (m : Mod) (port s off n : Nat) : Mod × List Byte :=
  let bad := (m.bar0Ignored port s off n, List.replicate n (0 : Byte))
  if (n = 8 || n = 4 && bar0Msix off) && off % n = 0 then
    match m.readBar0 port s (off / 8 * 8) with
    | some w => (m, laneBytes off n w)
    | none => bad
  else bad

/-- A host writes BAR0 of a sector's function: bells, function registers, the MSI-X table; the views ignore writes. -/
def Mod.hostWrite (m : Mod) (port s off : Nat) (data : List Byte) : Mod :=
  let n := data.length
  let bad := m.bar0Ignored port s off n
  if !((n = 8 || n = 4 && bar0Msix off) && off % n = 0) || (m.readBar0 port s (off / 8 * 8)).isNone then bad
  else
    let value := BitVec.ofNat 64 (numOf data)
    if off < 0x4000000 then m.writeBell (.csq (Fin.ofNat 16384 (off / 0x1000))) (off % 0x1000) value
    else if 0x4800000 ≤ off && off < 0x4810000 then m.writeFunc port s (off - 0x4800000) value
    else if 0x4810000 ≤ off && off < 0x4818000 then
      m.writeMsix port (1 + s) ((off - 0x4810000) / 8) (laneOf off n data).1 (laneOf off n data).2
    else m

/-! ## The management function's BARs (R402) -/

/-- BAR2 of the management function: 64 vectors' table at 0, their pending bits at 0x8000. -/
def Mod.mgmtBar2 (m : Mod) (port : Nat) (off n : Nat) (write : Option (List Byte)) : Mod × List Byte :=
  let zeros := List.replicate n (0 : Byte)
  if !((n = 4 || n = 8) && off % n = 0) then (m, zeros)
  else
    match write with
    | some data =>
      (if off < 1024 then m.writeMsix port 0 (off / 8) (laneOf off n data).1 (laneOf off n data).2 else m, [])
    | none =>
      let f := m.fn port 0
      (m, if off < 1024 then laneBytes off n (f.msixWord (off / 8))
          else if 0x8000 ≤ off && off < 0x8008 then laneBytes off n (f.pbaWord 0) else zeros)

/-- BAR0 of the management function: the control blocks, linearly; from 100 GiB up it reads 0 and ignores writes. -/
def Mod.mgmtBar0 (m : Mod) (port : Fin 9) (off n : Nat) (write : Option (List Byte)) : Mod × List Byte :=
  let site := off / 2 ^ 32
  if site ≥ 25 then (m, match write with | some _ => [] | none => List.replicate n (0 : Byte))
  else
    match write with
    | none => m.readBlock (.mgmt port) site (off % 2 ^ 32) n
    | some data =>
      match m.cbRange site (off % 2 ^ 32) with
      | .flash o => (m.writeFlash o data, [])
      | .burst o => (m.writeBurst (.mgmt port) site o data, [])
      | _ => (m.writeBlock (.mgmt port) site (off % 2 ^ 32) data.length (BitVec.ofNat 64 (numOf data)), [])

/-! ## Moorings (R188) -/

/-- The mooring that a request matches. -/
def Mod.mooringFor (m : Mod) (port rid addr : Nat) : Option (Nat × Mooring) :=
  m.moorings.find? (fun p =>
    let e := p.2
    e.valid && e.port == port && (rid ^^^ bits e.w0 47 32) &&& bits e.w0 63 48 == 0 && e.bus ≤ addr && addr < e.bus + e.size)

/-- A request through a mooring: crossing the end of its window, or without the permission it needs, or into an aperture, it is
unsupported; otherwise it is decoded for the entry's sector, its hint with it (R188, R326). -/
def Mod.throughMooring (m : Mod) (p : PcieId) (e : Nat × Mooring) (addr tag n : Nat) (write : Option (List Byte)) : Mod :=
  let x := e.2
  let pa := x.phys + (addr - x.bus)
  let refused := m.emit (.completion p tag 1 [])
  if addr + n > x.bus + x.size || !(if write.isSome then bit x.w0 5 else bit x.w0 4) then refused
  else if (List.range 8).any (fun q => m.inAperture q pa (pa + n)) then refused
  else
    m.request (.pcie p) (some (Fin.ofNat 16 x.sector)) (some e.1) (if bit x.w0 6 then bits x.w0 31 16 else 0) (some tag) pa n write none

/-- The length of a request: what it writes, or what it reads. -/
def reqLen (n : Nat) (write : Option (List Byte)) : Nat :=
  match write with
  | some bs => bs.length
  | none => n

/-! ## Requests of hosts (R320, R321, R324, R402) -/

/-- A memory request of a function that takes it. -/
def Mod.inBar (m : Mod) (port : Fin 9) (rid : Nat) (t : BarTarget) (tag n : Nat) (write : Option (List Byte)) : Mod :=
  let unsupported := m.emit (.completion port.val tag 1 [])
  let done := fun (r : Mod × List Byte) => r.1.emit (.completion port.val tag 0 (if write.isSome then [] else r.2))
  match t with
  | .none => unsupported
  | .bar0 fn off =>
    if fn.val = 0 then (if off.toNat < 2 ^ 37 then done (m.mgmtBar0 port off.toNat n write) else unsupported)
    else if off.toNat ≥ 2 ^ 28 then unsupported
    else
      match write with
      | none => done (m.hostRead port.val (fn.val - 1) off.toNat n)
      | some data => done (m.hostWrite port.val (fn.val - 1) off.toNat data, [])
  | .bar2 fn addr =>
    if fn.val = 0 then (if addr.toNat < 65536 then done (m.mgmtBar2 port.val addr.toNat n write) else unsupported)
    else if !m.working then m
    else if !((m.fn port fn).bar2.toNat ≤ addr.toNat && addr.toNat < (m.fn port fn).bar2.toNat + 2 ^ (m.fn port fn).bar2Log2) then unsupported
    else if h : port.val < 8 then
      match m.mooringFor port.val rid addr.toNat with
      | some e => m.throughMooring ⟨port.val, h⟩ e addr.toNat tag n write
      | none => unsupported
    else unsupported

/-- The function of a target takes memory requests: ACTIVE, with memory space enabled, and in no reset. -/
def Mod.barOpen (m : Mod) (port : Nat) (t : BarTarget) : Bool :=
  let f := match t with
    | .bar0 fn _ => m.fn port fn.val
    | .bar2 fn _ => m.fn port fn.val
    | .none => Fn.reset
  f.active && f.mse && !f.resetting

/-- INBOUND_ENDPOINT_REQUEST: through an endpoint port, or the management endpoint (8), which has function 0 alone. -/
def execInboundEndpointRequest (port : Fin 9) (rid : BitVec 16) (t : BarTarget) (tag : BitVec 14) (n : Fin 4097)
    (write : Option (List Byte)) (s : State) : Host.Outcome State Fault Refusal :=
  let m := s.toMod
  let x := m.pciePort port
  s.go (if if port.val < 8 then x.mode ≠ 2 || !x.linkUp else m.boot.noMgmt then m
    else if (port.val < 8 && !m.portTakes port) || !m.barOpen port t then m.emit (.completion port.val tag.toNat 1 [])
    else m.inBar port rid.toNat t tag.toNat (reqLen n.val write) write)

/-- A word of a function's configuration header that the spec gives (R320): its IDs, its class, its enables, and a
sector function's two 64-bit BARs in their standard form (log entry 120). -/
def Mod.configWord (m : Mod) (port fn off : Nat) : Option Nat :=
  let f := m.fn port fn
  let dev := if fn = 0 then 0x725F else 0x7250
  match off with
  | 0x00 => some (dev * 65536 + 0x1F2B)
  | 0x04 => some (2 * flag f.mse + 4 * flag f.bme)
  | 0x08 => some ((if fn = 0 then 0x088000 else 0x120000) * 256)
  | 0x10 => if fn = 0 then none else some (bits f.bar0 31 28 * 2 ^ 28 + 4)
  | 0x14 => if fn = 0 then none else some (bits f.bar0 63 32)
  | 0x18 => if fn = 0 then none else some (bits f.bar2 31 30 * 2 ^ 30 + 12)
  | 0x1C => if fn = 0 then none else some (bits f.bar2 63 32)
  | 0x2C => some (dev * 65536 + 0x1F2B)
  | _ => none

/-- A word of a function's BAR0 or BAR2 written: of BAR0, 256 MiB, and of BAR2, 2^BAR2_LOG2 bytes, the bits above the size hold (R320). -/
def Fn.setBar (f : Fn) (i : Fin 4) (v : BitVec 32) : Fn :=
  let put := fun (old : Word) => if i.val % 2 = 0 then pack [(0, 32, v.toNat), (32, 32, bits old 63 32)] else pack [(0, 32, bits old 31 0), (32, 32, v.toNat)]
  if i.val < 2 then { f with bar0 := put f.bar0 &&& ones 63 28 } else { f with bar2 := put f.bar2 &&& ones 63 f.bar2Log2 }

/-- What a configuration request does; the bytes of the header that the spec does not give are free values. -/
def Mod.config (m : Mod) (port fn tag : Nat) (a : CfgAccess) : Mod :=
  match a with
  | .read off =>
    (match m.configWord port fn (off.toNat / 4 * 4) with
     | some w => m.emit (.completion port tag 0 (bytesOf 4 w))
     | none => m.takeFree.2.emit (.completion port tag 0 (bytesOf 4 (m.takeFree.1.toNat % 2 ^ 32))))
  | .command mse bme =>
    let m := m.setFn port fn { m.fn port fn with mse := mse }
    (if bme = (m.fn port fn).bme then m else if bme then m.bmeSet port fn else m.bmeClear port fn).emit (.completion port tag 0 [])
  | .msix enable => (m.setFn port fn { m.fn port fn with msixEnable := enable }).emit (.completion port tag 0 [])
  | .bar i v => (m.setFn port fn ((m.fn port fn).setBar i v)).emit (.completion port tag 0 [])

/-- CONFIG_REQUEST: to a function that is present; during its reset it is retried (status 4). -/
def execConfigRequest (port : Fin 9) (fn : Fin 17) (tag : BitVec 14) (a : CfgAccess) (s : State) : Host.Outcome State Fault Refusal :=
  let m := s.toMod
  let x := m.pciePort port
  let f := m.fn port fn
  s.go (if if port.val < 8 then x.mode ≠ 2 || !x.linkUp else m.boot.noMgmt then m
    else if (fn.val = 0 && !f.active) || (fn.val ≠ 0 && port.val = 8) then m.emit (.completion port.val tag.toNat 1 [])
    else if f.resetting then m.emit (.completion port.val tag.toNat 4 [])
    else m.config port fn tag.toNat a)

/-- The operation a home performs for an AtomicOp (R324). -/
def pcieAtomOp : PcieAtomic → AtomOp
  | .fetchAdd => .add | .swap => .swap | .cas => .cas

/-- An AtomicOp through a mooring, answered with the old value as soon as its home has performed it (R185, R203). On an endpoint port the
mooring stands in BAR2 of its sector's function, which must take memory requests (R324, R327); none goes into an aperture (R326). -/
def Mod.atomicThrough (m : Mod) (p : PcieId) (n : Nat) (x : Mooring) (addr tag : Nat) (op : AtomOp) (size v c : Nat) : Mod :=
  let pa := x.phys + (addr - x.bus)
  let sector : Option SectorId := some (Fin.ofNat 16 x.sector)
  let f := m.fn p (1 + x.sector)
  if addr + size > x.bus + x.size || !(bit x.w0 4 && bit x.w0 5) || (List.range 8).any (fun q => m.inAperture q pa (pa + size)) ||
      ((m.pciePort p).mode = 2 && !(f.active && f.mse && !f.resetting)) then m.emit (.completion p tag 1 [])
  else
    m.request (.pcie p) sector (some n) 0 (some tag) pa size none (some (.atomic op size (v % 2 ^ (8 * size)) (c % 2 ^ (8 * size))))

/-- ATOMICOP: of 4 or 8 aligned bytes, through a mooring with READ and WRITE; anything else is unsupported. -/
def execAtomicop (p : PcieId) (rid : BitVec 16) (addr : Word) (tag : BitVec 14) (op : PcieAtomic) (size : Nat) (v c : Word) (s : State) :
    Host.Outcome State Fault Refusal :=
  let m := s.toMod
  let x := m.pciePort p
  s.go (if !x.linkUp || !(x.mode = 1 || x.mode = 2) || !m.working then m
    else if !m.portTakes p || !(size = 4 || size = 8) || addr.toNat % size ≠ 0 then m.emit (.completion p tag.toNat 1 [])
    else
      match m.mooringFor p rid.toNat addr.toNat with
      | some e => m.atomicThrough p e.1 e.2 addr.toNat tag.toNat (pcieAtomOp op) size v.toNat c.toNat
      | none => m.emit (.completion p tag.toNat 1 []))

/-! ## Requests of adapters (R312, R325, R326) -/

/-- The core of an IMSIC S-level or guest file's page that an address lies in. -/
def imsicCore (pa : Nat) : Option Nat :=
  let site := (pa - cbBase 0) / 2 ^ 32
  let off := (pa - cbBase 0) % 2 ^ 32
  match sitePd site with
  | some pd =>
    if cbBase 0 ≤ pa && 0x7200000 ≤ off && off < 0x7800000 && off % 0x10000 < 0x8000 then some (96 * pd + (off - 0x7200000) / 0x10000)
    else none
  | none => none

/-- A translated request: an MSI to an IMSIC file of the port's OWNER is delivered; any other control-block address, and any aperture,
is unsupported; the rest is decoded for OWNER, and lies in no region of a port that no sector owns (R325). -/
def Mod.translated (m : Mod) (p : PcieId) (pa tag n : Nat) (write : Option (List Byte)) : Mod :=
  let owner := m.requesterSector (.pcie p)
  let unsupported := m.emit (.completion p tag 1 [])
  if cbBase 0 ≤ pa && pa < cbBase 25 then
    match imsicCore pa, write with
    | some c, some data =>
      if owner.isSome && (m.pdCore c).owner = owner && data.length = 4 && !m.guestAt (pdSite (c / 96)) then
        (m.sendMsi pa (numOf data)).emit (.completion p tag 0 [])
      else unsupported
    | _, _ => unsupported
  else if (List.range 8).any (fun q => m.inAperture q pa (pa + n)) then unsupported
  else if owner.isNone then
    (m.recordAccess (requesterUnit (.pcie p)).1 (requesterUnit (.pcie p)).2 none .regionFault pa).tellError (.pcie p) tag .regionFault pa
  else m.request (.pcie p) owner none 0 (some tag) pa n write none

/-- INBOUND_ADAPTER_REQUEST: a mooring translates it, or the port's IOTLB, or it waits for a walk. PCIe's requests do not cross a
4 KiB boundary. -/
def execInboundAdapterRequest (p : PcieId) (rid : BitVec 16) (addr : Word) (tag : BitVec 14) (n : Fin 4097) (write : Option (List Byte))
    (s : State) : Host.Outcome State Fault Refusal :=
  let m := s.toMod
  let x := m.pciePort p
  let len := reqLen n.val write
  let unsupported := m.emit (.completion p tag.toNat 1 [])
  s.go (if x.mode ≠ 1 || !x.linkUp || !m.working then m
    else if !m.portTakes p then unsupported
    else
      match m.mooringFor p rid.toNat addr.toNat with
      | some e => m.throughMooring p e addr.toNat tag.toNat len write
      | none =>
        if addr.toNat % 4096 + len > 4096 then unsupported
        else
          match m.iotlb.find? (fun t => t.port == p && t.rid == rid.toNat && t.page == addr.toNat / 4096) with
          | some t =>
            if write.isSome && !t.write then unsupported else m.translated p (t.phys * 4096 + addr.toNat % 4096) tag.toNat len write
          | none =>
            { m with adapterWait := m.adapterWait ++
                [{ port := p, rid := rid.toNat, addr := addr.toNat, n := len, write := write, tag := tag.toNat }] })

/-- A waiting request meets the walk's result; one that faults is unsupported and reported in the fault queue (R311, R312). -/
def Mod.walked (m : Mod) (a : AdapterReq) (result : Option (Nat × Bool)) : Mod :=
  let fault := (m.emit (.completion a.port a.tag 1 [])).raiseSource
    (pdSite (tier2Home m.part.guestSite a.port)) (8 + 4 * a.port.val + 1)
  match result with
  | some (phys, write) =>
    if a.write.isSome && !write then fault else m.translated a.port (phys * 4096 + a.addr % 4096) a.tag a.n a.write
  | none => fault

/-- IOTLB_MISS_WALK: the walk of a page that a request waits for ends with its translation and whether it may be written, or with a
fault. The IOTLB of a port holds 2,048 translations; that its oldest one leaves a full IOTLB is the model's choice (log entry 112). -/
def execIotlbMissWalk (p : PcieId) (rid : BitVec 16) (page : BitVec 52) (result : Option (BitVec 44 × Bool)) (s : State) :
    Host.Outcome State Fault Refusal :=
  let m := s.toMod
  let mine := fun (a : AdapterReq) => a.port == p && a.rid == rid.toNat && a.addr / 4096 == page.toNat
  let r := result.map (fun x => (x.1.toNat, x.2))
  s.go (if !m.adapterWait.any mine || !m.working then m
    else
      let todo := m.adapterWait.filter mine
      let m : Mod := { m with adapterWait := m.adapterWait.filter (fun a => !mine a) }
      let m : Mod := match r with
        | some (phys, write) =>
          let kept := if (m.iotlb.filter (fun t => t.port == p)).length ≥ 2048 then m.iotlb.eraseP (fun t => t.port == p) else m.iotlb
          { m with iotlb := kept ++ [{ port := p, rid := rid.toNat, page := page.toNat, phys := phys, write := write }] }
        | none => m
      todo.foldl (fun (m : Mod) (a : AdapterReq) => m.walked a r) m)

/-! ## Requests through apertures (R318, R327) -/

/-- A request leaves through a port's aperture. One for the root port's own registers is served by it, with contents that the spec does not
give (log entry 120). A memory write is posted; a read and a configuration request wait for their completion, and
for a tag while every tag of the port is taken (R314). -/
def Mod.leaveBy (m : Mod) (r : Requester) (port pa n : Nat) (write : Option (List Byte)) : Mod :=
  let b := m.outAt port pa
  let fn := m.outFn port pa
  if rootPort b then
    (match write with
     | some _ => m
     | none => m.takeFree.2.emit (.served pa (bytesOf n m.takeFree.1.toNat)))
  else if write.isSome && b.1 = 1 then m.emit (.aperture port fn b.1 b.2 0 n write)
  else
    let u : Upstream := { port := port, tag := none, fn := fn, gen := (m.fn port fn).gen, req := r, pa := pa, n := n, write := write,
                          flush := none, entry := (m.entryAt pa).map (·.1) }
    match m.upstreamTag port with
    | some tag => m.sendUpstream u tag
    | none => { m with upstream := m.upstream ++ [u] }

/-- APERTURE_REQUEST: decoded as any request of its requester; an address in no aperture is no such request. -/
def execApertureRequest (r : Requester) (pa : PAddr) (n : Fin 4097) (write : Option (List Byte)) (s : State) :
    Host.Outcome State Fault Refusal :=
  let m := s.toMod
  let len := reqLen n.val write
  let sector := m.requesterSector r
  s.go (if !m.mayIssue r then m
    else
      match (List.range 8).find? (fun q => m.inAperture q pa.toNat (pa.toNat + 1)) with
      | none => m
      | some port =>
        match m.decodeN sector pa.toNat len with
        | .error e => (m.recordAccess (requesterUnit r).1 (requesterUnit r).2 sector e pa.toNat).tellError r 0 e pa.toNat
        | .ok cells =>
          match cells with
          | [] => m
          | _ :: _ => m.leaveBy r port pa.toNat len write)

/-- A zero-length read has completed: its command may be replied, its notification goes out; reads that waited for a tag of the port
follow (R289). -/
def Mod.flushed (m : Mod) (what : FlushFor) : Mod :=
  let m := match what with
    | .cmd p => m.flushEnd p
    | .notify q => m.notifyFlushed q
  (m.packetsWhere (fun f => (match f.work with | .flushing _ _ _ => true | _ => false) && !f.ports.isEmpty)).foldl
    (fun (m : Mod) (p : PktRef) => m.flushEnd p) m

/-- PCIE_COMPLETION: one of an older generation is discarded; an unsuccessful one is an address error (R24, R318, R327). A zero-length
read is over with its completion, whatever that says (log entry 105). -/
def execPcieCompletion (p : PcieId) (tag : BitVec 14) (success : Bool) (data : List Byte) (s : State) :
    Host.Outcome State Fault Refusal :=
  let m := s.toMod
  s.go (match m.upstream.find? (fun u => u.port == p.val && u.tag == some tag.toNat) with
    | none => m
    | some u =>
      let m : Mod := (({ m with upstream := m.upstream.erase u } : Mod).settleDrains).sendWaiting p
      match u.flush with
      | some what => m.flushed what
      | none =>
        if u.fn ≠ 0 && (m.fn u.port u.fn).gen ≠ u.gen then m
        else if success then m.emit (.served u.pa (data.take u.n))
        else
          (m.recordAccess (requesterUnit u.req).1 (requesterUnit u.req).2 (m.requesterSector u.req) .addressError u.pa).tellError u.req 0
            .addressError u.pa)

end Sys2Proof.Machine
end

