-- ==== Sys2Proof/Machine/MoveBlocks.lean ====
section
/-!
DEFINITION. The blocks of moves (R78, R294, R295): their bytes read and written, in memory, in tile memory and in registers; how lists go
on; and what a memory request of a core does in a control block (R10, R27).
-/
namespace Sys2Proof.Machine
open Sys2Proof

/-! ## Accesses of control blocks (R10, R27, R265) -/

/-- The parts of a move's positions that lie in control blocks: each a run of bytes of one row within an aligned 8 bytes, as the index of
its first byte among the positions, its address and its length. A whole one is an access of a register. -/
def blockUnits (rowBytes : Nat) (l : List (Nat × Nat)) : List (Nat × Nat × Nat) :=
  (l.zipIdx.foldl (fun (us : List (Nat × Nat × Nat × Nat)) (x : (Nat × Nat) × Nat) =>
    let pos := x.1.1
    let a := x.1.2
    if !inBlocks a then us
    else
      match us with
      | (i, a0, n, row) :: rest =>
        if i + n = x.2 && row = pos / rowBytes && a0 / 8 = a / 8 then (i, a0, n + 1, row) :: rest else (x.2, a, 1, pos / rowBytes) :: us
      | [] => [(x.2, a, 1, pos / rowBytes)]) []).reverse.map (fun u => (u.1, u.2.1, u.2.2.1))

/-- The bytes of parts in control blocks, read as their registers answer a sector, put among a move's bytes. -/
def Mod.readUnits (m : Mod) (sector : SectorId) : List (Nat × Nat × Nat) → List Byte → Mod × List Byte
  | [], bs => (m, bs)
  | (i, a, n) :: rest, bs =>
    let r := m.readBlock (.sector sector) ((a - cbBase 0) / 2 ^ 32) ((a - cbBase 0) % 2 ^ 32) n
    Mod.readUnits r.1 sector rest (bs.take i ++ r.2 ++ bs.drop (i + n))

/-- Parts in control blocks written for a sector: registers take aligned 8 bytes, EDG_CE_POST among them (R265). -/
def Mod.writeUnits (m : Mod) (sector : SectorId) (bs : List Byte) : List (Nat × Nat × Nat) → Mod
  | [] => m
  | (i, a, n) :: rest =>
    let v := BitVec.ofNat 64 (numOf ((bs.drop i).take n))
    Mod.writeUnits (m.writeBlock (.sector sector) ((a - cbBase 0) / 2 ^ 32) ((a - cbBase 0) % 2 ^ 32) n v) sector bs rest

/-- A read or write of an address in a control block by a core or a sector's unit, answered at once (log entry 102). -/
def Mod.blockRequest (m : Mod) (w : RegWriter) (pa n : Nat) (write : Option (List Byte)) : Mod :=
  let site := (pa - cbBase 0) / 2 ^ 32
  let off := (pa - cbBase 0) % 2 ^ 32
  match write with
  | some bs => (m.writeBlock w site off bs.length (BitVec.ofNat 64 (numOf bs))).emit (.served pa [])
  | none =>
    let r := m.readBlock w site off n
    r.1.emit (.served pa r.2)

/-- Who a requester is to a register (R339): its sector; a PD core of none runs platform firmware, and a Keeper core acts for the
management function. -/
def Mod.requesterWriter (m : Mod) (r : Requester) : RegWriter :=
  match m.requesterSector r, r with
  | some s, _ => .sector s
  | none, .pd a => if h : a.val < 384 then .firmware ⟨a.val, h⟩ else .mgmt 8
  | none, _ => .mgmt 8

/-- MEM_REQUEST: a read of n bytes, or a write; with no free tag the requester waits (R169). An adapter's or host's of a control block is none that
a register takes, and is recorded there (R10, R27, R325). -/
def execMemRequest (r : Requester) (pa : PAddr) (n : Fin 4097) (write : Option (List Byte)) (s : State) :
    Host.Outcome State Fault Refusal :=
  let m := s.toMod
  let len := match write with | some bs => bs.length | none => n
  let unit := match r with | .pd _ | .kd | .core _ | .engine _ => true | .pcie _ | .guest => false
  s.go (if unit && inBlocks pa.toNat then (if m.mayIssue r then m.blockRequest (m.requesterWriter r) pa.toNat len write else m)
    else (if m.mayIssue r then m.noteBlock (m.requesterSector r) pa.toNat len else m).request r (m.requesterSector r) none 0 none pa.toNat len write none)

/-! ## One block (R78) -/

/-- The bytes of a block read (R77, R206): at their homes, in a tile memory, or in registers. A block whose lines are not to be had yet, or
whose sector's buckets hold too little, waits (R180, R203). -/
def Mod.moveRead (m : Mod) (cluster : Nat) (sector : Option SectorId) (d : Desc) (k : Nat) : Except (Mod × MoveErr) (Mod × List Byte) :=
  let is := blockPositions d k
  if d.op = 1 then .ok (m, is.map (fun i => BitVec.ofNat 8 (d.pattern.toNat / 256 ^ (i % 8))))
  else
    let as := is.map (rowAddr d.src d.srcStride d.rowBytes)
    if d.srcSpace = 0 then
      match m.cellsOf sector 0 as with
      | .error e => .error (m, e)
      | .ok cells =>
        match m.passNow sector (m.prioAt (as.headD 0)) false cells with
        | none => .error (m, .wait)
        | some m =>
        let m := m.channelRead (linesOf cells)
        match (as.zip cells).find? (fun p => m.poisoned (p.2 / 128)) with
        | some p => .error (m, .access .poison 0 p.1)
        | none =>
          let bs := cells.map m.homeByte
          .ok (match sector with | some s => m.readUnits s (blockUnits d.rowBytes (is.zip as)) bs | none => (m, bs))
    else .ok (m, as.map (m.core (cluster * 8 + (d.srcSpace - 8))).tile.read)

/-- The bytes of a block written (R77, R78), and the ports that carried them, each with the last address (R289). -/
def Mod.moveWrite (m : Mod) (cluster : Nat) (sector : Option SectorId) (d : Desc) (k : Nat) (bs : List Byte) :
    Except (Mod × MoveErr) (Mod × List (Nat × Nat)) :=
  let is := blockPositions d k
  let as := is.map (rowAddr d.dst d.dstStride d.rowBytes)
  if d.dstSpace = 0 then
    match m.cellsOf sector 1 as with
    | .error e => .error (m, e)
    | .ok cells =>
      match m.passNow sector 0 true cells with
      | none => .error (m, .wait)
      | some m =>
      let m := m.writeHinted cells bs (if d.hint then d.hintTarget else 0)
      let m := match sector with | some s => m.writeUnits s bs (blockUnits d.rowBytes (is.zip as)) | none => m
      .ok (m, portWrites (as.zip cells))
  else
    let id := cluster * 8 + (d.dstSpace - 8)
    if m.coreFenced id then .error (m, .fenced)
    else .ok (m.updCore id (fun c => { c with tile := putTile c.tile (as.zip bs) }), [])

/-! ## Descriptors of a list (R78) -/

/-- The blocks of a descriptor that are not complete, read and held: its reads have all issued. -/
def Mod.holdBlocks (m : Mod) (cluster : Nat) (sector : Option SectorId) (start : Nat) (p : MovePart) :
    List Nat → Except (Mod × MoveErr) (Mod × MovePart)
  | [] => .ok (m, p)
  | k :: rest =>
    if p.done.contains k || p.base + k < start || p.read.any (fun x => x.1 == k) then Mod.holdBlocks m cluster sector start p rest
    else
      match m.moveRead cluster sector (Desc.ofWords p.desc) k with
      | .error e => .error e
      | .ok (m, bs) => Mod.holdBlocks m cluster sector start { p with read := p.read ++ [(k, bs)] } rest

/-- The reads of every descriptor that has started have issued. -/
def Mod.holdParts (m : Mod) (cluster : Nat) (sector : Option SectorId) (start : Nat) :
    List MovePart → Except (Mod × MoveErr × Nat) (Mod × List MovePart)
  | [] => .ok (m, [])
  | p :: rest =>
    match m.holdBlocks cluster sector start p (List.range p.blocks) with
    | .error e => .error (e.1, e.2, p.index)
    | .ok (m, p) =>
      match Mod.holdParts m cluster sector start rest with
      | .error e => .error e
      | .ok (m, ps) => .ok (m, p :: ps)

/-- A list's next descriptor starts; or why it faults, with its index. Where it has ORDER it waits for those before it, and nothing
happens. -/
def Mod.openPart (m : Mod) (cluster : Nat) (sector : Option SectorId) (start : Nat) (j : MoveJob) :
    Except (Mod × MoveErr × Nat) (Mod × MoveJob) :=
  match j.next with
  | none => .ok (m, j)
  | some (addr, i, base) =>
    if i ≥ 65536 then .error (m, .format, i)
    else
      match m.readDesc sector addr with
      | (m, .error e) => .error (m, e, i)
      | (m, .ok ws) =>
        if (Desc.ofWords ws).order && !j.parts.isEmpty then .ok (m, j)
        else
          match listFault ws base with
          | some e => .error (m, e, i)
          | none =>
            match m.holdParts cluster sector start j.parts with
            | .error e => .error e
            | .ok (m, ps) => .ok (m, { j with parts := ps ++ [MovePart.first ws i base], next := listNext ws addr i base,
                                               total := base + (Desc.ofWords ws).blocks })

/-- The list's next descriptor starts where a block named lies beyond those that have started. -/
def Mod.reach (m : Mod) (cluster : Nat) (sector : Option SectorId) (start block : Nat) (j : MoveJob) :
    Except (Mod × MoveErr × Nat) (Mod × MoveJob) :=
  match j.next with
  | some (_, _, base) => if base ≤ block then m.openPart cluster sector start j else .ok (m, j)
  | none => .ok (m, j)

/-- The descriptor that has started and holds a block that is not complete. -/
def MoveJob.partOf (j : MoveJob) (block : Nat) : Option MovePart :=
  j.parts.find? (fun p => p.base ≤ block && block < p.base + p.blocks && !p.done.contains (block - p.base))

/-- A block of a move, counted across its list: the module and the move after it, and the ports that carried it. A block that no descriptor
under way holds is none, and only a descriptor starts. -/
def Mod.jobBlock (m : Mod) (cluster : Nat) (sector : Option SectorId) (start block : Nat) (j : MoveJob) :
    Except (Mod × MoveErr × Nat) (Mod × MoveJob × List (Nat × Nat)) :=
  match m.reach cluster sector start block j with
  | .error e => .error e
  | .ok (m, j) =>
    match j.partOf block with
    | none => .ok (m, j, [])
    | some p =>
      let k := block - p.base
      let d := Desc.ofWords p.desc
      let held := p.read.find? (fun x => x.1 == k)
      match (match held with | some x => .ok (m, x.2) | none => m.moveRead cluster sector d k : Except (Mod × MoveErr) (Mod × List Byte)) with
      | .error e => .error (e.1, e.2, p.index)
      | .ok (m, bs) =>
        match m.moveWrite cluster sector d k bs with
        | .error e => .error (e.1, e.2, p.index)
        | .ok (m, ports) =>
          let p' := { p with done := k :: p.done, read := p.read.filter (fun x => x.1 != k) }
          .ok (m, { j with parts := j.parts.map (fun x => if x.index = p.index then p' else x) }, ports)

/-- Posts of the descriptors that are complete: of those with a block at or above START_BLOCK (R295). -/
def Mod.postParts (m : Mod) (sector : Option SectorId) (start : Nat) (ps : List MovePart) : Mod :=
  ps.foldl (fun (m : Mod) (p : MovePart) =>
    let d := Desc.ofWords p.desc
    if d.post && start < p.base + d.blocks then m.sendPost d.target d.incr sector else m) m

/-- The descriptors that are complete leave a move; a list with none under way starts its next. Whether the move is over. -/
def Mod.jobDone (m : Mod) (cluster : Nat) (sector : Option SectorId) (start : Nat) (j : MoveJob) :
    Except (Mod × MoveErr × Nat) (Mod × MoveJob × Bool) :=
  let m := m.postParts sector start (j.parts.filter (fun p => p.finished start))
  let j := { j with parts := j.parts.filter (fun p => !p.finished start) }
  if !j.parts.isEmpty then .ok (m, j, false)
  else
    match j.next with
    | none => .ok (m, j, true)
    | some _ =>
      match m.openPart cluster sector start j with
      | .error e => .error e
      | .ok (m, j) => .ok (m, j, false)

/-! ## Moves of cores and of commands -/

/-- A core's move replaced. -/
def TCore.setMove (c : TCore) (j : MoveJob) : TCore := { c with moves := c.moves.map (fun x => if x.serial = j.serial then j else x) }

/-- A move of a core whose mover works. -/
def Mod.coreMove (m : Mod) (id : CoreId) (n : Nat) : Option MoveJob :=
  let c := m.core id
  if c.engines && m.moversRun then c.moves.find? (fun j => j.serial == n) else none

/-- A block of a core's move is not the next of its launch's order: with ORDERED_VISIBLE a core's moves become visible in the order in which the
kernel queued them, and each in its own (R286). -/
def Mod.launchHolds (m : Mod) (c : TCore) (j : MoveJob) (block : Nat) : Bool :=
  match c.launch.bind m.flight with
  | some f => pktOrdered f.words && (c.moves.head?.any (fun x => x.serial != j.serial) || block != leadingBlocks j 0)
  | none => false

/-- A block of a core's move is complete. -/
def Mod.coreBlock (m : Mod) (id : CoreId) (n block : Nat) : Mod :=
  let c := m.core id
  match m.coreMove id n with
  | none => m
  | some j =>
    if m.launchHolds c j block then m else
    match m.jobBlock (id.val / 8) c.sector 0 block j with
    | .error e => if e.2.1 = .wait then m else e.1.moveFault id j.pc e.2.1
    | .ok (m, j, ports) =>
      let m := m.updCore id (fun c => c.setMove j)
      match c.launch with
      | some p => m.noteWrites p ports
      | none => m

/-- Descriptors of a core's move are complete: they post; a list goes on with its next descriptor, or ends (R78). -/
def Mod.coreMoveDone (m : Mod) (id : CoreId) (n : Nat) : Mod :=
  let c := m.core id
  match m.coreMove id n with
  | none => m
  | some j =>
    match m.jobDone (id.val / 8) c.sector 0 j with
    | .error e => if e.2.1 = .wait then m else e.1.moveFault id j.pc e.2.1
    | .ok (m, j, isOver) =>
      if isOver then
        let m := match j.listPost with
          | some t => m.sendPost (BitVec.ofNat 18 t) 1 c.sector
          | none => m
        (m.updCore id (fun c => { c with moves := c.moves.filter (fun x => x.serial != n) })).settleCore id
      else m.updCore id (fun c => c.setMove j)

/-- The move of a command that runs, with its START_BLOCK. -/
def Mod.cmdMove (m : Mod) (p : PktRef) : Option (Flight × MoveJob × Nat) :=
  match m.flight p with
  | none => none
  | some f =>
    match f.work with
    | .move j start => if f.stage = .running && m.moversRun then some (f, j, start) else none
    | _ => none

/-- A block of a command is complete; with ORDERED_VISIBLE, only the next one in the command's order can be (R286). -/
def Mod.cmdBlock (m : Mod) (p : PktRef) (block : Nat) : Mod :=
  match m.cmdMove p with
  | none => m
  | some (f, j, start) =>
    if block < start || (pktOrdered f.words && block != leadingBlocks j start) then m
    else
      match m.jobBlock (queueNum p.q / 128) (m.queueSector p.q) start block j with
      | .error e => if e.2.1 = .wait then m else e.1.cmdMoveFail p e.2.1 e.2.2 (leadingBlocks j start)
      | .ok (m, j, ports) =>
        (m.updFlight p (fun f => { f with work := .move j start, progress := leadingBlocks j start })).noteWrites p ports

/-- A command's descriptors are complete: they post if one of their blocks ran; a list goes on, or the command is replied (R78,
R288, R295, R305). -/
def Mod.cmdMoveDone (m : Mod) (p : PktRef) : Mod :=
  match m.cmdMove p with
  | none => m
  | some (_, j, start) =>
    let sector := m.queueSector p.q
    match m.jobDone (queueNum p.q / 128) sector start j with
    | .error e =>
      if e.2.1 = .wait then m else e.1.cmdMoveFail p e.2.1 e.2.2 (leadingBlocks j start)
    | .ok (m, j, isOver) =>
      let m := m.updFlight p (fun f => { f with work := .move j start, progress := leadingBlocks j start })
      if isOver then m.endCmd p 0 0 j.total else m

/-- MOVE_BLOCK_DONE: a block is complete with its writes visible (R78). -/
def execMoveBlockDone (mover : MoveRef) (block : Nat) (s : State) : Host.Outcome State Fault Refusal :=
  s.go (match mover with
    | .core c n => s.toMod.coreBlock c n block
    | .cmd p => s.toMod.cmdBlock p block)

/-- MOVE_COMPLETE: every write of the move or descriptor is visible (R78). -/
def execMoveComplete (mover : MoveRef) (s : State) : Host.Outcome State Fault Refusal :=
  s.go (match mover with
    | .core c n => s.toMod.coreMoveDone c n
    | .cmd p => s.toMod.cmdMoveDone p)

end Sys2Proof.Machine
end

