-- ==== Sys2Proof/Machine/Requests.lean ====
section
/-!
DEFINITION. Requests of non-caching agents at the homes (R185, R206), and write bursts (R389); a fenced unit issues none (R384, R390).
-/
namespace Sys2Proof.Machine
open Sys2Proof

/-! ## Non-caching agents (R185, R206) -/

/-- A non-caching agent's access of a control block: a read or a write of a register is answered there; an atomic operation is none that a
register takes (R10, R27). -/
def Mod.ncBlock (m : Mod) (r : Requester) (pa n : Nat) (req : HomeReq) : Mod :=
  match req with
  | .ncRead _ _ => m.blockRequest (m.requesterWriter r) pa n none
  | .write _ data _ => m.blockRequest (m.requesterWriter r) pa n (some data)
  | _ => m.noteBlock (m.requesterSector r) pa n

/-- A non-caching agent's request for bytes of one line, decoded at its router; a fenced unit issues none (R384). -/
def Mod.ncRequest (m : Mod) (r : Requester) (pa n : Nat) (req : HomeReq) : Mod :=
  let sector := m.requesterSector r
  if pa % 128 + n > 128 || n = 0 || !m.mayIssue r then m
  else if inBlocks pa then m.ncBlock r pa n req
  else
    match m.decodeN sector pa n with
    | .error e => m.ncFail r sector e pa
    | .ok [] => m
    | .ok (c :: _) => m.homeRequest { line := c / 128, pa := pa, sector := sector, entry := (m.entryAt pa).map (·.1), req := req }

/-- NONCACHING_READ. -/
def execNoncachingRead (r : Requester) (pa : PAddr) (n : Fin 129) (s : State) : Host.Outcome State Fault Refusal :=
  s.go (s.toMod.ncRequest r pa.toNat n (.ncRead r n))

/-- FULL_LINE_WRITE: of 128 bytes to an aligned line. -/
def execFullLineWrite (r : Requester) (pa : PAddr) (data : List Byte) (hint : BitVec 16) (s : State) :
    Host.Outcome State Fault Refusal :=
  let m := s.toMod
  s.go (if data.length = 128 then m.ncRequest r pa.toNat 128 (.write r data hint.toNat) else m)

/-- PARTIAL_WRITE: of fewer bytes than a line's. -/
def execPartialWrite (r : Requester) (pa : PAddr) (data : List Byte) (hint : BitVec 16) (s : State) :
    Host.Outcome State Fault Refusal :=
  let m := s.toMod
  s.go (if data.length < 128 then m.ncRequest r pa.toNat data.length (.write r data hint.toNat) else m)

/-- HOME_ATOMIC: a misaligned target is refused before issue (R186). -/
def execHomeAtomic (r : Requester) (op : AtomOp) (wide : Bool) (pa : PAddr) (v c : Word) (s : State) :
    Host.Outcome State Fault Refusal :=
  let m := s.toMod
  let size := if wide && !fourOnly op then 8 else 4
  s.go (if pa.toNat % size ≠ 0 then m
    else m.ncRequest r pa.toNat size (.atomic r op size (v.toNat % 2 ^ (8 * size)) (c.toNat % 2 ^ (8 * size))))

/-- REDUCE_INTO: of an aligned line. -/
def execReduceInto (r : Requester) (op : RedOp) (wide : Bool) (pa : PAddr) (data : List Byte) (s : State) :
    Host.Outcome State Fault Refusal :=
  let m := s.toMod
  s.go (if data.length = 128 then m.ncRequest r pa.toNat 128 (.reduce r op wide data) else m)

/-! ## Write bursts (R389) -/

/-- A beat decoded at its requester's router (R172): an address that does not decode is recorded and told, and one in a control block is no
access of a register (R10). -/
def Mod.beatAt (m : Mod) (r : Requester) (pa : Nat) (enables : BitVec 128) (data : List Byte) : Except Mod BurstBeat :=
  if inBlocks (pa / 128 * 128) then .error (m.noteBlock (m.requesterSector r) (pa / 128 * 128) 128)
  else
  match m.decodeN (m.requesterSector r) (pa / 128 * 128) 128 with
  | .error e => .error (m.ncFail r (m.requesterSector r) e pa)
  | .ok cells => .ok { line := cells.headD 0 / 128, entry := (m.entryAt pa).map (·.1), pa := pa, enables := enables, data := data }

/-- A beat reaches its home. -/
def Mod.sendBeat (m : Mod) (r : Requester) (sector : Option SectorId) (b : BurstBeat) : Mod :=
  m.homeRequest { line := b.line, pa := b.pa, sector := sector, entry := b.entry,
                  req := if b.enables = BitVec.allOnes 128 then .write r b.data 0 else .beat r b.enables b.data }

/-- A requester's open burst. -/
def Mod.burst (m : Mod) (r : Requester) (id : Nat) : Option Burst := m.bursts.find? (fun b => b.req == r && b.id == id)

/-- BURST_BEAT: a beat with every byte enabled commits; another waits for the end marker. The router of a fenced unit issues no beats (R390). -/
def execBurstBeat (r : Requester) (burst : Nat) (pa : PAddr) (enables : BitVec 128) (data : List Byte) (s : State) :
    Host.Outcome State Fault Refusal :=
  let m := s.toMod
  let sector := m.requesterSector r
  s.go (if !m.mayIssue r then m else
    match m.beatAt r pa.toNat enables data with
    | .error m => m
    | .ok beat =>
      if enables = BitVec.allOnes 128 then m.sendBeat r sector { beat with pa := pa.toNat / 128 * 128 }
      else
        match m.burst r burst with
        | some _ => { m with bursts := m.bursts.map (fun b => if b.req == r && b.id == burst then { b with beats := b.beats ++ [beat] } else b) }
        | none => { m with bursts := m.bursts ++ [{ req := r, id := burst, sector := sector, beats := [beat] }] })

/-- BURST_END_MARKER: a valid marker commits the burst's partial beats. -/
def execBurstEndMarker (r : Requester) (burst : Nat) (valid : Bool) (s : State) : Host.Outcome State Fault Refusal :=
  let m := s.toMod
  s.go (match m.burst r burst with
    | none => m
    | some b =>
      if valid && m.mayIssue r then (b.beats.foldl (fun (m : Mod) (x : BurstBeat) => m.sendBeat r b.sector x) { m with bursts := m.bursts.erase b }).settleDrains
      else m)

/-- BURST_DISCARD: recorded at the home of the first beat that waits (R397). -/
def execBurstDiscard (r : Requester) (burst : Nat) (s : State) : Host.Outcome State Fault Refusal :=
  let m := s.toMod
  s.go (match m.burst r burst with
    | none => m
    | some b =>
      let pa := (b.beats.head?.map (·.pa)).getD 0
      let site := match b.beats.head? with
        | some x => mdSite (m.homeOf x.line)
        | none => kdSite
      (({ m with bursts := m.bursts.erase b } : Mod).settleDrains).record
        { site := site, cls := 0x12, sev := 1, unit := 0x0300, code := 0, addr := pa, detail := 0, sector := b.sector, 
          injected := false })

end Sys2Proof.Machine
end

