-- ==== Sys2Proof/Machine/Scalar.lean ====
section
/-!
DEFINITION. The scalar control class (R69, R72). Each instruction is issued by a core that runs a kernel; on a core that
does not issue, nothing happens.
-/
namespace Sys2Proof.Machine
open Sys2Proof

/-- IMM, sign-extended (R72). -/
def immWord (imm : BitVec 32) : Word := imm.signExtend 64

/-- s[D] takes a value computed from the registers. -/
def Mod.scalar (m : Mod) (id : CoreId) (i : Instr) (d : Reg) (v : TCore → Word) : Mod := m.issue id i (fun c => c.setReg d (v c))

/-- NOP: no effect but the next instruction. -/
def execNop (core : CoreId) (s : State) : Host.Outcome State Fault Refusal := s.go (s.toMod.issue core (.nop core) (fun c => c))

/-- END: the kernel ends once everything issued before is complete (R69). -/
def execEndKernel (core : CoreId) (s : State) : Host.Outcome State Fault Refusal :=
  let m := s.toMod
  let c := m.core core
  s.go (if m.fetches core (.endKernel core) then (if c.outstanding then m.setCore core { c with endWait := true } else m.finishKernel core) else m)

/-- LI: s[D] = IMM. -/
def execLi (core : CoreId) (d : Reg) (imm : BitVec 32) (s : State) : Host.Outcome State Fault Refusal :=
  s.go (s.toMod.scalar core (.li core d imm) d (fun _ => immWord imm))

/-- LIH: the upper half takes IMM, the lower half stays. -/
def execLih (core : CoreId) (d : Reg) (imm : BitVec 32) (s : State) : Host.Outcome State Fault Refusal :=
  s.go (s.toMod.scalar core (.lih core d imm) d (fun c => imm ++ (c.reg d).extractLsb' 0 32))

/-- ADD. -/
def execAdd (core : CoreId) (d a b : Reg) (s : State) : Host.Outcome State Fault Refusal :=
  s.go (s.toMod.scalar core (.add core d a b) d (fun c => c.reg a + c.reg b))

/-- SUB. -/
def execSub (core : CoreId) (d a b : Reg) (s : State) : Host.Outcome State Fault Refusal :=
  s.go (s.toMod.scalar core (.sub core d a b) d (fun c => c.reg a - c.reg b))

/-- MUL: the low 64 bits. -/
def execMul (core : CoreId) (d a b : Reg) (s : State) : Host.Outcome State Fault Refusal :=
  s.go (s.toMod.scalar core (.mul core d a b) d (fun c => c.reg a * c.reg b))

/-- AND. -/
def execAnd (core : CoreId) (d a b : Reg) (s : State) : Host.Outcome State Fault Refusal :=
  s.go (s.toMod.scalar core (.and core d a b) d (fun c => c.reg a &&& c.reg b))

/-- OR. -/
def execOr (core : CoreId) (d a b : Reg) (s : State) : Host.Outcome State Fault Refusal :=
  s.go (s.toMod.scalar core (.or core d a b) d (fun c => c.reg a ||| c.reg b))

/-- XOR. -/
def execXor (core : CoreId) (d a b : Reg) (s : State) : Host.Outcome State Fault Refusal :=
  s.go (s.toMod.scalar core (.xor core d a b) d (fun c => c.reg a ^^^ c.reg b))

/-- The shift count s[B][5:0] (R72). -/
def shiftCount (w : Word) : Nat := w.toNat % 64

/-- SHL. -/
def execShl (core : CoreId) (d a b : Reg) (s : State) : Host.Outcome State Fault Refusal :=
  s.go (s.toMod.scalar core (.shl core d a b) d (fun c => c.reg a <<< shiftCount (c.reg b)))

/-- SHR: logical. -/
def execShr (core : CoreId) (d a b : Reg) (s : State) : Host.Outcome State Fault Refusal :=
  s.go (s.toMod.scalar core (.shr core d a b) d (fun c => c.reg a >>> shiftCount (c.reg b)))

/-- SRA: arithmetic. -/
def execSra (core : CoreId) (d a b : Reg) (s : State) : Host.Outcome State Fault Refusal :=
  s.go (s.toMod.scalar core (.sra core d a b) d (fun c => (c.reg a).sshiftRight (shiftCount (c.reg b))))

/-- ADDI. -/
def execAddi (core : CoreId) (d a : Reg) (imm : BitVec 32) (s : State) : Host.Outcome State Fault Refusal :=
  s.go (s.toMod.scalar core (.addi core d a imm) d (fun c => c.reg a + immWord imm))

/-- BEQ. -/
def execBeq (core : CoreId) (a b : Reg) (imm : BitVec 32) (s : State) : Host.Outcome State Fault Refusal :=
  s.go (s.toMod.branch core (.beq core a b imm) imm (fun c => c) (fun c => c.reg a == c.reg b))

/-- BNE. -/
def execBne (core : CoreId) (a b : Reg) (imm : BitVec 32) (s : State) : Host.Outcome State Fault Refusal :=
  s.go (s.toMod.branch core (.bne core a b imm) imm (fun c => c) (fun c => c.reg a != c.reg b))

/-- BLT: signed. -/
def execBlt (core : CoreId) (a b : Reg) (imm : BitVec 32) (s : State) : Host.Outcome State Fault Refusal :=
  s.go (s.toMod.branch core (.blt core a b imm) imm (fun c => c) (fun c => (c.reg a).slt (c.reg b)))

/-- BLTU: unsigned. -/
def execBltu (core : CoreId) (a b : Reg) (imm : BitVec 32) (s : State) : Host.Outcome State Fault Refusal :=
  s.go (s.toMod.branch core (.bltu core a b imm) imm (fun c => c) (fun c => (c.reg a).ult (c.reg b)))

/-- JMP. -/
def execJmp (core : CoreId) (imm : BitVec 32) (s : State) : Host.Outcome State Fault Refusal :=
  s.go (s.toMod.branch core (.jmp core imm) imm (fun c => c) (fun _ => true))

/-- LOOP: the result of s[D] − 1 decides, though a write of s0 is lost (R68, R72). -/
def execLoop (core : CoreId) (d : Reg) (imm : BitVec 32) (s : State) : Host.Outcome State Fault Refusal :=
  s.go (s.toMod.branch core (.loop core d imm) imm (fun c => c.setReg d (c.reg d - 1)) (fun c => c.reg d - 1 != 0))

/-- The tile address of LDS and STS: the full 64-bit sum, 8-byte aligned and no higher than 0x3F_FFF8 (R72). -/
def ldsAddr (c : TCore) (a : Reg) (imm : BitVec 32) : Option Nat :=
  let t := (c.reg a + immWord imm).toNat
  if t % 8 = 0 ∧ t ≤ 0x3FFFF8 then some t else none

/-- LDS: 8 bytes of tile memory, or the fault TILE_RANGE with s[D] unchanged; it waits for an earlier engine instruction that writes there
(R75). -/
def execLds (core : CoreId) (d a : Reg) (imm : BitVec 32) (s : State) : Host.Outcome State Fault Refusal :=
  let m := s.toMod
  let c := m.core core
  s.go (if m.fetches core (.lds core d a imm) && c.clear (tileTouch (match ldsAddr c a imm with | some t => plainSpan t 8 false | none => [])) then
    match ldsAddr c a imm with
    | some t => m.retire core (c.setReg d (BitVec.ofNat 64 (c.tile.readNum t 8))) (c.pc + 1)
    | none => m.coreFault core 0x03 0 c.pc
  else m)

/-- STS: 8 bytes of tile memory written, or the fault TILE_RANGE with nothing written; it waits for an earlier engine instruction that
reads or writes there (R75). -/
def execSts (core : CoreId) (a b : Reg) (imm : BitVec 32) (s : State) : Host.Outcome State Fault Refusal :=
  let m := s.toMod
  let c := m.core core
  s.go (if m.fetches core (.sts core a b imm) && c.clear (tileTouch (match ldsAddr c a imm with | some t => plainSpan t 8 true | none => [])) then
    match ldsAddr c a imm with
    | some t => m.retire core { c with tile := c.tile.writeNum t 8 (c.reg b).toNat } (c.pc + 1)
    | none => m.coreFault core 0x03 0 c.pc
  else m)

/-- RDBT: the module's beacon time. -/
def execRdbt (core : CoreId) (d : Reg) (s : State) : Host.Outcome State Fault Refusal :=
  s.go (s.toMod.scalar core (.rdbt core d) d (fun _ => s.beacon.bt))

/-- FENCE: passes at once when nothing is outstanding; otherwise issue stalls until it passes. -/
def execFence (core : CoreId) (s : State) : Host.Outcome State Fault Refusal :=
  let m := s.toMod
  let c := m.core core
  s.go (if m.fetches core (.fence core) then
    (if c.outstanding then m.setCore core { c with fenceWait := true } else m.retire core c (c.pc + 1))
  else m)

/-- TRAP: the kernel faults with code TRAP and TRAP_VALUE IMM[7:0]. -/
def execTrap (core : CoreId) (imm : BitVec 32) (s : State) : Host.Outcome State Fault Refusal :=
  let m := s.toMod
  let c := m.core core
  s.go (if m.fetches core (.trap core imm) then m.coreFault core 0x06 (imm.toNat % 256) c.pc else m)

end Sys2Proof.Machine
end

