-- ==== Sys2Proof/Machine/Token.lean ====
section
/-!
DEFINITION. The token class and the posts that arrive (R58 to R64, R73).
-/
namespace Sys2Proof.Machine
open Sys2Proof

/-- The two token terms of a TWAIT: naming one counter with both counts nonzero, they act as one term of the sum (R60). -/
def twaitToken (t : TwaitArgs) : List (Nat × Nat) :=
  if t.tokA = t.tokB ∧ t.cntA ≠ 0 ∧ t.cntB ≠ 0 then [(t.tokA.val, t.cntA.toNat + t.cntB.toNat)]
  else [(t.tokA.val, t.cntA.toNat), (t.tokB.val, t.cntB.toNat)]

/-- Every named counter of the running bank holds at least its count (R60). -/
def TCore.twaitPasses (c : TCore) (t : TwaitArgs) : Bool :=
  (twaitToken t).all (fun p => p.2 ≤ c.token c.bank p.1) && decide (t.cntC.toNat ≤ c.credit c.bank t.crd.val)

/-- Every count is subtracted from its counter at once (R60). -/
def TCore.twaitConsume (c : TCore) (t : TwaitArgs) : TCore :=
  let tokens := (twaitToken t).foldl (fun tk p =>
    Table.set 0 tk (flag c.bank * 64 + p.1) (Table.get 0 tk (flag c.bank * 64 + p.1) - p.2)) c.tokens
  let k := flag c.bank * 32 + t.crd.val
  { c with tokens := tokens, credits := Table.set 0 c.credits k (Table.get 0 c.credits k - t.cntC.toNat) }

/-- TWAIT: passes at once when its terms are met; otherwise the core stalls in WAITING (R60, R88). -/
def execTwait (core : CoreId) (t : TwaitArgs) (s : State) : Host.Outcome State Fault Refusal :=
  let m := s.toMod
  let c := m.core core
  s.go (if m.fetches core (.twait core t) then
    (if c.twaitPasses t then m.retire core (c.twaitConsume t) (c.pc + 1)
     else m.setCore core { c with st := .waiting, wait := some t })
  else m)

/-- TWAIT_MET: a waiting core whose counts are met consumes them and runs on (R88). -/
def execTwaitMet (core : CoreId) (s : State) : Host.Outcome State Fault Refusal :=
  let m := s.toMod
  let c := m.core core
  s.go (match c.wait with
    | some t =>
      if c.st = .waiting && m.working && c.twaitPasses t then
        m.retire core { c.twaitConsume t with st := .running, wait := none } (c.pc + 1)
      else m
    | none => m)

/-- A post of a kernel: sent at once when every earlier instruction is complete and, unless NOMW is set, every earlier move;
else held until then (R61). -/
def Mod.kernelPost (m : Mod) (id : CoreId) (c : TCore) (target : BitVec 18) (incr : Nat) (nomw : Bool) : Mod :=
  let h : HeldPost := { moves := if nomw then 0 else c.nextMove, mat := c.matDone + c.matQ, vec := c.vecDone + c.vecQ,
                        chain := c.chainDone + c.chainQ,
                        post := { target := target, incr := incr, sector := c.sector } }
  if c.mayPost h then (m.sendPost target incr c.sector).retire id c (c.pc + 1)
  else m.retire id { c with heldPosts := c.heldPosts ++ [h] } (c.pc + 1)

/-- TPOST. No kernel holds a TPOST with INCR 0 or a reserved credit (R59, R67, R73). -/
def execTpost (core : CoreId) (target : BitVec 18) (incr : BitVec 16) (nomw : Bool) (s : State) :
    Host.Outcome State Fault Refusal :=
  let m := s.toMod
  let c := m.core core
  s.go (if m.fetches core (.tpost core target incr nomw) then m.kernelPost core c target incr.toNat nomw else m)

/-- TPOSTS: the target and the increment stand in s[A]; INCR 0 or a reserved credit faults with BAD_POST (R73). -/
def execTposts (core : CoreId) (a : Reg) (nomw : Bool) (s : State) : Host.Outcome State Fault Refusal :=
  let m := s.toMod
  let c := m.core core
  let target : BitVec 18 := (c.reg a).extractLsb' 0 18
  let incr : BitVec 16 := (c.reg a).extractLsb' 32 16
  s.go (if m.fetches core (.tposts core a nomw) then
    (if incr = 0 || tokReserved target then m.coreFault core 0x02 0 c.pc
     else m.kernelPost core c target incr.toNat nomw)
  else m)

/-- TREAD: a counter of the running bank, nothing consumed (R73). No kernel holds one of a credit counter above 31 (R59, R67). -/
def execTread (core : CoreId) (d : Reg) (counter : BitVec 6) (kind : Bool) (s : State) : Host.Outcome State Fault Refusal :=
  s.go (s.toMod.issue core (.tread core d counter kind) (fun c =>
    c.setReg d (BitVec.ofNat 64 (if kind then c.credit c.bank counter.toNat else c.token c.bank counter.toNat))))

/-- TTEST: 1 if a TWAIT would pass now (R73). -/
def execTtest (core : CoreId) (t : TwaitArgs) (d : Reg) (s : State) : Host.Outcome State Fault Refusal :=
  s.go (s.toMod.issue core (.ttest core t d) (fun c => c.setReg d (if c.twaitPasses t then 1 else 0)))

/-- POST_ARRIVE: the first n posts on their way to a counter arrive in one cycle (R62, R63). A reserved credit address names
no counter (R59). -/
def execPostArrive (target : BitVec 18) (n : Nat) (s : State) : Host.Outcome State Fault Refusal :=
  s.go (if tokReserved target then s.toMod else s.toMod.arrive target n)

end Sys2Proof.Machine
end

