-- ==== Sys2Proof/Machine/Dispatch.lean ====
section
/-!
DEFINITION. Which meaning each command has: one arm per constructor.
-/
namespace Sys2Proof.Machine
open Sys2Proof

/-- A command's effect on everything but the queue of waiting commands. -/
def exec (i : Instr) (s : State) : Host.Outcome State Fault Refusal :=
  match i with
  | .nop core => Sys2Proof.Machine.execNop core s
  | .endKernel core => Sys2Proof.Machine.execEndKernel core s
  | .li core d imm => Sys2Proof.Machine.execLi core d imm s
  | .lih core d imm => Sys2Proof.Machine.execLih core d imm s
  | .add core d a b => Sys2Proof.Machine.execAdd core d a b s
  | .sub core d a b => Sys2Proof.Machine.execSub core d a b s
  | .mul core d a b => Sys2Proof.Machine.execMul core d a b s
  | .and core d a b => Sys2Proof.Machine.execAnd core d a b s
  | .or core d a b => Sys2Proof.Machine.execOr core d a b s
  | .xor core d a b => Sys2Proof.Machine.execXor core d a b s
  | .shl core d a b => Sys2Proof.Machine.execShl core d a b s
  | .shr core d a b => Sys2Proof.Machine.execShr core d a b s
  | .sra core d a b => Sys2Proof.Machine.execSra core d a b s
  | .addi core d a imm => Sys2Proof.Machine.execAddi core d a imm s
  | .beq core a b imm => Sys2Proof.Machine.execBeq core a b imm s
  | .bne core a b imm => Sys2Proof.Machine.execBne core a b imm s
  | .blt core a b imm => Sys2Proof.Machine.execBlt core a b imm s
  | .bltu core a b imm => Sys2Proof.Machine.execBltu core a b imm s
  | .jmp core imm => Sys2Proof.Machine.execJmp core imm s
  | .loop core d imm => Sys2Proof.Machine.execLoop core d imm s
  | .lds core d a imm => Sys2Proof.Machine.execLds core d a imm s
  | .sts core a b imm => Sys2Proof.Machine.execSts core a b imm s
  | .rdbt core d => Sys2Proof.Machine.execRdbt core d s
  | .fence core => Sys2Proof.Machine.execFence core s
  | .trap core imm => Sys2Proof.Machine.execTrap core imm s
  | .twait core t => Sys2Proof.Machine.execTwait core t s
  | .twaitMet core => Sys2Proof.Machine.execTwaitMet core s
  | .tpost core target incr nomw => Sys2Proof.Machine.execTpost core target incr nomw s
  | .tposts core a nomw => Sys2Proof.Machine.execTposts core a nomw s
  | .tread core d counter kind => Sys2Proof.Machine.execTread core d counter kind s
  | .ttest core t d => Sys2Proof.Machine.execTtest core t d s
  | .postArrive target n => Sys2Proof.Machine.execPostArrive target n s
  | .mvin core v => Sys2Proof.Machine.execMvin core v s
  | .mvout core v => Sys2Proof.Machine.execMvout core v s
  | .mvt core v => Sys2Proof.Machine.execMvt core v s
  | .mlist core v => Sys2Proof.Machine.execMlist core v s
  | .moveBlockDone mover block => Sys2Proof.Machine.execMoveBlockDone mover block s
  | .moveComplete mover => Sys2Proof.Machine.execMoveComplete mover s
  | .mma core x => Sys2Proof.Machine.execMma core x s
  | .accLoad core x => Sys2Proof.Machine.execAccLoad core x s
  | .accStore core x => Sys2Proof.Machine.execAccStore core x s
  | .accZero core x => Sys2Proof.Machine.execAccZero core x s
  | .chain core x => Sys2Proof.Machine.execChain core x s
  | .vadd core v => Sys2Proof.Machine.execVadd core v s
  | .vsub core v => Sys2Proof.Machine.execVsub core v s
  | .vmul core v => Sys2Proof.Machine.execVmul core v s
  | .vfma core v => Sys2Proof.Machine.execVfma core v s
  | .vmin core v => Sys2Proof.Machine.execVmin core v s
  | .vmax core v => Sys2Proof.Machine.execVmax core v s
  | .vabs core v => Sys2Proof.Machine.execVabs core v s
  | .vneg core v => Sys2Proof.Machine.execVneg core v s
  | .vand core v => Sys2Proof.Machine.execVand core v s
  | .vor core v => Sys2Proof.Machine.execVor core v s
  | .vxor core v => Sys2Proof.Machine.execVxor core v s
  | .vshl core v => Sys2Proof.Machine.execVshl core v s
  | .vshr core v => Sys2Proof.Machine.execVshr core v s
  | .vsra core v => Sys2Proof.Machine.execVsra core v s
  | .vdiv core v => Sys2Proof.Machine.execVdiv core v s
  | .vrem core v => Sys2Proof.Machine.execVrem core v s
  | .vcmp core v => Sys2Proof.Machine.execVcmp core v s
  | .vsel core v => Sys2Proof.Machine.execVsel core v s
  | .vtid core v => Sys2Proof.Machine.execVtid core v s
  | .vmov core v => Sys2Proof.Machine.execVmov core v s
  | .vcvtf core v => Sys2Proof.Machine.execVcvtf core v s
  | .vcvti core v => Sys2Proof.Machine.execVcvti core v s
  | .vpack core v => Sys2Proof.Machine.execVpack core v s
  | .vunpkl core v => Sys2Proof.Machine.execVunpkl core v s
  | .vunpkh core v => Sys2Proof.Machine.execVunpkh core v s
  | .vexp2 core v => Sys2Proof.Machine.execVexp2 core v s
  | .vlog2 core v => Sys2Proof.Machine.execVlog2 core v s
  | .vrcp core v => Sys2Proof.Machine.execVrcp core v s
  | .vrsqrt core v => Sys2Proof.Machine.execVrsqrt core v s
  | .vsqrt core v => Sys2Proof.Machine.execVsqrt core v s
  | .vsinpi core v => Sys2Proof.Machine.execVsinpi core v s
  | .vcospi core v => Sys2Proof.Machine.execVcospi core v s
  | .vtanh core v => Sys2Proof.Machine.execVtanh core v s
  | .vsigmoid core v => Sys2Proof.Machine.execVsigmoid core v s
  | .vshfl core v => Sys2Proof.Machine.execVshfl core v s
  | .vred core v => Sys2Proof.Machine.execVred core v s
  | .vscan core v => Sys2Proof.Machine.execVscan core v s
  | .vld core v => Sys2Proof.Machine.execVld core v s
  | .vst core v => Sys2Proof.Machine.execVst core v s
  | .vgather core v => Sys2Proof.Machine.execVgather core v s
  | .vscatter core v => Sys2Proof.Machine.execVscatter core v s
  | .vatomAdd core v => Sys2Proof.Machine.execVatomAdd core v s
  | .vatomMin core v => Sys2Proof.Machine.execVatomMin core v s
  | .vatomMax core v => Sys2Proof.Machine.execVatomMax core v s
  | .vatomSwap core v => Sys2Proof.Machine.execVatomSwap core v s
  | .vatomCas core v => Sys2Proof.Machine.execVatomCas core v s
  | .vpush core v => Sys2Proof.Machine.execVpush core v s
  | .velse core v => Sys2Proof.Machine.execVelse core v s
  | .vpop core v => Sys2Proof.Machine.execVpop core v s
  | .vcfg core v => Sys2Proof.Machine.execVcfg core v s
  | .vabase core v => Sys2Proof.Machine.execVabase core v s
  | .vlds core v => Sys2Proof.Machine.execVlds core v s
  | .vany core v => Sys2Proof.Machine.execVany core v s
  | .vcount core v => Sys2Proof.Machine.execVcount core v s
  | .compress core v => Sys2Proof.Machine.execCompress core v s
  | .compressIdx core v => Sys2Proof.Machine.execCompressIdx core v s
  | .expand core v => Sys2Proof.Machine.execExpand core v s
  | .preemptStopped core prog => Sys2Proof.Machine.execPreemptStopped core prog s
  | .preemptStopTimeout core => Sys2Proof.Machine.execPreemptStopTimeout core s
  | .saveDone core => Sys2Proof.Machine.execSaveDone core s
  | .restoreDone core => Sys2Proof.Machine.execRestoreDone core s
  | .csqBellSq q pi => Sys2Proof.Machine.execCsqBellSq q pi s
  | .csqBellRq q ci => Sys2Proof.Machine.execCsqBellRq q ci s
  | .packetAccept q host => Sys2Proof.Machine.execPacketAccept q host s
  | .packetDispatch p => Sys2Proof.Machine.execPacketDispatch p s
  | .queueNotify q => Sys2Proof.Machine.execQueueNotify q s
  | .heldReplyWrite q => Sys2Proof.Machine.execHeldReplyWrite q s
  | .drainMsExpiry q => Sys2Proof.Machine.execDrainMsExpiry q s
  | .queueCreate p => Sys2Proof.Machine.execQueueCreate p s
  | .queueDisable p => Sys2Proof.Machine.execQueueDisable p s
  | .queueEnable p => Sys2Proof.Machine.execQueueEnable p s
  | .queueDestroy p => Sys2Proof.Machine.execQueueDestroy p s
  | .sectorCreate p => Sys2Proof.Machine.execSectorCreate p s
  | .sectorTeardown p => Sys2Proof.Machine.execSectorTeardown p s
  | .sectorAssign p => Sys2Proof.Machine.execSectorAssign p s
  | .kernelLoad p => Sys2Proof.Machine.execKernelLoad p s
  | .kernelLaunch p => Sys2Proof.Machine.execKernelLaunch p s
  | .kernelPreempt p => Sys2Proof.Machine.execKernelPreempt p s
  | .tokenPost p => Sys2Proof.Machine.execTokenPost p s
  | .move p => Sys2Proof.Machine.execMove p s
  | .moveList p => Sys2Proof.Machine.execMoveList p s
  | .fill p => Sys2Proof.Machine.execFill p s
  | .flushVisible p => Sys2Proof.Machine.execFlushVisible p s
  | .planLoad p => Sys2Proof.Machine.execPlanLoad p s
  | .planStart p => Sys2Proof.Machine.execPlanStart p s
  | .book p => Sys2Proof.Machine.execBook p s
  | .unbook p => Sys2Proof.Machine.execUnbook p s
  | .stageBegin p => Sys2Proof.Machine.execStageBegin p s
  | .stageWrite p => Sys2Proof.Machine.execStageWrite p s
  | .stageCheck p => Sys2Proof.Machine.execStageCheck p s
  | .applyAt p => Sys2Proof.Machine.execApplyAt p s
  | .stageDiscard p => Sys2Proof.Machine.execStageDiscard p s
  | .regionSet p => Sys2Proof.Machine.execRegionSet p s
  | .mooringSet p => Sys2Proof.Machine.execMooringSet p s
  | .mooringClear p => Sys2Proof.Machine.execMooringClear p s
  | .preserveMark p => Sys2Proof.Machine.execPreserveMark p s
  | .sealedKeyInstall p tagOk => Sys2Proof.Machine.execSealedKeyInstall p tagOk s
  | .sealedLoad p => Sys2Proof.Machine.execSealedLoad p s
  | .phaseTable p => Sys2Proof.Machine.execPhaseTable p s
  | .phaseSet p => Sys2Proof.Machine.execPhaseSet p s
  | .testRun p => Sys2Proof.Machine.execTestRun p s
  | .mapOut p => Sys2Proof.Machine.execMapOut p s
  | .noticeArm p => Sys2Proof.Machine.execNoticeArm p s
  | .moduleLocalInstant p => Sys2Proof.Machine.execModuleLocalInstant p s
  | .keeperCommandServe => Sys2Proof.Machine.execKeeperCommandServe s
  | .stageFinalCheck => Sys2Proof.Machine.execStageFinalCheck s
  | .stageApply => Sys2Proof.Machine.execStageApply s
  | .stageApplyDone => Sys2Proof.Machine.execStageApplyDone s
  | .beaconTick => Sys2Proof.Machine.execBeaconTick s
  | .beaconFlit port f ns => Sys2Proof.Machine.execBeaconFlit port f ns s
  | .beaconFlitAbsence => Sys2Proof.Machine.execBeaconFlitAbsence s
  | .holdoverTimeout => Sys2Proof.Machine.execHoldoverTimeout s
  | .ppsEdge offset tenMhz => Sys2Proof.Machine.execPpsEdge offset tenMhz s
  | .ptpSync offset => Sys2Proof.Machine.execPtpSync offset s
  | .referenceLoss => Sys2Proof.Machine.execReferenceLoss s
  | .bcnCtrlWrite master source => Sys2Proof.Machine.execBcnCtrlWrite master source s
  | .masterConflictClear => Sys2Proof.Machine.execMasterConflictClear s
  | .powerTick x => Sys2Proof.Machine.execPowerTick x s
  | .voltageSettled site => Sys2Proof.Machine.execVoltageSettled site s
  | .vote => Sys2Proof.Machine.execVote s
  | .voteEffective => Sys2Proof.Machine.execVoteEffective s
  | .isophaseRise => Sys2Proof.Machine.execIsophaseRise s
  | .regAlert line => Sys2Proof.Machine.execRegAlert line s
  | .alertHoldoffEnd line => Sys2Proof.Machine.execAlertHoldoffEnd line s
  | .droop site => Sys2Proof.Machine.execDroop site s
  | .powerOnRequest => Sys2Proof.Machine.execPowerOnRequest s
  | .powerOffRequest => Sys2Proof.Machine.execPowerOffRequest s
  | .pwrWarnAssert => Sys2Proof.Machine.execPwrWarnAssert s
  | .pwrWarnRelease => Sys2Proof.Machine.execPwrWarnRelease s
  | .holdEntryDone => Sys2Proof.Machine.execHoldEntryDone s
  | .resumeDone => Sys2Proof.Machine.execResumeDone s
  | .railsOff => Sys2Proof.Machine.execRailsOff s
  | .railGroupGood line => Sys2Proof.Machine.execRailGroupGood line s
  | .diesOutOfReset => Sys2Proof.Machine.execDiesOutOfReset s
  | .poweringUpTimeout => Sys2Proof.Machine.execPoweringUpTimeout s
  | .thermtrip => Sys2Proof.Machine.execThermtrip s
  | .undervoltage => Sys2Proof.Machine.execUndervoltage s
  | .inputReturn => Sys2Proof.Machine.execInputReturn s
  | .modResetAssert => Sys2Proof.Machine.execModResetAssert s
  | .modResetLong => Sys2Proof.Machine.execModResetLong s
  | .modResetRelease => Sys2Proof.Machine.execModResetRelease s
  | .mgmtPerst => Sys2Proof.Machine.execMgmtPerst s
  | .warmRestart => Sys2Proof.Machine.execWarmRestart s
  | .coldRestart => Sys2Proof.Machine.execColdRestart s
  | .bootPhaseComplete r => Sys2Proof.Machine.execBootPhaseComplete r s
  | .warmRestartTimeout => Sys2Proof.Machine.execWarmRestartTimeout s
  | .kprBootCtrlWarm => Sys2Proof.Machine.execKprBootCtrlWarm s
  | .kprBootCtrlCold => Sys2Proof.Machine.execKprBootCtrlCold s
  | .memRequest r pa n write => Sys2Proof.Machine.execMemRequest r pa n write s
  | .regulatedRelease ctl sector content => Sys2Proof.Machine.execRegulatedRelease ctl sector content s
  | .readMiss agent pa => Sys2Proof.Machine.execReadMiss agent pa s
  | .readForOwnership agent pa => Sys2Proof.Machine.execReadForOwnership agent pa s
  | .upgrade agent pa => Sys2Proof.Machine.execUpgrade agent pa s
  | .writeback agent pa => Sys2Proof.Machine.execWriteback agent pa s
  | .cleanEviction agent pa => Sys2Proof.Machine.execCleanEviction agent pa s
  | .snoop agent pa evicting => Sys2Proof.Machine.execSnoop agent pa evicting s
  | .snoopAnswer agent pa => Sys2Proof.Machine.execSnoopAnswer agent pa s
  | .evictionAck agent pa => Sys2Proof.Machine.execEvictionAck agent pa s
  | .noncachingRead r pa n => Sys2Proof.Machine.execNoncachingRead r pa n s
  | .fullLineWrite r pa data hint => Sys2Proof.Machine.execFullLineWrite r pa data hint s
  | .partialWrite r pa data hint => Sys2Proof.Machine.execPartialWrite r pa data hint s
  | .homeAtomic r op wide pa v c => Sys2Proof.Machine.execHomeAtomic r op wide pa v c s
  | .reduceInto r op wide pa data => Sys2Proof.Machine.execReduceInto r op wide pa data s
  | .processorAmo agent pa act wide value => Sys2Proof.Machine.execProcessorAmo agent pa act wide value s
  | .lrWindowEnd agent => Sys2Proof.Machine.execLrWindowEnd agent s
  | .cboClean agent pa => Sys2Proof.Machine.execCboClean agent pa s
  | .cboFlush agent pa => Sys2Proof.Machine.execCboFlush agent pa s
  | .cboInval agent pa => Sys2Proof.Machine.execCboInval agent pa s
  | .cboZero agent pa => Sys2Proof.Machine.execCboZero agent pa s
  | .snoopTimeout agent pa => Sys2Proof.Machine.execSnoopTimeout agent pa s
  | .requestUnservedTimeout agent pa => Sys2Proof.Machine.execRequestUnservedTimeout agent pa s
  | .coherenceError failing => Sys2Proof.Machine.execCoherenceError failing s
  | .burstBeat r burst pa enables data => Sys2Proof.Machine.execBurstBeat r burst pa enables data s
  | .burstEndMarker r burst valid => Sys2Proof.Machine.execBurstEndMarker r burst valid s
  | .burstDiscard r burst => Sys2Proof.Machine.execBurstDiscard r burst s
  | .stackLoss stack => Sys2Proof.Machine.execStackLoss stack s
  | .stackDeviceFault stack => Sys2Proof.Machine.execStackDeviceFault stack s
  | .patrolScrub pa => Sys2Proof.Machine.execPatrolScrub pa s
  | .hotHomeSample level avg others => Sys2Proof.Machine.execHotHomeSample level avg others s
  | .telemetrySample moved => Sys2Proof.Machine.execTelemetrySample moved s
  | .fabPortEnable port => Sys2Proof.Machine.execFabPortEnable port s
  | .fabPortDisable port => Sys2Proof.Machine.execFabPortDisable port s
  | .fabPortReset port => Sys2Proof.Machine.execFabPortReset port s
  | .fabPortRetrain port => Sys2Proof.Machine.execFabPortRetrain port s
  | .probePatternSeen port => Sys2Proof.Machine.execProbePatternSeen port s
  | .capabilityAgreed port partnerMax offer k1 => Sys2Proof.Machine.execCapabilityAgreed port partnerMax offer k1 s
  | .equalizeDone port failing => Sys2Proof.Machine.execEqualizeDone port failing s
  | .alignDone port delay => Sys2Proof.Machine.execAlignDone port delay s
  | .linkMgmtDone port partner idHash => Sys2Proof.Machine.execLinkMgmtDone port partner idHash s
  | .keysInstalled port => Sys2Proof.Machine.execKeysInstalled port s
  | .authRefused port policy => Sys2Proof.Machine.execAuthRefused port policy s
  | .authBackoffExpiry port => Sys2Proof.Machine.execAuthBackoffExpiry port s
  | .portStateTimeout port => Sys2Proof.Machine.execPortStateTimeout port s
  | .probeWindow port => Sys2Proof.Machine.execProbeWindow port s
  | .retrainDone port delay => Sys2Proof.Machine.execRetrainDone port delay s
  | .fecLockLoss port => Sys2Proof.Machine.execFecLockLoss port s
  | .portResetDone port => Sys2Proof.Machine.execPortResetDone port s
  | .dataFlit port f => Sys2Proof.Machine.execDataFlit port f s
  | .idleFlit port f => Sys2Proof.Machine.execIdleFlit port f s
  | .nakFlit port f => Sys2Proof.Machine.execNakFlit port f s
  | .linkDown port => Sys2Proof.Machine.execLinkDown port s
  | .ackProgressTimeout port => Sys2Proof.Machine.execAckProgressTimeout port s
  | .creditToExpiry port vc => Sys2Proof.Machine.execCreditToExpiry port vc s
  | .linkPacket port x => Sys2Proof.Machine.execLinkPacket port x s
  | .keyEpochTimer port => Sys2Proof.Machine.execKeyEpochTimer port s
  | .portEpochCheck port corrected uncorrectable => Sys2Proof.Machine.execPortEpochCheck port corrected uncorrectable s
  | .neighbourSolicitation port target => Sys2Proof.Machine.execNeighbourSolicitation port target s
  | .udpDatagram port d => Sys2Proof.Machine.execUdpDatagram port d s
  | .pfcFrame port hold => Sys2Proof.Machine.execPfcFrame port hold s
  | .transportLookup ed => Sys2Proof.Machine.execTransportLookup ed s
  | .routeWaitTimeout ed => Sys2Proof.Machine.execRouteWaitTimeout ed s
  | .writePacket ed => Sys2Proof.Machine.execWritePacket ed s
  | .reducePacket ed => Sys2Proof.Machine.execReducePacket ed s
  | .signalPacket ed => Sys2Proof.Machine.execSignalPacket ed s
  | .ackPacket ed => Sys2Proof.Machine.execAckPacket ed s
  | .nackPacket ed => Sys2Proof.Machine.execNackPacket ed s
  | .ackDelayTimer src srcAgent dstAgent => Sys2Proof.Machine.execAckDelayTimer src srcAgent dstAgent s
  | .resendTimer agent dst dstAgent seq => Sys2Proof.Machine.execResendTimer agent dst dstAgent seq s
  | .xportToExpiry agent dst dstAgent seq => Sys2Proof.Machine.execXportToExpiry agent dst dstAgent seq s
  | .flowStateExpiry src srcAgent dstAgent => Sys2Proof.Machine.execFlowStateExpiry src srcAgent dstAgent s
  | .frameBoundary => Sys2Proof.Machine.execFrameBoundary s
  | .send e => Sys2Proof.Machine.execSend e s
  | .planReduceInto e => Sys2Proof.Machine.execPlanReduceInto e s
  | .recv e => Sys2Proof.Machine.execRecv e s
  | .waitToken e => Sys2Proof.Machine.execWaitToken e s
  | .planSignal e => Sys2Proof.Machine.execPlanSignal e s
  | .waitBeacon e => Sys2Proof.Machine.execWaitBeacon e s
  | .planLoop e => Sys2Proof.Machine.execPlanLoop e s
  | .planWaitMet e => Sys2Proof.Machine.execPlanWaitMet e s
  | .transferComplete e num => Sys2Proof.Machine.execTransferComplete e num s
  | .stepTimeout e step => Sys2Proof.Machine.execStepTimeout e step s
  | .edgCePost e counter incr => Sys2Proof.Machine.execEdgCePost e counter incr s
  | .inboundEndpointRequest port rid t tag n write => Sys2Proof.Machine.execInboundEndpointRequest port rid t tag n write s
  | .configRequest port fn tag a => Sys2Proof.Machine.execConfigRequest port fn tag a s
  | .atomicop p rid addr tag op size v c => Sys2Proof.Machine.execAtomicop p rid addr tag op size v c s
  | .inboundAdapterRequest p rid addr tag n write => Sys2Proof.Machine.execInboundAdapterRequest p rid addr tag n write s
  | .iotlbMissWalk p rid page result => Sys2Proof.Machine.execIotlbMissWalk p rid page result s
  | .apertureRequest r pa n write => Sys2Proof.Machine.execApertureRequest r pa n write s
  | .pcieCompletion p tag success data => Sys2Proof.Machine.execPcieCompletion p tag success data s
  | .bmeClear port fn => Sys2Proof.Machine.execBmeClear port fn s
  | .bmeSet port fn => Sys2Proof.Machine.execBmeSet port fn s
  | .mseClear port fn => Sys2Proof.Machine.execMseClear port fn s
  | .functionLevelReset port fn => Sys2Proof.Machine.execFunctionLevelReset port fn s
  | .conventionalReset port => Sys2Proof.Machine.execConventionalReset port s
  | .functionResetDone sector => Sys2Proof.Machine.execFunctionResetDone sector s
  | .adminEnable sector => Sys2Proof.Machine.execAdminEnable sector s
  | .adminDisable sector => Sys2Proof.Machine.execAdminDisable sector s
  | .msixUnmask port fn vec => Sys2Proof.Machine.execMsixUnmask port fn vec s
  | .sbiSrst sector => Sys2Proof.Machine.execSbiSrst sector s
  | .spdmMessage path req => Sys2Proof.Machine.execSpdmMessage path req s
  | .coreProgressWdt core => Sys2Proof.Machine.execCoreProgressWdt core s
  | .seqHeartbeatWdt cluster => Sys2Proof.Machine.execSeqHeartbeatWdt cluster s
  | .cmdWdt p => Sys2Proof.Machine.execCmdWdt p s
  | .txnTimeout r tag => Sys2Proof.Machine.execTxnTimeout r tag s
  | .tenderHeartbeatWdt => Sys2Proof.Machine.execTenderHeartbeatWdt s
  | .faultReport d => Sys2Proof.Machine.execFaultReport d s
  | .recoveryDrainEnd => Sys2Proof.Machine.execRecoveryDrainEnd s
  | .recoveryResetDone => Sys2Proof.Machine.execRecoveryResetDone s
  | .tndErrAck site count => Sys2Proof.Machine.execTndErrAck site count s
  | .tndInjectArm site value => Sys2Proof.Machine.execTndInjectArm site value s
  | .injectFire site => Sys2Proof.Machine.execInjectFire site s
  | .kprMqEnable n => Sys2Proof.Machine.execKprMqEnable n s
  | .kprMqDisable n => Sys2Proof.Machine.execKprMqDisable n s
  | .kprMqDestroy n => Sys2Proof.Machine.execKprMqDestroy n s
  | .command => Sys2Proof.Machine.execCommand s
  | .reply => Sys2Proof.Machine.execReply s
  | .hello => Sys2Proof.Machine.execHello s
  | .remoteToExpiry id => Sys2Proof.Machine.execRemoteToExpiry id s
  | .fwErase sector => Sys2Proof.Machine.execFwErase sector s
  | .fwVerify => Sys2Proof.Machine.execFwVerify s
  | .fwConfirm => Sys2Proof.Machine.execFwConfirm s
  | .flashWindowWrite off data => Sys2Proof.Machine.execFlashWindowWrite off data s
  | .confirmTimeout => Sys2Proof.Machine.execConfirmTimeout s
  | .platformActivate => Sys2Proof.Machine.execPlatformActivate s
  | .sequencerActivateDone => Sys2Proof.Machine.execSequencerActivateDone s
  | .secSvnCommit components => Sys2Proof.Machine.execSecSvnCommit components s
  | .hostCoreRestart sector => Sys2Proof.Machine.execHostCoreRestart sector s
  | .hostSectorReset sector => Sys2Proof.Machine.execHostSectorReset sector s
  | .kprSessionBind id sector => Sys2Proof.Machine.execKprSessionBind id sector s
  | .scrubComplete sector => Sys2Proof.Machine.execScrubComplete sector s
  | .deferredFillDone n => Sys2Proof.Machine.execDeferredFillDone n s
  | .extest => Sys2Proof.Machine.execExtest s
  | .samplePreload pins preload => Sys2Proof.Machine.execSamplePreload pins preload s
  | .idcode => Sys2Proof.Machine.execIdcode s
  | .dieSelect site => Sys2Proof.Machine.execDieSelect site s
  | .wrapper => Sys2Proof.Machine.execWrapper s
  | .unlock sound identity nonce => Sys2Proof.Machine.execUnlock sound identity nonce s
  | .bypass => Sys2Proof.Machine.execBypass s
  | .readmit => Sys2Proof.Machine.execReadmit s
  | .guestSidebandAnswer edges => Sys2Proof.Machine.execGuestSidebandAnswer edges s
  | .guestSidebandTimeout => Sys2Proof.Machine.execGuestSidebandTimeout s
  | .guestNegotiated rate protocol coherent => Sys2Proof.Machine.execGuestNegotiated rate protocol coherent s
  | .guestTrained modules => Sys2Proof.Machine.execGuestTrained modules s
  | .guestAttested passed root meas => Sys2Proof.Machine.execGuestAttested passed root meas s
  | .guestStateTimeout => Sys2Proof.Machine.execGuestStateTimeout s
  | .guestFault => Sys2Proof.Machine.execGuestFault s
  | .guestFenceDrained => Sys2Proof.Machine.execGuestFenceDrained s
  | .guestRead tag gen sound beats pa => Sys2Proof.Machine.execGuestRead tag gen sound beats pa s
  | .guestWrite tag gen sound pa beats valid => Sys2Proof.Machine.execGuestWrite tag gen sound pa beats valid s
  | .guestAtomic tag gen sound aop wide pa v c => Sys2Proof.Machine.execGuestAtomic tag gen sound aop wide pa v c s
  | .guestPost tag gen sound target incr => Sys2Proof.Machine.execGuestPost tag gen sound target incr s
  | .registerWrite w site off size value => Sys2Proof.Machine.execRegisterWrite w site off size value s
  | .dieToDieLaneFailure edge back module lanes => Sys2Proof.Machine.execDieToDieLaneFailure edge back module lanes s
  | .memoryCompletion r tag => Sys2Proof.Machine.execMemoryCompletion r tag s
  | .matrixInstructionComplete core => Sys2Proof.Machine.execMatrixInstructionComplete core s
  | .chainCompletion core => Sys2Proof.Machine.execChainCompletion core s
  | .vectorInstructionComplete core => Sys2Proof.Machine.execVectorInstructionComplete core s
  | .wayClean md way => Sys2Proof.Machine.execWayClean md way s
  | .testDone p patterns fault => Sys2Proof.Machine.execTestDone p patterns fault s
  | .fwVerifyDone images level => Sys2Proof.Machine.execFwVerifyDone images level s
  | .edgeActivateDone => Sys2Proof.Machine.execEdgeActivateDone s
  | .sealedChunkDone p tagOk => Sys2Proof.Machine.execSealedChunkDone p tagOk s
  | .spdmHeartbeatTimeout id => Sys2Proof.Machine.execSpdmHeartbeatTimeout id s
  | .regAlertRelease line => Sys2Proof.Machine.execRegAlertRelease line s
  | .droopEnd site => Sys2Proof.Machine.execDroopEnd site s
  | .pcieLinkStateEvent p l => Sys2Proof.Machine.execPcieLinkStateEvent p l s
  | .mgmtPerstRelease => Sys2Proof.Machine.execMgmtPerstRelease s
  | .trstNAssert => Sys2Proof.Machine.execTrstNAssert s
  | .originationHoldoffEnd => Sys2Proof.Machine.execOriginationHoldoffEnd s

end Sys2Proof.Machine
end

