-- ==== Sys2Proof/WellFormed.lean ====
section
/-!
DEFINITION. Well-formed commands: what the types of the operands do not say of them. An ill-formed command is one that no sender
can send: a line of other than 128 bytes, a request of more than 4,096, an access of a width the bus does not have.
-/
namespace Sys2Proof

/-- A flit has a payload field of 238 bytes (R219). -/
def Flit.wf (f : Flit) : Bool := f.payload.length == 238

/-- A command's operands have the shape that the bus or the link it arrives on gives them. -/
def Instr.wf (i : Instr) : Bool :=
  match i with
  | .nop _ => true
  | .endKernel _ => true
  | .li _ _ _ => true
  | .lih _ _ _ => true
  | .add _ _ _ _ => true
  | .sub _ _ _ _ => true
  | .mul _ _ _ _ => true
  | .and _ _ _ _ => true
  | .or _ _ _ _ => true
  | .xor _ _ _ _ => true
  | .shl _ _ _ _ => true
  | .shr _ _ _ _ => true
  | .sra _ _ _ _ => true
  | .addi _ _ _ _ => true
  | .beq _ _ _ _ => true
  | .bne _ _ _ _ => true
  | .blt _ _ _ _ => true
  | .bltu _ _ _ _ => true
  | .jmp _ _ => true
  | .loop _ _ _ => true
  | .lds _ _ _ _ => true
  | .sts _ _ _ _ => true
  | .rdbt _ _ => true
  | .fence _ => true
  | .trap _ _ => true
  | .twait _ _ => true
  | .twaitMet _ => true
  | .tpost _ _ _ _ => true
  | .tposts _ _ _ => true
  | .tread _ _ _ _ => true
  | .ttest _ _ _ => true
  | .postArrive _ _ => true
  | .mvin _ _ => true
  | .mvout _ _ => true
  | .mvt _ _ => true
  | .mlist _ _ => true
  | .moveBlockDone _ _ => true
  | .moveComplete _ => true
  | .mma _ _ => true
  | .accLoad _ _ => true
  | .accStore _ _ => true
  | .accZero _ _ => true
  | .chain _ _ => true
  | .vadd _ _ => true
  | .vsub _ _ => true
  | .vmul _ _ => true
  | .vfma _ _ => true
  | .vmin _ _ => true
  | .vmax _ _ => true
  | .vabs _ _ => true
  | .vneg _ _ => true
  | .vand _ _ => true
  | .vor _ _ => true
  | .vxor _ _ => true
  | .vshl _ _ => true
  | .vshr _ _ => true
  | .vsra _ _ => true
  | .vdiv _ _ => true
  | .vrem _ _ => true
  | .vcmp _ _ => true
  | .vsel _ _ => true
  | .vtid _ _ => true
  | .vmov _ _ => true
  | .vcvtf _ _ => true
  | .vcvti _ _ => true
  | .vpack _ _ => true
  | .vunpkl _ _ => true
  | .vunpkh _ _ => true
  | .vexp2 _ _ => true
  | .vlog2 _ _ => true
  | .vrcp _ _ => true
  | .vrsqrt _ _ => true
  | .vsqrt _ _ => true
  | .vsinpi _ _ => true
  | .vcospi _ _ => true
  | .vtanh _ _ => true
  | .vsigmoid _ _ => true
  | .vshfl _ _ => true
  | .vred _ _ => true
  | .vscan _ _ => true
  | .vld _ _ => true
  | .vst _ _ => true
  | .vgather _ _ => true
  | .vscatter _ _ => true
  | .vatomAdd _ _ => true
  | .vatomMin _ _ => true
  | .vatomMax _ _ => true
  | .vatomSwap _ _ => true
  | .vatomCas _ _ => true
  | .vpush _ _ => true
  | .velse _ _ => true
  | .vpop _ _ => true
  | .vcfg _ _ => true
  | .vabase _ _ => true
  | .vlds _ _ => true
  | .vany _ _ => true
  | .vcount _ _ => true
  | .compress _ _ => true
  | .compressIdx _ _ => true
  | .expand _ _ => true
  | .preemptStopped _ _ => true
  | .preemptStopTimeout _ => true
  | .saveDone _ => true
  | .restoreDone _ => true
  | .csqBellSq _ _ => true
  | .csqBellRq _ _ => true
  | .packetAccept _ _ => true
  | .packetDispatch _ => true
  | .queueNotify _ => true
  | .heldReplyWrite _ => true
  | .drainMsExpiry _ => true
  | .queueCreate _ => true
  | .queueDisable _ => true
  | .queueEnable _ => true
  | .queueDestroy _ => true
  | .sectorCreate _ => true
  | .sectorTeardown _ => true
  | .sectorAssign _ => true
  | .kernelLoad _ => true
  | .kernelLaunch _ => true
  | .kernelPreempt _ => true
  | .tokenPost _ => true
  | .move _ => true
  | .moveList _ => true
  | .fill _ => true
  | .flushVisible _ => true
  | .planLoad _ => true
  | .planStart _ => true
  | .book _ => true
  | .unbook _ => true
  | .stageBegin _ => true
  | .stageWrite _ => true
  | .stageCheck _ => true
  | .applyAt _ => true
  | .stageDiscard _ => true
  | .regionSet _ => true
  | .mooringSet _ => true
  | .mooringClear _ => true
  | .preserveMark _ => true
  | .sealedKeyInstall _ _ => true
  | .sealedLoad _ => true
  | .phaseTable _ => true
  | .phaseSet _ => true
  | .testRun _ => true
  | .mapOut _ => true
  | .noticeArm _ => true
  | .moduleLocalInstant _ => true
  | .keeperCommandServe => true
  | .stageFinalCheck => true
  | .stageApply => true
  | .stageApplyDone => true
  | .beaconTick => true
  | .beaconFlit _ _ _ => true
  | .beaconFlitAbsence => true
  | .holdoverTimeout => true
  | .ppsEdge _ _ => true
  | .ptpSync _ => true
  | .referenceLoss => true
  | .bcnCtrlWrite _ _ => true
  | .masterConflictClear => true
  | .powerTick _ => true
  | .voltageSettled _ => true
  | .vote => true
  | .voteEffective => true
  | .isophaseRise => true
  | .regAlert _ => true
  | .alertHoldoffEnd _ => true
  | .droop _ => true
  | .powerOnRequest => true
  | .powerOffRequest => true
  | .pwrWarnAssert => true
  | .pwrWarnRelease => true
  | .holdEntryDone => true
  | .resumeDone => true
  | .railsOff => true
  | .railGroupGood _ => true
  | .diesOutOfReset => true
  | .poweringUpTimeout => true
  | .thermtrip => true
  | .undervoltage => true
  | .inputReturn => true
  | .modResetAssert => true
  | .modResetLong => true
  | .modResetRelease => true
  | .mgmtPerst => true
  | .warmRestart => true
  | .coldRestart => true
  | .bootPhaseComplete _ => true
  | .warmRestartTimeout => true
  | .kprBootCtrlWarm => true
  | .kprBootCtrlCold => true
  | .memRequest _ _ _ write => write.all (fun d => 1 ≤ d.length && d.length ≤ 4096)
  | .regulatedRelease _ _ _ => true
  | .readMiss _ _ => true
  | .readForOwnership _ _ => true
  | .upgrade _ _ => true
  | .writeback _ _ => true
  | .cleanEviction _ _ => true
  | .snoop _ _ _ => true
  | .snoopAnswer _ _ => true
  | .evictionAck _ _ => true
  | .noncachingRead _ _ _ => true
  | .fullLineWrite _ _ data _ => data.length == 128
  | .partialWrite _ pa data _ => 1 ≤ data.length && pa.toNat % 128 + data.length ≤ 128
  | .homeAtomic _ _ _ _ _ _ => true
  | .reduceInto _ _ _ _ data => data.length == 128
  | .processorAmo _ _ _ _ _ => true
  | .lrWindowEnd _ => true
  | .cboClean _ _ => true
  | .cboFlush _ _ => true
  | .cboInval _ _ => true
  | .cboZero _ _ => true
  | .snoopTimeout _ _ => true
  | .requestUnservedTimeout _ _ => true
  | .coherenceError _ => true
  | .burstBeat _ _ _ _ data => data.length == 128
  | .burstEndMarker _ _ _ => true
  | .burstDiscard _ _ => true
  | .stackLoss _ => true
  | .stackDeviceFault _ => true
  | .patrolScrub _ => true
  | .hotHomeSample _ _ _ => true
  | .telemetrySample moved => moved.length ≤ 16
  | .fabPortEnable _ => true
  | .fabPortDisable _ => true
  | .fabPortReset _ => true
  | .fabPortRetrain _ => true
  | .probePatternSeen _ => true
  | .capabilityAgreed _ _ _ _ => true
  | .equalizeDone _ _ => true
  | .alignDone _ _ => true
  | .linkMgmtDone _ _ _ => true
  | .keysInstalled _ => true
  | .authRefused _ _ => true
  | .authBackoffExpiry _ => true
  | .portStateTimeout _ => true
  | .probeWindow _ => true
  | .retrainDone _ _ => true
  | .fecLockLoss _ => true
  | .portResetDone _ => true
  | .dataFlit _ f => f.wf
  | .idleFlit _ f => f.wf
  | .nakFlit _ f => f.wf
  | .linkDown _ => true
  | .ackProgressTimeout _ => true
  | .creditToExpiry _ _ => true
  | .linkPacket _ _ => true
  | .keyEpochTimer _ => true
  | .portEpochCheck _ corrected _ => corrected.length == 8
  | .neighbourSolicitation _ _ => true
  | .udpDatagram _ d => d.flits.all Flit.wf
  | .pfcFrame _ _ => true
  | .transportLookup _ => true
  | .routeWaitTimeout _ => true
  | .writePacket _ => true
  | .reducePacket _ => true
  | .signalPacket _ => true
  | .ackPacket _ => true
  | .nackPacket _ => true
  | .ackDelayTimer _ _ _ => true
  | .resendTimer _ _ _ _ => true
  | .xportToExpiry _ _ _ _ => true
  | .flowStateExpiry _ _ _ => true
  | .frameBoundary => true
  | .send _ => true
  | .planReduceInto _ => true
  | .recv _ => true
  | .waitToken _ => true
  | .planSignal _ => true
  | .waitBeacon _ => true
  | .planLoop _ => true
  | .planWaitMet _ => true
  | .transferComplete _ _ => true
  | .stepTimeout _ _ => true
  | .edgCePost _ _ _ => true
  | .inboundEndpointRequest _ _ _ _ _ write => write.all (fun d => 1 ≤ d.length && d.length ≤ 4096)
  | .configRequest _ _ _ _ => true
  | .atomicop _ _ _ _ _ size _ _ => size == 4 || size == 8 || size == 16
  | .inboundAdapterRequest _ _ _ _ _ write => write.all (fun d => 1 ≤ d.length && d.length ≤ 4096)
  | .iotlbMissWalk _ _ _ _ => true
  | .apertureRequest _ _ _ write => write.all (fun d => 1 ≤ d.length && d.length ≤ 4096)
  | .pcieCompletion _ _ _ data => data.length ≤ 4096
  | .bmeClear _ _ => true
  | .bmeSet _ _ => true
  | .mseClear _ _ => true
  | .functionLevelReset _ _ => true
  | .conventionalReset _ => true
  | .functionResetDone _ => true
  | .adminEnable _ => true
  | .adminDisable _ => true
  | .msixUnmask _ _ _ => true
  | .sbiSrst _ => true
  | .spdmMessage _ _ => true
  | .coreProgressWdt _ => true
  | .seqHeartbeatWdt _ => true
  | .cmdWdt _ => true
  | .txnTimeout _ _ => true
  | .tenderHeartbeatWdt => true
  | .faultReport _ => true
  | .recoveryDrainEnd => true
  | .recoveryResetDone => true
  | .tndErrAck _ _ => true
  | .tndInjectArm _ _ => true
  | .injectFire _ => true
  | .kprMqEnable _ => true
  | .kprMqDisable _ => true
  | .kprMqDestroy _ => true
  | .command => true
  | .reply => true
  | .hello => true
  | .remoteToExpiry _ => true
  | .fwErase _ => true
  | .fwVerify => true
  | .fwConfirm => true
  | .flashWindowWrite off data => off.val + data.length ≤ 67108864
  | .confirmTimeout => true
  | .platformActivate => true
  | .sequencerActivateDone => true
  | .secSvnCommit _ => true
  | .hostCoreRestart _ => true
  | .hostSectorReset _ => true
  | .kprSessionBind _ _ => true
  | .scrubComplete _ => true
  | .deferredFillDone _ => true
  | .extest => true
  | .samplePreload _ _ => true
  | .idcode => true
  | .dieSelect _ => true
  | .wrapper => true
  | .unlock _ _ _ => true
  | .bypass => true
  | .readmit => true
  | .guestSidebandAnswer _ => true
  | .guestSidebandTimeout => true
  | .guestNegotiated _ _ _ => true
  | .guestTrained _ => true
  | .guestAttested _ _ _ => true
  | .guestStateTimeout => true
  | .guestFault => true
  | .guestFenceDrained => true
  | .guestRead _ _ _ _ _ => true
  | .guestWrite _ _ _ _ beats _ => 1 ≤ beats.length && beats.length ≤ 16 && beats.all (fun b => b.2.length == 128)
  | .guestAtomic _ _ _ _ _ _ _ _ => true
  | .guestPost _ _ _ _ _ => true
  | .registerWrite _ _ _ size _ => [1, 2, 4, 8].contains size
  | .dieToDieLaneFailure _ _ _ lanes => lanes.length ≤ 66
  | .memoryCompletion _ _ => true
  | .matrixInstructionComplete _ => true
  | .chainCompletion _ => true
  | .vectorInstructionComplete _ => true
  | .wayClean _ _ => true
  | .testDone _ _ _ => true
  | .fwVerifyDone images _ => images.length ≤ 4
  | .edgeActivateDone => true
  | .sealedChunkDone _ _ => true
  | .spdmHeartbeatTimeout _ => true
  | .regAlertRelease _ => true
  | .droopEnd _ => true
  | .pcieLinkStateEvent _ _ => true
  | .mgmtPerstRelease => true
  | .trstNAssert => true
  | .originationHoldoffEnd => true

end Sys2Proof
end

