-- ==== Sys2Proof/Safety.lean ====
section
/-!
DEFINITION. The words that statements about the block are made of: when a core issues, when a packet is free to act, what a
command leaves alone, and the canonical form of the memory.
-/
namespace Sys2Proof.Machine
open Sys2Proof

/-! ## Outcomes -/

/-- A command completes: exec answers a next state in which a module stands, the queue of waiting commands as it was. -/
def Becomes (i : Instr) (s : State) (m : Mod) : Prop := exec i s = .next { s with toMod := m }

/-- A command completes, and of the module it leaves something holds. -/
def Ends (i : Instr) (s : State) (P : Mod → Prop) : Prop := ∃ m, exec i s = .next { s with toMod := m } ∧ P m

/-! ## Tensor cores -/

/-- A core issues an instruction: it runs a kernel, no FENCE or END waits, the module is not in the hold, and the word at its PC is that
instruction (R69 to R74, R88, R375). -/
def Mod.issues (m : Mod) (id : CoreId) (i : Instr) : Prop := m.fetches id i = true

/-- A core issues an instruction, and its kernel has one after it (R69). -/
def Mod.goesOn (m : Mod) (id : CoreId) (i : Instr) : Prop := m.issues id i ∧ (m.core id).pc + 1 < (m.core id).count

/-- A command changes one core only: the module is the old one with that core replaced. -/
def Ends.core (i : Instr) (s : State) (id : CoreId) (P : TCore → Prop) : Prop :=
  ∃ c, exec i s = .next { s with toMod := s.toMod.setCore id c } ∧ P c

/-- The engines and the mover of a core work (R82, R88). -/
def Mod.enginesRun (m : Mod) (id : CoreId) : Prop := (m.core id).engines = true ∧ m.moversRun = true

/-- Nothing on a core waits for an instruction to complete: no FENCE, no END, no post (R61, R69, R72). -/
def TCore.noneWaits (c : TCore) : Prop := c.fenceWait = false ∧ c.endWait = false ∧ c.heldPosts = []

/-- A scalar instruction, where its core issues it and has a next one: one register takes a value, unless it is s0, the PC advances, and
nothing else of the module changes (R68, R72). -/
def Puts (i : Instr) (s : State) (id : CoreId) (d : Reg) (v : Word) : Prop :=
  s.goesOn id i → Ends.core i s id (fun c =>
    (∀ r, c.reg r = if r = d ∧ d.val ≠ 0 then v else (s.core id).reg r) ∧ c = { s.core id with s := c.s, pc := (s.core id).pc + 1 })

/-- An instruction that moves the PC, where its core issues it: the PC goes to a place in the kernel, and nothing else of the module
changes. -/
def Jumps (i : Instr) (s : State) (id : CoreId) (pc : Nat) : Prop :=
  s.issues id i → pc < (s.core id).count → Becomes i s (s.toMod.setCore id { s.core id with pc := pc })

/-! ## Collective engines -/

/-- A command changes one collective engine only: the module is the old one with that engine replaced. -/
def Ends.engine (i : Instr) (s : State) (e : EngineId) (P : Engine → Prop) : Prop :=
  ∃ x, exec i s = .next { s with toMod := s.toMod.setEngine e x } ∧ P x

/-- An engine's step of an operation may start: its plan runs, and these are the step's words (R261, R263). -/
def Mod.stepping (m : Mod) (e : EngineId) (op : Nat) (ws : List Word) : Prop :=
  let x := m.engine e
  m.working = true ∧ m.fw.edgePause = false ∧ x.st = .running ∧ x.failing = false ∧ x.steps[x.step]? = some ws ∧
    bits (wordAt ws 0) 3 0 = op ∧ bit (wordAt ws 0) 6 = false

/-- No injected memory error waits to be found (R400). -/
def Mod.uninjected (m : Mod) : Prop := ∀ k, (m.ctl k).inject = []

/-! ## The vector engine -/

/-- A core issues an instruction of the vector class and performs it: the queue has room, no COMPRESS or EXPAND stands in it, and no
earlier instruction that is not performed touches what it touches (R75, R128). -/
def Mod.takes (m : Mod) (id : CoreId) (i : Instr) (touch : Touch) : Prop :=
  let c := m.core id
  m.goesOn id i ∧ c.vecQ + c.chainQ < 16 ∧ c.pack = none ∧ c.clear touch = true

/-- No active group's destination slot is another's destination, or another's source slot of one of the names (R131, R132): always so in
register mode and under K1, where each group has slots of its own. -/
def TCore.apart (c : TCore) (v : VecArgs) (names : List (BitVec 10)) : Prop :=
  ∀ g < c.vec.g, ∀ h < c.vec.g, g ≠ h → ∀ n ∈ v.dst :: names, c.slotOf g n.toNat ≠ c.slotOf h v.dst.toNat

/-- An instruction of the vector class issued by a core that it leaves in one way: every active group has passed one more entry of the
queue, which holds it, and the PC advances (R83, R128). -/
def TCore.tookEntry (c y : TCore) (pcs : Table Nat) : TCore :=
  { y with vec := { y.vec with pcs := pcs }, vecQ := c.vecQ + 1, pc := c.pc + 1 }

/-- The active groups of a core, and no others, have passed one more entry. -/
def TCore.passed (c y : TCore) (pcs : Table Nat) : Prop :=
  ∀ g, Table.get 0 pcs g = Table.get 0 c.vec.pcs g + (if g < y.vec.g then 1 else 0)

/-- A group instruction with a destination slot: of every active group, the written threads take a value of their group and number, and
every other thread of every slot stays; the instruction takes its place in the queue, and nothing else changes but the count of free
values. -/
def SlotWrites (i : Instr) (s : State) (id : CoreId) (v : VecArgs) (val : Nat → Nat → Half) : Prop :=
  let c := s.core id
  ∃ sram pcs free, exec i s = .next { s with toMod :=
      { s.toMod.setCore id (c.tookEntry { c with sram := sram } pcs) with free := free } } ∧
    c.passed c pcs ∧ (c.opCache = false → free = s.free) ∧
    (∀ g < c.vec.g, ∀ t < 64, sram.read (c.slotOf g v.dst.toNat * 64 + t) =
      if (c.written v g).getLsbD t then val g t else c.operand g v.dst.toNat t) ∧
    (∀ k, (∀ g < c.vec.g, c.slotOf g v.dst.toNat ≠ k / 64) → sram.read k = c.sram.read k)

/-- An instruction of the vector class that changes its core in one way and takes its place in the queue; in operand-cache mode, where
the order of the groups is open, the count of free values may move. -/
def CoreTakes (i : Instr) (s : State) (id : CoreId) (P : TCore → Prop) : Prop :=
  ∃ y pcs free, P y ∧ (s.core id).passed y pcs ∧ ((s.core id).opCache = false → free = s.free) ∧
    exec i s = .next { s with toMod := { s.toMod.setCore id ((s.core id).tookEntry y pcs) with free := free } }

/-! ## Fabric ports -/

/-- A command changes one fabric port, with what it logs, sends and reports: registers, cores, memory and every other port stay. -/
def Ends.port (i : Instr) (s : State) (p : PortId) (P : Port → Prop) : Prop :=
  Ends i s (fun m => P (m.port p) ∧ (∀ q, q ≠ p.val → m.port q = s.port q) ∧ m.regs = s.regs ∧ m.cores = s.cores ∧ m.dram = s.dram)

/-! ## Lines and their homes -/

/-- No sector is regulated at a controller (R180). -/
def Mod.unregulated (m : Mod) : Prop := ∀ k sector, m.regulated k sector = false

/-- No command waits for a drain (R172, R190). -/
def Mod.noDrains (m : Mod) : Prop :=
  ∀ f ∈ m.queues.flatMap (fun p => p.2.flights) ++ m.mqs.flatMap (fun p => p.2.flights) ++ m.remoteQ.flights, ∀ k n, f.work ≠ .busy k n

/-- Nothing waits that the end of a request could let go on: no request at a home, for a bucket or for a tag, no snoop behind an LR window that
is over, and no command for a drain (R169, R172, R180, R203, R209). -/
def Mod.quiet (m : Mod) : Prop :=
  (∀ d, (m.slice d).waiting = []) ∧ (∀ t ∈ m.txns, t.waiting = false) ∧ m.tagWait = [] ∧ m.freedSnoops = [] ∧ m.noDrains

/-- A line's home is at rest: nothing is open or waits there, no LR window is on it, no eviction is on its way, no error waits in it, its stack
is not fenced, no sector is regulated, and its home's filter has room (R180, R203, R207, R210, R385). -/
def Mod.atRest (m : Mod) (line : Nat) : Prop :=
  lineChan line < 2576 ∧ line < 2 ^ 60 ∧ m.txnOn line = none ∧ (m.slice (m.homeOf line)).waiting = [] ∧
    (m.slice (m.homeOf line)).txns.length < 1024 ∧ m.txns = [] ∧ m.windowOn line = false ∧ m.lineFenced line = false ∧ m.evictions = [] ∧ m.uninjected ∧ m.poisoned line = false ∧
    m.unregulated ∧ (m.filterEntries (m.homeOf line)).length < 16

/-- A caching agent's accesses to an address reach a line (R171, R198). -/
def Mod.reaches (m : Mod) (a : AgentId) (pa line : Nat) : Prop :=
  ∃ sector cell, m.agentSector a = some sector ∧ m.decode sector pa = .ok cell ∧ cell / 128 = line

/-- The last answer that a line's transaction waits for is on its way from an agent, which sent no writeback; nothing else waits, and no error
is met (R205, R206, R213). -/
def Mod.lastAnswer (m : Mod) (line : Nat) (t : HomeTxn) (b : AgentId) : Prop :=
  m.txnOn line = some t ∧ t.wait.line = line ∧ t.waitFor = [b.val] ∧ t.wbWait = [] ∧ t.owner = none ∧
    (∃ ans, t.answers = [(b.val, ans)] ∧ ans ≠ .writeback) ∧ m.evictions = [] ∧ lineChan line < 2576 ∧ line < 2 ^ 60 ∧ m.uninjected ∧
    m.poisoned line = false ∧ m.quiet ∧ (m.filterEntries (m.homeOf line)).length < 16

/-- Of a module only what a read leaves behind differs: the replacement trees of slices, and what priority streams have used (R181, R184). -/
def Mod.onlyRead (m n : Mod) : Prop :=
  n = { m with slices := n.slices, controllers := n.controllers } ∧
    (∀ d, n.slice d = { m.slice d with plru := (n.slice d).plru }) ∧
    (∀ k, n.ctl k = { m.ctl k with prioWindow := (n.ctl k).prioWindow, prioUsed := (n.ctl k).prioUsed })

/-- The bytes that a non-caching agent reads from a line (R206). -/
def Mod.lineHolds (m : Mod) (line : Nat) (f : Nat → Byte) : Prop := ∀ i < 128, m.homeByte (128 * line + i) = f i

/-- No other copy than one agent's changes. -/
def Mod.copiesBut (m n : Mod) (a : AgentId) (line : Nat) : Prop :=
  ∀ k, k ≠ cacheKey a line → Table.find n.caches k = Table.find m.caches k

/-! ## What no command undoes -/

/-- From one module to a later one: the part and its fuses are the same, no fused SVN is lower, no slot's contents are those of an earlier key, no start number comes
back, and memory in canonical form stays so (R5, R341, R345, R354). -/
structure Mod.Keeps (b m : Mod) : Prop where
  part : m.part = b.part
  svn : ∀ c, Table.get 0 b.svnFused c ≤ Table.get 0 m.svnFused c
  keys : ∀ k < 64, Table.get 0 b.keyEpochs k ≤ Table.get 0 m.keyEpochs k
  starts : b.starts ≤ m.starts
  memory : Table.rising b.dram = true → Table.rising m.dram = true

/-- A sound block: every command that waits is well-formed, and memory stands in its canonical form. -/
def State.Sound (s : State) : Prop := (∀ c ∈ s.pending, c.wf = true) ∧ Table.rising s.dram = true

end Sys2Proof.Machine
end

