-- ==== Sys2Proof/Certificates/Slice0/Obligations.lean ====
section
/-!
DEFINITION. The statements for the provers. Each says what commands do, under hypotheses on the state and the operands alone. An obligation that covers
several subjects is the conjunction of its `Claims`, each stated on its own.
-/
open Sys2Proof Sys2Proof.Machine

/-- R72, R68, R45: each scalar instruction with a result puts it into s[D], advances the PC, and changes nothing else; a result for s0 is lost. -/
def Obligations.ScalarResults : Prop :=
  ∀ (s : State) (id : CoreId) (d a b : Reg) (imm : BitVec 32),
    let x := (s.core id).reg a
    let y := (s.core id).reg b
    let k := imm.signExtend 64
    Puts (.li id d imm) s id d k ∧
    Puts (.lih id d imm) s id d (imm ++ ((s.core id).reg d).setWidth 32) ∧
    Puts (.add id d a b) s id d (x + y) ∧
    Puts (.sub id d a b) s id d (x - y) ∧
    Puts (.mul id d a b) s id d (BitVec.ofNat 64 (x.toNat * y.toNat)) ∧
    Puts (.and id d a b) s id d (x &&& y) ∧
    Puts (.or id d a b) s id d (x ||| y) ∧
    Puts (.xor id d a b) s id d (x ^^^ y) ∧
    Puts (.shl id d a b) s id d (x <<< (y.toNat % 64)) ∧
    Puts (.shr id d a b) s id d (x >>> (y.toNat % 64)) ∧
    Puts (.sra id d a b) s id d (x.sshiftRight (y.toNat % 64)) ∧
    Puts (.addi id d a imm) s id d (x + k) ∧
    Puts (.rdbt id d) s id d s.beacon.bt

/-- R72: a branch goes to PC + IMM when its condition holds and to the next instruction when not; LOOP counts s[D] down first. A target outside the kernel is no
operand of a loaded kernel (R67). -/
def Obligations.Branches : Prop :=
  ∀ (s : State) (id : CoreId) (a b : Reg) (imm : BitVec 32) (t : Nat),
    ((s.core id).pc : Int) + imm.toInt = t → t < (s.core id).count →
    let x := (s.core id).reg a
    let y := (s.core id).reg b
    let next := (s.core id).pc + 1
    Jumps (.beq id a b imm) s id (if x = y then t else next) ∧
    Jumps (.bne id a b imm) s id (if x = y then next else t) ∧
    Jumps (.blt id a b imm) s id (if x.toInt < y.toInt then t else next) ∧
    Jumps (.bltu id a b imm) s id (if x.toNat < y.toNat then t else next) ∧
    Jumps (.jmp id imm) s id t ∧
    (s.issues id (.loop id a imm) → (x = 1 → next < (s.core id).count) → Ends.core (.loop id a imm) s id (fun c =>
      (∀ r, c.reg r = if r = a ∧ a.val ≠ 0 then x - 1 else (s.core id).reg r) ∧
      c = { s.core id with s := c.s, pc := if x = 1 then next else t }))

/-- R72, R75: LDS and STS move 8 bytes, least significant first, at s[A] + IMM of the core's tile memory, where that sum is aligned and inside; STS changes no
other byte and LDS none. Where an earlier instruction that is not performed writes there, or for STS reads there, they wait. -/
def Obligations.TileLoadStore : Prop :=
  ∀ (s : State) (id : CoreId) (d a b : Reg) (imm : BitVec 32) (t : Nat),
    let c := s.core id
    (c.reg a + imm.signExtend 64).toNat = t → t % 8 = 0 → t ≤ 0x3FFFF8 →
    let reads := c.clear (tileTouch (plainSpan t 8 false))
    let writes := c.clear (tileTouch (plainSpan t 8 true))
    (reads = true → Puts (.lds id d a imm) s id d (BitVec.ofNat 64 (c.tile.readNum t 8))) ∧
    (writes = true → s.goesOn id (.sts id a b imm) → Ends.core (.sts id a b imm) s id (fun y =>
      (∀ k, y.tile.read k = if t ≤ k ∧ k < t + 8 then (c.reg b).extractLsb' (8 * (k - t)) 8 else c.tile.read k) ∧
      y = { c with tile := y.tile, pc := c.pc + 1 })) ∧
    (reads = false → Becomes (.lds id d a imm) s s.toMod) ∧
    (writes = false → Becomes (.sts id a b imm) s s.toMod)

/-- R72, R88, R69: NOP goes on to the next instruction; FENCE does so when nothing is outstanding and else holds issue; END with nothing outstanding ends the
kernel and else waits; TRAP, a misaligned or out-of-range LDS or STS, and any instruction that leaves no next one fault the kernel with their codes. -/
def Claims.KernelFlow : Prop :=
  ∀ (s : State) (id : CoreId) (d a b : Reg) (imm : BitVec 32),
    let c := s.core id
    let leaves := fun (i : Instr) (m : Mod) => s.issues id i → Becomes i s m
    Jumps (.nop id) s id (c.pc + 1) ∧
    (c.pc + 1 = c.count → leaves (.nop id) ((s.toMod.setCore id c).coreFault id 0x08 0 c.pc)) ∧
    (c.outstanding = false → Jumps (.fence id) s id (c.pc + 1)) ∧
    (c.outstanding = true → leaves (.fence id) (s.toMod.setCore id { c with fenceWait := true })) ∧
    (c.outstanding = false → leaves (.endKernel id) (s.toMod.finishKernel id)) ∧
    (c.outstanding = true → leaves (.endKernel id) (s.toMod.setCore id { c with endWait := true })) ∧
    leaves (.trap id imm) (s.toMod.coreFault id 0x06 (imm.setWidth 8).toNat c.pc) ∧
    (let t := (c.reg a + imm.signExtend 64).toNat
     (t % 8 ≠ 0 ∨ t > 0x3FFFF8) →
       leaves (.lds id d a imm) (s.toMod.coreFault id 0x03 0 c.pc) ∧ leaves (.sts id a b imm) (s.toMod.coreFault id 0x03 0 c.pc))

/-- R69, R84, R88: the kernel of a launch that ended leaves its core idle, without a kernel, where no launch, context or preemption waits for it. -/
def Claims.KernelEnds : Prop :=
  ∀ (s : State) (id : CoreId), s.issues id (.endKernel id) → (s.core id).outstanding = false → (s.core id).launch = none → (s.core id).queue = [] →
    (s.core id).saved = none → (s.core id).hold = none →
    Ends.core (.endKernel id) s id (fun c => c.st = .idle ∧ c.kernel = none ∧ c.tile = (s.core id).tile ∧ c.tokens = (s.core id).tokens)

/-- R88, R89, R61: what a kernel fault leaves of its core, whatever the launch, the queues and the sector the fault's reply ends: FAULTED, the code, TRAP_VALUE
and PC recorded, registers, counters and tile memory as they were. -/
def Claims.KernelFaultCore : Prop :=
  ∀ (s : State) (id : CoreId) (imm : BitVec 32), s.issues id (.trap id imm) →
    Ends (.trap id imm) s (fun m =>
      let c := m.core id
      c.st = .faulted ∧ c.fault = { code := 0x06, trapValue := imm.setWidth 8, pc := BitVec.ofNat 15 (s.core id).pc, valid := true } ∧
      c.s = (s.core id).s ∧ c.tokens = (s.core id).tokens ∧ c.credits = (s.core id).credits ∧ c.tile = (s.core id).tile ∧
      c.acc = (s.core id).acc ∧ c.sram = (s.core id).sram ∧ Domain.core id ∈ m.reports)

/-- R60, R73, R88: a TWAIT whose counters of the running bank hold its counts subtracts them all and goes on; one whose counters do not waits, nothing
subtracted, until TWAIT_MET finds them there. Two token fields that name one counter with counts above 0 ask for the sum. -/
def Claims.TokenWaits : Prop :=
  ∀ (s : State) (id : CoreId) (t : TwaitArgs),
    let c := s.core id
    let need := fun (k : Nat) => (if t.tokA.val = k then t.cntA.toNat else 0) + (if t.tokB.val = k then t.cntB.toNat else 0)
    let met := (∀ k, need k ≤ c.token c.bank k) ∧ t.cntC.toNat ≤ c.credit c.bank t.crd
    let consumed := fun (x : TCore) =>
      (∀ bank k, k < 64 → x.token bank k = if bank = c.bank then c.token bank k - need k else c.token bank k) ∧
      (∀ bank k, k < 32 → x.credit bank k = if bank = c.bank ∧ k = t.crd.val then c.credit bank k - t.cntC.toNat else c.credit bank k)
    (s.goesOn id (.twait id t) → met → Ends.core (.twait id t) s id (fun x =>
      consumed x ∧ x = { c with tokens := x.tokens, credits := x.credits, pc := c.pc + 1 })) ∧
    (s.issues id (.twait id t) → ¬ met → Becomes (.twait id t) s (s.toMod.setCore id { c with st := .waiting, wait := some t })) ∧
    (s.working = true → c.st = .waiting → c.wait = some t → c.pc + 1 < c.count → met → Ends.core (.twaitMet id) s id (fun x =>
      consumed x ∧ x = { c with tokens := x.tokens, credits := x.credits, st := .running, wait := none, pc := c.pc + 1 })) ∧
    (c.st = .waiting → c.wait = some t → ¬ met → Becomes (.twaitMet id) s s.toMod)

/-- R61, R69, R72, R84, R88, R89: a kernel goes on, waits, ends and faults as its instructions say, and what an ended or faulted kernel leaves of its core. -/
def Obligations.Kernels : Prop := Claims.KernelFlow ∧ Claims.KernelEnds ∧ Claims.KernelFaultCore

/-- R73, R59: TREAD gives a counter of the running bank and TTEST whether a TWAIT would pass now; neither changes a counter. -/
def Claims.TokenReads : Prop :=
  ∀ (s : State) (id : CoreId) (d : Reg) (t : TwaitArgs) (k : BitVec 6),
    let c := s.core id
    let need := fun (k : Nat) => (if t.tokA.val = k then t.cntA.toNat else 0) + (if t.tokB.val = k then t.cntB.toNat else 0)
    Puts (.tread id d k false) s id d (BitVec.ofNat 64 (c.token c.bank k.toNat)) ∧
    (Puts (.tread id d k true) s id d (BitVec.ofNat 64 (c.credit c.bank k.toNat))) ∧
    (((∀ k, need k ≤ c.token c.bank k) ∧ t.cntC.toNat ≤ c.credit c.bank t.crd) → Puts (.ttest id t d) s id d 1) ∧
    (¬ ((∀ k, need k ≤ c.token c.bank k) ∧ t.cntC.toNat ≤ c.credit c.bank t.crd) → Puts (.ttest id t d) s id d 0)

/-- R59, R60, R73, R88: the token instructions read, test and wait for the counters of the running bank. -/
def Obligations.Tokens : Prop := Claims.TokenWaits ∧ Claims.TokenReads

/-- R61, R73: TPOST and TPOSTS send their post at once where nothing earlier is outstanding, and hold it where an earlier instruction is not complete; a zero
increment or a reserved credit in TPOSTS faults with BAD_POST (0x02). -/
def Claims.Posts : Prop :=
  ∀ (s : State) (id : CoreId) (a : Reg) (target : BitVec 18) (incr : BitVec 16) (nomw : Bool),
    let c := s.core id
    let fields := (c.reg a).extractLsb' 0 18 = target ∧ (c.reg a).extractLsb' 32 16 = incr
    let sound := incr ≠ 0 ∧ tokReserved target = false
    let sent := { s.toMod.setCore id { c with pc := c.pc + 1 } with
      posts := s.posts ++ [{ target := target, incr := incr.toNat, sector := c.sector }] }
    let idle := c.mat = [] ∧ c.vecQ = 0 ∧ c.chainQ = 0 ∧ (nomw = true ∨ c.moves = [])
    let held := fun (i : Instr) => Ends.core i s id (fun x =>
      x.heldPosts.map HeldPost.post = c.heldPosts.map HeldPost.post ++ [{ target := target, incr := incr.toNat, sector := c.sector }] ∧
      x = { c with heldPosts := x.heldPosts, pc := c.pc + 1 })
    let after := c.mat ≠ [] ∨ 0 < c.vecQ ∨ 0 < c.chainQ ∨ (nomw = false ∧ ∃ j ∈ c.moves, j.serial < c.nextMove)
    (s.goesOn id (.tpost id target incr nomw) → idle → Becomes (.tpost id target incr nomw) s sent) ∧
    (s.goesOn id (.tposts id a nomw) → sound → fields → idle → Becomes (.tposts id a nomw) s sent) ∧
    (s.goesOn id (.tpost id target incr nomw) → after → held (.tpost id target incr nomw)) ∧
    (s.goesOn id (.tposts id a nomw) → sound → fields → after → held (.tposts id a nomw)) ∧
    (s.issues id (.tposts id a nomw) → ¬ sound → fields → Becomes (.tposts id a nomw) s (s.toMod.coreFault id 0x02 0 c.pc))

/-- R62, R63: the posts that arrive at a counter in one cycle are added as one sum. Posts of the core's own sector to a core that is not fenced raise the
counter they name, of the bank they name, and no other, and are gone from the way; posts to other counters stay. -/
def Claims.PostsArrive : Prop :=
  ∀ (s : State) (target : BitVec 18) (n : Nat) (sec : SectorId), tokReserved target = false →
    let id := tokCore target
    let mine := s.posts.filter (fun p => p.target == target)
    let sum := ((mine.take n).map Post.incr).sum
    let old := if tokCredit target then (s.core id).credit (tokBank target) (tokCounter target)
               else (s.core id).token (tokBank target) (tokCounter target)
    (s.core id).sector = some sec → (s.core id).st ≠ .fenced → (∀ p ∈ mine, p.sector = some sec) → old + sum ≤ 65535 →
    Ends (.postArrive target n) s (fun m =>
      (∀ bank k, k < 64 → (m.core id).token bank k =
        if tokCredit target = false ∧ bank = tokBank target ∧ k = tokCounter target then old + sum else (s.core id).token bank k) ∧
      (∀ bank k, k < 32 → (m.core id).credit bank k =
        if tokCredit target = true ∧ bank = tokBank target ∧ k = tokCounter target then old + sum else (s.core id).credit bank k) ∧
      (∀ j, j ≠ id → m.core j = s.core j) ∧
      m = { s.toMod with cores := m.cores,
                         posts := s.posts.filter (fun p => p.target != target) ++ mine.drop n } ∧
      m.core id = { s.core id with tokens := (m.core id).tokens, credits := (m.core id).credits })
/-- R74, R75, R77: MVIN, MVOUT, MVT and MLIST queue one move behind the others where the move queue has room, no earlier instruction that is not performed meets
their tile memory, and their descriptor is sound, and the next instruction issues; a single-row move of length 0 or of 2^32 and more faults with MOVE_FORMAT (0x04);
a full move queue holds them, and MLIST waits while its list's line is not to be had. -/
def Claims.MovesQueue : Prop :=
  ∀ (s : State) (id : CoreId) (v : MoveArgs),
    let c := s.core id
    let near := 8 + id.val % 8
    let far := (c.reg v.sa).toNat
    let len := (c.reg v.sl).toNat
    let free := fun (w : Bool) => c.moves.length < 16 ∧ c.clear (moveTouch c v w) = true
    let queued := fun (i : Instr) (src srcSpace dst dstSpace : Nat) => s.goesOn id i →
      ∃ ws, Becomes i s (s.toMod.setCore id { c with
          moves := c.moves ++ [{ serial := c.nextMove, pc := c.pc, parts := [MovePart.first ws 0 0], next := none, total := ceilDiv len 4096, listPost := none }]
          nextMove := c.nextMove + 1, pc := c.pc + 1 }) ∧
        (let d := Desc.ofWords ws
         d.src = src ∧ d.srcSpace = srcSpace ∧ d.dst = dst ∧ d.dstSpace = dstSpace ∧ d.rowBytes = len ∧ d.rows = 1 ∧ d.op = 0 ∧
         d.post = v.post ∧ d.incr = 1 ∧ tokCore d.target = id.val ∧ tokCounter d.target = v.token.val ∧
         tokCredit d.target = false ∧ tokBank d.target = c.bank)
    (0 < len → v.tile.toNat + len ≤ 0x400000 →
      (far < 2 ^ 56 → (free true → queued (.mvin id v) far 0 v.tile.toNat near) ∧ (free false → queued (.mvout id v) v.tile.toNat near far 0)) ∧
      (far % 2 ^ 22 + len ≤ 0x400000 → free false → queued (.mvt id v) v.tile.toNat near (far % 2 ^ 22) (8 + v.peer.val))) ∧
    ((len = 0 ∨ len ≥ 2 ^ 32) → free true → ∀ i, i = Instr.mvin id v ∨ i = Instr.mvout id v ∨ i = Instr.mvt id v →
      s.issues id i → Becomes i s (s.toMod.coreFault id 0x04 0 c.pc)) ∧
    (∀ one ws, c.moves.length < 16 → c.clear (tileTouch (wholeTile true)) = true → s.readDesc c.sector far = (one, .ok ws) → listFault ws 0 = none →
      s.goesOn id (.mlist id v) →
      ∃ post, Becomes (.mlist id v) s (one.setCore id { c with
          moves := c.moves ++ [{ serial := c.nextMove, pc := c.pc, parts := [MovePart.first ws 0 0], next := listNext ws far 0 0
                                 total := (Desc.ofWords ws).blocks, listPost := post }]
          nextMove := c.nextMove + 1, pc := c.pc + 1 }) ∧ (v.post = false → post = none)) ∧
    (s.readDesc c.sector far = (s.toMod, .error .wait) → Becomes (.mlist id v) s s.toMod) ∧
    (c.moves.length = 16 → ∀ i, i = Instr.mvin id v ∨ i = Instr.mvout id v ∨ i = Instr.mvt id v ∨ i = Instr.mlist id v → Becomes i s s.toMod)

/-- R61 to R63, R73: posts are sent at once or held, and arrive as one sum at the counter they name. -/
def Obligations.TokenPosts : Prop := Claims.Posts ∧ Claims.PostsArrive

/-- R78, R77: a block of a core's fill, its pattern's bytes in turn, is written to the destination tile memory's row addresses and counted once; every other
byte of that tile memory stays. When every block of its last descriptor is there, the move leaves the mover and posts if it asks to. -/
def Claims.FillBlocks : Prop :=
  ∀ (s : State) (id : CoreId) (j : MoveJob) (p : MovePart) (block : Nat),
    let c := s.core id
    let d := Desc.ofWords p.desc
    let dst := id.val / 8 * 8 + (d.dstSpace - 8)
    let mine := (List.range (min 4096 (d.bytes - 4096 * block))).map (4096 * block + ·)
    s.enginesRun id → (∀ q f, c.launch = some q → s.flight q = some f → pktOrdered f.words = false) → c.moves = [j] → j.parts = [p] → j.next = none → p.read = [] → d.op = 1 → 8 ≤ d.dstSpace → s.coreFenced dst = false →
    (block < d.blocks → p.done.contains block = false →
      (∀ i ∈ mine, ∀ k ∈ mine, rowAddr d.dst d.dstStride d.rowBytes i = rowAddr d.dst d.dstStride d.rowBytes k → i = k) →
      Ends (.moveBlockDone (.core id j.serial) (p.base + block)) s (fun m =>
        (∀ i ∈ mine, (m.core dst).tile.read (rowAddr d.dst d.dstStride d.rowBytes i) = BitVec.ofNat 8 (d.pattern.toNat / 256 ^ (i % 8))) ∧
        (∀ a, (∀ i ∈ mine, rowAddr d.dst d.dstStride d.rowBytes i ≠ a) → (m.core dst).tile.read a = (s.core dst).tile.read a) ∧
        m.core id = { c with moves := [{ j with parts := [{ p with done := block :: p.done }] }], tile := (m.core id).tile } ∧
        (dst ≠ id.val → (m.core id).tile = c.tile) ∧
        (dst ≠ id.val → m.core dst = { s.core dst with tile := (m.core dst).tile }) ∧
        (∀ k, k ≠ id.val → k ≠ dst → m.core k = s.core k) ∧ m = { s.toMod with cores := m.cores })) ∧
    ((∀ k < d.blocks, p.done.contains k = true) → j.listPost = none → c.noneWaits →
      Becomes (.moveComplete (.core id j.serial)) s
        { s.toMod.setCore id { c with moves := [] } with
          posts := s.posts ++ (if d.post = true ∧ 0 < p.base + d.blocks then [{ target := d.target, incr := d.incr, sector := c.sector }] else []) })

/-- R101, R103: an integer MMA that is performed adds to each accumulator, modulo 2^32, the exact products of the K elements of A's row and B's column with the
format's signedness, those that an earlier preemption left; K is the low half of its register, and with K = 0 the tile set is cleared under ZERO and else left. -/
def Obligations.IntegerMma : Prop :=
  ∀ (s : State) (id : CoreId) (j : MatJob) (rest : List MatJob),
    let c := s.core id
    let x := j.args
    let a := fun (i r : Nat) => streamNum c.tile (x.aBase.toNat * 256) (128 * i + r) 1
    let b := fun (i q : Nat) => streamNum c.tile (x.bBase.toNat * 256) (64 * i + q) 1
    let signed := fun (v : Nat) => if v < 128 then (v : Int) else (v : Int) - 256
    let av := fun (v : Nat) => if x.fmt = 8 ∨ x.fmt = 10 then signed v else (v : Int)
    let bv := fun (v : Nat) => if x.fmt = 8 ∨ x.fmt = 9 then signed v else (v : Int)
    s.enginesRun id → c.noneWaits → c.mat = j :: rest → j.op = .mma → mmaLegal x = true → j.done ≤ j.k → 8 ≤ x.fmt.toNat → j.tile = c.tile → j.desc = none →
    Ends.core (.matrixInstructionComplete id) s id (fun y => y = { c with acc := y.acc, mat := rest, matDone := c.matDone + 1 } ∧
      ∀ tile < 4, ∀ r < 128, ∀ q < 64, y.acc.read (accWord tile (64 * r + q)) =
        if tile = x.acc.val then
          BitVec.ofInt 32 ((if x.zero = true ∧ j.done = 0 then 0 else ((c.acc.read (accWord tile (64 * r + q))).toNat : Int)) +
            (((List.range j.k).filter (j.done ≤ ·)).map (fun i => av (a i r) * bv (b i q))).sum)
        else c.acc.read (accWord tile (64 * r + q)))

/-- R74, R75, R77, R78: the moves of a core are queued, and a fill goes block by block. -/
def Obligations.Moves : Prop := Claims.MovesQueue ∧ Claims.FillBlocks

/-- R102, R105, R113 to R115, R121: a floating MMA that is performed reads its descriptor as it was when its first step began, and takes its steps in order, each one product and one sum rounded to FP32 once, its weights of 4 and 8
bits expanded by the group of their step; under REPRO one block of at most 64 steps is summed from +0. R101: with K = 0, ZERO or REPRO clears the tile set. The other
tile sets stay. -/
def Obligations.FloatMma : Prop :=
  ∀ (s : State) (id : CoreId) (j : MatJob) (rest : List MatJob) (d : Nat),
    let c := s.core id
    let x := j.args
    let f := x.fmt.toNat
    let fmt := if f = 1 then fp16 else bf16
    let aux := if j.done = 0 then auxAt c.tile d else j.desc.getD (auxAt c.tile d)
    let w := x.bBase.toNat * 256
    let a := fun (i r : Nat) => fmt.read (streamNum c.tile (x.aBase.toNat * 256) (256 * i + 2 * r) 2)
    let b := fun (i q : Nat) =>
      if f ≤ 1 then fmt.read (streamNum c.tile w (128 * i + 2 * q) 2)
      else expand c.tile aux f i q (if f = 4 then streamNum c.tile w (64 * i + q) 1
        else if q % 2 = 0 then streamNum c.tile w (32 * i + q / 2) 1 % 16 else streamNum c.tile w (32 * i + q / 2) 1 / 16)
    s.enginesRun id → c.noneWaits → c.mat = j :: rest → j.op = .mma → mmaLegal x = true → j.done ≤ j.k → f ≤ 4 → j.tile = c.tile →
    (2 ≤ f ∨ x.repro = true → auxAddr j.aux = some d ∧ auxRanges x aux j.k = true ∧ (j.done ≠ 0 → j.desc = some aux)) →
    (¬ (2 ≤ f ∨ x.repro = true) → j.desc = none) → (x.repro = true → j.k ≤ 64 ∧ j.done = 0 ∧ j.stack = []) →
    Ends.core (.matrixInstructionComplete id) s id (fun y => y = { c with acc := y.acc, mat := rest, matDone := c.matDone + 1 } ∧
      ∀ tile < 4, ∀ r < 128, ∀ q < 64, y.acc.read (accWord tile (64 * r + q)) =
        if tile = x.acc.val then
          ((List.range j.k).filter (j.done ≤ ·)).foldl
            (fun (v : Half) i => BitVec.ofNat 32 (fp32.write ((fp32.read v.toNat).add ((a i r).mul (b i q)))))
            (if (x.zero = true ∧ j.done = 0) ∨ x.repro = true then 0 else c.acc.read (accWord tile (64 * r + q)))
        else c.acc.read (accWord tile (64 * r + q)))

/-- R75, R93, R105: each matrix instruction enters the matrix queue with the scalar registers it names, where the queue has room and no COMPRESS or EXPAND in the way;
one whose streams leave their half, or whose descriptor's address is bad, faults with TILE_RANGE (0x03); a full queue holds them. -/
def Claims.MatrixIssue : Prop :=
  ∀ (s : State) (id : CoreId) (x : MatArgs),
    let c := s.core id
    let job := fun (op : MatOp) => ({ pc := c.pc, op := op, args := x, k := ((c.reg x.kReg).setWidth 32).toNat, aux := c.reg x.auxReg, tile := c.tile
                                      done := 0, stack := [] } : MatJob)
    let enters := fun (i : Instr) (op : MatOp) (sound : Prop) =>
      (c.mat.length < 8 → (∀ p, c.pack = some p → p.touch.meets (job op).touch = false) →
        (sound → s.goesOn id i → Becomes i s (s.toMod.setCore id { c with mat := c.mat ++ [job op], pc := c.pc + 1 })) ∧
        (¬ sound → s.issues id i → Becomes i s (s.toMod.coreFault id 0x03 0 c.pc))) ∧
      (c.mat.length = 8 → Becomes i s s.toMod)
    let stream := streamOk (x.aBase.toNat * 256) (8192 * (if x.fmt.toNat ≤ 1 then 2 else 4)) = true
    let aux := ((c.reg x.auxReg).toNat % 2 ^ 22) % 64 = 0 ∧ (c.reg x.auxReg).toNat % 2 ^ 22 ≤ 0x3FFFC0
    enters (.mma id x) .mma (mmaStreams x (c.reg x.auxReg) ((c.reg x.kReg).setWidth 32).toNat = true) ∧
    enters (.accLoad id x) .load stream ∧
    enters (.accStore id x) .store (stream ∧ (x.sr = true → aux)) ∧
    enters (.accZero id x) .zero True

/-- R104, R97, R119: performed, ACC_ZERO clears a tile set, ACC_LOAD puts a stream's elements there in order, or adds them under ADD, and ACC_STORE puts the elements
into the stream, converted, and changes no other byte; with SR each element takes the next draw of its descriptor's stream. -/
def Claims.AccMoves : Prop :=
  ∀ (s : State) (id : CoreId) (j : MatJob) (rest : List MatJob),
    let c := s.core id
    let x := j.args
    let f := x.fmt.toNat
    let n := if f ≤ 1 then 2 else 4
    let base := x.aBase.toNat * 256
    let loaded := fun (e : Nat) =>
      let raw := streamNum c.tile base (accPos x.colmaj e * n) n
      if f = 0 then convert bf16 fp32 raw else if f = 1 then convert fp16 fp32 raw else raw
    let half := fun (v : Nat) => if f = 0 then convert fp32 bf16 v else if f = 1 then convert fp32 fp16 v else v
    let stored := fun (y : TCore) (value : Nat → Nat) =>
      (∀ e < 8192, streamNum y.tile base (accPos x.colmaj e * n) n = value e) ∧
      (∀ b, (∀ o < 8192 * n, splitAddr base o ≠ b) → y.tile.read b = c.tile.read b)
    s.enginesRun id → c.noneWaits → c.mat = j :: rest → j.tile = c.tile →
    (j.op = .zero → Ends.core (.matrixInstructionComplete id) s id (fun y => y = { c with acc := y.acc, mat := rest, matDone := c.matDone + 1 } ∧
      ∀ tile < 4, ∀ e < 8192, y.acc.read (accWord tile e) = if tile = x.acc.val then 0 else c.acc.read (accWord tile e))) ∧
    (j.op = .load → Ends.core (.matrixInstructionComplete id) s id (fun y => y = { c with acc := y.acc, mat := rest, matDone := c.matDone + 1 } ∧
      ∀ tile < 4, ∀ e < 8192, y.acc.read (accWord tile e) =
        if tile ≠ x.acc.val then c.acc.read (accWord tile e)
        else if x.addFlag = false then BitVec.ofNat 32 (loaded e)
        else if f = 13 then c.acc.read (accWord tile e) + BitVec.ofNat 32 (loaded e)
        else BitVec.ofNat 32 (fp32.add (c.acc.read (accWord tile e)).toNat (loaded e)))) ∧
    (j.op = .store → x.sr = false → streamOk base (8192 * n) = true → Ends.core (.matrixInstructionComplete id) s id (fun y =>
      y = { c with tile := y.tile, mat := y.carryJobs c.tile rest, matDone := c.matDone + 1 } ∧
      stored y (fun e => half (c.acc.read (accWord x.acc.val e)).toNat))) ∧
    (∀ d, j.op = .store → accLegal x true = true → x.sr = true → auxAddr j.aux = some d → streamOk base (8192 * n) = true →
      let aux := auxAt c.tile d
      let first := srStart c aux
      Ends.core (.matrixInstructionComplete id) s id (fun y =>
        y = { c with tile := y.tile, sr := Table.set srSeed c.sr aux.stream (srAfter 8192 first), mat := y.carryJobs c.tile rest, matDone := c.matDone + 1 } ∧
        stored y (fun e => srConvert (f = 1) (srAfter (e + 1) first) (c.acc.read (accWord x.acc.val e)).toNat)))

/-- R75, R157, R128, R61: a complete chain or vector instruction leaves its queue; where the core waits for nothing and holds no post, that is all. An empty queue
has nothing to complete. -/
def Claims.QueueEntriesLeave : Prop :=
  ∀ (s : State) (id : CoreId), let c := s.core id
    (c.noneWaits → 0 < c.chainQ → Becomes (.chainCompletion id) s (s.toMod.setCore id { c with chainQ := c.chainQ - 1, chainDone := c.chainDone + 1 })) ∧
    (s.enginesRun id → c.noneWaits → 0 < c.vecQ → (c.pack = none ∨ 1 < c.vecQ) →
      Becomes (.vectorInstructionComplete id) s (s.toMod.setCore id { c with vecQ := c.vecQ - 1, vecDone := c.vecDone + 1 })) ∧
    (c.mat = [] → Becomes (.matrixInstructionComplete id) s s.toMod) ∧
    (c.vecQ = 0 → Becomes (.vectorInstructionComplete id) s s.toMod) ∧
    (c.chainQ = 0 → Becomes (.chainCompletion id) s s.toMod)

/-- R128, R135 to R137, R142: the arithmetic, logic, shift, comparison-free and conversion operations of the vector class give every written thread of every
active group the operation of its own operands, by type: packed pairs half by half, integers modulo 2^32. -/
def Claims.VectorElementwiseResults : Prop :=
  ∀ (s : State) (id : CoreId) (v : VecArgs), (s.core id).sharedName v.dst.toNat = false →
    let c := s.core id
    let one := fun (i : Instr) (f : Half → Half) =>
      s.takes id i (tileTouch []) → c.apart v [v.src1] → SlotWrites i s id v (fun g t => f (c.srcA v g t))
    let two := fun (i : Instr) (f : Half → Half → Half) =>
      s.takes id i (tileTouch []) → c.apart v [v.src1, v.src2] → SlotWrites i s id v (fun g t => f (c.srcA v g t) (c.srcB v g t))
    let ty := v.type
    two (.vadd id v) (byType Fmt.add (fun _ x y => x + y) ty) ∧
    two (.vsub id v) (byType Fmt.sub (fun _ x y => x - y) ty) ∧
    two (.vmul id v) (byType Fmt.mul (fun _ x y => x * y) ty) ∧
    (ty = 3 ∨ ty = 4 → two (.vmin id v) (fun x y => if (if ty = 3 then x.toInt ≤ y.toInt else x.toNat ≤ y.toNat) then x else y)) ∧
    (ty = 3 ∨ ty = 4 → two (.vmax id v) (fun x y => if (if ty = 3 then x.toInt ≤ y.toInt else x.toNat ≤ y.toNat) then y else x)) ∧
    (ty ≤ 2 → two (.vmin id v) (halves Fmt.min ty)) ∧
    (ty ≤ 2 → two (.vmax id v) (halves Fmt.max ty)) ∧
    one (.vabs id v) (fun x => if ty = 0 then BitVec.ofNat 32 (fp32.write (fp32.read x.toNat).abs) else if ty ≤ 2 then floatOp Fp.abs ty x else
      if ty = 3 ∧ x.toInt < 0 then -x else x) ∧
    one (.vneg id v) (fun x => if ty = 0 then BitVec.ofNat 32 (fp32.write (fp32.read x.toNat).neg) else if ty ≤ 2 then floatOp Fp.neg ty x else -x) ∧
    two (.vand id v) (fun x y => x &&& y) ∧
    two (.vor id v) (fun x y => x ||| y) ∧
    two (.vxor id v) (fun x y => x ^^^ y) ∧
    two (.vshl id v) (fun x y => x <<< (y.toNat % 32)) ∧
    two (.vshr id v) (fun x y => x >>> (y.toNat % 32)) ∧
    two (.vsra id v) (fun x y => x.sshiftRight (y.toNat % 32)) ∧
    (s.takes id (.vfma id v) (tileTouch []) → c.apart v [v.src1, v.src2, v.src3] → SlotWrites (.vfma id v) s id v (fun g t =>
      let x := c.srcA v g t
      let y := c.srcB v g t
      let z := c.srcC v g t
      let f := if ty = 1 then bf16 else fp16
      if ty = 0 then BitVec.ofNat 32 (fp32.fma x.toNat y.toNat z.toNat)
      else if ty ≤ 2 then BitVec.ofNat 32 (f.fma (x.toNat % 65536) (y.toNat % 65536) (z.toNat % 65536) +
        f.fma (x.toNat / 65536) (y.toNat / 65536) (z.toNat / 65536) * 65536)
      else x * y + z)) ∧
    (s.takes id (.vsel id v) (tileTouch []) → c.apart v [v.src1, v.src2] → SlotWrites (.vsel id v) s id v (fun g t =>
      if ((c.group g).predicate (v.src3.toNat % 8)).getLsbD t then c.srcA v g t else c.srcB v g t)) ∧
    (s.takes id (.vtid id v) (tileTouch []) → c.apart v [] → SlotWrites (.vtid id v) s id v (fun g t => BitVec.ofNat 32 (64 * g + t))) ∧
    one (.vmov id v) (fun x => x) ∧
    one (.vcvtf id v) (fun x => BitVec.ofNat 32 (fp32.write (Fp.ofInt (if ty = 3 then x.toInt else (x.toNat : Int)) 0))) ∧
    one (.vcvti id v) (cvtInt (ty = 3)) ∧
    one (.vunpkl id v) (fun x => BitVec.ofNat 32 (convert (if ty = 1 then bf16 else fp16) fp32 (x.toNat % 65536))) ∧
    one (.vunpkh id v) (fun x => BitVec.ofNat 32 (convert (if ty = 1 then bf16 else fp16) fp32 (x.toNat / 65536))) ∧
    (v.sr = false → s.takes id (.vpack id v) (packTouch v) → c.apart v [v.src1, v.src2] → SlotWrites (.vpack id v) s id v (fun g t =>
      let f := if ty = 2 then fp16 else bf16
      BitVec.ofNat 32 (convert fp32 f (c.srcA v g t).toNat + convert fp32 f (c.srcB v g t).toNat * 65536)))

/-- R61, R75, R93, R97, R104, R105, R119, R128, R157: matrix instructions enter their queue, the accumulator moves, and complete engine
instructions leave their queues. -/
def Obligations.MatrixQueue : Prop := Claims.MatrixIssue ∧ Claims.AccMoves ∧ Claims.QueueEntriesLeave

/-- R138, R137: an integer division gives quotients rounded toward zero and remainders with the dividend's sign where no written thread divides by zero; the
most negative number by -1 gives itself and 0. -/
def Claims.VectorDivision : Prop :=
  ∀ (s : State) (id : CoreId) (v : VecArgs), (s.core id).sharedName v.dst.toNat = false →
    let c := s.core id
    c.apart v [v.src1, v.src2] → (∀ g < c.vec.g, ∀ t < 64, (c.written v g).getLsbD t = true → c.srcB v g t ≠ 0) →
    (s.takes id (.vdiv id v) (tileTouch []) → SlotWrites (.vdiv id v) s id v (fun g t =>
      let x := c.srcA v g t
      let y := c.srcB v g t
      if v.type = 3 then BitVec.ofInt 32 (Int.tdiv x.toInt y.toInt) else BitVec.ofNat 32 (x.toNat / y.toNat))) ∧
    (s.takes id (.vrem id v) (tileTouch []) → SlotWrites (.vrem id v) s id v (fun g t =>
      let x := c.srcA v g t
      let y := c.srcB v g t
      if v.type = 3 then BitVec.ofInt 32 (Int.tmod x.toInt y.toInt) else BitVec.ofNat 32 (x.toNat % y.toNat)))

/-- R159 to R161: each function of the vector class completes, and gives every written thread the function's value of its own operand, a function of that operand's
bits alone: the same on every core, at every place, in every state; where R159 asks for an exact result, or R160 names a special value, that value is it. -/
def Claims.VectorFunctionValues : Prop :=
  ∃ f : Nat → Half → Half, ∀ (s : State) (id : CoreId) (v : VecArgs),
    (s.core id).sharedName v.dst.toNat = false →
    let c := s.core id
    let does := fun (i : Instr) (op : Nat) =>
      s.takes id i (tileTouch []) → c.apart v [v.src1] → SlotWrites i s id v (fun g t => f op (c.srcA v g t))
    does (.vexp2 id v) 0x20 ∧ does (.vlog2 id v) 0x21 ∧ does (.vrcp id v) 0x22 ∧ does (.vrsqrt id v) 0x23 ∧ does (.vsqrt id v) 0x24 ∧
    does (.vsinpi id v) 0x25 ∧ does (.vcospi id v) 0x26 ∧ does (.vtanh id v) 0x27 ∧ does (.vsigmoid id v) 0x28 ∧
    -- exact values: 2^0, 2^3, the square root of 4, sin 0, cos of pi/2; the special values of R160
    f 0x20 0 = 0x3F800000 ∧ f 0x20 0x40400000 = 0x41000000 ∧ f 0x24 0x40800000 = 0x40000000 ∧ f 0x25 0 = 0 ∧ f 0x26 0x3F000000 = 0 ∧
    f 0x21 0 = 0xFF800000 ∧ f 0x22 0x80000000 = 0xFF800000 ∧ f 0x23 0x7F800000 = 0 ∧ f 0x24 0xBF800000 = 0x7FC00000 ∧
    f 0x27 0x7F800000 = 0x3F800000 ∧ f 0x28 0 = 0x3F000000 ∧ (∀ op, 0x20 ≤ op → op ≤ 0x28 → f op 0x7FC00001 = 0x7FC00000)

/-- R137, R138, R159 to R161: integer division, and the functions of the vector class. -/
def Obligations.VectorFunctions : Prop := Claims.VectorDivision ∧ Claims.VectorFunctionValues

/-- R137, R140: across the threads of a group, VSHFL takes the value of the thread that the second operand names, VRED gives every written thread the sum,
minimum or maximum in the canonical pairwise order, and VSCAN each written thread the sum up to itself from the left; of integers these are plain sums modulo
2^32. -/
def Obligations.VectorAcross : Prop :=
  ∀ (s : State) (id : CoreId) (v : VecArgs), (s.core id).sharedName v.dst.toNat = false →
    let c := s.core id
    let upTo := fun (g n : Nat) =>
      (((List.range n).filter (fun t => (c.written v g).getLsbD t)).map (fun t => (c.srcA v g t).toNat)).sum
    (s.takes id (.vshfl id v) (tileTouch []) → c.apart v [v.src1, v.src2] →
      SlotWrites (.vshfl id v) s id v (fun g t => c.srcA v g ((c.srcB v g t).toNat % 64))) ∧
    (s.takes id (.vred id v) (tileTouch []) → c.apart v [v.src1] → SlotWrites (.vred id v) s id v (fun g _ =>
      delivered v.type (pairwise (redPair (v.src2.toNat % 4) v.type) 0 64 ((c.threads v g).map (c.srcA v g))))) ∧
    (s.takes id (.vscan id v) (tileTouch []) → c.apart v [v.src1] → SlotWrites (.vscan id v) s id v (fun g t =>
      match ((c.threads v g).filter (· ≤ t)).map (fun u => delivered v.type (c.srcA v g u)) with
      | [] => 0
      | x :: rest => rest.foldl (redPair 0 v.type) x)) ∧
    (s.takes id (.vred id v) (tileTouch []) → c.apart v [v.src1] → v.type = 3 ∨ v.type = 4 → v.src2 = 0 →
      SlotWrites (.vred id v) s id v (fun g _ => BitVec.ofNat 32 (upTo g 64))) ∧
    (s.takes id (.vscan id v) (tileTouch []) → c.apart v [v.src1] → v.type = 3 ∨ v.type = 4 →
      SlotWrites (.vscan id v) s id v (fun g t => BitVec.ofNat 32 (upTo g (t + 1))))

/-- R137, R142, R144: VCMP gives predicate DST of every active group a 1 for each written thread whose comparison holds and 0 for every other thread; p0 takes
nothing, and a group without a written thread passes over it. -/
def Claims.VectorCompare : Prop :=
  ∀ (s : State) (id : CoreId) (v : VecArgs), s.takes id (.vcmp id v) (tileTouch []) →
    let c := s.core id
    let p := v.dst.toNat % 8
    CoreTakes (.vcmp id v) s id (fun y => y = { c with vec := { c.vec with groups := y.vec.groups } } ∧
      ∀ g < c.vec.g, (y.group g).mask = (c.group g).mask ∧ (y.group g).stack = (c.group g).stack ∧
        (∀ q, q ≠ 0 → q ≠ p → (y.group g).predicate q = (c.group g).predicate q) ∧
        (c.written v g = 0 → y.group g = c.group g) ∧
        (p ≠ 0 → c.written v g ≠ 0 → ∀ t < 64, ((y.group g).predicate p).getLsbD t =
          ((c.written v g).getLsbD t && vcmp v.type (v.src3.toNat % 8) (c.srcA v g t) (c.srcB v g t))))

/-- R145, R137: VLD and VGATHER load 4 bytes of tile memory into each written thread, at the address the operation gives it, where every one is aligned and
inside. -/
def Claims.VectorLoads : Prop :=
  ∀ (s : State) (id : CoreId) (v : VecArgs), (s.core id).sharedName v.dst.toNat = false →
    let c := s.core id
    let row := fun (g t : Nat) => (c.reg (nameReg v.src1) + BitVec.ofNat 64 g * c.reg (nameReg v.src2) + BitVec.ofNat 64 (4 * t)).toNat
    let each := fun (g t : Nat) => ((c.srcA v g t).setWidth 22).toNat
    let fine := fun (a : Nat → Nat → Nat) =>
      ∀ g < c.vec.g, ∀ t < 64, (c.written v g).getLsbD t = true → a g t % 4 = 0 ∧ a g t ≤ 0x3FFFFC
    (s.takes id (.vld id v) (c.rowSpans v false) → c.apart v [] → fine row →
      SlotWrites (.vld id v) s id v (fun g t => BitVec.ofNat 32 (c.tile.readNum (row g t) 4))) ∧
    (s.takes id (.vgather id v) (tileTouch (wholeTile false)) → c.apart v [v.src1] → fine each →
      SlotWrites (.vgather id v) s id v (fun g t => BitVec.ofNat 32 (c.tile.readNum (each g t) 4)))

/-- R145, R146, R137: VST and VSCATTER store each written thread's 4 bytes at its address; where no two written threads share a word, every word holds its
thread's value, and every byte outside them stays. -/
def Claims.VectorStores : Prop :=
  ∀ (s : State) (id : CoreId) (v : VecArgs),
    let c := s.core id
    let row := fun (g t : Nat) => (c.reg (nameReg v.src1) + BitVec.ofNat 64 g * c.reg (nameReg v.src2) + BitVec.ofNat 64 (4 * t)).toNat
    let each := fun (g t : Nat) => ((c.srcA v g t).setWidth 22).toNat
    let on := fun (g t : Nat) => g < c.vec.g ∧ t < 64 ∧ (c.written v g).getLsbD t = true
    let stores := fun (i : Instr) (a : Nat → Nat → Nat) (x : Nat → Nat → Half) =>
      (∀ g t, on g t → a g t % 4 = 0 ∧ a g t ≤ 0x3FFFFC) →
      (∀ g t h u, on g t → on h u → a g t = a h u → g = h ∧ t = u) →
      ∃ tile pcs free, c.passed c pcs ∧ exec i s = .next { s with toMod :=
          { s.toMod.setCore id (c.tookEntry { c with tile := tile } pcs) with free := free } } ∧
        (∀ g t, on g t → tile.readNum (a g t) 4 = (x g t).toNat) ∧
        (∀ b, (∀ g t, on g t → ¬ (a g t ≤ b ∧ b < a g t + 4)) → tile.read b = c.tile.read b)
    (s.takes id (.vst id v) (c.rowSpans v true) → stores (.vst id v) row (fun g t => c.srcC v g t)) ∧
    (s.takes id (.vscatter id v) (tileTouch (wholeTile true)) → stores (.vscatter id v) each (fun g t => c.srcB v g t))

/-- R137, R145, R146: the vector loads and stores of tile memory. -/
def Obligations.VectorLoadsStores : Prop := Claims.VectorLoads ∧ Claims.VectorStores

/-- R143: VPUSH saves a group's mask and narrows it by a predicate, VELSE turns to the threads of the saved mask that the mask left out, VPOP brings the saved
mask back, in every active group. -/
def Claims.VectorMaskStack : Prop :=
  ∀ (s : State) (id : CoreId) (v : VecArgs),
    let c := s.core id
    let each := fun (i : Instr) (f : Group → Group) => CoreTakes i s id (fun y => y = { c with vec := { c.vec with groups := y.vec.groups } } ∧
      (∀ g < c.vec.g, y.group g = f (c.group g)) ∧ (∀ g, c.vec.g ≤ g → y.group g = c.group g))
    (s.takes id (.vpush id v) (tileTouch []) → (∀ g < c.vec.g, (c.group g).stack.length < 16) → each (.vpush id v) (fun x =>
      { x with stack := x.mask :: x.stack, mask := x.mask &&& x.predicate (v.src1.toNat % 8) })) ∧
    (s.takes id (.velse id v) (tileTouch []) → (∀ g < c.vec.g, (c.group g).stack ≠ []) → each (.velse id v) (fun x =>
      { x with mask := x.stack.headD 0 &&& ~~~x.mask })) ∧
    (s.takes id (.vpop id v) (tileTouch []) → (∀ g < c.vec.g, (c.group g).stack ≠ []) → each (.vpop id v) (fun x =>
      { x with mask := x.stack.headD 0, stack := x.stack.tail }))

/-- R131, R137: VCFG sets G, and in operand-cache mode STRIDE and SHARED_BASE, and opens every active group's mask; VABASE sets the base of atomics; VLDS loads
a slot from 256 bytes; VANY and VCOUNT count the unmasked threads of a predicate into a scalar register. -/
def Claims.VectorEngineOps : Prop :=
  ∀ (s : State) (id : CoreId) (v : VecArgs),
    let c := s.core id
    let w := c.reg (nameReg v.src1)
    let hits := ((List.range c.vec.g).map (fun g =>
      ((List.range 64).filter (fun t => (c.group g).mask.getLsbD t && ((c.group g).predicate (v.src1.toNat % 8)).getLsbD t)).length)).sum
    (∀ g stride shared, s.takes id (.vcfg id v) (tileTouch []) → w = BitVec.ofNat 64 (g + stride * 2 ^ 16 + shared * 2 ^ 32) → 1 ≤ g → g ≤ 32 → stride < 2048 →
      shared < 2048 → (c.opCache = true → 1 ≤ stride ∧ stride ≤ 1024 ∧ shared ≤ 1024) →
      CoreTakes (.vcfg id v) s id (fun y => y = { c with vec := { c.vec with
          g := g, groups := y.vec.groups, stride := if c.opCache then stride else c.vec.stride
          sharedBase := if c.opCache then shared else c.vec.sharedBase } } ∧
        ∀ k, y.group k = if k < g then { c.group k with mask := BitVec.allOnes 64, stack := [] } else c.group k)) ∧
    (s.takes id (.vabase id v) (tileTouch []) → CoreTakes (.vabase id v) s id (fun y =>
      y = { c with vec := { c.vec with atomicBase := w.setWidth 56 } })) ∧
    (s.takes id (.vlds id v) (tileTouch (plainSpan (w.setWidth 22).toNat 256 false)) → c.opCache = true → (w.setWidth 22).toNat % 256 = 0 →
      CoreTakes (.vlds id v) s id (fun y => y = { c with sram := y.sram } ∧
        ∀ k, y.sram.read k = if k / 64 = v.dst.toNat then BitVec.ofNat 32 (c.tile.readNum ((w.setWidth 22).toNat + 4 * (k % 64)) 4)
          else c.sram.read k)) ∧
    (s.takes id (.vany id v) (tileTouch []) → CoreTakes (.vany id v) s id (fun y => y = { c with s := y.s } ∧
      ∀ r, y.reg r = if r = nameReg v.dst ∧ r.val ≠ 0 then (if hits = 0 then 0 else 1) else c.reg r)) ∧
    (s.takes id (.vcount id v) (tileTouch []) → CoreTakes (.vcount id v) s id (fun y => y = { c with s := y.s } ∧
      ∀ r, y.reg r = if r = nameReg v.dst ∧ r.val ≠ 0 then BitVec.ofNat 64 hits else c.reg r))

/-- R131, R137, R142 to R144: comparisons, the mask stack, and the operations that set or read the engine. -/
def Obligations.VectorMasks : Prop := Claims.VectorCompare ∧ Claims.VectorMaskStack ∧ Claims.VectorEngineOps

/-- R141, R120: a stochastic VPACK draws twice for every thread of every active group, masked or not, in group and thread order, the low half first, and leaves
its stream after the last draw. -/
def Claims.VectorPackStochastic : Prop :=
  ∀ (s : State) (id : CoreId) (v : VecArgs), (s.core id).sharedName v.dst.toNat = false →
    let c := s.core id
    let n := v.src3.toNat % 4
    let st := Table.get srSeed c.sr n
    let draw := fun (g t k : Nat) => srAfter (2 * (64 * g + t) + 1 + k) st
    s.takes id (.vpack id v) (packTouch v) → v.sr = true → c.apart v [v.src1, v.src2] →
    ∃ sram sr pcs free, c.passed c pcs ∧ exec (.vpack id v) s = .next { s with toMod :=
        { s.toMod.setCore id (c.tookEntry { c with sram := sram, sr := sr } pcs) with free := free } } ∧
      (∀ k, Table.get srSeed sr k = if k = n then srAfter (128 * c.vec.g) st else Table.get srSeed c.sr k) ∧
      (∀ g < c.vec.g, ∀ t < 64, sram.read (c.slotOf g v.dst.toNat * 64 + t) =
        if (c.written v g).getLsbD t then
          BitVec.ofNat 32 (srConvert (v.type = 2) (draw g t 0) (c.srcA v g t).toNat +
            srConvert (v.type = 2) (draw g t 1) (c.srcB v g t).toNat * 65536)
        else c.operand g v.dst.toNat t) ∧
      (∀ k, (∀ g < c.vec.g, c.slotOf g v.dst.toNat ≠ k / 64) → sram.read k = c.sram.read k)

/-- R120, R128, R135 to R137, R141, R142: the vector operations that work thread by thread, and the stochastic VPACK. -/
def Obligations.VectorElementwise : Prop := Claims.VectorElementwiseResults ∧ Claims.VectorPackStochastic

/-- R147, R148: a vector atomic of one written thread performs its operation at the home of atomic base plus offset and gives the thread the old value. -/
def Obligations.VectorAtomics : Prop :=
  ∀ (s : State) (id : CoreId) (v : VecArgs) (t old : Nat) (m : Mod), (s.core id).sharedName v.dst.toNat = false →
    let c := s.core id
    let a := c.vec.atomicBase.toNat + (c.srcA v 0 t).toNat
    let x := (c.srcB v 0 t).toNat
    let free := { s.toMod with free := s.free + 1 }
    let one := free.chargeAll c.sector 0 (free.atomCells c.sector [a])
    c.vec.g = 1 → t < 64 → (∀ u < 64, (c.written v 0).getLsbD u = decide (u = t)) → s.atomWaits id v = false → free.atomCheck id c.sector [a] = none →
    let does := fun (i : Instr) (at_ : AtomOp) (cmp : Nat) =>
      s.takes id i (tileTouch []) → one.homeAtomic c.sector at_ 4 a x cmp = .ok (old, m) →
      ∃ sram pcs, exec i s = .next { s with toMod := (m.setCore id (c.tookEntry { c with sram := sram } pcs)).noteAtoms c [a] } ∧ c.passed c pcs ∧
        ∀ k, sram.read k = if k = c.slotOf 0 v.dst.toNat * 64 + t then BitVec.ofNat 32 old else c.sram.read k
    does (.vatomAdd id v) (if v.type = 0 then .addF32 else if v.type = 1 then .addBf16x2 else .add) 0 ∧
    does (.vatomMin id v) (if v.type = 0 then .minF32 else if v.type = 3 then .minS else .minU) 0 ∧
    does (.vatomMax id v) (if v.type = 0 then .maxF32 else if v.type = 3 then .maxS else .maxU) 0 ∧
    does (.vatomSwap id v) .swap 0 ∧
    does (.vatomCas id v) .cas (c.srcC v 0 t).toNat

/-- R128, R149, R150: COMPRESS, COMPRESS_IDX and EXPAND enter the queue with the operands of their scalar registers, which are in range, and are performed when they
complete; operands out of range fault with TILE_RANGE (0x03). -/
def Claims.PackingIssue : Prop :=
  ∀ (s : State) (id : CoreId) (v : VecArgs),
    let c := s.core id
    let w := (c.reg (nameReg v.src3)).toNat
    let job := fun (op : Nat) => ({ pc := c.pc, op := op, fill := v.mod.getLsbD 0, dst := (c.reg (nameReg v.dst)).toNat, src := (c.reg (nameReg v.src1)).toNat
                                    pred := (c.reg (nameReg v.src2)).toNat, rows := w % 2 ^ 32, count := w / 2 ^ 32 % 2 ^ 22, row := 0, run := 0 } : PackJob)
    let enters := fun (i : Instr) (op : Nat) => s.takes id i (job op).touch →
      ((job op).startOk c.tile = true → CoreTakes i s id (fun y => y = { c with pack := some (job op) })) ∧
      ((job op).startOk c.tile = false → Becomes i s (s.toMod.coreFault id 0x03 0 c.pc))
    enters (.compress id v) 0x58 ∧ enters (.compressIdx id v) 0x59 ∧ enters (.expand id v) 0x5A

/-- R149, R150: performed, COMPRESS packs the selected elements of the rows that are left, or under COMPRESS_IDX their indices, behind one another and writes how many
there are; EXPAND puts packed values where its predicate selects them and, with the fill flag, 0 elsewhere; where source, predicate, destination and count lie apart. -/
def Claims.PackingResults : Prop :=
  ∀ (s : State) (id : CoreId) (p : PackJob),
    let c := s.core id
    let hits := (List.range (64 * p.rows)).filter (fun e => 64 * p.row ≤ e && (c.tile.readNum (p.pred + 8 * (e / 64)) 8).testBit (e % 64))
    let total := p.run + hits.length
    let clear := fun (a n b k : Nat) => a + n ≤ b ∨ b + k ≤ a
    s.enginesRun id → c.noneWaits → c.vecQ = 1 → c.pack = some p → p.row ≤ p.rows → total < 2 ^ 64 →
    let outside := fun (n b : Nat) => ¬ (p.dst ≤ b ∧ b < p.dst + n) ∧ ¬ (p.count ≤ b ∧ b < p.count + 8)
    let performs := fun (n : Nat) (at_ : TCore → Prop) => Ends.core (.vectorInstructionComplete id) s id (fun y =>
      y = { c with tile := y.tile, pack := none, vecQ := 0, vecDone := c.vecDone + 1 } ∧
      y.tile.readNum p.count 8 = total ∧ (∀ b, outside n b → y.tile.read b = c.tile.read b) ∧ at_ y)
    let packs := fun (value : Nat → Nat) => performs (4 * total) (fun y =>
      ∀ k < hits.length, clear (p.dst + 4 * (p.run + k)) 4 p.count 8 → y.tile.readNum (p.dst + 4 * (p.run + k)) 4 = value (hits.getD k 0))
    let apart := clear p.dst (4 * total) p.pred (8 * p.rows) ∧ p.dst + 4 * total ≤ 0x400000
    (p.op = 0x58 → apart → clear p.dst (4 * total) p.src (256 * p.rows) → packs (fun e => c.tile.readNum (p.src + 4 * e) 4)) ∧
    (p.op = 0x59 → apart → packs (fun e => e % 2 ^ 32)) ∧
    (p.op = 0x5A → p.dst + 256 * p.rows ≤ 0x400000 → p.src + 4 * total ≤ 0x400000 →
      clear p.dst (256 * p.rows) p.pred (8 * p.rows) → clear p.dst (256 * p.rows) p.src (4 * total) →
      performs (256 * p.rows) (fun y => ∀ e < 64 * p.rows, 64 * p.row ≤ e → clear (p.dst + 4 * e) 4 p.count 8 → y.tile.readNum (p.dst + 4 * e) 4 =
          if hits.contains e then c.tile.readNum (p.src + 4 * (p.run + hits.idxOf e)) 4
          else if p.fill then 0 else c.tile.readNum (p.dst + 4 * e) 4))

/-- R128, R149, R150: the packing instructions are issued, and performed. -/
def Obligations.VectorPacking : Prop := Claims.PackingIssue ∧ Claims.PackingResults

/-- R82, R85, R87, R88, R84: the steps of a preemption. A stopping core whose mover has written every block it read is SAVING, with its progress recorded, at the
boundary that its engines reach; between the boundaries of 64 steps and with blocks read it stops nowhere; once the save area is
written it holds the context and starts the preempting launch; a core that restores continues with what the area holds; a core that does not stop in time is
fenced, recorded, its launch told, and reported. -/
def Obligations.Preemption : Prop :=
  ∀ (s : State) (id : CoreId) (prog : EngineProgress) (l : LaunchWait) (x : Saved) (m : Mod) (parts : List (Nat × List Byte)) (pkt : PktRef),
    let c := s.core id
    let stopped := fun (y : TCore) => Becomes (.preemptStopped id prog) s
      (Mod.setCore { s.toMod with free := s.free + 1 } id { y with
        st := .saving
        progress := { count := prog.count, kind := prog.kind, moveBlocks := BitVec.ofNat 20 ((c.moves.head?.map MoveJob.completed).getD 0),
                      moveActive := !c.moves.isEmpty } })
    (c.st = .stopping → c.hold = none → (∀ j ∈ c.moves, ∀ p ∈ j.parts, p.read = []) →
      (prog.kind = 0 → c.engineProgress = prog → stopped c) ∧
      (∀ j rest y k, c.mat = j :: rest → j.op = .mma → prog.kind = 1 →
        (0 < prog.count.toNat → prog.count.toNat % 64 = 0 → j.done ≤ prog.count.toNat → prog.count.toNat < j.k →
          j.runMma c s.free prog.count.toNat = some (y, k) → stopped { y with mat := k :: y.carryJobs c.tile rest }) ∧
        (prog.count.toNat % 64 ≠ 0 ∨ prog.count.toNat < j.done ∨ j.k ≤ prog.count.toNat → Becomes (.preemptStopped id prog) s s.toMod))) ∧
    ((∃ j ∈ c.moves, ∃ p ∈ j.parts, p.read ≠ []) → Becomes (.preemptStopped id prog) s s.toMod) ∧
    (s.working = true → c.st = .saving → c.hold = none → c.preemptFor = some l → l ∈ c.queue →
      s.partsWait c.sector true ((c.saveParts (s.free + 3)).map (fun y => (c.saveBase.toNat * 65536 + y.1, y.2.length))) = false →
      Mod.writeParts { s.toMod with free := s.free + 1 } c.sector (c.saveBase.toNat * 65536) (c.saveParts (s.free + 3)) = .ok m →
      Ends (.saveDone id) s (fun n => (∀ j, j ≠ id.val → n.core j = s.core j) ∧ n = { m with cores := n.cores } ∧
        (n.core id).st = .running ∧ (n.core id).saved = some c.context ∧ (n.core id).launch = some l.pkt ∧ (n.core id).kernel = some l.image ∧
        (n.core id).pc = l.image.entry ∧ (n.core id).tile = c.tile ∧ (n.core id).acc = c.acc)) ∧
    (let area := [(0, 0x5000), (0x5000, 0x20000), (0x25000, 0x40000)] ++
        (bitsSet (x.kernel.elim 0 (fun k => k.tileLive.toNat)) 64).map (fun i => (0x65000 + i * 0x10000, 0x10000))
     let one := area.foldl (fun (n : Mod) q => n.touchRead c.sector (x.base + q.1) q.2) s.toMod
     s.working = true → c.st = .restoring → c.saved = some x →
      s.partsWait c.sector false (area.map (fun q => (x.base + q.1, q.2))) = false → one.readParts c.sector x.base area = .ok parts →
      (x.overflow = false → Becomes (.restoreDone id) s ((one.setCore id ((c.loadParts parts).resume x)).settleCore id)) ∧
      (x.overflow = true → Becomes (.restoreDone id) s ((one.setCore id ((c.loadParts parts).resume x)).coreFault id 0x01 0 x.pc))) ∧
    (c.st = .stopping → c.launch = some pkt → Becomes (.preemptStopTimeout id) s
      ((((s.toMod.record { site := coreSite id, cls := 0x09, sev := 2, unit := id.val % 64, code := 3, addr := 0, detail := 0,
                           sector := c.sector, injected := false }).setCore id
          { c with st := .fenced, launch := none, kernel := none, preemptFor := none, moves := [], heldPosts := [], fenceWait := false,
                   endWait := false, wait := none }).launchCore pkt (id.val % 8) .lost).report (.core id)))

/-- R275, R276: a producer index within the ring is taken; one that lies more than a ring beyond FETCH puts an enabled queue into ERROR with code 3; a consumer
index up to REPLY_PI is taken; one beyond REPLY_PI, or any bell of a FREE queue, is ignored and recorded. -/
def Obligations.Bells : Prop :=
  ∀ (s : State) (q : QRef) (pi ci : BitVec 32),
    let x := s.queue q
    (x.st ≠ .free → (pi - x.fetch).toNat ≤ 2 ^ x.ringLog2 → Becomes (.csqBellSq q pi) s (s.toMod.setQueue q { x with producer := pi })) ∧
    (x.st = .enabled → 2 ^ x.ringLog2 < (pi - x.fetch).toNat → Ends (.csqBellSq q pi) s (fun m =>
      m.queue q = { x with producer := pi, st := .error, error := 3 })) ∧
    (x.st ≠ .free → (ci - x.replyCi).toNat ≤ (x.replyPi - x.replyCi).toNat →
      Becomes (.csqBellRq q ci) s (s.toMod.setQueue q { x with replyCi := ci })) ∧
    (x.st = .free → Becomes (.csqBellSq q pi) s (s.toMod.bellError q 0)) ∧
    (x.st = .free → Becomes (.csqBellRq q ci) s (s.toMod.bellError q 8))

/-- R276: CSQ_BELL_RQ tells the sequencer which reply slots are free; a CI beyond REPLY_PI changes no queue and is recorded as a BELL_ERROR in the error record
of the TD. -/
def Obligations.ReplyBell : Prop :=
  ∀ (s : State) (n : Fin 16384) (ci : BitVec 32),
    let q : QRef := .csq n
    let x := s.queue q
    (x.st ≠ .free → (ci - x.replyCi).toNat ≤ (x.replyPi - x.replyCi).toNat →
      Ends (.csqBellRq q ci) s (fun m => m.queue q = { x with replyCi := ci } ∧ ∀ p, p ≠ q → m.queue p = s.queue p)) ∧
    (x.st = .free ∨ (x.replyPi - x.replyCi).toNat < (ci - x.replyCi).toNat →
      Ends (.csqBellRq q ci) s (fun m => (∀ p, m.queue p = s.queue p) ∧
        m = s.toMod.record { site := tdSite (n.val / 1024), cls := 0x11, sev := 1, unit := 0x0100 + n.val / 128 % 8, code := 0,
                             addr := cbBase (tdSite (n.val / 1024)) + 0x10000000 + n.val % 1024 * 0x1000 + 8,
                             detail := 0, sector := (s.cluster (n.val / 128)).sector, injected := false }))

/-- R278, R281: a packet that lies whole in the ring is accepted once, in ring order, with its SEQ remembered; a LEN outside 1 to 64, a SEQ that does not
follow, an index beyond the ring, a read that fails put the queue into ERROR with their codes and accept nothing; entries whose lines are not to be had yet are
read later. -/
def Obligations.Acceptance : Prop :=
  ∀ (s : State) (n : Fin 16384) (ws : List Word),
    let q : QRef := .csq n
    let x := s.queue q
    let accepted := { x with fetch := x.fetch + BitVec.ofNat 32 (pktLen ws), lastSeq := some (pktSeq ws),
                             flights := x.flights ++ [{ ix := x.fetch, words := ws, stage := .accepted, past := false, progress := 0, work := .none, ports := [], effect := none }] }
    s.mayFetch q = true →
    (x.producer = x.fetch → Becomes (.packetAccept q (some ws)) s s.toMod) ∧
    (2 ^ x.ringLog2 < (x.producer - x.fetch).toNat → Ends (.packetAccept q (some ws)) s (fun m =>
      m.queue q = { x with st := .error, error := 3 })) ∧
    (0 < (x.producer - x.fetch).toNat → (x.producer - x.fetch).toNat ≤ 2 ^ x.ringLog2 →
      (x.host = true →
        (ws.length = 8 * pktLen ws → 1 ≤ pktLen ws → pktLen ws ≤ 64 → pktLen ws ≤ (x.producer - x.fetch).toNat →
          (x.checkSeq = false ∨ x.lastSeq = none ∨ x.lastSeq = some (pktSeq ws - 1) →
            Becomes (.packetAccept q (some ws)) s ((s.toMod.setQueue q accepted).updCluster (n.val / 128) (fun c =>
              { c with accepted := min 0xFFFFFFFF (c.accepted + 1) }))) ∧
          (∀ l, x.checkSeq = true → x.lastSeq = some l → pktSeq ws ≠ l + 1 → Ends (.packetAccept q (some ws)) s (fun m =>
            m.queue q = { x with st := .error, error := 2 }))) ∧
        (pktLen ws = 0 ∨ 64 < pktLen ws → Ends (.packetAccept q (some ws)) s (fun m => m.queue q = { x with st := .error, error := 1 })) ∧
        Ends (.packetAccept q none) s (fun m => m.queue q = { x with st := .error, error := 4 })) ∧
      (x.host = false → ∀ hdr all,
        let one := s.toMod.touchEntries q x.fetch 1
        let two := one.touchEntries q x.fetch (pktLen hdr)
        (s.entriesWait q x.fetch 1 = true → Becomes (.packetAccept q none) s s.toMod) ∧
        (s.entriesWait q x.fetch 1 = false → one.readEntries q x.fetch 1 = .ok hdr → 1 ≤ pktLen hdr → pktLen hdr ≤ 64 →
          pktLen hdr ≤ (x.producer - x.fetch).toNat →
          (one.entriesWait q x.fetch (pktLen hdr) = true → Becomes (.packetAccept q none) s s.toMod) ∧
          (one.entriesWait q x.fetch (pktLen hdr) = false → two.readEntries q x.fetch (pktLen hdr) = .ok all →
            Becomes (.packetAccept q none) s (two.acceptWords q all)))))

/-- R283, R299, R301, R305, R306, R338: the packet whose turn it is leaves its queue's head. A format check that fails replies its status and field, an opcode that
the queue may not issue PERMISSION, an object of another sector NOT_OWNER, a state that the command does not meet its own status; a sound packet is free to act, or
goes to the Keeper for its turn, and its record keeps the BT, its place in the cluster's order of dispatches, and the kernel that a launch's slot holds. -/
def Claims.PacketDispatch : Prop :=
  ∀ (s : State) (p : PktRef) (f : Flight),
    let m := s.toMod.turned p.q
    let ws := f.words
    s.working = true → s.power.paused = false → s.fw.seqPause = false → s.ready p.q = some f → f.ix = p.ix → s.nextQueue p.q = some p.q →
    m.fabricNode p.q = none →
    let noted := fun (stage : Stage) => m.updFlight p (fun f =>
      { f with stage := stage, at_ := s.beacon.bt, order := (s.cluster (queueNum p.q / 128)).dispatches
               image := if pktOpc ws = 0x101 then Table.get none (s.cluster (queueNum p.q / 128)).slots (bits (wordAt ws 2) 4 0) else none })
    let counted := fun (m : Mod) => match p.q with
      | .csq n => m.updCluster (n.val / 128) (fun c => { c with dispatches := (s.cluster (n.val / 128)).dispatches + 1 })
      | _ => m
    (∀ st d, m.formatFault ws = some (st, d) → Becomes (.packetDispatch p) s (m.endCmd p st d 0)) ∧
    (m.formatFault ws = none →
      (m.forbidden p.q ws = true → Becomes (.packetDispatch p) s (m.endCmd p 0x0301 0 0)) ∧
      (m.forbidden p.q ws = false → ∀ who, m.issuer p.q = some who →
        (∀ off, m.ownerFault who ws = some off → Becomes (.packetDispatch p) s (m.endCmd p 0x0302 off 0)) ∧
        (m.ownerFault who ws = none →
          (∀ st d, m.stateFault p ws = some (st, d) → Becomes (.packetDispatch p) s (m.endCmd p st d 0)) ∧
          (m.stateFault p ws = none →
            (keeperBound (pktOpc ws) = false → Becomes (.packetDispatch p) s (counted (noted .dispatched))) ∧
            (keeperBound (pktOpc ws) = true → Becomes (.packetDispatch p) s
              { counted (noted .keeper) with keeperQueue := s.keeperQueue ++ [p] })))))

/-- R338: with a command of one issuer waiting at the Keeper and none of another's, the Keeper's turn frees that command and moves past its issuer. -/
def Claims.KeeperServes : Prop :=
  ∀ (s : State) (n : Fin 17) (p : PktRef) (rest : List PktRef),
    s.keeperWaits (some (turnIssuer n)) = p :: rest → (∀ k : Fin 17, k ≠ n → s.keeperWaits (some (turnIssuer k)) = []) →
    Becomes .keeperCommandServe s (({ s.toMod with keeperQueue := s.keeperQueue.erase p, keeperTurn := (n.val + 1) % 17 } : Mod).updFlight p
      (fun f => { f with stage := .dispatched }))

/-- R283, R290, R292, R299, R302, R306: what the state refuses at dispatch: a KERNEL_LOAD of a slot that a core's kernel uses and a PLAN_LOAD to a running engine are
BUSY, a launch from an empty slot BAD_LAUNCH, a TOKEN_POST or a PLAN_START whose GEN_CHECK finds another generation is told it, a QUEUE_CREATE of a queue that is not
FREE is BUSY, a second enable of a queue that shuts down is ENABLE_HELD. -/
def Claims.DispatchRefusals : Prop :=
  ∀ (s : State) (p : PktRef) (f : Flight) (who : Issuer) (i : Nat),
    let m := s.toMod.turned p.q
    let ws := f.words
    let w := wordAt ws
    let cl := queueNum p.q / 128
    let core := s.core (tokCore ((w 2).extractLsb' 0 18))
    let engine := s.engine (bits (w 2) 5 0)
    let q : QRef := .csq (Fin.ofNat 16384 (bits (w 2) 13 0))
    let refused := fun (status detail : Nat) => Becomes (.packetDispatch p) s (m.endCmd p status detail 0)
    s.working = true → s.power.paused = false → s.fw.seqPause = false → s.ready p.q = some f → f.ix = p.ix → s.nextQueue p.q = some p.q →
    m.fabricNode p.q = none → m.formatFault ws = none → m.forbidden p.q ws = false → m.issuer p.q = some who → m.ownerFault who ws = none →
    (pktOpc ws = 0x100 → m.slotUser cl (bits (w 2) 4 0) = some i → refused 0x0202 i) ∧
    (pktOpc ws = 0x101 → Table.get none (s.cluster cl).slots (bits (w 2) 4 0) = none → refused 0x0106 4) ∧
    (pktOpc ws = 0x103 → bit (w 2) 48 = true → bits (w 2) 63 56 ≠ core.gen.toNat → refused 0x0402 core.gen.toNat) ∧
    (pktOpc ws = 0x300 → engine.active = true → refused 0x0202 (bits (w 2) 5 0)) ∧
    (pktOpc ws = 0x301 → bit (w 2) 8 = true → bits (w 2) 23 16 ≠ engine.gen.toNat → refused 0x0402 engine.gen.toNat) ∧
    (pktOpc ws = 0x010 → (s.queueSector q).isSome → (s.queue q).st ≠ .free → refused 0x0202 (bits (w 2) 13 0)) ∧
    (pktOpc ws = 0x012 → (s.queue q).st = .disabling → (s.queue q).enable.isSome → refused 0x0203 0)

/-- R283, R290, R292, R299, R301, R302, R305, R306, R338: how a packet becomes a command that may act. -/
def Obligations.Dispatching : Prop := Claims.PacketDispatch ∧ Claims.KeeperServes ∧ Claims.DispatchRefusals

/-- R280 to R282, R289, R291: a waiting notification of a self-hosted queue is written once, after a zero-length read of the port that its replies went out by, if one
did; a held reply is written when its ring takes it, and what is pending on its function's vectors follows; at DRAIN_MS every command that a disabling queue still runs is aborted. -/
def Claims.RepliesAndDrains : Prop :=
  ∀ (s : State) (n : Fin 16384) (r : Reply) (m : Mod),
    let q : QRef := .csq n
    let x := s.queue q
    (x.notifyPending = true → x.held = [] → x.host = false → x.notifyWait = false →
      (x.replyPort = none →
        Becomes (.queueNotify q) s ((s.toMod.setQueue q { x with notifyPending := false }).sendMsi x.notifyAddr.toNat x.notifyData.toNat)) ∧
      (∀ port pa, x.replyPort = some (port, pa) → s.flushGoes port pa = true → s.toMod.flushRead (.notify q) port pa = some m →
        Becomes (.queueNotify q) s (m.setQueue q { x with notifyPending := false, notifyWait := true, replyPort := none }))) ∧
    (x.st = .enabled → x.held = [r] → Mod.putReply (s.toMod.setQueue q { x with held := [] }) q r = some m →
      Becomes (.heldReplyWrite q) s (match m.queueFn q with
        | some (port, fn) => m.sendPending port fn
        | none => m)) ∧
    (s.working = true → x.st = .disabling → ∀ f j start, x.flights = [f] → f.answered = false → f.work = .move j start →
      Becomes (.drainMsExpiry q) s ((s.toMod.setQueue q { x with aborted := x.aborted + 1 }).endCmd ⟨q, f.ix⟩ 0x0401 0 (leadingBlocks j start)))

/-- R280, R281: a reply written into a ring in device memory carries tag, SEQ, status, detail, queue, progress and BT at its slot, with the phase of its pass
over the ring, and REPLY_PI counts it; every other entry of the queue stays. -/
def Claims.ReplyEntries : Prop :=
  ∀ (s : State) (n : Fin 16384) (r : Reply) (m : Mod),
    let q : QRef := .csq n
    let x := s.queue q
    let slot := x.reply.toNat + x.replyPi.toNat % 2 ^ x.replyLog2 * 32
    x.host = false → s.toMod.putReply q r = some m →
    m.queue q = { x with replyPi := x.replyPi + 1, notifyPending := x.notifyPending || (x.notifyEn && r.notify), replyPort := (m.queue q).replyPort } ∧
    (∀ p, p ≠ q → m.queue p = s.queue p) ∧ m.cores = s.cores ∧ m.regions = s.regions ∧
    ∃ m', s.toMod.writePhys (s.cluster (n.val / 128)).sector slot
      ([BitVec.ofNat 64 (r.tag.toNat + r.seq.toNat * 2 ^ 32 + r.status.toNat * 2 ^ 48),
        BitVec.ofNat 64 (r.detail.toNat + n.val * 2 ^ 16 + (if x.replyPi.toNat / 2 ^ x.replyLog2 % 2 = 0 then 2 ^ 31 else 0)),
        r.progress, r.bt].flatMap (fun w => (List.range 8).map (fun i => w.extractLsb' (8 * i) 8))) = .ok m' ∧ m.dram = m'.dram
/-- R283, R278: before its packet is dispatched, and after its reply, no command of an opcode has an effect. -/
def Claims.UndispatchedCommandsWait : Prop :=
  ∀ (s : State) (p : PktRef) (ok : Bool), (∀ opc, s.cmdWords p opc = none) →
    ∀ i ∈ [Instr.queueCreate p, .queueDisable p, .queueEnable p, .queueDestroy p, .sectorCreate p, .sectorTeardown p, .sectorAssign p, .kernelLoad p,
           .kernelLaunch p, .kernelPreempt p, .tokenPost p, .move p, .moveList p, .fill p, .flushVisible p, .planLoad p, .planStart p, .book p, .unbook p,
           .stageBegin p, .stageWrite p, .stageCheck p, .applyAt p, .stageDiscard p, .regionSet p, .mooringSet p, .mooringClear p, .preserveMark p,
           .sealedKeyInstall p ok, .sealedLoad p, .phaseTable p, .phaseSet p, .testRun p, .mapOut p, .noticeArm p],
      exec i s = .next s

/-- R280 to R282, R289, R291: notifications, replies and the end of a drain. -/
def Obligations.Replies : Prop := Claims.RepliesAndDrains ∧ Claims.ReplyEntries

/-- R290 to R292, R305: the queue commands. QUEUE_CREATE leaves a FREE queue of an owned cluster DISABLED with the packet's configuration; QUEUE_ENABLE opens a
DISABLED queue at FETCH or at the index given; QUEUE_DISABLE of a queue that runs nothing leaves it DISABLED; QUEUE_DESTROY of another, disabled queue frees it.
Each ends with the one reply SUCCESS. What a fence has replied and not stopped stays in flight, unowed. -/
def Claims.QueueLife : Prop :=
  ∀ (s : State) (p : PktRef) (ws : List Word) (n : Fin 16384),
    let q : QRef := .csq n
    let x := s.queue q
    let w := wordAt ws
    bits (w 2) 13 0 = n.val →
    (∀ sec, s.cmdWords p 0x010 = some ws → (s.cluster (n.val / 128)).sector = some sec → x.st = .free →
      ∃ y, Becomes (.queueCreate p) s ((s.toMod.setQueue q y).endCmd p 0 0 0) ∧ y.st = .disabled ∧ y.ringLog2 = bits (w 2) 18 14 ∧
        y.replyLog2 = bits (w 2) 23 19 ∧ y.prioCap = bits (w 2) 27 24 ∧ y.admin = bit (w 2) 28 ∧ y.host = bit (w 2) 29 ∧ y.checkSeq = bit (w 2) 30 ∧
        y.inFlightMax = bits (w 2) 37 31 ∧ y.notifyEn = bit (w 2) 38 ∧ y.ring = w 3 &&& 0xFFFFFFFFFFFFF000 ∧ y.reply = w 4 &&& 0xFFFFFFFFFFFFF000 ∧
        y.drainMs = bits (w 6) 47 32 ∧ y.fetch = 0 ∧ y.replyPi = 0 ∧ y.replyCi = 0 ∧ y.flights = x.flights ∧ y.held = [] ∧ y.gen = x.gen) ∧
    (s.cmdWords p 0x012 = some ws → x.st = .disabled → Becomes (.queueEnable p) s
      ((s.toMod.setQueue q { x with st := .enabled, lastSeq := none,
                                    fetch := if bit (w 2) 14 then (w 3).setWidth 32 else x.fetch }).endCmd p 0 0 0)) ∧
    (s.cmdWords p 0x012 = some ws → x.st = .enabled → Becomes (.queueEnable p) s (s.toMod.endCmd p 0 0 0)) ∧
    (s.cmdWords p 0x011 = some ws → p.q ≠ q → x.st = .disabled → Becomes (.queueDisable p) s ((s.toMod.running p .none).endCmd p 0 0 0)) ∧
    (s.cmdWords p 0x011 = some ws → p.q ≠ q → x.st = .enabled → x.flights = [] → x.held = [] → x.enable = none →
      Ends (.queueDisable p) s (fun m => (m.queue q).st = .disabled ∧ (m.queue q).disables = [])) ∧
    (s.cmdWords p 0x013 = some ws → q ≠ p.q → x.st = .disabled → x.held = [] → Becomes (.queueDestroy p) s
      ((s.toMod.setQueue q { Queue.reset with heldGen := x.heldGen, gen := x.gen, flights := x.flights.filter (·.answered) }).endCmd p 0 0 0))

/-- R278, R283, R290 to R292, R305: no command acts before its dispatch, and the queue commands. -/
def Obligations.QueueCommands : Prop := Claims.UndispatchedCommandsWait ∧ Claims.QueueLife

/-- R65 to R68, R81, R61, R305, R306: the kernel commands. KERNEL_LOAD of address 0 empties its slot; of a sound image, puts the kernel there; it waits for an
earlier load of its slot; KERNEL_LAUNCH starts the kernel that its slot held at dispatch on each idle core of its mask; a release by KERNEL_PREEMPT ends the queue's holds, and a hold waits on its cores; TOKEN_POST sends its post. -/
def Claims.KernelRequests : Prop :=
  ∀ (s : State) (p : PktRef) (ws : List Word) (n : Fin 16384) (k : KImage) (core : Fin 8), p.q = .csq n →
    let cl := n.val / 128
    let w := wordAt ws
    let id := cl * 8 + core.val
    (s.cmdWords p 0x100 = some ws → s.loadAhead p cl (bits (w 2) 4 0) = false → bits (w 3) 55 0 = 0 → Becomes (.kernelLoad p) s
      ((s.toMod.updCluster cl (fun c => { c with slots := Table.set none c.slots (bits (w 2) 4 0) none })).endCmd p 0 0 0)) ∧
    (s.cmdWords p 0x100 = some ws → s.loadAhead p cl (bits (w 2) 4 0) = true → Becomes (.kernelLoad p) s s.toMod) ∧
    (s.cmdWords p 0x100 = some ws → s.loadAhead p cl (bits (w 2) 4 0) = false → bits (w 3) 55 0 ≠ 0 → ∀ hb ib,
      let image := bits (w 3) 55 0
      let one := s.toMod.touchRead (s.queueSector p.q) image 128
      let hdr := wordsOf 16 hb
      let len := bits (wordAt hdr 1) 15 0
      let two := one.touchRead (s.queueSector p.q) (image + 128) (8 * len)
      s.holdsOff (s.queueSector p.q) false image 128 = false → one.holdsOff (s.queueSector p.q) false (image + 128) (8 * len) = false →
      one.readPhys (s.queueSector p.q) image 128 = .ok hb → headerFault hdr = none → kernelPages len ≤ (one.cluster cl).freePages →
      two.readPhys (s.queueSector p.q) (image + 128) (8 * len) = .ok ib →
      (∀ i < len, insnOk (bit (wordAt hdr 0) 42) len i (wordAt (wordsOf len ib) i) = true) →
      Becomes (.kernelLoad p) s ((two.updCluster cl (fun c =>
        { c with slots := Table.set none c.slots (bits (w 2) 4 0) (some (kernelOf hdr (wordsOf len ib))) })).endCmd p 0 0 (kernelPages len))) ∧
    (s.cmdWords p 0x101 = some ws → (s.flight p).bind Flight.image = some k → s.badLaunch p ws cl (some k) = none →
      bits (w 2) 12 5 = 2 ^ core.val → (s.core id).st = .idle → (s.core id).hold = none → (s.core id).saved = none → (s.core id).queue = [] →
      Ends (.kernelLaunch p) s (fun m =>
        (m.core id).st = .running ∧ (m.core id).pc = k.entry ∧ (m.core id).kernel = some k ∧ (m.core id).launch = some p ∧
        (m.core id).slot = bits (w 2) 4 0 ∧ (m.core id).bank = bit (w 2) 13 ∧ (m.core id).opCache = bit (w 2) 14 ∧
        (m.core id).reg 31 = BitVec.ofNat 64 id ∧ (m.core id).reg 30 = BitVec.ofNat 64 core.val ∧
        (∀ i, i < bits (w 2) 20 16 → i < 16 → (m.core id).reg (Fin.ofNat 32 (1 + i)) = w (4 + i)) ∧
        (∀ j, j ≠ id → m.core j = s.core j) ∧
        m = { (s.toMod.running p (.launch (BitVec.ofNat 8 (2 ^ core.val)) 0 0 [] false)) with cores := m.cores })) ∧
    (s.cmdWords p 0x102 = some ws → bit (w 2) 17 = true → Becomes (.kernelPreempt p) s
      ((s.toMod.releaseHold p.q ((bitsSet (bits (w 2) 12 5) 8).map (cl * 8 + ·)) (fun _ => true)).endCmd p 0 0 0)) ∧
    (s.cmdWords p 0x102 = some ws → bit (w 2) 17 = false → bits (w 2) 12 5 = 2 ^ core.val → (s.core id).hold = none → (s.core id).st = .idle →
      Ends (.kernelPreempt p) s (fun m => m.core id = { s.core id with hold := some p } ∧ ∀ j, j ≠ id → m.core j = s.core j)) ∧
    (s.cmdWords p 0x103 = some ws → Becomes (.tokenPost p) s
      ((s.toMod.sendPost ((w 2).setWidth 18) (bits (w 2) 47 32) (s.queueSector p.q)).endCmd p 0 0 0))

/-- R286, R289, R294, R295, R78: MOVE, FILL and MOVE_LIST put their first sound descriptor on the cluster's movers at START_BLOCK; a START_BLOCK past the end is
complete at once; a block of a command is counted once its bytes are written, with ORDERED_VISIBLE only the next one in order can be, and the last ends the command
with its blocks as PROGRESS; FLUSH_VISIBLE flushes the ports it names and replies how many. -/
def Claims.MoveCommands : Prop :=
  ∀ (s : State) (p : PktRef) (ws : List Word) (f : Flight) (j k : MoveJob) (start block : Nat) (m : Mod) (ports : List (Nat × Nat)),
    let w := wordAt ws
    let desc := (ws.drop 8).take 8
    let d := Desc.ofWords desc
    let job : MoveJob := { serial := 0, pc := 0, parts := [MovePart.first desc 0 0], next := none, total := d.blocks, listPost := none }
    (descFault desc = none → ∀ i op, (i = Instr.move p ∧ op = 0x200 ∧ d.op = 0) ∨ (i = Instr.fill p ∧ op = 0x202 ∧ d.op = 1) →
      s.cmdWords p op = some ws →
      (bits (w 2) 31 0 < d.blocks → Becomes i s (s.toMod.updFlight p (fun f =>
        { f with stage := .running, work := .move job (bits (w 2) 31 0), progress := bits (w 2) 31 0 }))) ∧
      (d.blocks ≤ bits (w 2) 31 0 → Becomes i s (s.toMod.endCmd p 0 0 d.blocks))) ∧
    (s.cmdWords p 0x201 = some ws → ∀ first,
      let far := bits (w 3) 55 0
      let job : MoveJob := { serial := 0, pc := 0, parts := [MovePart.first first 0 0], next := listNext first far 0 0, total := (Desc.ofWords first).blocks
                             listPost := none }
      s.toMod.readDesc (s.queueSector p.q) far = (m, .ok first) → listFault first 0 = none →
      Becomes (.moveList p) s (m.updFlight p (fun f =>
        { f with stage := .running, work := .move job (bits (w 2) 31 0), progress := leadingBlocks job (bits (w 2) 31 0) }))) ∧
    (s.flight p = some f → f.stage = .running → f.work = .move j start → s.moversRun = true →
      (start ≤ block → (pktOrdered f.words = true → block = leadingBlocks j start) →
        s.toMod.jobBlock (queueNum p.q / 128) (s.queueSector p.q) start block j = .ok (m, k, ports) →
        Becomes (.moveBlockDone (.cmd p) block) s
          ((m.updFlight p (fun f => { f with work := .move k start, progress := leadingBlocks k start })).noteWrites p ports)) ∧
      (pktOrdered f.words = true → block ≠ leadingBlocks j start → Becomes (.moveBlockDone (.cmd p) block) s s.toMod) ∧
      (∀ x, j.parts = [x] → j.next = none → x.finished start = true → (Desc.ofWords x.desc).post = false →
        Becomes (.moveComplete (.cmd p)) s
          ((s.toMod.updFlight p (fun f => { f with work := .move { j with parts := [] } start, progress := j.total })).endCmd p 0 0 j.total))) ∧
    (s.cmdWords p 0x203 = some ws → Becomes (.flushVisible p) s
      ((s.toMod.noteWrites p ((bitsSet (bits (w 2) 7 0) 8).map (fun k => (k, (s.pciePort k).aptBase)))).endCmd p 0 0 (popCount (bits (w 2) 7 0) 8)))

/-- R288, R289, R318: a command that wrote through one port and ends is not replied: a zero-length read goes out on that port under its function with its lowest free tag, and the reply
follows the read's completion. -/
def Claims.FlushBeforeReply : Prop :=
  ∀ (s : State) (p : PktRef) (f : Flight) (port : PcieId) (pa tag : Nat) (data : List Byte) (ok : Bool) (status detail progress : Nat),
    s.flight p = some f → (∀ u ∈ s.upstream, u.flush ≠ some (.cmd p)) →
    let fn := s.outFn port pa
    let read : Upstream := { port := port, tag := some tag, fn := fn, gen := (s.fn port fn).gen, req := .kd, pa := pa, n := 0, write := none, flush := some (.cmd p), entry := none }
    ((∀ st d k, f.work ≠ .flushing st d k) → f.ports = [(port.val, pa)] → s.flushGoes port pa = true → s.upstreamTag port = some tag →
      s.toMod.endCmd p status detail progress =
        { (s.toMod.updFlight p (fun f => { f with stage := .running, work := .flushing status detail progress, ports := [] })).emit
            (.aperture port fn 2 (s.busOf port (pa - tierBase 2)).2 tag 0 none) with upstream := s.upstream ++ [read] }) ∧
    (f.work = .flushing status detail progress → f.ports = [] → s.toMod.flushEnd p = s.toMod.replyNow p status detail progress) ∧
    (tag < 2 ^ 14 → (∀ x ∈ s.queues.map Prod.snd ++ s.mqs.map Prod.snd ++ [s.remoteQ], ∀ g ∈ x.flights, ∀ k n, g.work ≠ .busy k n) →
      Becomes (.pcieCompletion port (BitVec.ofNat 14 tag) ok data) { s with upstream := [read] }
        (Mod.flushed { s.toMod with upstream := [] } (.cmd p)))

/-- R61, R65 to R68, R78, R81, R286, R288, R289, R294, R295, R305, R306, R318: the kernel commands and the move commands, and the flush before their reply. -/
def Obligations.KernelCommands : Prop := Claims.KernelRequests ∧ Claims.MoveCommands ∧ Claims.FlushBeforeReply

/-- R46 to R49, R337: the commands of a staged set. STAGE_BEGIN opens the lowest free set for its issuer; STAGE_WRITE appends its entries; STAGE_CHECK finds no
conflict and the set is CHECKED, or names the first; APPLY_AT arms a CHECKED set at least 64 ticks ahead while the beacon is locked; STAGE_DISCARD empties an
open set. -/
def Claims.StagingCommands : Prop :=
  ∀ (s : State) (p : PktRef) (ws : List Word) (who : Issuer),
    let w := wordAt ws
    let i := bits (w 2) 1 0
    let x := s.set i
    (s.cmdWords p 0x400 = some ws → s.issuer p.q = some who → (∀ k < 4, (s.set k).st = .empty) →
      Becomes (.stageBegin p) s ((s.toMod.setSet 0 { StagedSet.reset with st := .opened, owner := some who }).endCmd p 0 0 0)) ∧
    (s.ownsSet p i = false → (s.cmdWords p 0x401 = some ws → Becomes (.stageWrite p) s (s.toMod.endCmd p 0x0302 16 0)) ∧
      (s.cmdWords p 0x402 = some ws → Becomes (.stageCheck p) s (s.toMod.endCmd p 0x0302 16 0)) ∧
      (s.cmdWords p 0x403 = some ws → Becomes (.applyAt p) s (s.toMod.endCmd p 0x0302 16 0)) ∧
      (s.cmdWords p 0x404 = some ws → Becomes (.stageDiscard p) s (s.toMod.endCmd p 0x0302 16 0))) ∧
    (s.ownsSet p i = true →
    (s.cmdWords p 0x401 = some ws → (x.st = .opened ∨ x.st = .checked) → x.entries.length + bits (w 2) 14 8 ≤ 4096 →
      (∀ e ∈ stageEntries ws, s.notGranted x.owner e = false) →
      Becomes (.stageWrite p) s ((s.toMod.setSet i { x with st := .opened, entries := x.entries ++ (List.range (bits (w 2) 14 8)).map (fun e =>
        StageEntry.write ((w (8 + 4 * e)).setWidth 56) (w (9 + 4 * e)) (w (10 + 4 * e))) }).endCmd p 0 x.entries.length
          (x.entries.length + bits (w 2) 14 8))) ∧
    (s.cmdWords p 0x402 = some ws → (x.st = .opened ∨ x.st = .checked) →
      (s.toMod.checkSets [i] = none → Becomes (.stageCheck p) s ((s.toMod.setSet i { x with st := .checked }).endCmd p 0 0 x.entries.length)) ∧
      (∀ c, s.toMod.checkSets [i] = some c → Becomes (.stageCheck p) s
        ((s.toMod.setSet i { x with st := .opened, firstConflict := some c.2 }).endCmd p 0x0204 c.2 (c.2 + 1)))) ∧
    (s.cmdWords p 0x403 = some ws → x.st = .checked →
      (s.beacon.locked = true → s.bt + 65536 ≤ (w 3).toNat → (w 3).toNat ≤ s.bt + 2 ^ 36 → s.clashingSet i (w 3).toNat = none →
        Becomes (.applyAt p) s ((s.toMod.setSet i { x with st := .armed, instant := w 3, apply := some p, finalChecked := false }).running p
          (.apply (Fin.ofNat 4 i)))) ∧
      (s.beacon.locked = false → Becomes (.applyAt p) s (s.toMod.endCmd p 0x0502 0 0)) ∧
      (s.beacon.locked = true → (w 3).toNat < s.bt + 65536 → Becomes (.applyAt p) s (s.toMod.endCmd p 0x0501 0 0)) ∧
      (s.beacon.locked = true → s.bt + 2 ^ 36 < (w 3).toNat → Becomes (.applyAt p) s (s.toMod.endCmd p 0x0507 0 0))) ∧
    (s.cmdWords p 0x404 = some ws → (x.st = .opened ∨ x.st = .checked) →
      Becomes (.stageDiscard p) s ((s.toMod.setSet i StagedSet.reset).endCmd p 0 0 0)))

/-- R50, R51: with one set armed, its final check 32 ticks before its instant marks it sound or empties it with the conflict in its reply; at the instant a
sound set is applied, and its end is replied with the entries applied. -/
def Claims.StagedSetsApply : Prop :=
  ∀ (s : State) (k : Fin 4),
    let x := s.set k
    (∀ j : Fin 4, j ≠ k → (s.set j).st = .empty) →
    (x.st = .armed → x.finalChecked = false → x.instant.toNat ≤ s.bt + 32768 →
      (s.toMod.checkSets [k.val] = none → Becomes .stageFinalCheck s (s.toMod.setSet k { x with finalChecked := true })) ∧
      (∀ c, s.toMod.checkSets [k.val] = some c → Becomes .stageFinalCheck s (s.toMod.leaveSet c.1 2 0x0204 c.2 0))) ∧
    (x.st = .armed → x.finalChecked = true → x.instant.toNat ≤ s.bt → Becomes .stageApply s (s.toMod.applySet k)) ∧
    (x.st = .applying → x.fencedSite = none → (∀ t, x.owner = some (.sector t) → (s.sector t).st ≠ 4) →
      Becomes .stageApplyDone s (s.toMod.leaveSet k 0 0 0 x.applied))

/-- R48, R457, R305: a set that ends is empty, the event is recorded, and its APPLY_AT gets its reply; the other sets stay. -/
def Claims.SetsLeave : Prop :=
  ∀ (s : State) (k : Fin 4), let x := s.set k
    x.st = .applying → x.fencedSite = none → x.apply = none → (∀ t, x.owner = some (.sector t) → (s.sector t).st ≠ 4) → (∀ j : Fin 4, j ≠ k → (s.set j).st ≠ .applying) →
    Ends .stageApplyDone s (fun m => m.set k = StagedSet.reset ∧ (∀ j, j ≠ k.val → m.set j = s.set j) ∧ m.nextSeq = s.nextSeq + 1 ∧
      ∃ r, Table.get none m.events (s.nextSeq.toNat % 4096) = some r ∧ r.cls = 0x09 ∧ r.sub = 0 ∧ r.bt = s.beacon.bt ∧ r.seq = s.nextSeq)

/-- R46 to R51, R305, R337, R457: the life of a staged set. -/
def Obligations.Staging : Prop := Claims.StagingCommands ∧ Claims.StagedSetsApply ∧ Claims.SetsLeave

/-- R172, R177, R188 to R192, R305: the region and mooring commands write their table entry with VALID, or clear it, and reply its number; a create that meets a
condition of R177 writes nothing and replies the condition. -/
def Obligations.TableCommands : Prop :=
  ∀ (s : State) (p : PktRef) (ws : List Word),
    let w := wordAt ws
    let n := bits (w 2) 11 0
    let k := bits (w 2) 9 0
    let r : Region := { w0 := (w 3 &&& ~~~0x2008000#64) ||| 1, w1 := w 4, w2 := w 5, w3 := w 6 &&& 0xFFFFFFFF#64, chans := [] }
    let x : Mooring := { w0 := w 3 ||| 8, w1 := w 4, w2 := w 5, w3 := w 6 }
    (s.cmdWords p 0x500 = some ws → bit (w 2) 12 = false → bit (w 2) 13 = false → (s.region n).valid = false →
      s.regionsUsed r.sector < bits (s.quotaReg r.sector) 20 8 →
      let check := (s.toMod.setRegion n { r with chans := s.listOf r }).firstCondition n
      (check = none → Becomes (.regionSet p) s ((s.toMod.writeRegion n r).endCmd p 0 n 0)) ∧
      (∀ c, check = some c → Becomes (.regionSet p) s (s.toMod.endCmd p 0x0205 c 0))) ∧
    (s.cmdWords p 0x500 = some ws → bit (w 2) 12 = true → (s.region n).valid = true → (s.region n).preserve = false → s.mooringIn (s.region n) = none →
      Becomes (.regionSet p) s (((s.toMod.setRegion n Region.reset).running p (.busy 1 n)).settleDrains)) ∧
    (s.cmdWords p 0x503 = some ws → (s.region n).valid = true → ∃ y, Becomes (.preserveMark p) s ((s.toMod.setRegion n y).endCmd p 0 0 0) ∧
      y.preserve = bit (w 2) 12 ∧ y.label = bits (w 2) 63 32 ∧ y.base = (s.region n).base ∧ y.size = (s.region n).size ∧
      y.sector = (s.region n).sector ∧ y.key = (s.region n).key ∧ y.valid = true) ∧
    (s.cmdWords p 0x501 = some ws → bit (w 2) 10 = false → (s.mooring k).valid = false → x.reservedValue = false →
      s.mooringsUsed x.sector < bits (s.quotaReg x.sector) 31 21 → s.moored x = true → s.moorings.find? (fun y => y.2.valid && y.2.clashes x) = none →
      Becomes (.mooringSet p) s ((s.toMod.setMooring k x).endCmd p 0 k 0)) ∧
    (s.cmdWords p 0x502 = some ws → (s.mooring k).valid = true →
      Becomes (.mooringClear p) s (((s.toMod.setMooring k Mooring.reset).running p (.busy 2 k)).settleDrains))
/-- R334 to R336, R292, R301, R340, R305: a sector's life. SECTOR_CREATE that meets no refusal gives fresh keys, makes the sector CREATING with the packet's fields
and waits for its module-local instant; a refusal is replied and nothing else changes; at the instant the sector is activated and its create replied;
SECTOR_ASSIGN of clusters that are the sector's already is done at once, of what is taken, or of PD cores to an attached sector, it is refused, and else it waits for
its instant;
SECTOR_TEARDOWN of a FREE sector is done at once, of an ACTIVE one begins the teardown; SCRUB_COMPLETE releases everything, frees the sector and replies with
the time since its keys went. -/
def Claims.SectorLife : Prop :=
  ∀ (s : State) (p : PktRef) (ws : List Word) (f : Flight) (t : Word) (sector : SectorId),
    let w := wordAt ws
    let n := bits (w 2) 3 0
    (s.cmdWords p 0x020 = some ws → s.boot.phase = 7 → (s.sector n).st ≠ 4 → (s.sector n).st ≠ 5 →
      (s.createFault n ws = none → Becomes (.sectorCreate p) s
        (let m := (s.sectorKeys n).sectorState n 1 0x020
         let x : Sector := { m.sector n with
          attached := bit (w 2) 4, hostPort := bits (w 2) 7 5, firstQueue := bits (w 3) 13 0, pkey := bits (w 2) 23 8, words := ws }
         ((m.setSector n x).running p (.instant (s.localInstant p))).updFlight p (fun f => { f with progress := 0 }))) ∧
      (∀ e, s.createFault n ws = some e → Becomes (.sectorCreate p) s (s.toMod.endCmd p e.1 e.2 0))) ∧
    (s.cmdWords p 0x021 = some ws →
      ((s.sector n).st = 0 → Becomes (.sectorTeardown p) s (s.toMod.endCmd p 0 0 0)) ∧
      ((s.sector n).st = 2 ∨ (s.sector n).st = 3 → Becomes (.sectorTeardown p) s
        (((s.toMod.setSector n { s.sector n with teardowns := (s.sector n).teardowns ++ [p] }).running p .none).startTeardown n))) ∧
    (s.cmdWords p 0x022 = some ws → (s.sector n).st = 2 → bit (w 2) 4 = false → (bits (w 2) 10 8 = 0 → s.releasing (assignMask ws 0) = false) →
      let barred := bits (w 2) 10 8 = 1 ∧ (s.sector n).attached = true ∧ assignMask ws 1 ≠ []
      (barred → Becomes (.sectorAssign p) s (s.toMod.endCmd p 0x0104 24 0)) ∧
      (¬ barred → bits (w 2) 10 8 < 6 → (assignMask ws (bits (w 2) 10 8)).find? (fun i => s.taken (bits (w 2) 10 8) i n) = none →
        (bits (w 2) 10 8 = 0 → s.settled (assignMask ws 0) n = false) →
        Becomes (.sectorAssign p) s (s.toMod.updFlight p (fun f => { f with stage := .running, work := .instant (s.localInstant p), progress := 0 }))) ∧
      (bits (w 2) 10 8 = 0 → s.settled (assignMask ws 0) n = true → Becomes (.sectorAssign p) s (s.toMod.endCmd p 0 0 0)) ∧
      (¬ barred → bits (w 2) 10 8 < 6 → (bits (w 2) 10 8 = 0 → s.settled (assignMask ws 0) n = false) → ∀ i, (assignMask ws (bits (w 2) 10 8)).find? (fun i => s.taken (bits (w 2) 10 8) i n) = some i →
        Becomes (.sectorAssign p) s (s.toMod.endCmd p 0x0202 i 0))) ∧
    (s.flight p = some f → f.work = .instant t → f.progress = 0 → t.toNat ≤ s.bt →
      let k := bits (wordAt f.words 2) 3 0
      (pktOpc f.words = 0x020 → (((s.activate k).endCmd p 0 0 0).sector k).teardowns = [] →
        Becomes (.moduleLocalInstant p) s ((s.activate k).endCmd p 0 0 0)) ∧
      (pktOpc f.words = 0x022 → Becomes (.moduleLocalInstant p) s
        ((s.assignNow f.words).endCmd p 0 0 (assignCount f.words (bits (wordAt f.words 2) 10 8)))) ∧
      (pktOpc f.words = 0x701 → Becomes (.moduleLocalInstant p) s ((s.phaseNow f.words).endCmd p 0 0 0))) ∧
    ((s.sector sector).st = 5 → (s.sector sector).create = none → (s.sector sector).teardowns = [] →
      let m := ((s.releaseSector sector).sectorState sector 0 0).setSector sector Sector.reset
      Becomes (.scrubComplete sector) s
        (({ m with scrubLast := min ((s.bt - (s.sector sector).keysGone.toNat) / 1000) 0xFFFFFFFF } : Mod).measureSector sector)) ∧
    (∀ i ch, s.fills[i]? = some (.channel ch) → Becomes (.deferredFillDone i) s
      (({ s.toMod with fills := s.fills.eraseIdx i } : Mod).markChannel (2560 + ch) false)) ∧
    (∀ i a b, s.fills[i]? = some (.granules a b) → Becomes (.deferredFillDone i) s { s.toMod with fills := s.fills.eraseIdx i })

/-- R334, R335, R352, R269: an activated sector owns exactly the clusters its create names besides what it had, its PKEY is valid on every ED, its first queue
is ENABLED, and it is ACTIVE. -/
def Claims.ActivationGrants : Prop :=
  ∀ (s : State) (p : PktRef) (f : Flight) (t : Word), s.flight p = some f → f.work = .instant t → f.progress = 0 → t.toNat ≤ s.bt → pktOpc f.words = 0x020 →
    let k := bits (wordAt f.words 2) 3 0
    let x := s.sector k
    x.reserved = [] → x.teardowns = [] → x.attached = false → x.words = f.words → x.firstQueue < 16384 →
    Ends (.moduleLocalInstant p) s (fun m =>
      (m.sector k).st = 2 ∧
      (∀ c < 128, (m.cluster c).sector = if (createMask f.words 0).contains c then some (Fin.ofNat 16 k) else (s.cluster c).sector) ∧
      (∀ c < 1024, (m.core c).sector = if (createMask f.words 0).contains (c / 8) then some (Fin.ofNat 16 k) else (s.core c).sector) ∧
      (∀ e < 4, bits (m.pkeyReg e k) 15 0 = x.pkey % 65536 ∧ bit (m.pkeyReg e k) 16 = true))

/-- R269, R292, R301, R305, R334 to R336, R340, R352: the life of a sector, and what its activation grants. -/
def Obligations.Sectors : Prop := Claims.SectorLife ∧ Claims.ActivationGrants

/-- R345, R347 to R351, R305: sealed models and sessions. SEALED_KEY_INSTALL of address 0 empties the slot; of a blob that checks out on an authenticated
session of the sector, keeps the model under the unwrapped key; SEALED_LOAD of a fitting range begins at FIRST_CHUNK; a sound chunk is written as plaintext and
the last ends the load, a chunk whose tag fails is zero-filled and ends it; a finding that is not what the bytes give is no event; sessions open, end, time out and are bound; a commit never lowers a counter. -/
def Claims.ModelsAndSessions : Prop :=
  ∀ (s : State) (p : PktRef) (ws : List Word) (sec : SectorId) (ok : Bool),
    let w := wordAt ws
    let k := sec.val * 8 + bits (w 2) 2 0
    s.queueSector p.q = some sec →
    (s.cmdWords p 0x601 = some ws → s.loading sec (bits (w 2) 2 0) = false →
      (bits (w 3) 55 0 = 0 → Becomes (.sealedKeyInstall p ok) s (({ s.toMod with models := Table.set none s.models k none } : Mod).endCmd p 0 0 0)) ∧
      (bits (w 3) 55 0 ≠ 0 → ∀ x bs, s.sessions.find? (fun x => x.id == (w 2).extractLsb' 32 32) = some x → x.owner = .sector sec → x.authed = true →
        s.holdsOff (some sec) false (bits (w 3) 55 0) (bits (w 4) 15 0) = false →
        let one := s.toMod.touchRead (some sec) (bits (w 3) 55 0) (bits (w 4) 15 0)
        one.readPhys (some sec) (bits (w 3) 55 0) (bits (w 4) 15 0) = .ok bs →
        let key := unwrapBlob x.ems sec bs
        (one.blobFault bs = true → Becomes (.sealedKeyInstall p ok) s (one.endCmd p 0x0306 3 0)) ∧
        (one.blobFault bs = false →
          let v : Model := { modelId := bytesWord ((bs.drop 8).take 8), maxChunks := numOf ((bs.drop 24).take 4), key := key.1, session := (w 2).extractLsb' 32 32 }
          (key.2 = true → Becomes (.sealedKeyInstall p true) s (({ one with models := Table.set none s.models k (some v) } : Mod).endCmd p 0 0 0)) ∧
          (key.2 = false → Becomes (.sealedKeyInstall p false) s (one.endCmd p 0x0306 3 0)) ∧
          (ok ≠ key.2 → Becomes (.sealedKeyInstall p ok) s s.toMod)))) ∧
    (s.cmdWords p 0x602 = some ws → ∀ v, Table.get none s.models k = some v →
      bits (w 2) 63 32 + bits (w 5) 31 0 ≤ v.maxChunks →
      s.loadFits sec (bits (w 4) 55 0 + bits (w 2) 63 32 * 4194304) (bits (w 4) 55 0 + (bits (w 2) 63 32 + bits (w 5) 31 0) * 4194304)
        (s.regions.length + 1) = true →
      Becomes (.sealedLoad p) s (s.toMod.updFlight p (fun f =>
        { f with stage := .running, work := .busy 5 (bits (w 2) 63 32), progress := bits (w 2) 63 32 }))) ∧
    (∀ f i v bs m, s.flight p = some f → f.words = ws → f.work = .busy 5 i → Table.get none s.models k = some v →
      let src := bits (w 3) 55 0 + i * (chunkBytes + 64)
      let dst := bits (w 4) 55 0 + i * chunkBytes
      let one := s.toMod.touchRead (some sec) src (chunkBytes + 16)
      s.holdsOff (some sec) false src (chunkBytes + 16) = false → one.readPhys (some sec) src (chunkBytes + 16) = .ok bs →
      let chunk := openChunk v chunkBytes i bs
      (ok ≠ chunk.2 → Becomes (.sealedChunkDone p ok) s s.toMod) ∧
      (ok = chunk.2 → one.holdsOff (some sec) true dst chunkBytes = false →
      one.writePhys (some sec) dst (if ok then chunk.1 else List.replicate chunkBytes 0) = .ok m →
      Becomes (.sealedChunkDone p ok) s
        (if ok = false then m.endCmd p 0x0307 (i % 65536) i
         else if i + 1 = bits (w 2) 63 32 + bits (w 5) 31 0 then m.endCmd p 0 0 (i + 1)
         else m.updFlight p (fun f => { f with stage := .running, work := .busy 5 (i + 1), progress := i + 1 }))))

/-- R345, R347, R348: SPDM requests are answered: a session opens for the owner of its path while fewer than 32 live, on a fabric link in place of the port's one,
and ends by request or heartbeat; a
bound session is its sector's; an anti-rollback counter moves only up, to the version that runs. -/
def Claims.Sessions : Prop :=
  ∀ (s : State) (path : SpdmPath) (id : BitVec 32) (authed : Bool) (o : Issuer) (sector : SectorId) (index : BitVec 8) (d : BitVec 384)
    (session : Option (BitVec 32)) (components : BitVec 4),
    ((∀ port, path ≠ .link port) → spdmOwner path = some o → s.responderSessions.length < 32 → (∀ x ∈ s.sessions, x.id ≠ id) →
      Becomes (.spdmMessage path (.openSession id authed)) s { s.toMod with
        sessions := s.sessions ++ [{ id := id, owner := o, authed := authed, link := none, ems := 2 ^ 32 + s.free }], free := s.free + 1
        out := .answer 1 [3, id.toNat] :: s.out }) ∧
    (∀ port, (∀ x ∈ s.sessions, x.link ≠ some port → x.id ≠ id) → Becomes (.spdmMessage (.link port) (.openSession id authed)) s { s.toMod with
        sessions := s.sessions.filter (fun x => x.link != some port) ++ [{ id := id, owner := .mgmt, authed := authed, link := some port, ems := 2 ^ 32 + s.free }]
        free := s.free + 1, out := .answer 1 [3, id.toNat] :: s.out }) ∧
    Becomes (.spdmMessage path (.endSession id)) s { s.toMod with
      sessions := s.sessions.filter (fun x => x.id != id), out := .answer 1 [4, id.toNat] :: s.out } ∧
    (s.measurement index.toNat session = some d → Becomes (.spdmMessage path (.measurements index session)) s
      { s.toMod with out := .answer 1 [1, index.toNat, d.toNat] :: s.out }) ∧
    Becomes (.spdmHeartbeatTimeout id) s { s.toMod with sessions := s.sessions.filter (fun x => x.id != id) } ∧
    Becomes (.kprSessionBind id sector) s { s.toMod with
      sessions := s.sessions.map (fun x => if x.id == id && x.owner == .mgmt && x.link.isNone then { x with owner := .sector sector } else x) } ∧
    Ends (.secSvnCommit components) s (fun m =>
      (∀ c < 4, Table.get 0 m.svnFused c =
        if components.getLsbD c then max (Table.get 0 s.svnFused c) (Table.get 0 s.svnRunning c) else Table.get 0 s.svnFused c) ∧
      m.svnRunning = s.svnRunning ∧ m.regions = s.regions ∧ m.dram = s.dram)

/-- R305, R345, R347 to R351: sealed models and secure sessions. -/
def Obligations.Models : Prop := Claims.ModelsAndSessions ∧ Claims.Sessions

/-- R359, R360, R303, R394, R304, R305, R18: PHASE_TABLE sets the marked entries of its sector's table and leaves the others; PHASE_SET waits for its module-
local instant; TEST_RUN of a cluster with no open queue runs until TEST_DONE, which replies the patterns run, or the fault and its record; MAP_OUT of an unowned
cluster marks it, of a stack appends to a set, of a lane moves it onto a spare. -/
def Claims.PhasesAndTests : Prop :=
  ∀ (s : State) (p : PktRef) (ws : List Word) (patterns n : Nat) (d : BitVec 16),
    let w := wordAt ws
    (s.cmdWords p 0x700 = some ws → s.issuer p.q = some .mgmt →
      let o := 0x60100 + bits (w 4) 3 0 * 16
      let old := fun (k : Nat) => s.reg kdSite (o + 8 * k) 0x1B1B1B1B1B1B1B1B
      ∃ a b, Becomes (.phaseTable p) s (((s.toMod.setReg kdSite o 0x1B1B1B1B1B1B1B1B a).setReg kdSite (o + 8) 0x1B1B1B1B1B1B1B1B b).endCmd p 0 0 0) ∧
        ∀ q < 8, bits a (8 * q + 7) (8 * q) = (if bit (w 2) (8 * q + 7) then bits (w 2) (8 * q + 4) (8 * q) else bits (old 0) (8 * q + 7) (8 * q)) ∧
          bits b (8 * q + 7) (8 * q) = (if bit (w 3) (8 * q + 7) then bits (w 3) (8 * q + 4) (8 * q) else bits (old 1) (8 * q + 7) (8 * q))) ∧
    (s.cmdWords p 0x701 = some ws → Becomes (.phaseSet p) s (s.toMod.running p (.instant (s.localInstant p)))) ∧
    (s.cmdWords p 0x800 = some ws → bits (w 2) 3 0 = 0 → (∀ x ∈ s.clusterQueues (bits (w 3) 6 0), x.2.st = .free ∨ x.2.st = .disabled) →
      s.underTest 0 (bits (w 3) 6 0) = false → Becomes (.testRun p) s (s.toMod.running p (.busy 6 (bits (w 3) 6 0)))) ∧
    (∀ f, s.flight p = some f → f.work = .busy 6 n → n < 2 ^ 32 →
      Becomes (.testDone p patterns none) s (s.toMod.endCmd p 0 0 patterns) ∧
      let e : Fail := { site := clusterSite n, cls := 0x13, sev := 1, unit := 0x0100 + n % 8, code := 0, addr := 0, detail := d.toNat,
                            sector := s.queueSector p.q, injected := false }
      Becomes (.testDone p patterns (some d)) s ((s.toMod.record e).endCmd p 0x0406 d.toNat patterns)) ∧
    (s.cmdWords p 0x801 = some ws →
      (bits (w 2) 3 0 = 0 → (s.cluster (bits (w 3) 6 0)).sector = none → s.underTest 0 (bits (w 3) 6 0) = false → s.claimed 0 (bits (w 3) 6 0) = false →
        Becomes (.mapOut p) s ((s.toMod.updCluster (bits (w 3) 6 0) (fun c => { c with mappedOut := true, gated := true })).endCmd p 0 0 0)) ∧
      (bits (w 2) 3 0 = 1 → s.stackFitted (bits (w 3) 6 0) = true →
        let x := s.set (bits (w 2) 5 4)
        x.owner = some .mgmt → (x.st = .opened ∨ x.st = .checked) → x.entries.length < 4096 → Becomes (.mapOut p) s
          ((s.toMod.setSet (bits (w 2) 5 4) { x with st := .opened, entries := x.entries ++ [.mapOut 1 (bits (w 3) 6 0)] }).endCmd p 0 x.entries.length 0)))

/-- R409 to R415: NOTICE_ARM makes an entry for its issuer and source, with the level as it stands, and an entry whose watermark is above its level for an up
mark waits; at each epoch every source is sampled and an armed up mark that its level crosses fires once with CROSSINGS 1 and the level. -/
def Claims.Notices : Prop :=
  ∀ (s : State) (p : PktRef) (ws : List Word) (i : Nat) (x : Notice) (moved : List (SectorId × BitVec 32 × BitVec 32)),
    let w := wordAt ws
    let source := bits (w 2) 11 0
    let level := Table.get 0 s.levels source
    (s.cmdWords p 0x802 = some ws → s.issuer p.q = some .mgmt → s.noticeOf .mgmt source = none → bit (w 2) 12 = false → bit (w 2) 13 = false →
      s.notices = [] → bits (w 3) 63 32 ≤ level → level ≤ bits (w 3) 31 0 →
      let x : Notice := {
        source := source, owner := .mgmt, current := level
        up := { armed := true, fired := false, mark := bits (w 3) 31 0, crossings := 0, extreme := 0, bt := 0 }
        down := { armed := true, fired := false, mark := bits (w 3) 63 32, crossings := 0, extreme := 0, bt := 0 } }
      Becomes (.noticeArm p) s (({ s.toMod with notices := [(0, some x)] } : Mod).endCmd p 0 0 0)) ∧
    (s.notices = [(i, some x)] → x.owner = .mgmt → x.up.armed = true → x.up.fired = false → x.down.armed = false → x.down.fired = false →
      let new := Table.get 0 (s.sampleLevels moved) x.source
      let prev := Table.get 0 s.levels x.source
      Ends (.telemetrySample moved) s (fun m => m.levels = s.sampleLevels moved ∧
        ∃ up, Table.get none m.notices i = some { x with current := new, up := up, stale := false } ∧
          up = if prev ≤ x.up.mark ∧ x.up.mark < new then
            { x.up with armed := false, fired := true, crossings := 1, extreme := new, bt := s.beacon.bt } else x.up))
/-- R151 to R156, R158: a chain whose descriptor is illegal faults with ARITH (0x07), one whose ranges leave tile memory with TILE_RANGE (0x03); a chain of one
addition over an accumulator tile set puts each entry's sum with its immediate into the sink, entry by entry in the sink's order. -/
def Obligations.Chains : Prop :=
  ∀ (s : State) (id : CoreId) (x : ChainArgs),
    let c := s.core id
    s.issues id (.chain id x) → c.vecQ + c.chainQ < 16 → c.clear (chainTouch x) = true →
    let d := chainDesc c.tile (x.desc.toNat * 256)
    (d.legal x = false → Becomes (.chain id x) s (s.toMod.coreFault id 0x07 0 c.pc)) ∧
    (d.legal x = true → d.ranges x = false → Becomes (.chain id x) s (s.toMod.coreFault id 0x03 0 c.pc)) ∧
    (c.pc + 1 < c.count → d.legal x = true → d.ranges x = true → x.source = 0 → d.inFmt = 0 → d.outFmt = 0 → d.sr = false → d.redOp = 0 → x.clear = false →
      ∀ st, d.stages = [st] → st.op = 0 → st.bKind = 0 →
      Ends.core (.chain id x) s id (fun y => y = { c with tile := y.tile, chainQ := c.chainQ + 1, pc := c.pc + 1 } ∧
        (∀ b, (∀ o < 32768, splitAddr d.dst o ≠ b) → y.tile.read b = c.tile.read b) ∧
        ∀ e < 8192, streamNum y.tile d.dst (accPos d.colmaj e * 4) 4 =
          fp32.write (fp32.read (fp32.add (c.acc.read (accWord x.acc.val e)).toNat st.b))))

/-- R18, R303 to R305, R359, R360, R394, R409 to R415: phase tables, tests and map-out, and notices. -/
def Obligations.PhasesTestsNotices : Prop := Claims.PhasesAndTests ∧ Claims.Notices

/-- R259, R260, R264, R305: PLAN_LOAD of a sound image puts its steps into the idle engine's plan store and replies their number; PLAN_START on an idle engine
begins the plan at step 0 with the packet's x and p and the counters it asks to clear; behind a running plan, or on a fenced engine, it waits. -/
def Claims.PlanCommands : Prop :=
  ∀ (s : State) (p : PktRef) (ws : List Word),
    let w := wordAt ws
    let e := Fin.ofNat 64 (bits (w 2) 5 0)
    let x := s.engine e
    let image := bits (w 3) 55 0
    let sector := s.queueSector p.q
    (s.cmdWords p 0x300 = some ws → x.active = false → x.queue = [] → ∀ hb sb n t, 1 ≤ n → n ≤ 256 → 1 ≤ t → t ≤ 60000 →
      let one := s.toMod.touchRead sector image 64
      let two := one.touchRead sector (image + 64) (32 * n)
      s.holdsOff sector false image 64 = false → one.holdsOff sector false (image + 64) (32 * n) = false → one.readPhys sector image 64 = .ok hb →
      wordsOf 8 hb = [BitVec.ofNat 64 (0x504C414E + 2 ^ 32 + n * 2 ^ 40), BitVec.ofNat 64 t, 0, 0, 0, 0, 0, 0] →
      two.readPhys sector (image + 64) (32 * n) = .ok sb → (∀ i < n, stepOk i ((stepsOf n (wordsOf (4 * n) sb)).getD i []) = true) →
      Becomes (.planLoad p) s ((two.setEngine e { x with steps := stepsOf n (wordsOf (4 * n) sb), stepTo := t }).endCmd p 0 0 n)) ∧
    (s.cmdWords p 0x301 = some ws →
      ((x.active = true ∨ x.st = .fenced → Becomes (.planStart p) s
          ((s.toMod.running p (.plan e)).setEngine e { x with queue := x.queue ++ [(p, ws)] })) ∧
        (x.active = false → x.st ≠ .fenced → x.steps ≠ [] → ∃ y, Becomes (.planStart p) s ((s.toMod.running p (.plan e)).setEngine e y) ∧
          y = { x with st := .running, step := 0, faultValid := false, failing := false, executed := 0, startBt := s.bt, plan := some p
                       loops := [], x := y.x, p := y.p, tokens := if bit (w 2) 6 then [] else x.tokens
                       arrive := if bit (w 2) 7 then [] else x.arrive } ∧
          (∀ i < 4, Table.get 0 y.x i = bits (w (3 + i / 2)) (32 * (i % 2) + 31) (32 * (i % 2)) ∧
            Table.get 0 y.p i = bits (w (5 + i / 2)) (32 * (i % 2) + 23) (32 * (i % 2))))))

/-- R261 to R263, R265: the steps of a plan that do not send. RECV and WAIT_TOKEN whose counter holds their count subtract it and the next step comes,
WAIT_BEACON whose time has come goes on, and each else waits until PLAN_WAIT_MET finds it so; LOOP moves its index and branches while its counter is not 0; a
SIGNAL to the module itself posts; STEP_TIMEOUT fails a waiting step; a write of EDG_CE_POST raises its counter. -/
def Claims.PlanSteps : Prop :=
  ∀ (s : State) (e : EngineId) (ws : List Word) (counter : Fin 16) (incr : BitVec 16),
    let x := s.engine e
    let w := wordAt ws
    let len := bits (w 0) 63 32
    let aux := bits (w 0) 31 16
    let on := fun (y : Engine) => { y with st := .running, step := x.step + 1, executed := x.executed + 1 }
    let took := fun (i : Instr) (n : Nat) =>
      (n = 2 → bit (w 3) 63 = false → len ≤ Table.get 0 x.arrive (bits (w 1) 63 56) → Ends.engine i s e (fun y => y = on { x with arrive := y.arrive } ∧
        ∀ k, Table.get 0 y.arrive k = Table.get 0 x.arrive k - (if k = bits (w 1) 63 56 then len else 0))) ∧
      (n = 4 → aux ≤ Table.get 0 x.tokens (bits (w 1) 3 0) → Ends.engine i s e (fun y => y = on { x with tokens := y.tokens } ∧
        ∀ k, Table.get 0 y.tokens k = Table.get 0 x.tokens k - (if k = bits (w 1) 3 0 then aux else 0))) ∧
      (n = 6 → (w 3).toNat + (if bit (w 0) 13 then x.startBt else 0) ≤ s.bt → Ends.engine i s e (fun y => y = on x))
    let waits := fun (n : Nat) =>
      (n = 2 ∧ Table.get 0 x.arrive (bits (w 1) 63 56) < len) ∨ (n = 4 ∧ Table.get 0 x.tokens (bits (w 1) 3 0) < aux) ∨
      (n = 6 ∧ s.bt < (w 3).toNat + (if bit (w 0) 13 then x.startBt else 0))
    (x.step + 1 < x.steps.length →
      (∀ i n, (i = Instr.recv e ∧ n = 2) ∨ (i = Instr.waitToken e ∧ n = 4) ∨ (i = Instr.waitBeacon e ∧ n = 6) → s.stepping e n ws →
        took i n ∧ (waits n → Ends.engine i s e (fun y => y = { x with st := .waiting }))) ∧
      (x.st = .waiting → s.working = true → s.fw.edgePause = false → x.failing = false → x.steps[x.step]? = some ws →
        took (.planWaitMet e) (bits (w 0) 3 0) ∧
        (waits (bits (w 0) 3 0) → Becomes (.planWaitMet e) s s.toMod)) ∧
      (s.stepping e 7 ws →
        let c := Table.get 0 x.loops x.step
        let left := (if c = 0 then len else c) - 1
        let go := if left = 0 then x.step + 1 else aux
        bits (w 1) 63 32 ≠ 0 → go < x.steps.length → Ends.engine (.planLoop e) s e (fun y =>
          y = { x with x := y.x, loops := y.loops, step := go, executed := x.executed + 1 } ∧
          (∀ k, Table.get 0 y.loops k = if k = x.step then left else Table.get 0 x.loops k) ∧
          (∀ k, Table.get 0 y.x k = if k = bits (w 0) 9 8 then (Table.get 0 x.x k + bits (w 1) 31 0) % bits (w 1) 63 32 else Table.get 0 x.x k))) ∧
      (s.stepping e 5 ws → bit (w 0) 5 = false → bits (w 2) 23 0 = bits (s.nodeReg (e / 16)) 23 0 → bit (w 3) 62 = false →
        ∃ y, y = on x ∧ Becomes (.planSignal e) s ({ s.toMod.setEngine e y with
          posts := s.posts ++ [{ target := BitVec.ofNat 18 (bits (w 3) 17 0), incr := aux, sector := x.sector }] }))) ∧
    (∀ step : Fin 256, s.working = true → x.active = true → x.step = step → x.failing = false → x.transfers ≠ [] →
      Ends.engine (.stepTimeout e step) s e (fun y =>
        y = { x with failing := true, st := .running, faultCode := 1, faultStep := step, faultValid := true })) ∧
    (x.st ≠ .fenced → Ends.engine (.edgCePost e counter incr) s e (fun y => y = { x with tokens := y.tokens } ∧
      ∀ k, Table.get 0 y.tokens k = if k = counter then min 65535 (Table.get 0 x.tokens k + incr.toNat) else Table.get 0 x.tokens k)) ∧
    (x.st = .fenced → Ends.engine (.edgCePost e counter incr) s e (fun y => y = x))

/-- R261 to R263, R248, R244: a SEND or REDUCE_INTO of one packet's bytes sends them as its WRITE or REDUCE packet, numbered in its flow, and the next step
comes; misaligned or empty ones fail with FORMAT (4); a transfer whose packets are all acknowledged is complete, one of a plan that failed when those sent are,
and with the last one of a plan past its last step, or failed, the plan ends. -/
def Claims.PlanTransfers : Prop :=
  ∀ (s : State) (e : EngineId) (ws : List Word) (bs : List Byte) (t : Transfer),
    let x := s.engine e
    let w := wordAt ws
    let len := bits (w 0) 63 32
    let la := bits (w 1) 55 0
    let ra := bits (w 3) 55 0
    let dst := bits (w 2) 23 0
    let agent := bits (w 2) 29 24
    let f := s.txFlow e dst agent
    let one := s.toMod.touchRead x.sector la len
    (∀ i op, (i = Instr.send e ∧ op = 1) ∨ (i = Instr.planReduceInto e ∧ op = 3) → s.stepping e op ws → bit (w 0) 4 = false → bit (w 0) 5 = false →
      x.transfers = [] →
      (len = 0 ∨ len % (if op = 3 then 128 else 4) ≠ 0 → x.plan = none → x.queue = [] → Ends.engine i s e (fun y =>
        y = { x with st := .faulted, failing := false, faultCode := 4, faultStep := x.step, faultValid := true })) ∧
      (0 < len → len ≤ 4096 → len % 128 = 0 → la % 128 = 0 → ra % 128 = 0 → s.uninjected → one.readPhys x.sector la len = .ok bs →
        bit (w 0) 7 = false → f.unacked.length < 256 →
        Ends i s (fun m =>
          (∃ y : Transfer, (m.engine e).transfers = [y] ∧ y.num = x.nextTransfer ∧ y.len = len ∧ y.sent = 1 ∧ y.reduce = (op == 3)) ∧
          (m.engine e).step = x.step + 1 ∧ (m.engine e).executed = x.executed + 1 ∧ (m.engine e).st = .running ∧
          (∃ k : Entering, m.inbox = s.inbox ++ [k] ∧ k.ed = e.val / 16 ∧ k.port = none ∧ k.vc = (if len ≤ 512 then 3 else 5) ∧
            k.pkt.payload = bs ∧ k.pkt.kind = (if op = 3 then 1 else 0) ∧ k.pkt.dst = dst ∧ k.pkt.dstAgent = agent ∧ k.pkt.addr = ra ∧
            k.pkt.chan = bits (w 1) 63 56 ∧ k.pkt.last = true ∧ k.pkt.srcAgent = e.val ∧ k.pkt.gen = x.gen) ∧
          (∀ j, j ≠ e.val → m.engine j = s.engine j) ∧ m = { one with engines := m.engines, txFlows := m.txFlows, inbox := m.inbox }))) ∧
    (x.transfers = [t] → t.sent = t.total ∨ x.failing = true → x.active = true → s.transferOpen e t.dst t.dstAgent t.num = false → x.plan = none → x.queue = [] →
      Ends.engine (.transferComplete e t.num) s e (fun y =>
        y = { x with transfers := [], failing := false
                     st := if x.failing then .faulted else if x.step < x.steps.length then x.st else .idle }))

/-- R244, R248, R259 to R265, R305: transfer plans, from their load to their last packet. -/
def Obligations.Plans : Prop := Claims.PlanCommands ∧ Claims.PlanSteps ∧ Claims.PlanTransfers

/-- R239 to R243: a packet at an ED is delivered when it names the module, is dropped and counted when its hops are used up, when no entry leads on or when it
has waited too long, leaves by the listed ACTIVE port that its SEQ and agent choose, one hop fewer if it came by a port, and waits while none is ACTIVE; one that
waited leaves before any that came later. -/
def Claims.Routing : Prop :=
  ∀ (s : State) (ed : EdId) (e : Entering) (own : Nat) (w : Word), e.ed = ed.val →
    let m : Mod := { s.toMod with inbox := [] }
    let act := (routePorts w).filter s.portActive
    let pick := act.getD ((e.pkt.seq / 16 + e.pkt.srcAgent) % act.length) 0
    let out : TPkt := if e.port = none then e.pkt else { e.pkt with w0 := e.pkt.w0 - (1#64 <<< 48) }
    ((∀ r ∈ s.routeWait, r.ed = ed.val → s.routable r = false) → s.inbox = [e] → e.pkt.malformed = false → e.pkt.dst ≠ 0xFFFFFF → s.nodeId ed = some own → (e.port = none → s.holdoff = false) →
      (e.pkt.dst = own → Becomes (.transportLookup ed) s { m with arrived := s.arrived ++ [e] }) ∧
      (e.pkt.dst ≠ own → e.port ≠ none →
        (e.pkt.hops = 0 → Becomes (.transportLookup ed) s
          (m.updEd ed (fun d => { d with hopExpired := min 0xFFFF (d.hopExpired + 1) }))) ∧
        (e.pkt.hops ≠ 0 → s.route own e.pkt.dst = none → Becomes (.transportLookup ed) s
          (m.updEd ed (fun d => { d with noRoute := min 0xFFFF (d.noRoute + 1) })))) ∧
      (e.pkt.dst ≠ own → e.port = none ∨ e.pkt.hops ≠ 0 → e.vc ≠ 2 → e.sector = none → s.route own e.pkt.dst = some w →
        (act = [] → Becomes (.transportLookup ed) s { m with routeWait := s.routeWait ++ [{ e with pkt := out }] }) ∧
        (act ≠ [] → bits w 27 26 = 0 → Becomes (.transportLookup ed) s (m.sendLink pick e.vc none out)))) ∧
    (s.routeWait = [e] → s.nodeId ed = some own → s.route own e.pkt.dst = some w → act ≠ [] → bits w 27 26 = 0 → e.vc ≠ 2 → e.sector = none →
      Becomes (.transportLookup ed) s (({ s.toMod with routeWait := [] } : Mod).sendLink pick e.vc none e.pkt)) ∧
    (s.routeWait = [e] → e.port ≠ none → Becomes (.routeWaitTimeout ed) s
      (({ s.toMod with routeWait := [] } : Mod).updEd ed (fun d => { d with noRoute := min 0xFFFF (d.noRoute + 1) }))) ∧
    Becomes .originationHoldoffEnd s { s.toMod with holdoff := false }

/-- R244, R245, R248, R249, R262, R385: the first packet of an unknown flow, of an engine's sector and with its PKEY, has its effect once and, having LAST, is
acknowledged at once: a WRITE stores its payload, a REDUCE combines it line by line, both raise arrival counter CHAN by its bytes, a SIGNAL posts. A packet of
another PKEY is dropped and counted; a fenced engine's is dropped. -/
def Claims.PacketsReceived : Prop :=
  ∀ (s : State) (ed : EdId) (e : Entering) (sec : SectorId) (m : Mod), e.ed = ed.val → s.arrived = [e] → s.working = true → e.pkt.dstAgent < 64 →
    let one : Mod := { s.toMod with arrived := [] }
    let a := e.pkt.dstAgent
    let x := s.engine a
    let k := s.pkeyReg ed sec
    let acked := fun (n : Mod) =>
      (∃ y : Entering, n.inbox = s.inbox ++ [y] ∧ y.ed = ed.val ∧ y.port = none ∧ y.pkt.kind = 3 ∧ y.pkt.dst = e.pkt.src ∧
        y.pkt.dstAgent = e.pkt.srcAgent ∧ y.pkt.srcAgent = a ∧ y.pkt.gen = e.pkt.gen ∧ y.pkt.ackSeq = (e.pkt.seq + 1) % 2 ^ 32) ∧
      (∃ f, n.rxFlow e.pkt.src e.pkt.srcAgent a = some f ∧ f.gen = e.pkt.gen ∧ f.base = (e.pkt.seq + 1) % 2 ^ 32 ∧ f.got = [] ∧ f.since = 0)
    let counted := fun (n : Mod) => n = { m with engines := n.engines, rxFlows := n.rxFlows, inbox := n.inbox } ∧ acked n ∧
      ∀ j, n.engine j = if j = a then { m.engine a with arrive := (n.engine a).arrive } else m.engine j
    let rows := [(Instr.writePacket ed, 0), (Instr.reducePacket ed, 1), (Instr.signalPacket ed, 2)]
    (∀ r ∈ rows, e.pkt.kind = r.2 →
      (x.st = .fenced → Becomes r.1 s one) ∧
      (x.st ≠ .fenced → x.sector = some sec → (bit k 16 = false ∨ bits k 15 0 ≠ e.pkt.pkey) →
        Becomes r.1 s (one.updEd ed (fun d => { d with pkeyDrop := min 0xFFFF (d.pkeyDrop + 1) })))) ∧
    (x.st ≠ .fenced → x.sector = some sec → bit k 16 = true → bits k 15 0 = e.pkt.pkey → s.rxFlow e.pkt.src e.pkt.srcAgent a = none → e.pkt.last = true →
      s.payloadWaits e = false →
      (e.pkt.kind = 0 → one.writePhys (some sec) e.pkt.addr e.pkt.payload = .ok m → Ends (.writePacket ed) s (fun n => counted n ∧
        Table.get 0 (n.engine a).arrive e.pkt.chan = min (2 ^ 40 - 1) (Table.get 0 (m.engine a).arrive e.pkt.chan + e.pkt.payload.length))) ∧
      (e.pkt.kind = 1 → one.reduceLines sec (if e.pkt.redOp = 1 then .max else if e.pkt.redOp = 2 then .min else .sum) (e.pkt.redFmt = 0) e.pkt.addr
          (e.pkt.payload.length / 128) e.pkt.payload = .ok m → Ends (.reducePacket ed) s (fun n => counted n ∧
        Table.get 0 (n.engine a).arrive e.pkt.chan = min (2 ^ 40 - 1) (Table.get 0 (m.engine a).arrive e.pkt.chan + e.pkt.payload.length))) ∧
      (e.pkt.kind = 2 → bit e.pkt.word 63 = false → Ends (.signalPacket ed) s (fun n => acked n ∧
        n = { one with rxFlows := n.rxFlows, inbox := n.inbox
                       posts := s.posts ++ [{ target := e.pkt.word.extractLsb' 0 18, incr := bits e.pkt.word 47 32, sector := some sec }] })))

/-- R239 to R245, R248, R249, R262, R385: how a packet finds its module, and what it does there. -/
def Obligations.Transport : Prop := Claims.Routing ∧ Claims.PacketsReceived

/-- R248 to R250, R263, R405: what an engine's flow holds is let go by an ACK of its generation, and by a NACK, which fails the packet's step with its REASON;
an unacknowledged packet is sent again from its source, unless its engine's plan failed, and one unacknowledged for too long fails its step with XPORT_TIMEOUT and the flow's others are
abandoned; a receive flow acknowledges late what it owes, and is forgotten without traffic. -/
def Claims.FlowsAnswered : Prop :=
  ∀ (s : State) (ed : EdId) (e : Entering) (a : EngineId) (dst : BitVec 24) (agent : Fin 65) (u : TxPkt) (t : Transfer) (bs : List Byte) (f : RxFlow)
    (da : Fin 65),
    let one : Mod := { s.toMod with arrived := [] }
    let x := s.engine a
    let g := s.txFlow a dst.toNat agent
    let failed := fun (code step : Nat) => { x with failing := true, st := .running, faultCode := code, faultStep := step, faultValid := true }
    let back := e.ed = ed.val ∧ s.arrived = [e] ∧ e.pkt.dstAgent = a.val ∧ e.pkt.gen = x.gen ∧ e.pkt.src = dst.toNat ∧ e.pkt.srcAgent = agent.val
    (back → e.pkt.kind = 3 → x.transfers = [] → Becomes (.ackPacket ed) s
      (one.setTxFlow { g with unacked := g.unacked.filter (fun u => !ackCovers e.pkt.ackSeq (numOf e.pkt.payload) u.seq) })) ∧
    (g.unacked.find? (fun y => y.seq == u.seq) = some u → u.transfer ≠ 0 → x.transfers.find? (fun y => y.num == u.transfer) = some t →
      x.active = true → x.failing = false →
      (back → e.pkt.kind = 4 → e.pkt.ackSeq = u.seq → Becomes (.nackPacket ed) s
        ((one.setTxFlow { g with unacked := g.unacked.erase u }).setEngine a (failed (if bits e.pkt.word 7 0 = 1 then 3 else 4) t.step))) ∧
      (u.seq < 2 ^ 32 →
        (s.working = true → Becomes (.xportToExpiry ⟨a.val, by omega⟩ dst agent (BitVec.ofNat 32 u.seq)) s
          ((s.toMod.setTxFlow { g with unacked := [] }).setEngine a (failed 2 t.step))) ∧
        (let at' := t.laddr + 4096 * u.index
         let len := min 4096 (t.len - 4096 * u.index)
         let two := s.toMod.touchRead x.sector at' len
         two.readPhys x.sector at' len = .ok bs →
          Becomes (.resendTimer ⟨a.val, by omega⟩ dst agent (BitVec.ofNat 32 u.seq)) s
            (two.enter (a.val / 16) (t.vc bs.length) x.sector (two.transferPkt a t u.index u.seq g.gen.toNat bs))))) ∧
    (x.failing = true ∨ x.st = .faulted → ∀ seq, Becomes (.resendTimer ⟨a.val, by omega⟩ dst agent seq) s s.toMod) ∧
    (s.rxFlow dst.toNat agent da = some f → 0 < f.since → Becomes (.ackDelayTimer dst agent da) s
      ((s.toMod.setRxFlow { f with since := 0 }).sendAck { f with since := 0 })) ∧
    Ends (.flowStateExpiry dst agent da) s (fun m => m = { s.toMod with rxFlows := m.rxFlows } ∧ m.rxFlow dst.toNat agent da = none ∧
      ∀ f ∈ s.rxFlows, (f.src ≠ dst.toNat ∨ f.srcAgent ≠ agent.val ∨ f.dstAgent ≠ da.val) → f ∈ m.rxFlows)

/-- R254, R256 to R258, R305: BOOK takes the lowest free record of its egress port's ED when every slot it names has room, and refuses with the check's status
else; UNBOOK ends a live booking at the next frame boundary; at a boundary a booking whose slots were honoured from the frame's start counts its frame, and one
that was to end, or whose route leads elsewhere, is gone. -/
def Claims.Bookings : Prop :=
  ∀ (s : State) (p : PktRef) (ws : List Word) (own i : Nat) (r : Word) (ed : Fin 4) (b : Booking),
    let w := wordAt ws
    let id := bits (w 2) 15 0
    let vol := bits (w 4) 31 0
    let start := (w 5).toNat
    let port := bits r 5 0
    let here := (s.ed (port / 8)).onPort port
    let full := fun (k : Nat) => (w 3).getLsbD k = true ∧ Table.get 0 (s.ed (port / 8)).slotCap (port % 8) < slotUse here k + vol
    (s.cmdWords p 0x302 = some ws →
      (s.beacon.locked = false → Becomes (.book p) s (s.toMod.endCmd p 0x0502 0 0)) ∧
      (s.beacon.locked = true →
        (start % 65536 ≠ 0 ∨ start < s.bt + 65536 → Becomes (.book p) s (s.toMod.endCmd p 0x0501 0 0)) ∧
        (start % 65536 = 0 → s.bt + 65536 ≤ start → s.nodeId 0 = some own → s.route own (bits (w 2) 47 24) = some r →
          (s.portActive port = false → Becomes (.book p) s (s.toMod.endCmd p 0x0603 port 0)) ∧
          (s.portActive port = true → (∀ b ∈ s.bookings, b.2.2.bookId.toNat ≠ id) →
            (∀ k < 64, full k → (∀ j < k, ¬ full j) → Becomes (.book p) s (s.toMod.endCmd p 0x0602 k 0)) ∧
            ((∀ k < 64, ¬ full k) → i < 512 → Table.get none (s.ed (port / 8)).books i = none →
              (∀ j < i, Table.get none (s.ed (port / 8)).books j ≠ none) → ∃ b : Booking,
              b.port = port ∧ b.bookId.toNat = id ∧ b.volume = vol ∧ b.mask = w 3 ∧ b.start = start ∧ b.admitBt = s.bt ∧ b.served = 0 ∧
              b.dst = bits (w 2) 47 24 ∧ b.pkt = some p ∧ b.ending = none ∧ b.sector.val = bits (w 2) 19 16 ∧
              Becomes (.book p) s (((s.toMod.updEd (port / 8) (fun d => { d with books := Table.set none d.books i (some b) })).running p
                (.booking (Fin.ofNat 4 (port / 8)) i)).updFlight p (fun f => { f with past := true }))))))) ∧
    (s.cmdWords p 0x303 = some ws →
      ((∀ b ∈ s.bookings, b.2.2.bookId.toNat ≠ id) → Becomes (.unbook p) s (s.toMod.endCmd p 0x0605 0 0)) ∧
      (s.bookings = [(ed.val, i, b)] → b.bookId.toNat = id → s.issuer p.q = some (.sector b.sector) → b.ending = none →
        Becomes (.unbook p) s ((s.toMod.updBooking ed i (fun b => { b with unbook := b.unbook ++ [p], ending := some 0 })).running p .none))) ∧
    (s.bookings = [(ed.val, i, b)] → Table.get none (s.ed ed).books i = some b → b.pkt = none → b.unbook = [] → b.start < s.bt →
      (∀ k < 32, (s.port k).capChanged = false) → s.nodeId 0 = some own →
      Ends .frameBoundary s (fun m => m.beacon = { s.beacon with slotsOn := s.beacon.slotsDue } ∧ Table.get none (m.ed ed).books i =
        if b.ending = none ∧ (s.route own b.dst).map (bits · 5 0) = some b.port then
          some { b with served := b.served + (if s.beacon.slotsOn then 1 else 0) } else none))

/-- R248 to R250, R254, R256 to R258, R263, R305, R405: flows and bookings. -/
def Obligations.Flows : Prop := Claims.FlowsAnswered ∧ Claims.Bookings

/-- R32, R34, R40, R44: a tick without an event moves BT to the next multiple of 1,024 ns. One flit heard on the upstream port, the only trained port, is
evaluated at the tick by the lock state: the first aligns ACQUIRING, 64 good ones in a row lock, the fourth bad one in a row begins holdover, one beyond the
bound sets the unit FREE, and a flit while FREE acquires again. -/
def Claims.BeaconTicks : Prop :=
  ∀ (s : State) (p : PortId) (f : BeaconFlit) (err : Int),
    let b := s.beacon
    let next := (b.bt.toNat / 1024 + 1) * 1024
    let a := err.natAbs
    let good := if a ≤ 20 then b.good + 1 else 0
    b.stepWaiting = none →
    (b.events = [] → Ends .beaconTick s (fun m => m.beacon.bt = BitVec.ofNat 64 next ∧ m.beacon.events = [] ∧ m.cores = s.cores ∧ m.regs = s.regs ∧
      m.dram = s.dram)) ∧
    (b.events = [.flit p f err] → b.isMaster = false → s.trained p = true → (∀ q, q ≠ p.val → s.trained q = false) → (s.port p).ethernet = false →
      let ticks := fun (P : Beacon → Prop) => Ends .beaconTick s (fun m => m.beacon.traceable = f.traceable ∧ m.beacon.masterId = f.masterId ∧
        m.beacon.offset = err ∧ m.beacon.hop = BitVec.ofNat 10 (min (f.hop.toNat + 1) 0x3FF) ∧ m.beacon.upstream = some p ∧ m.beacon.quiet = 0 ∧
        P m.beacon)
      (b.st = .acquiring → b.acquired = false → ticks (fun y => y.st = .acquiring ∧ y.acquired = true ∧ y.bt = BitVec.ofInt 64 (next + err))) ∧
      (b.st = .acquiring → b.acquired = true → ticks (fun y => y.bt = BitVec.ofNat 64 next ∧
        (if 64 ≤ good then y.st = .locked ∧ y.errBound = 25 else y.st = .acquiring ∧ y.good = good))) ∧
      (b.st = .locked → ticks (fun y => y.bt = BitVec.ofNat 64 next ∧
        (if 100 < a ∧ 3 ≤ b.bad then y.st = .holdover ∧ y.errBound = 25 ∧ y.growing = true
         else y.st = .locked ∧ y.bad = if 100 < a then b.bad + 1 else 0))) ∧
      (b.st = .holdover → b.growing = false → (∀ k < 4, (s.set k).st ≠ .armed) → ticks (fun y => y.bt = BitVec.ofNat 64 next ∧
        (if b.errBound < a then y.st = .free else if 64 ≤ good then y.st = .locked ∧ y.errBound = 25
         else y.st = .holdover ∧ y.errBound = a + 10))) ∧
      (b.st = .free → ticks (fun y => y.st = .acquiring ∧ y.bt = BitVec.ofInt 64 (next + err))))

/-- R34, R36, R37, R40, R43, R44: what happens between two ticks waits for the second: a flit with its error, a reference's offset, its loss, a change of role;
a PPS edge
without the 10 MHz input loses it; absence of flits from a locked unit begins holdover, a bound above 250 ns ends it. -/
def Claims.BeaconEvents : Prop :=
  ∀ (s : State) (p : PortId) (f : BeaconFlit) (ns : BitVec 10) (offset : Int) (ten master : Bool) (source : BitVec 2),
    let b := s.beacon
    let more := fun (e : BcnEvent) => { s.toMod with beacon := { b with events := b.events ++ [e] } }
    let delay := (Table.get BcnPort.reset b.ports p).delay
    (s.trained p = true → Becomes (.beaconFlit p f ns) s
      (more (.flit p f (((f.bt.toNat + (delay.toNat + 8) / 16 : Nat) : Int) - ((b.bt.toNat + ns.toNat : Nat) : Int))))) ∧
    (s.trained p = false → Becomes (.beaconFlit p f ns) s s.toMod) ∧
    (b.quiet < 8 → Becomes .beaconFlitAbsence s s.toMod) ∧
    (8 ≤ b.quiet → b.st = .locked → Ends .beaconFlitAbsence s (fun m =>
      m.beacon = { b with st := .holdover, errBound := 25, growing := true, boundBase := 25, grown := 0, absent := 0, good := 0, bad := 0 } ∧
      m.nextSeq = s.nextSeq + 1 ∧ m.cores = s.cores ∧ m.sets = s.sets)) ∧
    (b.st = .holdover → (∀ k < 4, (s.set k).st ≠ .armed) → 250 < b.errBound → Ends .holdoverTimeout s (fun m => m.beacon.st = .free ∧ m.beacon.errBound = 0xFFFF ∧
      m.beacon.bt = b.bt)) ∧
    (b.source = 1 → Becomes (.ppsEdge offset ten) s (more (if ten = true then .reference 1 offset else .lost))) ∧
    (b.source ≠ 1 → Becomes (.ppsEdge offset ten) s s.toMod) ∧
    (b.source = 2 → Becomes (.ptpSync offset) s (more (.reference 2 offset))) ∧
    (b.source ≠ 2 → Becomes (.ptpSync offset) s s.toMod) ∧
    Becomes .referenceLoss s (more .lost) ∧
    (source ≠ 3 → Ends (.bcnCtrlWrite master source) s (fun m => ∃ l, m = { s.toMod with beacon := { b with master := master, source := source, events := b.events ++ l } } ∧
      (.lost ∈ l ↔ source ≠ b.source) ∧ (.role master ∈ l ↔ master ≠ b.master))) ∧
    Ends (.bcnCtrlWrite master 3) s (fun m => m.beacon = { b with master := master, events := b.events ++ if master = b.master then [] else [.role master] }) ∧
    (b.conflict = true → Becomes .masterConflictClear s { s.toMod with beacon := { b with conflict := false, events := b.events ++ [.role b.master] } })

/-- R32, R34, R36, R37, R40, R43, R44: the beacon unit at its ticks and between them. -/
def Obligations.Beacon : Prop := Claims.BeaconTicks ∧ Claims.BeaconEvents

/-- R358 to R362, R370, R372, R375, R379: a power tick of a running module moves the allowance towards the demand by at most RAMP_RATE, and with no limit in force,
the draw within CAP_KW, the allowance and each die's power, every owned cluster without a dispatched command takes its idle phase's demand: at once where the voltage carries it, else when the voltage has settled. In the
hold nothing moves and LIMIT shows the hold. -/
def Claims.PowerTicks : Prop :=
  ∀ (s : State) (x : PowerSample) (td : Fin 16) (k : Fin 8) (sec : SectorId),
    let p := s.power
    let allow := if p.allow < x.demand then (if s.rampStart then min x.demand (p.allow + s.rampStep) else p.allow) else max x.demand (p.allow - s.rampStep)
    let c := s.cluster (8 * td.val + k.val)
    let d := s.phasePoint sec c.idlePhase
    (p.st = .run → p.member = 0 → Ends (.powerTick x) s (fun m => m.power.allow = allow ∧ m.power.inputW = x.inputW.toNat ∧ m.power.st = .run)) ∧
    (p.st = .run → p.member = 0 → p.forced = 0 → (∀ n < 32, x.total n ≤ s.capDraw) → x.demand ≤ allow →
      (∀ y ∈ x.dies, ∀ n < 32, y.at n ≤ dieDrawLimit y.site) → x.temps = [] → (∀ site < 25, (s.die site).tj ≤ s.tjLimit) → Table.rising s.dies = true → c.sector = some sec →
      s.clusterPhases (8 * td.val + k.val) = [] → Ends (.powerTick x) s (fun m => m.cluster (8 * td.val + k.val) =
        { c with gated := true, demand := d, opPoint := if d ≤ c.opPoint ∨ d ≤ (s.die (tdSite td)).volt then d else c.opPoint })) ∧
    (p.st = .hold ∨ p.st = .holdEntry → p.member = 0 → Ends (.powerTick x) s (fun m => m.clusters = s.clusters ∧ m.power.allow = p.allow ∧
      ∀ site < 25, (m.die site).limit = 64)) ∧
    Becomes (.voltageSettled ⟨tdSite td, by revert td; decide⟩) s
      (s.toMod.updDie (tdSite td) (fun d => { d with volt := max d.volt d.wanted }))

/-- R363 to R366, R406: a vote of another member for this group is taken once and waits for its tick; at that tick the ceiling falls to it; a joined member's
ceiling rises by RISE_STEP up to GROUP_MAX at an epoch's boundary that no vote blocks. -/
def Claims.IsophaseVotes : Prop :=
  ∀ (s : State) (e : Entering) (v : Vote),
    let p := s.power
    let w := wordsOf 4 e.pkt.payload
    p.member = 1 → s.beacon.takesPart = true →
    (s.arrived = [e] → e.pkt.kind = 5 → e.pkt.payload.length = 32 → bits (wordAt w 0) 7 0 = 3 → bits (wordAt w 1) 15 0 = s.isoGroup →
      let id := (bits (wordAt w 3) 23 0, bits (wordAt w 1) 63 32)
      let t := (wordAt w 2).toNat / 1024
      (id ∈ p.seen → Becomes .vote s { s.toMod with arrived := [] }) ∧
      (id ∉ p.seen → Ends .vote s (fun m => m.arrived = [] ∧ m.power = { p with
        seen := id :: p.seen, lateVotes := if t < s.tick then min 0xFFFF (p.lateVotes + 1) else p.lateVotes
        votes := p.votes ++ [{ tick := if t < s.tick then s.tick + 1 else t, ceiling := bits (wordAt w 1) 20 16, result := bits (wordAt w 1) 28 24
                               adopt := false }] }))) ∧
    (p.votes = [v] → v.adopt = false →
      (v.tick ≤ s.tick → Ends .voteEffective s (fun m => m.power = { p with votes := [], ceiling := min p.ceiling v.ceiling, lastEffect := some v.tick })) ∧
      (s.tick < v.tick → Becomes .voteEffective s s.toMod)) ∧
    (p.blocked s.tick = false → p.ceiling ≤ s.groupMax → Becomes .isophaseRise s { s.toMod with power := { p with
      ceiling := min s.groupMax (p.ceiling + s.riseStep) } }) ∧
    (p.blocked s.tick = true → Becomes .isophaseRise s s.toMod)

/-- R367 to R369, R372: an alert on a compute line forces every cluster of its two TDs to point 0, is counted, and in the hold waits for the resume; the group
stays forced after the release until the hold-off ends; droop stretches a die's clock while it lasts and is counted. -/
def Claims.AlertsAndDroop : Prop :=
  ∀ (s : State) (line : Fin 16) (site : Site),
    let p := s.power
    let bit_ : BitVec 16 := BitVec.ofNat 16 (1 <<< line.val)
    (p.st = .run → p.forced.getLsbD line = false → Ends (.regAlert line) s (fun m =>
      m.power = { p with asserted := p.asserted ||| bit_, alerts := min 0xFFFF (p.alerts + 1), forced := p.forced ||| bit_ } ∧
      ∀ c < 128, m.cluster c = if line.val < 8 ∧ c / 16 = line.val then { s.cluster c with opPoint := 0 } else s.cluster c)) ∧
    (p.st = .hold ∨ p.st = .holdEntry → Becomes (.regAlert line) s { s.toMod with power := { p with
      asserted := p.asserted ||| bit_, alerts := min 0xFFFF (p.alerts + 1), laterForced := p.laterForced ||| bit_ } }) ∧
    Becomes (.regAlertRelease line) s { s.toMod with power := { p with asserted := p.asserted &&& ~~~bit_ } } ∧
    (p.asserted.getLsbD line = true → Becomes (.alertHoldoffEnd line) s s.toMod) ∧
    (p.asserted.getLsbD line = false → Ends (.alertHoldoffEnd line) s (fun m =>
      m.power = { p with forced := p.forced &&& ~~~bit_, laterForced := p.laterForced &&& ~~~bit_ } ∧ m.clusters = s.clusters)) ∧
    ((∃ k < 16, tdSite k = site.val) ∨ (∃ k < 4, pdSite k = site.val) →
      Becomes (.droop site) s (s.toMod.updDie site (fun d => { d with stretched := true, droopRun := min 0xFFFF (d.droopRun + 1) })) ∧
      Becomes (.droopEnd site) s (s.toMod.updDie site (fun d => { d with stretched := false })))

/-- R358 to R370, R372, R375, R406: power ticks, isophase votes, alerts and droop. -/
def Obligations.Power : Prop := Claims.PowerTicks ∧ Claims.IsophaseVotes ∧ Claims.AlertsAndDroop

/-- R373 to R377, R435, R436: the module's power states. A request takes the module on its way where the state allows it, is held as PENDING while the module is
on its way elsewhere, cancels what is pending when it leads where the module goes, and else changes nothing; each way ends in its stable state. -/
def Obligations.PowerStates : Prop :=
  ∀ (s : State) (line : Fin 16),
    let p := s.power
    let pend := fun (r : Option PwrReq) => { s.toMod with power := { p with pending := r } }
    (p.st = .poweringUp → Becomes .powerOnRequest s (pend none) ∧ Becomes .powerOffRequest s (pend (some .off)) ∧
      Becomes .pwrWarnAssert s { pend (some .hold) with boot := { s.boot with warnLow := true } } ∧
      Becomes .pwrWarnRelease s { pend none with boot := { s.boot with warnLow := false } } ∧
      Becomes (.railGroupGood line) s { s.toMod with boot := { s.boot with railsGood := s.boot.railsGood ||| BitVec.ofNat 16 (1 <<< line.val) } } ∧
      (s.boot.railsGood = 0xFFFF → p.pending = none → s.boot.warnLow = false → Ends .diesOutOfReset s (fun m =>
        m.power = { p with st := .run } ∧ m.boot = { s.boot with phase := 2 })) ∧
      (s.boot.railsGood ≠ 0xFFFF → Becomes .diesOutOfReset s s.toMod) ∧
      (p.pending = none → Ends .poweringUpTimeout s (fun m => m.power.st = .standby ∧ m.dram = [] ∧ m.boot.parked = true))) ∧
    (p.st = .run → Becomes .powerOnRequest s s.toMod ∧
      Ends .powerOffRequest s (fun m => m.power.st = .poweringDown ∧ m.power.pending = none ∧ m.power.paused = false) ∧
      (5 ≤ s.boot.phase → Ends .pwrWarnAssert s (fun m => m.power = { p with st := .holdEntry, holdCount := min 0xFFFF (p.holdCount + 1) } ∧
        m.boot = { s.boot with warnLow := true } ∧ m.clusters = s.clusters ∧ m.dram = s.dram)) ∧
      (s.boot.phase < 5 → Becomes .pwrWarnAssert s { s.toMod with
        power := { p with paused := true, pending := some .hold }, boot := { s.boot with warnLow := true } }) ∧
      (p.paused = true → Becomes .pwrWarnRelease s { s.toMod with
        power := { p with paused := false, pending := none }, boot := { s.boot with warnLow := false } })) ∧
    (p.st = .poweringDown → Becomes .powerOnRequest s (pend (some .on)) ∧ Becomes .powerOffRequest s (pend none) ∧
      (p.pending = none → s.boot.request = none → Ends .railsOff s (fun m => m.power.st = .standby ∧ m.boot.parked = true ∧ m.dram = [] ∧ m.cores = []))) ∧
    (p.st = .holdEntry → Becomes .powerOffRequest s (pend (some .off)) ∧
      (p.pending = none → Table.rising s.controllers = true → Ends .holdEntryDone s (fun m => m.power.st = .hold ∧ (∀ md, (m.slice md).lines = []) ∧
        ∀ k, (m.ctl k).st = if (s.ctl k).st = 1 then 2 else (s.ctl k).st))) ∧
    (p.st = .hold → Becomes .powerOnRequest s s.toMod ∧ Ends .powerOffRequest s (fun m => m.power.st = .poweringDown) ∧
      (s.boot.request = none → Ends .pwrWarnRelease s (fun m => m.power = { p with st := .resuming, allow := p.inputW * 1000, ramping := false }))) ∧
    (p.st = .resuming → Becomes .powerOffRequest s (pend (some .off)) ∧
      (p.pending = none → p.laterForced = 0 → (∀ e < 64, (s.engine e).active = false) → Table.rising s.controllers = true → Ends .resumeDone s (fun m => m.power = { p with st := .run } ∧
        ∀ k, (m.ctl k).st = if (s.ctl k).st = 2 then 1 else (s.ctl k).st))) ∧
    (p.st = .standby → Becomes .powerOffRequest s s.toMod ∧ (s.boot.phase = 0 → Becomes .powerOnRequest s s.toMod) ∧
      (s.boot.phase ≠ 0 → s.onRefused = false → s.boot.parked = false → Ends .powerOnRequest s (fun m =>
        m.power = { p with st := .poweringUp } ∧ m.boot = { s.boot with railsGood := 0 })) ∧
      (s.boot.phase ≠ 0 → s.onRefused = true → Ends .powerOnRequest s (fun m => m.power = p ∧ m.boot = { s.boot with parked := true })))

/-- R432 to R434, R437, R439: THERMTRIP and the loss of input put the module into STANDBY at once, its memory lost; the input's return begins a cold start; the
reset pin held begins nothing, released it begins a warm restart, after a long hold a cold one; KPR_BOOT_CTRL asks for a restart, which begins with its KIND and
CAUSE, a warm one before memory training completes as a cold one; a warm restart that misses its limit is asked to be a cold one. -/
def Claims.RestartsAndPins : Prop :=
  ∀ (s : State) (cause : Nat),
    let b := s.boot
    let cold := fun (i : Instr) (kind cause : Nat) => Ends i s (fun m => m.boot.kind = kind ∧ m.boot.cause = cause ∧ m.boot.phase = 0 ∧ m.boot.elapsed = 0 ∧
      m.boot.request = none ∧ m.cores = [] ∧ m.dram = [] ∧ m.regions = [] ∧ m.queues = [] ∧ m.power.st = .standby)
    let warm := fun (i : Instr) (cause : Nat) => Ends i s (fun m => m.boot.kind = 2 ∧ m.boot.cause = cause ∧ m.boot.phase = 0 ∧ m.boot.request = none ∧
      m.power.st = .run ∧ m.caches = [] ∧ (∀ c, (m.cluster c).sector = none))
    Ends .thermtrip s (fun m => m.power.st = .standby ∧ m.power.thermtrip = true ∧ m.power.pending = none ∧ m.dram = [] ∧ m.boot.parked = true ∧
      m.boot.thermtripSeen = true) ∧
    Ends .undervoltage s (fun m => m.power.st = .standby ∧ m.dram = [] ∧ m.boot.lost = true ∧ m.boot.undervoltSeen = true) ∧
    (b.lost = true → cold .inputReturn 0 6) ∧ (b.lost = false → b.count = 0 → cold .inputReturn 0 0) ∧
    (b.lost = false → b.count ≠ 0 → Becomes .inputReturn s s.toMod) ∧
    Ends .modResetAssert s (fun m => m.boot.modResetLow = true ∧ m.power.thermtrip = false) ∧
    (b.modResetLow = true → Ends .modResetLong s (fun m => m.power.st = .standby ∧ m.boot.phase = 0 ∧ m.boot.modResetLong = true ∧ m.dram = [] ∧
      m.harbourUp = 0)) ∧
    (b.modResetLow = false → Becomes .modResetRelease s s.toMod ∧ Becomes .modResetLong s s.toMod) ∧
    (b.modResetLow = true → b.modResetLong = true → cold .modResetRelease 1 1) ∧
    (b.modResetLow = true → b.modResetLong = false → s.power.st = .run → 5 ≤ b.phase → warm .modResetRelease 1) ∧
    ((s.queue (.mq 0)).st = .free → Becomes .mgmtPerst s (({ s.toMod with boot := { b with perstLow := true } } : Mod).setFn 8 0
      { s.fn 8 0 with withdrawn := true, msixEnable := false, unmasked := [], pendingVec := [] })) ∧
    ((s.queue (.mq 0)).held = [] → Becomes .mgmtPerstRelease s (({ s.toMod with boot := { b with perstLow := false } } : Mod).setFn 8 0
      { s.fn 8 0 with withdrawn := false })) ∧
    (b.request = none → Becomes .kprBootCtrlWarm s { s.toMod with boot := { b with request := some (false, 4) } } ∧
      Becomes .kprBootCtrlCold s { s.toMod with boot := { b with request := some (true, 4) } } ∧
      Becomes .warmRestart s s.toMod ∧ Becomes .coldRestart s s.toMod ∧
      (b.kind = 2 → b.phase < 7 → Ends .warmRestartTimeout s (fun m => m.boot = { b with request := some (true, 2) } ∧
        m.tender.escalations = min 0xFFFF (s.tender.escalations + 1)))) ∧
    (b.request = some (true, cause) → s.power.st = .run → cold .coldRestart 1 cause) ∧
    (b.request = some (false, cause) → s.power.st = .run → 5 ≤ b.phase → warm .warmRestart cause) ∧
    (b.request = some (false, cause) → s.power.st = .run → b.phase < 5 → cold .warmRestart 1 cause) ∧
    (b.request = some (false, cause) → s.power.st = .hold → Becomes .warmRestart s s.toMod)

/-- R343, R395, R428, R437, R446, R17, R18, R28: the phases of a start end in their order with what they found: the mesh with no lost edge and the clocks that are
absent, the tests of cold starts, the memory, the firmware, the sectors' readiness; a failed test or a refused image stops the boot. A lane that fails at run time
takes one of two spares, and a third disables its module; an edge that loses its last module sets EDGE_LOST. -/
def Claims.StartPhases : Prop :=
  ∀ (s : State) (r : BootReport) (edge : Fin 40) (back : Bool) (k : Fin 24) (lane : Fin 66) (x y z : ImageReport),
    let b := s.boot
    let stops := Ends (.bootPhaseComplete r) s (fun m => m.boot = { b with stopped := true })
    let to_ := fun (n : Nat) (P : Mod → Prop) => Ends (.bootPhaseComplete r) s (fun m => m.boot = { b with phase := n } ∧ P m)
    (s.starting = true → s.power.st = .run →
      (b.phase = 0 → b.kind = 2 → b.lost = false → r.images.head? = some (some x) → s.imageOk 0 x = true → Ends (.bootPhaseComplete r) s (fun m =>
        m.boot = { b with phase := 1, noMgmt := r.noMgmt } ∧ Table.get 0 m.svnRunning 0 = x.svn.toNat ∧ m.harbourUp.getLsbD kdSite = true ∧
        (m.fn 8 0).active = !r.noMgmt)) ∧
      (b.phase = 0 → b.lost = false → r.images.take 2 = [some x, some y] → s.imageOk 0 x = false → s.imageOk 0 y = false → stops) ∧
      (b.phase = 1 → b.kind = 2 → to_ 2 (fun m => m = { s.toMod with boot := { b with phase := 2 } })) ∧
      (b.phase = 2 → r.lanes = [] → r.channels = [] → b.kind ≠ 2 → s.lanes = [] → b.patrol = [] → Ends (.bootPhaseComplete r) s (fun m =>
        m.boot = { b with phase := 3, noFab := r.noFab, noPcie := r.noPcie } ∧ m.harbourUp = s.harbours ∧ m.patrol.run = true)) ∧
      (b.phase = 3 → b.kind ≠ 2 →
        (r.failed = false → to_ 4 (fun m => ∀ a ∈ r.cores, (m.pdCore a).heldOut = true)) ∧
        (r.failed = true → stops)) ∧
      (b.phase = 4 → r.untrained = [] → to_ 5 (fun m => ∀ j < 80, s.stackFitted j = true → (m.ctl j).st = 1)) ∧
      (b.phase = 5 → r.images.take 3 = [some x, some y, some z] →
        (s.imageOk 1 x = true → s.imageOk 2 y = true → s.imageOk 3 z = true → to_ 6 (fun m => Table.get 0 m.svnRunning 1 = x.svn.toNat ∧
          Table.get 0 m.svnRunning 2 = y.svn.toNat ∧ Table.get 0 m.svnRunning 3 = z.svn.toNat)) ∧
        (s.imageOk 1 x = false ∨ s.imageOk 2 y = false ∨ s.imageOk 3 z = false → stops)) ∧
      (b.phase = 6 → Becomes (.bootPhaseComplete r) s { s.toMod with boot := { b with phase := 7 } })) ∧
    (s.starting = false → Becomes (.bootPhaseComplete r) s s.toMod) ∧
    (let l := s.laneMap edge back k
     k.val < (if edge.val < 20 then 24 else 12) → l.disabled = false → lane.val ∉ l.fused → lane.val ∉ l.soft →
      Ends (.dieToDieLaneFailure edge back k [lane]) s (fun m => (m.laneMap edge back k =
        if l.fused.length + l.soft.length < 2 then { l with soft := l.soft ++ [lane.val] } else { l with disabled := true }) ∧
        (s.meshEdge edge = true → m.edgeDead edge = true → m.edgeLost = true)))

/-- R198 to R206, R209, R308: a core that misses a line of which no copy stands gets it in E, for ownership in M, a sole sharer's upgrade in M; a line that
another core owns is snooped there first. A core's own line takes its AMO, LR, SC and CBO.ZERO at once, SC only on its reservation; CBO.CLEAN writes a dirty
line back and keeps it clean, CBO.FLUSH and CBO.INVAL write it back and drop it. -/
def Claims.ProcessorRequests : Prop :=
  ∀ (s : State) (a : AgentId) (pa : PAddr) (line b : Nat) (c : CacheLine) (act : CoreAct) (wide : Bool) (v : Word),
    let size := if wide then 8 else 4
    let off := pa.toNat % 128
    let old := numOf ((c.data.drop off).take size)
    let gets := fun (i : Instr) (st : LineSt) (data : List Byte) => Ends i s (fun m => m.copyAt a line = some { st := st, data := data } ∧
      s.toMod.copiesBut m a line ∧ m.dram = s.dram)
    let alone := ∀ x ∈ s.recorded line, x = a.val
    s.reaches a pa.toNat line → s.atRest line →
    (s.copyAt a line = none → s.copies line = [] →
      gets (.readMiss a pa) .exclusive (s.lineBytes line) ∧ gets (.readForOwnership a pa) .modified (s.lineBytes line)) ∧
    (s.copyAt a line = none → b ≠ a.val → c.st ≠ .shared → s.copies line = [(b, c)] → Ends (.readMiss a pa) s (fun m =>
      m.caches = s.caches ∧ m.dram = s.dram ∧ ∃ t, m.txnOn line = some t ∧ t.wait.req = .read a ∧ t.waitFor = [b] ∧ t.answers = [] ∧ t.held = [])) ∧
    (s.copyAt a line = some c → c.st = .shared → s.copies line = [(a.val, c)] → alone → gets (.upgrade a pa) .modified (s.lineBytes line)) ∧
    (s.copyAt a line = some c → (c.st = .modified ∨ c.st = .exclusive) → (s.pdCore a).window = none →
      (off + size ≤ 128 →
        (act ≠ .lr → act ≠ .sc → act ≠ .zero → Ends (.processorAmo a pa act wide v) s (fun m =>
          m.copyAt a line = some { st := .modified, data := patch c.data off (bytesOf size (amoApply act size old v.toNat)) } ∧
          m.out = .coreResult a old :: s.out ∧ s.toMod.copiesBut m a line ∧ m.pdCores = s.pdCores)) ∧
        Ends (.processorAmo a pa .lr wide v) s (fun m => m.caches = s.caches ∧ m.out = .coreResult a old :: s.out ∧
          m.pdCore a = { s.pdCore a with window := some line, reservation := some line }) ∧
        ((s.pdCore a).reservation = some line → Ends (.processorAmo a pa .sc wide v) s (fun m =>
          m.copyAt a line = some { st := .modified, data := patch c.data off (bytesOf size v.toNat) } ∧ m.out = .coreResult a 0 :: s.out ∧
          (m.pdCore a).reservation = none)) ∧
        ((s.pdCore a).reservation ≠ some line → Ends (.processorAmo a pa .sc wide v) s (fun m =>
          m.caches = s.caches ∧ m.out = .coreResult a 1 :: s.out))) ∧
      gets (.cboZero a pa) .modified (patch c.data (off / 64 * 64) (List.replicate 64 0))) ∧
    (s.copyAt a line = some c → c.st = .modified → s.copies line = [(a.val, c)] →
      Ends (.cboClean a pa) s (fun m => m.copyAt a line = some { c with st := .exclusive } ∧ m.lineHolds line (fun i => c.data.getD i 0)) ∧
      (∀ i, i = Instr.cboFlush a pa ∨ i = Instr.cboInval a pa → alone →
        Ends i s (fun m => m.copyAt a line = none ∧ m.lineHolds line (fun i => c.data.getD i 0)))) ∧
    ((s.pdCore a).window = some b → s.txnOn b = none → s.quiet →
      Becomes (.lrWindowEnd a) s (s.toMod.setPdCore a { s.pdCore a with window := none }))

/-- R17, R18, R28, R343, R395, R428, R432 to R434, R437, R439, R446: pins and restarts, and the phases of a start. -/
def Obligations.Restarts : Prop := Claims.RestartsAndPins ∧ Claims.StartPhases

/-- R201, R205, R213, R214: a snoop for a read turns its agent's M into O and is answered; with the last answer the reader gets the owner's data in S; a
writeback leaves the cache and stands at the home, a clean eviction leaves it; an acknowledgement ends it; a snoop or a request unanswered for too long is a
protocol error. -/
def Claims.SnoopsAndEvictions : Prop :=
  ∀ (s : State) (a b : AgentId) (pa : PAddr) (line : Nat) (c : CacheLine) (t : HomeTxn) (e : Eviction),
    let data := (List.range 128).map (fun i => c.data.getD i 0)
    s.lineAt pa.toNat = some line →
    (s.txnOn line = some t → t.waitFor = [b.val] → t.held = [] → t.answers = [] → t.wait.req = .read a → s.copyAt b line = some c →
      c.st = .modified → (s.pdCore b).window ≠ some line → Ends (.snoop b pa false) s (fun m =>
        m.copyAt b line = some { c with st := .owned } ∧ m.txnOn line = some { t with answers := [(b.val, .owner)] } ∧ m.dram = s.dram ∧
        s.toMod.copiesBut m b line)) ∧
    (s.lastAnswer line t b → t.wait.req = .read a → a ≠ b → t.answers = [(b.val, .owner)] → t.carried = none → s.copyAt b line = some c →
      c.st = .owned → s.copies line = [(b.val, c)] → Ends (.snoopAnswer b pa) s (fun m => m.copyAt a line = some { st := .shared, data := data } ∧ m.copyAt b line = some c ∧
        m.txnOn line = none)) ∧
    (s.atRest line → s.quiet → s.copyAt b line = some c → s.copies line = [(b.val, c)] →
      (c.st ≠ .shared → Ends (.writeback b pa) s (fun m => m.copyAt b line = none ∧ m.lineHolds line (fun i => c.data.getD i 0) ∧
        m.evictionAt b line = some { line := { c with st := if c.st = .exclusive then .modified else c.st }, owed := false, arrived := true, acked := true })) ∧
      (c.st.dirty = false → Ends (.cleanEviction b pa) s (fun m => m.copyAt b line = none ∧ m.dram = s.dram ∧
        m.evictionAt b line = some { line := c, owed := false, arrived := true, acked := true }))) ∧
    (s.evictionAt b line = some e → e.acked = true → e.arrived = true → Becomes (.evictionAck b pa) s { s.toMod with
      evictions := Table.erase s.evictions (cacheKey b line) }) ∧
    (s.working = true → s.txnOn line = some t → b.val ∈ t.waitFor → Ends (.snoopTimeout b pa) s (fun m => m.cohError = true ∧ m.caches = s.caches ∧ m.dram = s.dram)) ∧
    (s.working = true → s.txnOn line = some t → t.wait.req = .read b ∨ (∃ inval, t.wait.req = .clean b inval) → Ends (.requestUnservedTimeout b pa) s (fun m => m.cohError = true ∧ m.caches = s.caches)) ∧
    (s.txnOn line = none → Becomes (.snoopTimeout b pa) s s.toMod) ∧
    (s.txnOn line = none → (s.slice (s.homeOf line)).waiting = [] → Becomes (.requestUnservedTimeout b pa) s s.toMod)

/-- R198 to R206, R209, R213, R214, R308: the coherent domain, request by request. -/
def Obligations.Coherence : Prop := Claims.ProcessorRequests ∧ Claims.SnoopsAndEvictions

/-- R185, R186, R202, R206, R384, R389, R390: a non-caching agent reads what the home holds, and writes it: a write of a line or of a part leaves exactly its bytes changed
and no processor copy, a home atomic and REDUCE_INTO return or combine what stands there: at once where the home records no agent, and else once the agents it
snoops have answered. A burst's full beat is a write of its line, a partial one is written with its valid end marker, and a discarded one never.
A fenced unit issues nothing. -/
def Obligations.NonCachingAccess : Prop :=
  ∀ (s : State) (r : Requester) (pa : PAddr) (line id : Nat) (n : Fin 129) (data : List Byte) (op : AtomOp) (red : RedOp) (wide : Bool) (v c : Word) (en : BitVec 128)
    (b : AgentId) (t : HomeTxn) (err : AccErr),
    let off := pa.toNat % 128
    let sector := s.requesterSector r
    let here := fun (m : Mod) (i : Nat) => m.homeByte (128 * line + i)
    let width := if wide then 4 else 2
    let size := if wide && !fourOnly op then 8 else 4
    let now := fun (m : Mod) => numOf ((List.range size).map (fun i => here m (off + i)))
    let x := v.toNat % 2 ^ (8 * size)
    let y := c.toNat % 2 ^ (8 * size)
    let wrote := fun (m : Mod) => m.lineHolds line (fun i => if off ≤ i ∧ i < off + data.length then data.getD (i - off) 0 else here s.toMod i)
    let added := fun (m : Mod) => m.out = .served pa.toNat (bytesOf size (now s.toMod)) :: s.out ∧ now m = atomApply op size (now s.toMod) x y % 2 ^ (8 * size)
    let reduced := fun (m : Mod) => m.out = .served pa.toNat [] :: s.out ∧ ∀ k < 128 / width,
      numOf ((List.range width).map (fun i => here m (width * k + i))) =
        redApply red (if wide then fp32 else bf16) (numOf ((List.range width).map (fun i => here s.toMod (width * k + i))))
          (numOf ((data.drop (width * k)).take width)) % 2 ^ (8 * width)
    let may := s.mayIssue r = true ∧ inBlocks pa.toNat = false ∧ inBlocks (pa.toNat / 128 * 128) = false
    let within := fun (n : Nat) => off + n ≤ 128 ∧ 0 < n ∧ s.decodeN sector pa.toNat n = .ok (cellsFrom line pa.toNat n)
    let serves := fun (i : Instr) (req : HomeReq) (n : Nat) (done : Mod → Prop) =>
      (may → s.atRest line → within n →
        (s.recorded line = [] → Ends i s (fun m => done m ∧ m.copies line = [])) ∧
        (s.recorded line ≠ [] → Ends i s (fun m => m.caches = s.caches ∧ m.dram = s.dram ∧ ∃ t, m.txnOn line = some t ∧ t.wait.req = req ∧
          t.wait.line = line ∧ t.wait.pa = pa.toNat ∧ t.waitFor = s.recorded line))) ∧
      (s.lastAnswer line t b → s.lineAt pa.toNat = some line → off + n ≤ 128 → 0 < n → t.wait.req = req → t.wait.pa = pa.toNat →
        Ends (.snoopAnswer b pa) s (fun m => done m ∧ m.copies line = []))
    let beat : BurstBeat := { line := line, entry := (s.entryAt pa.toNat).map (·.1), pa := pa.toNat, enables := en, data := data }
    (s.mayIssue r = false → Becomes (.noncachingRead r pa n) s s.toMod ∧ Becomes (.burstBeat r id pa en data) s s.toMod) ∧
    (may → s.atRest line → within n.val → s.ownerOf line = none → Ends (.noncachingRead r pa n) s (fun m => ∃ k : Mod, s.toMod.onlyRead k ∧
      m = k.emit (.served pa.toNat ((List.range n.val).map (fun i => here s.toMod (off + i)))))) ∧
    (may → off + n.val ≤ 128 → 0 < n.val → s.decodeN sector pa.toNat n = .error err → Becomes (.noncachingRead r pa n) s
      ((s.toMod.recordAccess (requesterUnit r).1 (requesterUnit r).2 sector err pa.toNat).tellError r 0 err pa.toNat)) ∧
    (data.length = 128 →
      serves (.fullLineWrite r pa data 0) (.write r data 0) 128 wrote ∧ serves (.reduceInto r red wide pa data) (.reduce r red wide data) 128 reduced ∧
      serves (.burstBeat r id pa (BitVec.allOnes 128) data) (.write r data 0) 128 wrote) ∧
    (data.length < 128 → serves (.partialWrite r pa data 0) (.write r data 0) data.length wrote) ∧
    (pa.toNat % size = 0 → serves (.homeAtomic r op wide pa v c) (.atomic r op size x y) size added) ∧
    (may → en ≠ BitVec.allOnes 128 → s.decodeN sector (pa.toNat / 128 * 128) 128 = .ok (cellsFrom line 0 128) → s.burst r id = none →
      Becomes (.burstBeat r id pa en data) s { s.toMod with bursts := s.bursts ++ [{ req := r, id := id, sector := sector, beats := [beat] }] }) ∧
    (s.bursts = [{ req := r, id := id, sector := sector, beats := [beat] }] → s.noDrains →
      (s.mayIssue r = true → en ≠ BitVec.allOnes 128 → s.atRest line → s.recorded line = [] → Ends (.burstEndMarker r id true) s (fun m => m.bursts = [] ∧
        m.lineHolds line (fun i => if en.getLsbD i then data.getD i 0 else here s.toMod i))) ∧
      Becomes (.burstEndMarker r id false) s s.toMod ∧
      Ends (.burstDiscard r id) s (fun m => m.bursts = [] ∧ m.dram = s.dram ∧ m.caches = s.caches ∧ m.nextSeq = s.nextSeq + 1))

/-- R169, R171, R172, R180, R182, R203, R384, R387: a request takes the lowest free tag of its requester and becomes a transaction with the bytes the home holds, or writes;
it waits while its line is busy, and one of a regulated sector until its bucket holds enough, which it lowers by its bytes; without a free tag a request waits for
one; one that does not decode is recorded and told; a fenced unit issues none; an answer reaches its requester, frees its tag, and lets the oldest request that waits for one go. -/
def Claims.MemoryRequests : Prop :=
  ∀ (s : State) (r : Requester) (pa : PAddr) (n : Fin 4097) (tag content line : Nat) (cells : List Nat) (bs : List Byte) (err : AccErr) (ctl : Fin 96)
    (sec : SectorId) (u : Txn) (w : TagWait),
    let sector := s.requesterSector r
    let path := s.meshPath (orderedReq r) (requesterUnit r).1 (s.lineSite (cells.headD 0 / 128))
    let m := path.2
    let t : Option (List Byte) → Txn := fun write => {
      req := r, tag := tag, sector := sector, entry := (s.entryAt pa.toNat).map (·.1), mooring := none
      cells := cells, write := write, data := [], poison := false, waiting := false, gen := s.requesterGen r, hint := 0, outerTag := tag
      pa := pa.toNat, prio := s.prioAt pa.toNat, route := path.1, act := none }
    let waits := fun (write : Option (List Byte)) => Becomes (.memRequest r pa n write) s { m with
      txns := s.txns ++ [{ t write with waiting := true, stamp := s.nextStamp }] }
    let reads := fun (m : Mod) =>
      let k := m.channelRead (linesOf cells)
      (linesOf cells).any k.poisoned = false →
        Becomes (.memRequest r pa n none) s { k with txns := s.txns ++ [{ t none with data := cells.map k.homeByte }] }
    let least := tag < tagLimit r ∧ (∀ x ∈ s.txns, samePool x.req r = true → x.tag ≠ tag) ∧
      ∀ k < tag, ∃ x ∈ s.txns, samePool x.req r = true ∧ x.tag = k
    let idle := ∀ l ∈ linesOf cells, s.lineBusy l s.nextStamp = false
    (s.mayIssue r = false → inBlocks pa.toNat = false → Becomes (.memRequest r pa n none) s s.toMod) ∧
    (s.mayIssue r = true → inBlocks pa.toNat = false → (∀ x ∈ s.tagWait, samePool x.req r = false) →
      (least → s.decodeN sector pa.toNat n = .ok cells →
        (idle → s.prioAt pa.toNat = 0 → (∀ x ∈ s.txns, x.waiting = false) →
          (s.unregulated → reads m) ∧
          (cells ≠ [] → (∀ c ∈ cells, c / 128 = line) → lineChan line < 2576 → s.fromMemory line = true → sector = some sec →
            (chanCtl (lineChan line)).1 = ctl.val → s.regulated ctl sec = true →
            (min cells.length (s.bucketDepth ctl sec) ≤ s.bucket ctl sec → reads (m.setBucket ctl sec (s.bucket ctl sec - cells.length))) ∧
            (s.bucket ctl sec < min cells.length (s.bucketDepth ctl sec) → waits none))) ∧
        ((∃ l ∈ linesOf cells, s.lineBusy l s.nextStamp = true) → waits none)) ∧
      (least → s.decodeN sector pa.toNat bs.length = .ok cells → idle → (∀ x ∈ s.txns, x.waiting = false) → s.unregulated →
        (∀ l ∈ linesOf cells, s.lineFenced l = false) →
        let k := m.writeHinted cells bs 0
        Becomes (.memRequest r pa n (some bs)) s { k with txns := k.txns ++ [t (some bs)] }) ∧
      (least → s.decodeN sector pa.toNat n = .error err → Becomes (.memRequest r pa n none) s
        ((s.toMod.recordAccess (requesterUnit r).1 (requesterUnit r).2 sector err pa.toNat).tellError r tag err pa.toNat)) ∧
      ((∀ k < tagLimit r, ∃ x ∈ s.txns, samePool x.req r = true ∧ x.tag = k) → Becomes (.memRequest r pa n none) s { s.toMod with
        tagWait := s.tagWait ++ [{ req := r, sector := sector, mooring := none, hint := 0, outerTag := none, pa := pa.toNat, n := n, write := none, act := none }] })) ∧
    (s.quiet → Becomes (.regulatedRelease ctl sec content) s (s.toMod.setBucket ctl sec (min content (s.bucketDepth ctl sec)))) ∧
    (s.txns = [u] → u.req = r → u.tag = tag → u.waiting = false →
      let left : Mod := { s.toMod with txns := [] }
      (s.tagWait = [] →
        (u.gen ≠ s.requesterGen r → Becomes (.memoryCompletion r tag) s left.settleDrains) ∧
        (u.gen = s.requesterGen r → u.poison = false → ∀ p, r = .pcie p → Becomes (.memoryCompletion r tag) s
          ((left.emit (.completion p u.outerTag 0 u.data)).settleDrains))) ∧
      (u.gen ≠ s.requesterGen r → s.mayIssue w.req = true → s.tagWait = [w] → samePool w.req r = true → Becomes (.memoryCompletion r tag) s
        ((({ left with tagWait := [] } : Mod).issueRequest 0 w).settleDrains)))

/-- R184, R193, R196, R383, R393, R400: a lost stack's lines read as poison and its regions are LOST; a device fault is recorded and reported; a way that is cleaned
has its dirty line written to memory, is empty, and takes lines again; an epoch's sample of a level is held against its marks; a patrol read of a line with an
injected uncorrectable error poisons it. -/
def Claims.MemoryUnits : Prop :=
  ∀ (s : State) (stack : StackId) (md : MdId) (way : Fin 16) (avg others : BitVec 8) (pa : PAddr) (line k : Nat) (r : Region) (l : SliceLine) (data : List Byte),
    let x := s.slice md
    Ends (.stackLoss stack) s (fun m => (m.ctl stack).lost = some [] ∧ (m.ctl stack).loss = true ∧
      (∀ line, lineChan line / 32 = stack.val → s.fromMemory line = true → m.poisoned line = true) ∧
      (Table.rising s.regions = true → s.region k = r → r.valid = true → r.tier = 0 → (∃ ch ∈ s.chanList r, ch / 32 = stack.val) →
        (m.region k).lost = true)) ∧
    Ends (.stackDeviceFault stack) s (fun m => m.reports = s.reports ++ [.stack stack] ∧ m.dram = s.dram) ∧
    (x.cleaning.getLsbD way = true → s.quiet → (∀ k, s.stackFenced k = false) →
      x.lines.filter (fun p => p.2.any (fun l => l.way == way.val)) = [(line, some l)] → s.homeOf line = md.val → s.sliceLine line = some l →
      lineChan line < 2576 → l.cells = wholeLine data → Ends (.wayClean md way) s (fun m =>
        (m.slice md).cleaning = x.cleaning &&& ~~~(BitVec.ofNat 16 (1 <<< way.val)) ∧ m.sliceLine line = none ∧
        (∀ i < 128, m.dramByte (128 * line + i) = data.getD i 0) ∧ m.caches = s.caches ∧ ∀ j, j ≠ md.val → m.slice j = s.slice j)) ∧
    (x.cleaning.getLsbD way = false → Becomes (.wayClean md way) s s.toMod) ∧
    (let marks := s.reg (mdSite md) 0x3000200 0x40C0
     let hot := bits marks 7 0 ≤ avg.toNat ∧ others.toNat ≤ bits marks 15 8
     Becomes (.hotHomeSample (.slice md) avg others) s (s.toMod.setSlice md { x with
       hot := { epochs := if hot then min 0xFFFF (x.hot.epochs + 1) else x.hot.epochs, lastAvg := avg.toNat, hot := hot } })) ∧
    (s.lineAt pa.toNat = some line → 2560 ≤ lineChan line → lineChan line < 2576 → s.working = true → s.fromMemory line = true →
      (s.uninjected → Becomes (.patrolScrub pa) s s.toMod) ∧
      ((s.ctl (chanCtl (lineChan line)).1).inject = [(line, pa.toNat, true)] → Ends (.patrolScrub pa) s (fun m =>
        line ∈ m.poison ∧ (m.ctl (chanCtl (lineChan line)).1).inject = [])))

/-- R217, R218, R224, R225, R230, R232, R292, R407, R428: a port's states. ENABLE starts PROBE, unless the start found REFCLK_FAB absent; each step of training leads to
the next with what it agreed, an absent good lane group or a shutdown ends in DISABLED, a reset from any state but DISABLED discards the link and raises the
generation; keys open the port to a partner that the link policy admits, another is refused and waits its backoff out; a failed step starts over, and a retrain
keeps the session. -/
def Claims.PortStates : Prop :=
  ∀ (s : State) (p : PortId) (delay : BitVec 24) (gen offer : BitVec 2) (k1 : Bool) (failing : BitVec 8) (partner : PortId) (hash : BitVec 384),
    let x := s.port p
    let down := fun (y : Port) (reason : Nat) => y.st = .reset ∧ y.downReason = reason ∧ y.generation = x.generation + 1 ∧ y.unacked = [] ∧
      y.waiting = [] ∧ y.open_ = false ∧ y.credits = [] ∧ y.heldFrames = [] ∧ y.partnerHash = 0
    let goes := fun (i : Instr) (z : Port) => Ends.port i s p (fun y => y = { z with logged := y.logged })
    let policy := s.reg kdSite 0x85000 1
    let matches_ := fun (n : Nat) => let w := s.reg kdSite (0x85100 + n * 8) 0; bit w 56 = true ∧ bits w 55 0 = x.partnerHash.toNat % 2 ^ 56
    (x.st = .disabled →
      (s.boot.noFab = false → Ends (.fabPortEnable p) s (fun m => (m.port p).st = (if s.edgeFenced (p.val / 8) then .reset else .probe) ∧ bit (m.fabReg p 0 fabCtrlReset) 0 = true ∧
        (m.port p).ethernet = bit (s.fabReg p 0 fabCtrlReset) 1)) ∧
      (s.boot.noFab = true → Becomes (.fabPortEnable p) s (s.toMod.setEnable p true)) ∧
      Becomes (.fabPortDisable p) s (s.toMod.setEnable p false) ∧ Becomes (.fabPortReset p) s s.toMod) ∧
    (x.st ≠ .disabled → Ends.port (.fabPortReset p) s p (fun y => down y 1) ∧
      Ends (.fabPortDisable p) s (fun m => down (m.port p) 1 ∧ (m.port p).shutting = true ∧ (m.port p).deferred = false)) ∧
    (x.st = .active → Ends.port (.linkDown p) s p (fun y => down y 6) ∧
      (∀ i, i = Instr.fabPortRetrain p ∨ i = Instr.fecLockLoss p → goes i { x with st := .retrain, retrains := min 0xFFFF (x.retrains + 1), resendRun := 0 })) ∧
    (x.st = .probe → goes (.probePatternSeen p) { x with st := .speed } ∧
      (x.absentLogged = false → Ends.port (.probeWindow p) s p (fun y => y = { x with absentLogged := true })) ∧
      Becomes (.portStateTimeout p) s s.toMod) ∧
    (x.st = .speed → x.ethernet = false → goes (.capabilityAgreed p gen offer k1) { x with
      st := .equalize, gen := min x.genMax (min (max 1 gen.toNat) (max 1 offer.toNat)), k1Partner := k1, capChanged := true }) ∧
    (x.st = .equalize → x.bad = 0 →
      goes (.equalizeDone p 0) { x with st := .align, width := 2, group := 0, capChanged := true } ∧
      (failing.getLsbD 0 = true → (∀ l < 8, 1 ≤ l → failing.getLsbD l = false) → s.leastWidth p ≤ 1 →
        goes (.equalizeDone p failing) { x with st := .align, bad := failing, width := 1, group := 2, capChanged := true }) ∧
      Ends.port (.equalizeDone p (BitVec.allOnes 8)) s p (fun y => y.st = .disabled ∧ y.downReason = 7)) ∧
    (x.st = .align → goes (.alignDone p delay) { x with st := .linkMgmt } ∧
      Ends (.alignDone p delay) s (fun m => (Table.get BcnPort.reset m.beacon.ports p).delay = delay ∧ (Table.get BcnPort.reset m.beacon.ports p).valid = true)) ∧
    (x.st = .linkMgmt → Ends.port (.linkMgmtDone p partner hash) s p (fun y => y.st = .auth ∧ y.partnerHash = hash ∧
      y.partnerPort = partner ∧ (∀ k, Table.get 0 y.credits k = [256, 64, 4096, 8192, 8192, 16384].getD k 0))) ∧
    (x.st = .auth →
      (s.linkAdmits p = true → Ends (.keysInstalled p) s (fun m => (m.port p).st = .active ∧ (m.port p).open_ = true ∧ (m.port p).rxExpected = 0 ∧
        (m.port p).rxEpoch = 0 ∧ (m.port p).requester = decide (s.part.idHash.toNat < x.partnerHash.toNat))) ∧
      (s.linkAdmits p = false → Ends (.keysInstalled p) s (fun m => (m.port p).st = .refused ∧ (m.port p).open_ = x.open_ ∧
        (m.port p).authRefusals = min 0xFFFF (x.authRefusals + 1))) ∧
      goes (.authRefused p false) { x with st := .refused, authRefusals := min 0xFFFF (x.authRefusals + 1), backoff := min 64 (2 * x.backoff) }) ∧
    (x.k1Partner = false → (∀ n < 64, ¬ matches_ n) → s.linkAdmits p = (bit policy 0 && x.partnerRoot && !x.partnerUnlocked &&
      (List.range 4).all (fun c => Table.get 0 s.svnFused c ≤ Table.get 0 x.partnerSvn c))) ∧
    ((x.k1Partner = true ∧ bit policy 1 = false) ∨ (∃ n < 64, matches_ n ∧ bit (s.reg kdSite (0x85100 + n * 8) 0) 58 = true) → s.linkAdmits p = false) ∧
    (x.st = .speed ∨ x.st = .equalize ∨ x.st = .align ∨ x.st = .linkMgmt ∨ x.st = .auth →
      goes (.portStateTimeout p) { x.dropLink with st := .probe, attempts := x.attempts + 1 }) ∧
    (x.st = .refused → Ends.port (.authBackoffExpiry p) s p (fun y => y = { x with
      st := .auth, logged := y.logged, partnerRoot := y.partnerRoot, partnerUnlocked := y.partnerUnlocked, partnerSvn := y.partnerSvn })) ∧
    (x.st = .retrain →
      Ends (.portStateTimeout p) s (fun m => down (m.port p) 3 ∧ m.reports = s.reports ++ [.port p]) ∧
      (x.nextLanes = none → x.unacked = [] → x.waiting = [] → Ends.port (.retrainDone p delay) s p (fun y =>
        y = { x with st := .active, logged := y.logged, heldFrames := y.heldFrames } ∧ (x.ethernet = false ∨ x.paused = false → y.heldFrames = x.heldFrames)))) ∧
    (x.st = .reset → s.edgeFenced (p.val / 8) = false →
      (x.shutting = true → x.deferred = false → goes (.portResetDone p) { x with st := .disabled, bad := 0, shutting := false, capChanged := true }) ∧
      (x.shutting = false ∨ x.deferred = true → Ends.port (.portResetDone p) s p (fun y => y.st = .probe ∧ y.bad = 0 ∧ y.shutting = false) ∧
        Ends.port (.portStateTimeout p) s p (fun y => y.st = .probe ∧ y.attempts = x.attempts + 1)))

/-- R169, R171, R172, R180, R182, R184, R193, R196, R203, R383, R387, R393, R400: the memory pool and its units. -/
def Obligations.MemoryPool : Prop := Claims.MemoryRequests ∧ Claims.MemoryUnits

/-- R219, R222, R223: flits as they are received. A sound DATA flit of the expected FSEQ is taken once, its ACK and credits with it, the packet it completes enters its
receive buffer, and an IDLE flit acknowledges it; a flit that is not sound is dropped with a NAK, one of another FSEQ too unless a NAK already asked for the expected one;
an IDLE flit's ACK and credits are taken, a NAK has the rest resent, a LINK_DOWN ends the link; without progress every unacknowledged flit is resent. -/
def Claims.FlitsReceived : Prop :=
  ∀ (s : State) (p : PortId) (f : Flit) (bs : List Byte) (n : Nat) (i : Instr),
    let x := s.port p
    let hdr := bytesWord (bs.take 8)
    let vc := bits hdr 2 0
    let taken := fun (y : Port) => y.unacked = ackedBy x.unacked f.ack ∧ y.credits = addCredits (addCredits x.credits f.returnA) f.returnB
    x.flowing = true → i = .dataFlit p f ∨ i = .idleFlit p f ∨ i = .nakFlit p f →
    (flitSound f = true → f.fseq = x.expected → x.waiting = [] →
      (f.kind = 1 → Ends i s (fun m => (m.port p).expected = x.expected + 1 ∧ (m.port p).naked = false ∧ taken (m.port p) ∧
        (∀ q, q ≠ p.val → m.port q = s.port q) ∧ m.regs = s.regs ∧ m.cores = s.cores ∧ m.dram = s.dram ∧ m.inbox = s.inbox ∧
        (x.ethernet = false → ∃ g, m.out.head? = some (.flit p g) ∧ g.kind = 0 ∧ g.ack = f.fseq) ∧
        (x.rxPart = [] → f.start = 0 → f.payload = bs ++ List.replicate n 0 → 24 ≤ bs.length → headerMalformed hdr = false →
          bs.length = bits hdr 16 4 + 24 → Table.get 0 x.rxUsed vc + headerCredits hdr ≤ Table.get 0 fullCredits vc →
          (m.port p).rx = x.rx ++ [rxPacket bs] ∧ (m.port p).rxPart = if n < 3 then List.replicate n 0 else []))) ∧
      (f.kind = 0 → Ends.port i s p (fun y => taken y ∧ y.expected = x.expected ∧ y.naked = false)) ∧
      (f.kind = 2 → ackedBy x.unacked f.ack = [] → Ends.port i s p (fun y => taken y ∧ y.expected = x.expected ∧ y.runRetry = x.runRetry))) ∧
    (flitSound f = false ∨ (f.kind ≠ 3 ∧ f.fseq ≠ x.expected ∧ x.naked = false) → x.rxFreed = [] → Becomes i s
      ((s.toMod.setPort p { x with naked := true }).putFlits p [mkFlit 2 x.nextFseq (x.expected - 1) 0xFF (0, 0) (0, 0) []])) ∧
    (flitSound f = true → f.kind ≠ 3 → f.fseq ≠ x.expected → x.naked = true → Becomes i s s.toMod) ∧
    (flitSound f = true → f.kind = 3 → Ends.port i s p (fun y => y.st = .reset ∧ y.downReason = 6 ∧ y.open_ = false)) ∧
    (x.unacked ≠ [] → x.resendRun = 0 → x.rxFreed = [] → Becomes (.ackProgressTimeout p) s
      ((s.toMod.setPort p { x with resendAt := (x.unacked.head?.map (·.fseq)).getD 0, resendRun := 1, runRetry := x.runRetry + 1 }).putFlits p
        (x.unacked.map (fun u => mkFlit 1 u.fseq (x.expected - 1) u.start (0, 0) (0, 0) u.payload))))

/-- R219: a flit that is sent is sound where its TYPE is one of the four, and its fields read back. -/
def Claims.FlitFields : Prop :=
  ∀ (kind start : Nat) (fseq ack : BitVec 16) (a b : Nat × Nat) (payload : List Byte),
    kind < 16 → start < 256 → a.1 < 8 → a.2 < 4096 → b.1 < 8 → b.2 < 4096 → payload.length ≤ 238 →
    let f := mkFlit kind fseq ack start a b payload
    f.kind = kind ∧ f.fseq = fseq ∧ f.ack = ack ∧ f.start = start ∧ f.returnA = a ∧ f.returnB = b ∧ f.payload.length = 238 ∧ f.payload.take payload.length = payload ∧
      f.reserved = false ∧ (flitSound f = true ↔ kind ≤ 3)

/-- R221, R222, R225 to R233: link packets and the counts of a link. The oldest packet received is delivered when its counter is the expected one and it opens under
the key, counted as replay below it and as an authentication failure else, and its credits return with the next flit; before keys all but SPDM on MGMT is malformed;
a packet is sent with its credits, its counter and its place in the retry buffer taken; counts are shown at each epoch's end, and discarded at one in RETRAIN; a
starved channel resets the port; a key epoch ends before the next packet. -/
def Claims.LinkTraffic : Prop :=
  ∀ (s : State) (p : PortId) (k : RxPkt) (rest : List RxPkt) (body : LinkBody) (t : TPkt) (vc : Fin 6) (corrected : List Nat) (bad : Nat),
    let x := s.port p
    let ctr := bits k.hdr 63 32
    let lo := bits x.rxExpected 31 0
    let n := headerCredits k.hdr
    let reads := fun (P : Mod → Prop) => Ends (.linkPacket p body) s (fun m => (m.port p).rx = rest ∧ (∀ q, q ≠ p.val → m.port q = s.port q) ∧
      m.regs = s.regs ∧ m.cores = s.cores ∧ m.dram = s.dram ∧
      (x.rxFreed = [] → x.ethernet = false → bits k.hdr 2 0 < 6 → 0 < n → n ≤ 4095 →
        ∃ g, m.out.head? = some (.flit p g) ∧ g.kind = 0 ∧ g.returnA = (bits k.hdr 2 0, n)) ∧ P m)
    let delivered := s.inbox ++ [{ ed := p.val / 8, port := some p, vc := bits k.hdr 2 0, sector := none, pkt := t }]
    let opens := body = .opened t ∧ t.body = bits k.hdr 16 4
    let th := s.fabReg p 0x18 fabThreshReset
    (x.rx = [] → Becomes (.linkPacket p body) s s.toMod) ∧
    (x.rx = k :: rest → x.st = .active →
      (bit k.hdr 3 = false → ctr = lo → opens → reads (fun m => (m.port p).rxExpected = x.rxExpected + 1 ∧ m.inbox = delivered)) ∧
      (bit k.hdr 3 = true → ctr = 0 → opens → reads (fun m => (m.port p).rxEpoch = x.rxEpoch + 1 ∧
        (m.port p).rxExpected = BitVec.ofNat 64 ((x.rxEpoch.toNat + 1) * 2 ^ 32 + 1) ∧ m.inbox = delivered)) ∧
      (bit k.hdr 3 = true → ctr ≠ 0 → reads (fun m => (m.port p).malformed = min 0xFFFFFFFF (x.malformed + 1) ∧ (m.port p).rxExpected = x.rxExpected ∧
        m.inbox = s.inbox)) ∧
      (bit k.hdr 3 = false → ctr < lo → reads (fun m => (m.port p).replay = min 0xFFFF (x.replay + 1) ∧ (m.port p).rxExpected = x.rxExpected ∧
        m.inbox = s.inbox)) ∧
      (bit k.hdr 3 = false → lo < ctr ∨ (ctr = lo ∧ (body = .refused ∨ body = .spdm)) → x.runAuth < 15 → reads (fun m =>
        (m.port p).authFail = min 0xFFFF (x.authFail + 1) ∧ (m.port p).rxExpected = x.rxExpected ∧ (m.port p).st = .active ∧ m.inbox = s.inbox))) ∧
    (x.rx = k :: rest → x.st = .linkMgmt ∨ x.st = .auth ∨ x.st = .refused →
      (bits k.hdr 2 0 ≠ 0 ∨ body ≠ .spdm → reads (fun m => (m.port p).malformed = min 0xFFFFFFFF (x.malformed + 1) ∧ m.inbox = s.inbox)) ∧
      (bits k.hdr 2 0 = 0 → body = .spdm → x.mgmtSince + 1000000 ≤ s.bt → reads (fun m => (m.port p).malformed = x.malformed ∧ m.inbox = s.inbox))) ∧
    (x.waiting = [] → vc ≠ 2 → x.mayStart vc t = true →
      let m := s.toMod.sendLink p vc none t
      let used : Word := if x.epochDue then BitVec.ofNat 64 ((x.txCtr.toNat / 2 ^ 32 + 1) * 2 ^ 32) else x.txCtr
      (m.port p).waiting = [] ∧ (m.port p).txCtr = used + 1 ∧ (m.port p).unacked.length = x.unacked.length + t.flitCount ∧
        (m.port p).nextFseq = x.nextFseq + BitVec.ofNat 16 t.flitCount ∧ (∀ v, Table.get 0 (m.port p).credits v =
          Table.get 0 x.credits v - (if v = vc.val then t.creditCount else 0)) ∧ .packet p vc used t ∈ m.out) ∧
    (x.st = .active → s.working = true → (∃ o ∈ x.waiting, o.vc = vc.val ∧ Table.get 0 x.credits vc < o.pkt.creditCount) → Ends (.creditToExpiry p vc) s (fun m =>
      (m.port p).st = .reset ∧ (m.port p).downReason = 2 ∧ m.reports = s.reports ++ [.port p])) ∧
    (x.open_ = true → Becomes (.keyEpochTimer p) s (s.toMod.setPort p { x with epochDue := true })) ∧
    (x.injectLane = none →
      (x.st = .active → bad ≤ bits th 47 32 → x.runRetry ≤ bits th 63 48 → (∀ n ∈ corrected, n ≤ bits th 31 0) →
        Ends.port (.portEpochCheck p corrected bad) s p (fun y => y.uncorr = bad ∧ y.retry = x.runRetry ∧ y.runRetry = 0 ∧ y.runAuth = 0 ∧ y.bad = x.bad ∧
          y.st = .active ∧ ∀ l < 8, Table.get 0 y.symCorr l = corrected.getD l 0)) ∧
      (x.st = .active → x.width = 2 → x.group = 0 → x.bad = 0 → s.leastWidth p = 0 → corrected = [] → bits th 47 32 < bad →
        Ends.port (.portEpochCheck p corrected bad) s p (fun y =>
          y.st = .retrain ∧ y.nextLanes = some (1, 0) ∧ y.stepdowns = min 0xFFFF (x.stepdowns + 1))) ∧
      (x.st = .retrain → Becomes (.portEpochCheck p corrected bad) s
        ((s.toMod.laneErrors p ((List.range 8).map (fun l => corrected.getD l 0)) none).setPort p { x with runRetry := 0, runAuth := 0, logged := [] })))

/-- R234 to R237: a port in Ethernet mode answers a neighbour solicitation for its address, takes the flits of a sound datagram from its peer in order, holds its
frames under priority flow control where that is enabled and sends them when it is released, and drops anything else as malformed. Where priority flow control is
enabled, whether it holds or releases its partner after a datagram is free (log entry 109). -/
def Claims.EthernetFrames : Prop :=
  ∀ (s : State) (p : PortId) (target : BitVec 128) (d : Datagram) (f : Flit) (hold : Bool),
    let x := s.port p
    let ip := (x.ethReg 0x118).toNat * 2 ^ 64 + (x.ethReg 0x120).toNat
    let peer := (x.ethReg 0x128).toNat * 2 ^ 64 + (x.ethReg 0x130).toNat
    let mine := 64 ≤ d.length ∧ d.length ≤ 9216 ∧ d.dst.toNat = ip ∧ d.src.toNat = peer ∧ d.udpPort.toNat = bits (x.ethReg 0x100) 15 0
    let dropped := fun (i : Instr) => Ends.port i s p (fun y => y.malformed = min 0xFFFFFFFF (x.malformed + 1))
    (x.ethernet = false → Becomes (.neighbourSolicitation p target) s s.toMod ∧ Becomes (.udpDatagram p d) s s.toMod ∧
      Becomes (.pfcFrame p hold) s s.toMod) ∧
    (x.ethernet = true → x.st = .active →
      (target.toNat = ip → Becomes (.neighbourSolicitation p target) s (s.toMod.emit (.neighbour p (bits (x.ethReg 0x108) 47 0) ip))) ∧
      (target.toNat ≠ ip → dropped (.neighbourSolicitation p target)) ∧
      (mine → bits d.shim0 7 0 = 1 → bits d.shim0 15 8 = 1 → d.flits = [f] → flitSound f = true → f.kind = 1 → f.fseq = x.expected → x.waiting = [] →
        Ends.port (.udpDatagram p d) s p (fun y => y.expected = x.expected + 1 ∧ y.naked = false ∧ y.unacked = ackedBy x.unacked f.ack)) ∧
      (mine → bits d.shim0 7 0 = 1 → bits d.shim0 15 8 = 0 → Becomes (.udpDatagram p d) s (if bit (x.ethReg 0x100) 38 = false then s.toMod
        else if bit s.takeFree.1 0 = false then s.takeFree.2
        else (s.takeFree.2.setPort p { x with holds := !x.holds }).emit (.pfc p (!x.holds)))) ∧
      (¬ mine ∨ bits d.shim0 7 0 ≠ 1 ∨ 32 < bits d.shim0 15 8 → dropped (.udpDatagram p d)) ∧
      (bit (x.ethReg 0x100) 38 = true → Becomes (.pfcFrame p true) s (s.toMod.setPort p { x with paused := true })) ∧
      (bit (x.ethReg 0x100) 38 = true → x.waiting = [] → Becomes (.pfcFrame p false) s
        { s.toMod.setPort p { x with paused := false, heldFrames := [] } with out := (x.heldFrames.map (.frame p ·)).reverse ++ s.out }) ∧
      (bit (x.ethReg 0x100) 38 = false → dropped (.pfcFrame p hold)))

/-- R316, R322, R323, R327 to R330, R332, R311, R315: the functions of hosts. Bus master and memory space are cleared and set by the host, each clear of bus
master withdraws the function under a new generation; resets clear the function and take its sector with them; the admin queue is enabled with its configuration
and disabled without a reply; an unmasked vector is let go; a sector's PD cores write back and start again; a link that may train and has its clock (R314, R428)
is up, and its state is shown and told. -/
def Claims.FunctionEvents : Prop :=
  ∀ (s : State) (port : Fin 9) (fn : Fin 17) (sec : SectorId) (vec : Fin 2048) (p : PcieId) (l : LinkReport),
    let f := s.fn port fn
    let x := s.sector sec
    let q : QRef := .csq (Fin.ofNat 16384 x.firstQueue)
    let again := fun (i : Instr) => s.fw.platformNew = false → Ends i s (fun m => ∀ a ∈ s.sectorPds sec, (m.pdCore a).running = !(s.pdCore a).heldOut ∧
      (m.pdCore a).reservation = none ∧ ∀ k, k / 2 ^ 60 = a → Table.find m.caches k = none)
    (f.bme = true → s.fnSector port fn = none → Becomes (.bmeClear port fn) s
      (s.toMod.setFn port fn { f with bme := false, withdrawn := true, gen := f.gen + 1 })) ∧
    (f.bme = false → Becomes (.bmeClear port fn) s s.toMod) ∧
    (f.resetting = false →
      (f.pendingVec = [] → Becomes (.bmeSet port fn) s (s.toMod.setFn port fn { f with bme := true, withdrawn := false })) ∧
      (f.pendingVec = [vec.val] → vec.val ∈ f.unmasked → f.active = true → f.msixEnable = true → s.portCarries port = true → s.repliesHeld port fn = false →
        Becomes (.bmeSet port fn) s ((s.toMod.setFn port fn { f with bme := true, withdrawn := false, pendingVec := [] }).emit (.msix port fn vec)))) ∧
    (f.resetting = true → Becomes (.bmeSet port fn) s s.toMod) ∧
    Becomes (.mseClear port fn) s (s.toMod.setFn port fn { f with mse := false }) ∧
    (s.fnSector port fn = none → Ends (.functionLevelReset port fn) s (fun m => m = { s.toMod with fns := m.fns } ∧ (m.fn port fn).gen = f.gen + 1 ∧
      (m.fn port fn).bme = false ∧ (m.fn port fn).mse = false ∧ (m.fn port fn).ready = f.active ∧ (m.fn port fn).resetting = false)) ∧
    (s.fnSector port fn = some sec.val → x.st = 3 → x.flr = true → Becomes (.functionLevelReset port fn) s s.toMod) ∧
    (s.fnSector port fn = some sec.val → x.st = 2 → s.sectorClusters sec = [] → s.sectorEngines sec = [] → s.sets = [] → s.regions = [] → s.moorings = [] →
      (∀ e, (s.ed e).books = []) →
      Ends (.functionLevelReset port fn) s (fun m => (m.sector sec).st = 3 ∧ (m.sector sec).resetKind = max 1 x.resetKind ∧
        (m.fn port (1 + sec.val)).gen = (s.fn port (1 + sec.val)).gen + 1 ∧ (m.fn port (1 + sec.val)).bme = false)) ∧
    ((∀ k < 16, s.fnSector port (1 + k) = none) → Ends (.conventionalReset port) s (fun m => m = { s.toMod with fns := m.fns } ∧
      (m.fn port 0).gen = (s.fn port 0).gen + 1 ∧ (m.fn port 0).mse = false ∧ (m.fn port 0).resetting = false)) ∧
    (x.st ≠ 3 → Becomes (.functionResetDone sec) s s.toMod) ∧
    (s.applies sec = true → Becomes (.functionResetDone sec) s s.toMod) ∧
    (x.st = 3 → s.applies sec = false → x.attached = true → x.resetKind = 1 → s.sectorClusters sec = [] → s.sectorEngines sec = [] → Ends (.functionResetDone sec) s (fun m =>
      (m.sector sec).st = 2 ∧ (m.sector sec).resetKind = 0 ∧ (m.sector sec).flr = false ∧ (m.fn x.hostPort (1 + sec.val)).ready = true ∧
      (m.fn x.hostPort (1 + sec.val)).resetting = false)) ∧
    (s.funcOpen sec = true →
      (let c := (s.fn x.hostPort (1 + sec.val)).adminQueue (s.queue q)
       (s.queue q).st = .free → c.sound = true → Becomes (.adminEnable sec) s (s.toMod.setQueue q { c with st := .enabled })) ∧
      (let c := (s.fn x.hostPort (1 + sec.val)).adminQueue (s.queue q)
       c.sound = false → (s.queue q).st = .free ∨ (s.queue q).st = .disabled →
         Ends (.adminEnable sec) s (fun m => m.queue q = s.queue q)) ∧
      ((s.queue q).st = .enabled → (s.queue q).flights = [] → (s.queue q).held = [] → (s.queue q).enable = none → Ends (.adminDisable sec) s (fun m =>
        (m.queue q).st = .disabled))) ∧
    (s.funcOpen sec = false → Becomes (.adminEnable sec) s s.toMod ∧ Becomes (.adminDisable sec) s s.toMod) ∧
    (vec.val ∉ f.unmasked → vec.val ∉ f.pendingVec → Becomes (.msixUnmask port fn vec) s
      (s.toMod.setFn port fn { f with unmasked := f.unmasked ++ [vec.val] })) ∧
    (vec.val ∉ f.unmasked → f.pendingVec.filter (fun v => f.unmasked.contains v || v == vec.val) = [vec.val] → f.reachable = true → f.msixEnable = true →
      s.portCarries port = true → s.repliesHeld port fn = false → Ends (.msixUnmask port fn vec) s (fun m => m.out = .msix port fn vec :: s.out)) ∧
    again (.sbiSrst sec) ∧ again (.hostCoreRestart sec) ∧
    (x.attached = false → x.st = 2 → s.sectorClusters sec = [] → s.sectorEngines sec = [] → s.sets = [] → s.regions = [] → s.moorings = [] →
      (∀ e, (s.ed e).books = []) →
      Ends (.hostSectorReset sec) s (fun m => (m.sector sec).st = 3 ∧ (m.sector sec).resetKind = max 3 x.resetKind)) ∧
    (let c := s.pciePort p
     (l.up = true → s.trains p l = true → s.edgeFenced (p.val / 2) = false → (s.boot.noPcie = false ∨ l.ownClock = true) →
       (∀ k, (s.fn p k).pendingVec = []) →
       let m := s.toMod.updPcie p (fun x => { x with linkUp := true, rate := l.rate.toNat, width := l.width.toNat, protocol := l.protocol.toNat,
                                                      ideActive := l.ide, flit := decide (6 ≤ l.rate.toNat), devices := l.devices.toNat })
       Becomes (.pcieLinkStateEvent p l) s (if c.mode = 1 then m.raiseSource (pdSite (tier2Home s.part.guestSite p)) (40 + p.val) else m)) ∧
     (l.up = true → s.trains p l = false ∨ s.edgeFenced (p.val / 2) = true ∨ (s.boot.noPcie = true ∧ l.ownClock = false) →
       Becomes (.pcieLinkStateEvent p l) s s.toMod) ∧
     (l.up = false → c.mode = 1 → (∀ k, (s.fn p k).pendingVec = []) → Becomes (.pcieLinkStateEvent p l) s
       ((s.toMod.updPcie p PciePort.down).raiseSource (pdSite (tier2Home s.part.guestSite p)) (40 + p.val))))

/-- R310, R311: an event of a PD's wired source is told, and where its M-level domain is enabled, has the source enabled, not delegated, and its mode one of a wire, the
identity of the source's target becomes pending in the M-level interrupt file of the core it names; a domain that is not enabled keeps it pending. How the domains and files
work is the Advanced Interrupt Architecture's (log entry 122). -/
def Claims.Interrupts : Prop :=
  ∀ (s : State) (pd i : Nat),
    let d := s.aplic (2 * pd)
    let c := Table.get 0 d.source i
    let t := Table.get 0 d.target i
    let m := s.toMod.raiseSource (pdSite pd) i
    pd < 4 → 1 ≤ i → i < 64 → c < 1024 → 4 ≤ c % 8 →
    (.aplic (pdSite pd) i ∈ m.out ∧ m.cores = s.cores ∧ m.dram = s.dram ∧ m.regs = s.regs ∧ m.queues = s.queues) ∧
    (d.ie = false → i ∈ (m.aplic (2 * pd)).pending ∧ m.aia.files = s.aia.files) ∧
    (d.ie = true → i ∈ d.enabled → 1 ≤ t % 2048 → t % 2048 ≤ 63 →
      let file := (96 * pd + t / 2 ^ 18 % 96) * 16 + 8
      (m.aplic (2 * pd)).pending = d.pending.erase i ∧ (∀ id, id ∈ Table.get [] m.aia.files file ↔ id = t % 2048 ∨ id ∈ Table.get [] s.aia.files file) ∧
        (∀ f, f ≠ file → Table.get [] m.aia.files f = Table.get [] s.aia.files f))

/-- R310, R311, R315, R316, R322, R323, R327 to R330, R332: the functions of hosts, their links, and the interrupts of the processor dies. -/
def Obligations.HostFunctions : Prop := Claims.FunctionEvents ∧ Claims.Interrupts

/-- R217 to R219, R221 to R237, R292, R407, R428: the fabric ports. -/
def Obligations.Ports : Prop := Claims.PortStates ∧ Claims.FlitsReceived ∧ Claims.FlitFields ∧ Claims.LinkTraffic ∧ Claims.EthernetFrames

/-- R188, R312, R318, R320 to R327: requests through the PCIe/CXL ports. A function that takes none answers unsupported; its configuration header and registers
read as the table says and its bells and registers are written; a request through a mooring is translated and asked of the memory under the mooring's sector;
one of an adapter without a translation waits for its walk; a read into an aperture leaves under its function with the lowest free tag, and its completion is told to
who asked, a memory write is posted, and the root port's own registers answer a value that the spec leaves open (log entry 120). -/
def Obligations.PortRequests : Prop :=
  ∀ (s : State) (port : Fin 9) (fn : Fin 17) (p : PcieId) (rid : BitVec 16) (addr : Word) (tag : BitVec 14) (n : Fin 4097) (write : Option (List Byte)) (t : BarTarget)
    (sec : SectorId) (v c : Word) (e : Nat × Mooring) (page : BitVec 52) (a : AdapterReq) (phys : BitVec 44) (r : Requester) (pa : PAddr)
    (cell : Nat) (cells : List Nat) (u : Upstream) (data : List Byte) (tr : Iotlb),
    let x := s.pciePort p
    let f := s.fn port fn
    let said := fun (k status : Nat) (bs : List Byte) => s.toMod.emit (.completion k tag.toNat status bs)
    let len := reqLen n.val write
    ((port.val = 8 ∧ s.boot.noMgmt = false) ∨ (port.val < 8 ∧ (s.pciePort port).mode = 2 ∧ (s.pciePort port).linkUp = true ∧ s.portTakes port = true) →
      (s.barOpen port t = false → Becomes (.inboundEndpointRequest port rid t tag n write) s (said port 1 [])) ∧
      (∀ off, t = .bar0 ⟨1 + sec.val, by omega⟩ off → s.barOpen port t = true →
        (off = 0x4800010 → Becomes (.inboundEndpointRequest port rid t tag 8 none) s
          (said port 0 (wordBytes (s.fn port (1 + sec.val)).adminRing))) ∧
        (off = 0x4800010 → data.length = 8 → Becomes (.inboundEndpointRequest port rid t tag n (some data)) s
          ((s.toMod.setFn port (1 + sec.val) { s.fn port (1 + sec.val) with
            adminRing := BitVec.ofNat 64 (numOf data) &&& ones 63 12 }).emit (.completion port tag.toNat 0 [])))) ∧
      (fn.val = 0 → f.active = true → f.resetting = false → Becomes (.configRequest port fn tag (.read 0)) s (said port 0 (bytesOf 4 0x725F1F2B))) ∧
      (fn.val ≠ 0 → port.val < 8 → f.resetting = false → Becomes (.configRequest port fn tag (.read 0)) s (said port 0 (bytesOf 4 0x72501F2B))) ∧
      (fn.val ≠ 0 → port.val < 8 → f.resetting = true → Becomes (.configRequest port fn tag (.read 0)) s (said port 4 [])) ∧
      (fn.val = 0 → f.active = false → Becomes (.configRequest port fn tag (.read 0)) s (said port 1 []))) ∧
    ((port.val < 8 ∧ ((s.pciePort port).mode ≠ 2 ∨ (s.pciePort port).linkUp = false)) ∨ (port.val = 8 ∧ s.boot.noMgmt = true) → Becomes (.inboundEndpointRequest port rid t tag n write) s s.toMod ∧
      Becomes (.configRequest port fn tag (.read 0)) s s.toMod) ∧
    (port.val < 8 → (s.pciePort port).mode = 2 → (s.pciePort port).linkUp = true → s.portTakes port = false →
      Becomes (.inboundEndpointRequest port rid t tag n write) s (said port 1 [])) ∧
    (x.linkUp = true → x.mode = 1 → s.working = true → s.portTakes p = true →
      (addr.toNat % 8 ≠ 0 → Becomes (.atomicop p rid addr tag .fetchAdd 8 v c) s (said p 1 [])) ∧
      (s.mooringFor p rid.toNat addr.toNat = none → addr.toNat % 8 = 0 → Becomes (.atomicop p rid addr tag .fetchAdd 8 v c) s (said p 1 [])) ∧
      (s.mooringFor p rid.toNat addr.toNat = some e →
        let to_ := e.2.phys + (addr.toNat - e.2.bus)
        (addr.toNat % 8 = 0 → addr.toNat + 8 ≤ e.2.bus + e.2.size → bit e.2.w0 4 = true → bit e.2.w0 5 = true → (∀ q < 8, s.inAperture q to_ (to_ + 8) = false) →
          Becomes (.atomicop p rid addr tag .fetchAdd 8 v c) s (s.toMod.request (.pcie p) (some (Fin.ofNat 16 e.2.sector)) (some e.1) 0 (some tag.toNat) to_ 8
            none (some (.atomic .add 8 (v.toNat % 2 ^ 64) (c.toNat % 2 ^ 64))))) ∧
        (addr.toNat % 8 = 0 → (bit e.2.w0 4 && bit e.2.w0 5) = false → Becomes (.atomicop p rid addr tag .fetchAdd 8 v c) s (said p 1 [])) ∧
        (addr.toNat + len ≤ e.2.bus + e.2.size → bit e.2.w0 4 = true → bit e.2.w0 5 = true → (∀ q < 8, s.inAperture q to_ (to_ + len) = false) →
          Becomes (.inboundAdapterRequest p rid addr tag n write) s (s.toMod.request (.pcie p) (some (Fin.ofNat 16 e.2.sector)) (some e.1)
            (if bit e.2.w0 6 then bits e.2.w0 31 16 else 0) (some tag.toNat) to_ len write none)) ∧
        (e.2.bus + e.2.size < addr.toNat + len → Becomes (.inboundAdapterRequest p rid addr tag n write) s (said p 1 []))) ∧
      (s.mooringFor p rid.toNat addr.toNat = none → addr.toNat % 4096 + len ≤ 4096 →
        (s.iotlb = [] → Becomes (.inboundAdapterRequest p rid addr tag n write) s { s.toMod with adapterWait := s.adapterWait ++
          [{ port := p, rid := rid.toNat, addr := addr.toNat, n := len, write := write, tag := tag.toNat }] }) ∧
        (s.iotlb = [tr] → tr.port = p → tr.rid = rid.toNat → tr.page = addr.toNat / 4096 → write.isSome = true → tr.write = false →
          Becomes (.inboundAdapterRequest p rid addr tag n write) s (said p 1 [])))) ∧
    (s.working = true → s.adapterWait = [a] → a.port = p → a.rid = rid.toNat → a.addr / 4096 = page.toNat →
      Becomes (.iotlbMissWalk p rid page none) s ((({ s.toMod with adapterWait := [] } : Mod).emit (.completion p a.tag 1 [])).raiseSource
        (pdSite (tier2Home s.part.guestSite p)) (8 + 4 * p.val + 1)) ∧
      (s.iotlb = [] → a.write = none → Becomes (.iotlbMissWalk p rid page (some (phys, false))) s
        (({ s.toMod with adapterWait := [], iotlb := [{ port := p, rid := rid.toNat, page := page.toNat, phys := phys.toNat, write := false }] } : Mod).translated
          p (phys.toNat * 4096 + a.addr % 4096) a.tag a.n none))) ∧
    (s.mayIssue r = true → s.inAperture port pa.toNat (pa.toNat + 1) = true → (∀ q < port.val, s.inAperture q pa.toNat (pa.toNat + 1) = false) → port.val < 8 →
      let b := s.outAt port pa.toNat
      let own := b.1 = 0 ∧ b.2 < 4096
      (s.decodeN (s.requesterSector r) pa.toNat n = .ok (cell :: cells) →
        (own → ∃ bs, Becomes (.apertureRequest r pa n none) s (s.takeFree.2.emit (.served pa.toNat bs))) ∧
        (¬ own → (∀ u ∈ s.upstream, u.port ≠ port.val) →
          Ends (.apertureRequest r pa n none) s (fun m => m.out = .aperture port (s.outFn port pa.toNat) b.1 b.2 0 n none :: s.out ∧
            ∃ u : Upstream, m.upstream = s.upstream ++ [u] ∧ u.port = port.val ∧ u.tag = some 0 ∧ u.flush = none ∧ u.pa = pa.toNat ∧ u.n = n.val ∧ u.req = r ∧
              m = { s.toMod with out := m.out, upstream := m.upstream }))) ∧
      (s.decodeN (s.requesterSector r) pa.toNat data.length = .ok (cell :: cells) → b.1 = 1 →
        Becomes (.apertureRequest r pa n (some data)) s (s.toMod.emit (.aperture port (s.outFn port pa.toNat) b.1 b.2 0 data.length (some data))))) ∧
    (s.upstream = [u] → u.port = p.val → u.tag = some tag.toNat → u.flush = none → s.noDrains →
      (u.fn = 0 → Becomes (.pcieCompletion p tag true data) s (({ s.toMod with upstream := [] } : Mod).emit (.served u.pa (data.take u.n)))) ∧
      (u.fn ≠ 0 → (s.fn p u.fn).gen ≠ u.gen → Becomes (.pcieCompletion p tag true data) s { s.toMod with upstream := [] }))

/-- R396, R397, R408, R311: a failure becomes an error record of its die: one that merges counts up, a full ring loses it, else it is written behind the pending
ones; severities 2 and 3 are copied into the event log, and a PD's raises its APLIC's source 1. The ring gives records back when they are acknowledged. -/
def Obligations.ErrorRecords : Prop :=
  ∀ (s : State) (f : Fail) (site : Site) (n : BitVec 7),
    let ring := s.err f.site
    let m := s.toMod.record f
    let i := (ring.oldest + ring.pending) % 64
    let at_ := fun (k : Nat) => Table.get none (m.err f.site).recs k
    (∀ k x, ring.mergeAt f s.bt = some k → Table.get none ring.recs k = some x →
      at_ k = some { x with count := min 0xFFFF (x.count + 1) } ∧ (m.err f.site).pending = ring.pending ∧ m.events = s.events ∧ m.out = s.out) ∧
    (ring.mergeAt f s.bt = none → 64 ≤ ring.pending → m = s.toMod.setErr f.site { ring with lost := min 0xFFFF (ring.lost + 1) }) ∧
    (ring.mergeAt f s.bt = none → ring.pending < 64 →
      at_ i = some { cls := f.cls, sev := f.sev, injected := f.injected, sector := f.sector, gen := s.unitGen f.site f.unit, unit := f.unit, code := f.code,
                     addr := f.addr, bt := s.beacon.bt, detail := f.detail, count := 1 } ∧
      (∀ k, k ≠ i → at_ k = Table.get none ring.recs k) ∧ (m.err f.site).pending = ring.pending + 1 ∧ (m.err f.site).oldest = ring.oldest ∧
      (sitePd f.site = none → m.out = s.out ∧ m.aia = s.aia) ∧
      ((sitePd f.site).isSome = true → m.out = (s.toMod.raiseSource f.site 1).out ∧ m.aia = (s.toMod.raiseSource f.site 1).aia) ∧
      (f.sev < 2 → m.events = s.events) ∧
      (2 ≤ f.sev → m.nextSeq = s.nextSeq + 1 ∧ ∃ e, Table.get none m.events (s.nextSeq.toNat % 4096) = some e ∧ e.cls = 0x04 ∧ e.seq = s.nextSeq ∧
        e.sub = BitVec.ofNat 8 f.cls ∧ e.site = BitVec.ofNat 5 f.site ∧ e.bt = s.beacon.bt)) ∧
    (∀ k, k ≠ f.site → m.err k = s.err k) ∧ m.cores = s.cores ∧ m.dram = s.dram ∧ m.regs = s.regs ∧
    Becomes (.tndErrAck site n) s (s.toMod.setErr site { s.err site with
      pending := (s.err site).pending - min n.toNat (s.err site).pending
      oldest := ((s.err site).oldest + min n.toNat (s.err site).pending) % 64 })

/-- R391, R392, R388: a fault of a core that nothing under recovery or queued contains begins its recovery, the core FENCED; while another domain is under
recovery it waits, fenced; one contained in the domain under recovery is absorbed; a fault of the very domain under recovery escalates to the next larger one; a
domain whose tag moved too often escalates too; a stopped Tender does nothing; a fault of the module ends the coherent domain and asks for a restart. -/
def Claims.FaultReports : Prop :=
  ∀ (s : State) (c : CoreId) (x : Domain),
    let t := s.tender
    let d : Domain := .core c
    let up : Domain := .cluster (Fin.ofNat 128 (c.val / 8))
    let here := fun (P : Mod → Prop) => Ends (.faultReport d) s (fun m => m.reports = s.reports.erase d ∧ P m)
    let fencedNow := fun (m : Mod) => d ∈ m.tender.fenced ∧ (m.core c).st = .fenced ∧ (∀ k, k ≠ c.val → m.core k = s.core k) ∧ m.dram = s.dram ∧ m.regs = s.regs
    let free := (∀ y ∈ t.queue, Domain.covers y d = false) ∧ s.storming d = false
    (t.stopped = true → here (fun m => m = { s.toMod with reports := s.reports.erase d, injectedReports := s.injectedReports.erase d })) ∧
    (t.stopped = false →
      (free → t.current = none → here (fun m => m.tender.step = 3 ∧ m.tender.current = some d ∧ m.tender.queue = t.queue ∧ fencedNow m)) ∧
      (free → t.current = some x → Domain.covers x d = false → t.queue.length < 64 →
        here (fun m => m.tender.current = some x ∧ m.tender.queue = t.queue ++ [d] ∧ fencedNow m)) ∧
      (t.current = some x → x ≠ d → Domain.covers x d = true → here (fun m => m = { s.toMod with reports := s.reports.erase d, injectedReports := s.injectedReports.erase d })) ∧
      (t.current = some d → t.queue = [] → s.storming up = false → here (fun m => m.tender.current = some up ∧ m.tender.step = 3 ∧
        m.tender.escalations = min 0xFFFF (t.escalations + 1) ∧ (m.cluster (c.val / 8)).fenced = true ∧ (m.core c).st = .fenced)) ∧
      (t.current = none → t.queue = [] → s.storming d = true → s.storming up = false → here (fun m => m.tender.current = some up ∧
        m.tender.escalations = min 0xFFFF (t.escalations + 1) ∧ (m.cluster (c.val / 8)).fenced = true)) ∧
      (s.boot.phase = 7 → s.boot.request = none → (∀ md, (s.slice md).lines = []) → Ends (.faultReport .moduleWarm) s (fun m => m.boot.request = some (false, 2) ∧ m.caches = [] ∧
        m.tender.current = some .moduleWarm ∧ m.tender.queue = [] ∧ m.dram = s.dram)))

/-- R384, R385, R387, R388, R390, R391: at the end of the drain the domain's tag moves and its transaction tags are free; at the end of the reset a core has its
reset state with its owner and tag, idle, and the next recovery of the queue begins, or none. A recovery ends no other way. -/
def Claims.DomainRecoveries : Prop :=
  ∀ (s : State) (c : CoreId),
    let t := s.tender
    let d : Domain := .core c
    let x := s.core c
    (t.current = some d → t.stopped = false →
      (t.step = 3 → x.launch = none → x.saved = none → x.hold = none → (∀ q ∈ s.clusterQueues (c.val / 8), q.2.flights = []) → s.quiet →
        Ends .recoveryDrainEnd s (fun m => m.tender.step = 6 ∧ m.core c = { x with gen := x.gen + 1 } ∧ (∀ k, k ≠ c.val → m.core k = s.core k) ∧
          (∀ y, y ∈ m.txns ↔ y ∈ s.txns ∧ y.req ≠ .core c) ∧ m.dram = s.dram ∧
          m.tender.increments = t.increments.filter (fun y => s.bt < y.2 + 1000000000) ++ [(d, s.bt)])) ∧
      (t.step = 6 → x.queue = [] → t.fenced = [d] →
        Ends .recoveryResetDone s (fun m => (m.core c).st = .idle ∧ (m.core c).gen = x.gen ∧ (m.core c).sector = x.sector ∧
          (m.core c).saveBase = x.saveBase ∧ (m.core c).s = TCore.reset.s ∧ (∀ i, (m.core c).reg i = 0) ∧ (m.core c).tokens = TCore.reset.tokens ∧
          (∀ k, k ≠ c.val → m.core k = s.core k) ∧ m.dram = s.dram ∧ m.regs = s.regs ∧ m.tender.fenced = [] ∧
          m.tender.recoveries = min 0xFFFF (t.recoveries + 1) ∧ m.tender.last = s.beacon.bt ∧
          match t.queue with
          | y :: rest => m.tender.step = 3 ∧ m.tender.current = some y ∧ m.tender.queue = rest
          | [] => m.tender.step = 0 ∧ m.tender.current = none)) ∧
      (t.step ≠ 3 → Becomes .recoveryDrainEnd s s.toMod) ∧ (t.step ≠ 6 → Becomes .recoveryResetDone s s.toMod)) ∧
    (t.current = none → Becomes .recoveryDrainEnd s s.toMod ∧ Becomes .recoveryResetDone s s.toMod)

/-- R215: the end of the coherent domain: every cache, slice and filter empties, no PD core runs, every line that an agent owned is poisoned, and so is every
dirty line of a slice that failed; where no slice held one, memory is as it was. Then the module restarts. -/
def Claims.CoherentDomainEnds : Prop :=
  ∀ (s : State), Table.rising s.slices = true → Table.rising s.pdCores = true → s.boot.phase = 7 → s.boot.request = none → s.tender.stopped = false →
    (s.cohError = true → Ends (.coherenceError none) s (fun m => m.cohError = false ∧ m.caches = [] ∧ m.evictions = [] ∧
      (∀ md, (m.slice md).lines = [] ∧ (m.slice md).filter = [] ∧ (m.slice md).txns = []) ∧ (∀ a, (m.pdCore a).running = false) ∧
      (∀ l ∈ s.ownedLines, m.poisoned l = true) ∧ ((∀ md, (s.slice md).dirtyLines = []) → m.dram = s.dram) ∧ m.boot.request = some (false, 2) ∧ m.tender.current = some .moduleWarm)) ∧
    (∀ failing : MdId, s.cohError = true → Ends (.coherenceError (some failing)) s (fun m => m.caches = [] ∧ (∀ md, (m.slice md).lines = []) ∧
      (∀ l ∈ s.ownedLines, m.poisoned l = true) ∧ (∀ l ∈ (s.slice failing).dirtyLines, m.poisoned l = true) ∧ m.boot.request = some (false, 2))) ∧
    (s.cohError = false → Becomes (.coherenceError none) s s.toMod)

/-- R215, R384, R385, R387, R388, R390 to R392: faults, their recoveries, and the end of the coherent domain. -/
def Obligations.Recoveries : Prop := Claims.FaultReports ∧ Claims.DomainRecoveries ∧ Claims.CoherentDomainEnds

/-- R381, R382, R392, R397: what a watchdog finds is recorded and reported: a core that runs or waits, a cluster that holds work, a watched command, a
transaction without its answer, whose requester is answered instead where a port carried it, one that left through an aperture too; a silent Tender forces a restart. A
watchdog with nothing to watch, or one that the hold states stop, changes nothing. -/
def Claims.WatchdogFindings : Prop :=
  ∀ (s : State) (c : CoreId) (cl : ClusterId) (n : Fin 16384) (ix : Nat) (f : Flight) (r : Requester) (tag : Nat) (t : Txn) (u : Upstream),
    let core := s.core c
    let cluster := s.cluster cl
    let own := s.cluster (n.val / 128)
    let q : PktRef := ⟨.csq n, ix⟩
    let hung := fun (k : ClusterId) (cls code detail : Nat) (sector : Option SectorId) =>
      let x : Fail := {
        site := clusterSite k, cls := cls, sev := 2, unit := 0x0100 + k.val % 8, code := code, addr := 0, detail := detail
        sector := sector, injected := false }
      (s.toMod.record x).report (.cluster k)
    (s.working = true →
      (core.st = .running ∨ core.st = .waiting → 
        let x : Fail := {
          site := coreSite c, cls := 0x09, sev := 2, unit := c.val % 64, code := core.st.num, addr := 0, detail := 0
          sector := core.sector, injected := false }
        Becomes (.coreProgressWdt c) s ((s.toMod.record x).report (.core c))) ∧
      (core.st ≠ .running → core.st ≠ .waiting → Becomes (.coreProgressWdt c) s s.toMod) ∧
      (s.fw.seqPause = false → s.holdsWork cl = true → Becomes (.seqHeartbeatWdt cl) s (hung cl 0x0A 0 0 cluster.sector)) ∧
      (s.holdsWork cl = false → Becomes (.seqHeartbeatWdt cl) s s.toMod) ∧
      (s.flight q = some f → f.stage ≠ .accepted → watched (pktOpc f.words) = true→
        Becomes (.cmdWdt q) s (hung (Fin.ofNat 128 (n.val / 128)) 0x0B (pktOpc f.words) n.val own.sector))) ∧
    (s.flight q = none → Becomes (.cmdWdt q) s s.toMod) ∧
    (s.working = false ∨ (s.txns.find? (fun y => samePool y.req r && y.tag == tag) = none ∧
        s.upstream.find? (fun y => y.flush.isNone && samePool y.req r && y.tag == some tag) = none) → Becomes (.txnTimeout r tag) s s.toMod) ∧
    (s.working = true → s.txns = [] → s.upstream = [u] → u.flush = none → samePool u.req r = true → u.tag = some tag → s.noDrains → ∀ a, u.req = .pd a →
      let x : Fail := {
        site := edSite (u.port / 2), cls := 0x0C, sev := 1, unit := 0x0700 + u.port % 2, code := 0, addr := 0, detail := tag
        sector := s.requesterSector u.req, injected := false }
      Becomes (.txnTimeout r tag) s ((({ s.toMod with upstream := [] } : Mod).record x).emit (.coreFault a 0 u.pa))) ∧
    (s.working = true → s.txns.find? (fun y => samePool y.req r && y.tag == tag) = some t → s.tagWait = [] →
      let ch := lineChan (t.cells.headD 0 / 128)
      let x := fun (site unit_ sev : Nat) => ({
        site := site, cls := 0x0C, sev := sev, unit := unit_, code := 0, addr := 0, detail := tag
        sector := t.sector, injected := false } : Fail)
      let gone : Mod := { s.toMod with txns := s.txns.erase t }
      (ch < 2576 → Becomes (.txnTimeout r tag) s ((gone.record (x (requesterUnit t.req).1 (requesterUnit t.req).2 3)).report .moduleWarm)) ∧
      (2576 ≤ ch → ch < 2584 → (∀ p, t.req = .pcie p → s.noDrains → Becomes (.txnTimeout r tag) s
        ((gone.record (x (edSite ((ch - 2576) / 2)) (0x0700 + (ch - 2576) % 2) 1)).emit (.completion p t.outerTag 1 []))))) ∧
    (s.working = false → Becomes .tenderHeartbeatWdt s s.toMod) ∧
    (s.working = true → s.mustBeCold = true → Ends .tenderHeartbeatWdt s (fun m => m.boot.kind = 1 ∧ m.boot.cause = 3 ∧ m.dram = [] ∧ m.power.st = .standby)) ∧
    (s.mustBeCold = false → s.power.st = .run → 5 ≤ s.boot.phase → Ends .tenderHeartbeatWdt s (fun m => m.boot.kind = 2 ∧ m.boot.cause = 3 ∧ m.caches = []))

/-- R400, R398: an injection is armed until its BT, or fires at once: a core or engine reported, a lane error held for the port, a memory error given to the
controller of its line, the Tender stopped; a second one while one is armed, and a class the die does not have, are malformed. -/
def Claims.Injections : Prop :=
  ∀ (s : State) (site : Site) (v : Word) (i : Injection) (c : CoreId) (p : PortId) (line : Nat),
    let at_ := s.reg site 0x20030 0
    let addr := s.reg site 0x20038 0
    let refused := s.toMod.malformed site (cbBase site + 0x20028) 8 none
    let kept := v &&& (ones 23 0 ||| ones 25 25)
    let stored := s.toMod.setReg site 0x20028 0 kept
    (Table.get none s.injections site ≠ none → Becomes (.tndInjectArm site v) s refused) ∧
    (Table.get none s.injections site = none →
      (bit v 24 = false → Becomes (.tndInjectArm site v) s stored) ∧
      (bit v 24 = true → s.injectOk site (bits v 7 0) (bits v 23 8) = false → Becomes (.tndInjectArm site v) s refused) ∧
      (bit v 24 = true → s.injectOk site (bits v 7 0) (bits v 23 8) = true → bit v 25 = true → s.bt < at_.toNat →
        Becomes (.tndInjectArm site v) s
          { stored with injections := Table.set none s.injections site (some ⟨bits v 7 0, bits v 23 8, addr.toNat, at_⟩) }) ∧
      Becomes (.injectFire site) s s.toMod) ∧
    (∀ cls unit, Table.get none s.injections site = some { i with cls := cls, unit := unit } →
      let spent : Mod := { s.toMod with injections := Table.set none s.injections site none }
      (cls = 0x15 → Becomes (.injectFire site) s { spent with tender := { s.tender with stopped := true } }) ∧
      (cls = 0x0E → site.val = edSite (p.val / 8) → unit = 0x500 + p.val % 8 → Becomes (.injectFire site) s
        (spent.updPort p (fun x => { x with injectLane := some (addr.toNat % 8) }))) ∧
      (cls = 0x09 → site.val = coreSite c → unit = c.val % 64 → 
        let x : Fail := {
          site := site, cls := 0x09, sev := 2, unit := unit, code := (s.core c).st.num, addr := 0, detail := 0
          sector := (s.core c).sector, injected := true }
        Becomes (.injectFire site) s { (spent.record x).report (.core c) with injectedReports := s.injectedReports ++ [.core c] }) ∧
      (cls = 0x06 → s.lineAt addr.toNat = some line → lineChan line < 2576 → Becomes (.injectFire site) s
        (let k := (chanCtl (lineChan line)).1
         spent.setCtl k { s.ctl k with inject := (s.ctl k).inject ++ [(line, addr.toNat, true)] })))

/-- R381, R382, R392, R397, R398, R400: watchdogs and injections. -/
def Obligations.Watchdogs : Prop := Claims.WatchdogFindings ∧ Claims.Injections

/-- R403, R421: KPR_MQ_CTRL enables, disables and destroys a management queue where its state allows it; anything else is ignored and recorded. -/
def Claims.ManagementQueues : Prop :=
  ∀ (s : State) (n : Fin 64),
    let q : QRef := .mq n
    let x := s.queue q
    let to_ := fun (i : Instr) (y : Queue) => Becomes i s (s.toMod.setQueue q y)
    let ignored := fun (i : Instr) => Becomes i s (s.toMod.malformed kdSite (cbBase kdSite + 0x80048 + n.val * 0x80) 8 none)
    (x.st = .free →
      let relay := 9 ≤ n.val ∧ bits (s.reg kdSite (0x80040 + n.val * 0x80) 0) 1 0 = 3
      (x.sound = true → x.notifyAddr.toNat % 4 = 0 → ¬(relay ∧ x.host = true) → to_ (.kprMqEnable n)
        { x with st := .enabled, fetch := 0, producer := 0, replyPi := 0, replyCi := 0, error := 0, lastSeq := none }) ∧
      (x.sound = false ∨ x.notifyAddr.toNat % 4 ≠ 0 ∨ (relay ∧ x.host = true) → ignored (.kprMqEnable n)) ∧ ignored (.kprMqDisable n) ∧ ignored (.kprMqDestroy n)) ∧
    (x.st = .disabled → to_ (.kprMqEnable n) { x with st := .enabled } ∧ Becomes (.kprMqDisable n) s s.toMod ∧ to_ (.kprMqDestroy n) x.freed) ∧
    (x.st = .enabled → Becomes (.kprMqEnable n) s s.toMod ∧ ignored (.kprMqDestroy n) ∧
      (x.flights = [] → x.held = [] → x.enable = none → Ends (.kprMqDisable n) s (fun m => m.queue q = { x with st := .disabled, error := 0, disables := [], enable := none, lastSeq := none, aborted := 0 }))) ∧
    (x.st = .disabling → ignored (.kprMqDestroy n) ∧
      (x.enable = none → to_ (.kprMqEnable n) { x with enable := some (none, none) } ∧ to_ (.kprMqDisable n) x) ∧
      (x.enable ≠ none → ignored (.kprMqEnable n))) ∧
    (x.st = .error → ignored (.kprMqEnable n) ∧ (x.owed = [] → x.held = [] → to_ (.kprMqDestroy n) x.freed) ∧
      (x.owed ≠ [] ∨ x.held ≠ [] → ignored (.kprMqDestroy n))) ∧
    (x.st = .fenced → ignored (.kprMqEnable n) ∧ ignored (.kprMqDestroy n))

/-- R404 to R407, R419, R421: a COMMAND of a source that is let in becomes a packet here, dispatched when its checks pass; a REPLY ends the command it answers;
one that does not come is answered FENCED; HELLO sets the link's level, or refuses a partner too far away. -/
def Claims.KeeperMessages : Prop :=
  ∀ (s : State) (e : Entering) (f : RxFlow) (r : RemoteCmd) (p : PortId) (id : BitVec 32),
    let one : Mod := { s.toMod with arrived := [] }
    let kind := bits (bytesWord (e.pkt.payload.take 8)) 7 0
    let all := wordsOf (e.pkt.payload.length / 8) e.pkt.payload
    let msg := s.arrived = [e] ∧ e.pkt.kind = 5
    let inOrder := one.flowOf e = some f ∧ e.pkt.seq = f.base ∧ f.base < 2 ^ 32 ∧ f.got = []
    (msg → kind = 1 → commandSize e.pkt = true → inOrder → s.working = true → s.power.paused = false → s.incoming = [] → s.remoteQ.flights = [] →
      let fl : Flight := { ix := s.nextIncoming, words := all.drop 2, stage := .accepted, past := false, progress := 0, work := .none, ports := [], effect := none }
      let inc : Incoming := {
        ix := s.nextIncoming, src := e.pkt.src, cmdId := BitVec.ofNat 32 (bits (wordAt all 0) 63 32), queue := bits (wordAt all 1) 13 0 }
      let taken : Mod := { one with nextIncoming := s.nextIncoming + 1, incoming := [inc], remoteQ := { s.remoteQ with flights := [fl] } }
      taken.mgmtSource e.pkt.src = true → taken.formatFault (all.drop 2) = none → taken.forbidden .remote (all.drop 2) = false →
      taken.ownerFault .mgmt (all.drop 2) = none → taken.stateFault ⟨.remote, s.nextIncoming⟩ (all.drop 2) = none → keeperBound (pktOpc (all.drop 2)) = false →
      Ends .command s (fun m => m.incoming = [inc] ∧ m.remoteQ = { s.remoteQ with flights := [{ fl with
          stage := .dispatched, at_ := s.beacon.bt, order := (s.cluster 0).dispatches }] } ∧
        m.nextIncoming = s.nextIncoming + 1 ∧ m.arrived = [] ∧ m.regs = s.regs ∧ m.cores = s.cores)) ∧
    (msg → kind = 2 → e.pkt.payload.length = 48 → inOrder →
      let w := wordsOf 6 e.pkt.payload
      let is := fun (r : RemoteCmd) => r.id == BitVec.ofNat 32 (bits (wordAt w 0) 63 32) && r.dst == e.pkt.src
      (s.remotes.find? is = none → Ends .reply s (fun m => m.remotes = s.remotes ∧ m.mqs = s.mqs ∧ m.queues = s.queues ∧ m.arrived = [])) ∧
      (s.remotes.find? is = some r → s.flight r.pkt = none →
        Ends .reply s (fun m => m.remotes = s.remotes.erase r ∧ m.mqs = s.mqs ∧ m.queues = s.queues ∧ m.arrived = [])) ∧
      (∀ n g, let x := s.queue (.mq n)
       s.remotes.find? is = some r → r.pkt.q = .mq n → s.flight r.pkt = some g → x.held ≠ [] → x.st = .enabled → x.disables = [] →
        let y : Reply := {
          ix := g.ix, past := g.past, tag := BitVec.ofNat 32 (bits (wordAt w 2) 31 0), seq := BitVec.ofNat 16 (bits (wordAt w 2) 47 32)
          status := BitVec.ofNat 16 (bits (wordAt w 2) 63 48), detail := BitVec.ofNat 16 (bits (wordAt w 3) 15 0)
          progress := wordAt w 4, bt := wordAt w 5, notify := pktNotify g.words }
        Ends .reply s (fun m => m.remotes = s.remotes.erase r ∧ m.arrived = [] ∧ m.queues = s.queues ∧
          m.queue (.mq n) = { x with flights := x.flights.filter (fun z => z.ix != r.pkt.ix), held := x.held ++ [y] }))) ∧
    (s.remotes.find? (fun x => x.id == id && x.acked) = none → Becomes (.remoteToExpiry id) s s.toMod) ∧
    (s.remotes.find? (fun x => x.id == id && x.acked) = some r →
      Becomes (.remoteToExpiry id) s (({ s.toMod with remotes := s.remotes.erase r } : Mod).endCmd r.pkt 0x0401 0 0)) ∧
    (msg → kind = 4 → e.pkt.payload.length = 16 → e.port = some p → s.portActive p = true →
      let theirs := bits (bytesWord (e.pkt.payload.drop 8)) 15 0
      let ours := s.fw.level
      let least := bits (s.reg kdSite 0x84018 0) 15 0
      (theirs ≤ ours + 1 → ours ≤ theirs + 1 → least ≤ theirs →
        Becomes .hello s { one with linkLevels := Table.set 0 s.linkLevels p (min theirs ours) }) ∧
      (ours + 1 < theirs ∨ theirs + 1 < ours ∨ theirs < least → Ends .hello s (fun m => (m.port p).st = .refused ∧ (m.port p).open_ = false ∧
        (m.port p).authRefusals = min 0xFFFF ((s.port p).authRefusals + 1) ∧ (∀ k, k ≠ p.val → m.port k = s.port k) ∧ m.linkLevels = s.linkLevels)))

/-- R403 to R407, R419, R421: management queues and the messages between Keepers. -/
def Obligations.Management : Prop := Claims.ManagementQueues ∧ Claims.KeeperMessages

/-- R416 to R418, R421, R345: the flash window writes and erases the inactive set only, which is then no longer verified; a check that passes makes its images
those of the set, one that fails makes none; a trial boot is confirmed, or its limit asks for a restart; each activation ends its pause. -/
def Obligations.FirmwareRollout : Prop :=
  ∀ (s : State) (sector : Fin 1024) (off : Fin 67108864) (data : List Byte) (images : List ImageReport) (level : BitVec 16),
    let f := s.fw
    let set := 1 - flag f.booted
    let there := fun (m : Mod) (a : Nat) => (m.fw.flash (!f.booted)).read a
    let changed := fun (i : Instr) (P : Mod → Prop) => Ends i s (fun m => m.fw.inactiveOk = false ∧ m.fw.booted = f.booted ∧
      m.fw.flash f.booted = f.flash f.booted ∧ (∀ x, x ∈ m.fw.images ↔ x ∈ f.images ∧ x.1 / 4 ≠ set) ∧ m.regs = s.regs ∧ m.dram = s.dram ∧ P m)
    changed (.fwErase sector) (fun m => (∀ a, a / 65536 ≠ sector.val → there m a = there s.toMod a) ∧
      ∀ c ∈ (m.fw.flash (!f.booted)).cells, c.1 / 65536 ≠ sector.val) ∧
    changed (.flashWindowWrite off data) (fun m => ∀ a, there m a =
      if off.val ≤ a ∧ a < off.val + data.length ∧ a < 67108864 then data.getD (a - off.val) 0 else there s.toMod a) ∧
    Becomes .fwVerify s { s.toMod with fw := { f with verifying := true } } ∧
    (f.verifying = false → Becomes (.fwVerifyDone images level) s s.toMod) ∧
    (f.verifying = true → s.imagesOk images = false → Ends (.fwVerifyDone images level) s (fun m => m.fw.inactiveOk = false ∧ m.fw.verifying = false ∧
      (∀ x, x ∈ m.fw.images ↔ x ∈ f.images ∧ x.1 / 4 ≠ set) ∧ m.nextSeq = s.nextSeq + 1)) ∧
    (f.verifying = true → s.imagesOk images = true → Ends (.fwVerifyDone images level) s (fun m => m.fw.inactiveOk = true ∧ m.fw.verifying = false ∧
      m.fw.inactiveLevel = level.toNat ∧ m.nextSeq = s.nextSeq + 1 ∧
      ∀ c (x : ImageReport), images[c]? = some x → Table.find m.fw.images (set * 4 + c) = some (some ⟨x.svn.toNat, x.version.toNat, x.digest⟩))) ∧
    (f.trial = false → Becomes .fwConfirm s s.toMod ∧ Becomes .confirmTimeout s s.toMod) ∧
    (f.trial = true → s.boot.request = none → Ends .fwConfirm s (fun m => m.fw = { f with trial := false } ∧ m.nextSeq = s.nextSeq + 1) ∧
      Becomes .confirmTimeout s { s.toMod with boot := { s.boot with request := some (false, 5) } }) ∧
    Becomes .platformActivate s { s.toMod with fw := { f with platformNew := true } } ∧
    Becomes .sequencerActivateDone s { s.toMod with fw := { f with seqPause := false } } ∧
    ((∀ e, (s.engine e).active = false) → Becomes .edgeActivateDone s { s.toMod with fw := { f with edgePause := false } })

/-- R354, R448: the TAP's instructions: what each selects and shows; EXTEST only in STANDBY, DIE_SELECT and WRAPPER only unlocked; anything not accepted selects
BYPASS; a reset of the TAP ends them all; a sound token for this module and the nonce drawn at this start, a free value, destroys every key and unlocks. -/
def Obligations.TapInstructions : Prop :=
  ∀ (s : State) (pins preload nonce : Nat) (site : Site) (token : ImageReport) (identity : BitVec 384),
    let t := s.tap
    let ir := fun (n : BitVec 8) => { s.toMod with tap := { t with ir := n } }
    let now := (Config.unlockNonce s.starts).toNat
    let shows := fun (m : Mod) (l : List Nat) => m.emit (.answer 2 l)
    let bypassed := fun (i : Instr) => Becomes i s (ir 0xFF)
    (s.power.st = .standby → Becomes .extest s (shows (ir 0) [0, t.boundary])) ∧ (s.power.st ≠ .standby → bypassed .extest) ∧
    Becomes (.samplePreload pins preload) s (shows { s.toMod with tap := { t with ir := 1, boundary := preload } } [1, pins]) ∧
    Becomes .idcode s (shows (ir 2) [2, 0x17250767]) ∧
    (s.unlocked = true → s.guestAt site = false → Becomes (.dieSelect site) s { s.toMod with tap := { t with ir := 0x10, site := site.val } }) ∧
    (s.unlocked = true → Becomes .wrapper s (shows (ir 0x11) [0x11, t.site])) ∧
    (s.unlocked = false → bypassed (.dieSelect site) ∧ bypassed .wrapper) ∧ (s.guestAt site = true → bypassed (.dieSelect site)) ∧
    bypassed .bypass ∧ Becomes .trstNAssert s { s.toMod with tap := Tap.reset } ∧
    (s.imageOk 4 token = true → identity = s.part.idHash → nonce = now → Ends (.unlock token identity nonce) s (fun m => m.unlocked = true ∧ m.models = [] ∧
      (∀ k < 64, (Table.get KeySlot.reset m.keySlots k).valid = false ∧ (Table.get KeySlot.reset m.keySlots k).retained = false) ∧ m.tap.ir = 0x20)) ∧
    (s.imageOk 4 token = false ∨ identity ≠ s.part.idHash ∨ nonce ≠ now →
      Becomes (.unlock token identity nonce) s (shows (ir 0x20) [0x20, now]))

/-- R449, R450, R452, R455, R456: the guest's admission: from detection over its capabilities and its training to its attestation, each by the event that its
state waits for, refused with the reason of the check that fails or of the limit that passes; a fault of an admitted guest fences it and is recorded, and after
the drain a new epoch starts from detection. -/
def Claims.GuestAdmission : Prop :=
  ∀ (s : State) (edges : BitVec 4) (rate : BitVec 3) (protocol : BitVec 2) (coherent passed : Bool) (n : Fin 73) (root meas : BitVec 384),
    let g := s.guest
    let to_ := fun (i : Instr) (y : Guest) => Becomes i s { s.toMod with guest := y }
    let refused := fun (i : Instr) (reason : Nat) => to_ i { g with st := 6, reason := reason, refusals := min 0xFFFF (g.refusals + 1) }
    let detecting : Guest := { g with st := 1, edges := 0, protocol := 0, rate := 0, modules := 0, reason := 0 }
    let allowed := s.guestSetting rate.toNat protocol.toNat
    (s.part.guestSite = true →
      (g.st = 0 ∨ g.st = 6 → to_ .readmit detecting) ∧ (g.st ≠ 0 → g.st ≠ 6 → Becomes .readmit s (s.toMod.malformed 18 (cbBase 18 + 0x30008) 8 none)) ∧
      (g.st = 1 → to_ (.guestSidebandAnswer edges) { g with edges := g.edges ||| edges, st := if g.edges ||| edges = 0xF then 2 else 1 } ∧
        (s.power.st ≠ .hold → g.edges = 0 → refused .guestSidebandTimeout 1) ∧
        (s.power.st ≠ .hold → g.edges ≠ 0 → to_ .guestSidebandTimeout { g with st := 2 })) ∧
      (g.st = 2 → (coherent = true → refused (.guestNegotiated rate protocol coherent) 8) ∧
        (coherent = false → allowed = false → refused (.guestNegotiated rate protocol coherent) 2) ∧
        (coherent = false → allowed = true → to_ (.guestNegotiated rate protocol coherent) { g with st := 3, rate := rate.toNat, protocol := protocol.toNat })) ∧
      (g.st = 3 → (n.val = 0 → refused (.guestTrained n) 3) ∧ (n.val ≠ 0 → to_ (.guestTrained n) { g with st := 4, modules := n.val })) ∧
      (g.st = 4 → (passed = false → refused (.guestAttested passed root meas) 4) ∧
        (passed = true → root.toNat ≠ s.guestHash 0x30010 → refused (.guestAttested passed root meas) 5) ∧
        (passed = true → root.toNat = s.guestHash 0x30010 → bit s.guestCtrl 1 = true → meas.toNat ≠ s.guestHash 0x30040 →
          refused (.guestAttested passed root meas) 6) ∧
        (passed = true → root.toNat = s.guestHash 0x30010 → (bit s.guestCtrl 1 = true → meas.toNat = s.guestHash 0x30040) →
          Ends (.guestAttested passed root meas) s (fun m => m.guest = { g with st := 5, admissions := min 0xFFFF (g.admissions + 1) } ∧
            m.computeUp = s.computeUp ||| 0x40000 ∧ Table.get 0 m.measurements 7 = meas ∧ m.regs = s.regs))) ∧
      (1 ≤ g.st → g.st ≤ 4 → refused .guestFault g.st) ∧
      (2 ≤ g.st → g.st ≤ 4 → s.power.st ≠ .hold → refused .guestStateTimeout g.st) ∧
      (s.power.st = .hold → Becomes .guestSidebandTimeout s s.toMod ∧ Becomes .guestStateTimeout s s.toMod) ∧
      (g.st = 5 → Ends .guestFault s (fun m => m.guest = { g with st := 7 } ∧ m.computeUp = s.computeUp &&& ~~~(0x40000#25) ∧ m.dram = s.dram ∧
        (∀ k, k ≠ 18 → m.err k = s.err k))) ∧
      (g.st = 7 → to_ .guestFenceDrained { detecting with gen := g.gen + 1 })) ∧
    (∀ i ∈ [Instr.readmit, .guestSidebandAnswer edges, .guestSidebandTimeout, .guestNegotiated rate protocol coherent, .guestTrained n,
        .guestAttested passed root meas, .guestStateTimeout, .guestFault, .guestFenceDrained],
      s.part.guestSite = false → Becomes i s s.toMod)

/-- R387, R451 to R454, R389, R186, R63: messages of an admitted guest of the present epoch: a read answers with the lines, a write commits its enabled bytes,
an atomic answers with the old value, a post goes to its token; what does not decode is recorded and told; a malformed one is counted, and told unless its TAG is
reserved, the sixteenth is a fault; none runs without admission, and one of an older epoch is dropped. -/
def Claims.GuestMessages : Prop :=
  ∀ (s : State) (tag : BitVec 12) (gen : BitVec 8) (sound : Bool) (beats : BitVec 4) (pa : PAddr) (line : Nat) (en : BitVec 128) (data : List Byte) (aop : BitVec 4)
    (wide : Bool) (v c : Word) (target : BitVec 18) (incr : BitVec 16) (o : AtomOp) (cells : List Nat) (err : AccErr),
    let g := s.guest
    let base := pa.toNat / 128 * 128
    let answer := fun (op : Nat) (fields : List (Nat × Nat × Nat)) (l : List Nat) =>
      Out.answer 3 ((pack ([(0, 4, op), (4, 12, tag.toNat), (24, 8, g.gen.toNat)] ++ fields)).toNat :: 0 :: l)
    let all : List Instr := [.guestRead tag gen sound beats pa, .guestWrite tag gen sound pa [(en, data)] true, .guestAtomic tag gen sound 0 wide pa v c,
                             .guestPost tag gen sound 0 1]
    let read := Instr.guestRead tag gen sound beats pa
    let told := fun (m : Mod) (e : AccErr) (n : Nat) => (m.recordAccess 18 0x0800 s.guestSector e pa.toNat).emit (answer 0xF [(32, 4, n)] [])
    (s.part.guestSite = false ∨ g.st ≠ 5 → ∀ i ∈ all, Becomes i s s.toMod) ∧
    (s.part.guestSite = true → g.st = 5 → s.working = true →
      (g.protocol = 2 → ∀ i ∈ all, Becomes i s (s.toMod.emit (.answer 4 [tag.toNat]))) ∧
      (g.protocol ≠ 2 → gen ≠ g.gen → ∀ i ∈ all, Becomes i s s.toMod) ∧
      (g.protocol ≠ 2 → gen = g.gen →
        (sound = false ∨ 3072 ≤ tag.toNat → ∀ i ∈ all,
          (let counted : Mod := { s.toMod with guest := { g with malformed := min 0xFFFF (g.malformed + 1), malformedRun := g.malformedRun + 1 } }
           g.malformedRun < 15 → Becomes i s (if tag.toNat < 3072 then counted.emit (answer 0xF [(32, 4, 3)] []) else counted)) ∧
          (g.malformedRun = 15 → Ends i s (fun m => m.guest.st = 7 ∧ m.computeUp = s.computeUp &&& ~~~(0x40000#25)))) ∧
        (sound = true → tag.toNat < 3072 → s.guestSector ≠ none →
          (guestForbidden pa.toNat = false →
            (s.decodeN s.guestSector base (128 * (beats.toNat + 1)) = .error err →
              Becomes read s (told s.toMod err (if err = .addressError then 2 else 1))) ∧
            ((∀ x ∈ s.txns, x.waiting = false) → s.unregulated → s.prioAt pa.toNat = 0 →
              (s.decodeN s.guestSector base (128 * (beats.toNat + 1)) = .ok cells → (∀ l ∈ linesOf cells, s.lineBusy l s.nextStamp = false) →
                let k := (s.meshPath false 18 (s.lineSite (cells.headD 0 / 128))).2.channelRead (linesOf cells)
                ((linesOf cells).any k.poisoned = false →
                  Becomes read s (k.emit (answer 0x8 [(17, 4, beats.toNat)] ((cells.map k.homeByte).map BitVec.toNat)))) ∧
                ((linesOf cells).any k.poisoned = true →
                  Becomes read s ((k.recordAccess 18 0x0800 s.guestSector .poison pa.toNat).emit (answer 0x8 [(17, 4, beats.toNat), (21, 1, 1)] [])))) ∧
              (s.atRest line → s.lineFenced line = false → s.decodeN s.guestSector base 128 = .ok (cellsFrom line 0 128) →
                Ends (.guestWrite tag gen sound pa [(en, data)] true) s (fun m => m.out = answer 0x9 [] [] :: s.out ∧
                  m.lineHolds line (fun i => if en.getLsbD i then data.getD i 0 else s.homeByte (128 * line + i)))) ∧
              (let size := if wide && !fourOnly o then 8 else 4
               let now := fun (m : Mod) => numOf ((List.range size).map (fun i => m.homeByte (128 * line + pa.toNat % 128 + i)))
               guestAtom aop.toNat = some o → pa.toNat % size = 0 → s.atRest line → s.lineFenced line = false →
               s.decodeN s.guestSector pa.toNat size = .ok (cellsFrom line pa.toNat size) →
                Ends (.guestAtomic tag gen sound aop wide pa v c) s (fun m => m.out = answer 0xA [] [now s.toMod] :: s.out ∧
                  now m = atomApply o size (now s.toMod) (v.toNat % 2 ^ (8 * size)) (c.toNat % 2 ^ (8 * size)) % 2 ^ (8 * size))))) ∧
          (guestForbidden pa.toNat = true → Becomes read s (told s.toMod .regionFault 1)) ∧
          (incr ≠ 0 → ¬(target.getLsbD 16 = true ∧ target.getLsbD 15 = true) →
            Becomes (.guestPost tag gen sound target incr) s (s.toMod.sendPost target incr.toNat s.guestSector)))))

/-- R63, R186, R387, R389, R449 to R456: guest dies, from their admission to their messages. -/
def Obligations.Guests : Prop := Claims.GuestAdmission ∧ Claims.GuestMessages

/-- R8, R10, R26, R27, R339: a control-block write of a wrong size or place, or without the right, is ignored and recorded; a register without behaviour of its
own takes its writable bits; registers that command something do what the command does. -/
def Obligations.RegisterWrites : Prop :=
  ∀ (s : State) (w : RegWriter) (port : Fin 9) (site : Site) (off : BitVec 32) (size : Nat) (v : Word) (d : RegDef) (n : Fin 64),
    let o := off.toNat
    (s.cbRange site o = .registers → (size ≠ 8 ∨ o % 8 ≠ 0 ∨ s.mayWrite w site o = false ∨ s.readReg none site o = none) →
      Becomes (.registerWrite w site off size v) s (s.toMod.malformed site (cbBase site + o) size (s.writerSector w))) ∧
    (s.guestAt site = false → s.regDef site o = some d → 0x3100000 ≤ o → o < 0x3110000 →
      Ends (.registerWrite (.mgmt port) site off 8 v) s (fun m => m.reg site o d.reset = maskedWrite (s.reg site o d.reset) d.direct v ∧
        (∀ j a x, ¬(j = site.val ∧ a = o) → a < 2 ^ 32 → m.reg j a x = s.reg j a x) ∧ m = { s.toMod with regs := m.regs })) ∧
    (let same := fun (a : BitVec 32) (x : Word) (i : Instr) => exec (.registerWrite (.mgmt port) 12 a 8 x) s = exec i s
     same 0x28 1 .kprBootCtrlWarm ∧ same 0x28 2 .kprBootCtrlCold ∧ same (BitVec.ofNat 32 (0x80048 + 0x80 * n.val)) 1 (.kprMqEnable n) ∧
     same (BitVec.ofNat 32 (0x80048 + 0x80 * n.val)) 2 (.kprMqDisable n) ∧ same (BitVec.ofNat 32 (0x80048 + 0x80 * n.val)) 4 (.kprMqDestroy n) ∧
     same 0x84008 0x800 .fwVerify ∧ same 0x84008 0x1000 .fwConfirm ∧ same 0x20008 (v &&& 0x7F) (.tndErrAck 12 (v.extractLsb' 0 7)) ∧ same 0x20028 v (.tndInjectArm 12 v))

/-- R59, R70 to R74, R97 to R100, R135 to R137, R151, R164, R165: every instruction of a kernel has a word that is that instruction again, with every operand at
every value the encodings admit, in the K0 encoding and in K1's. The word with the fields that an operation does not use at 0 is the one meant. -/
def Obligations.KernelWords : Prop :=
  ∀ (k1 : Bool) (id : CoreId) (d a b : Reg) (imm : BitVec 32) (t : TwaitArgs) (target : BitVec 18) (incr : BitVec 16) (flag_ : Bool) (counter : BitVec 6)
    (mv : MoveArgs) (x : MatArgs) (ch : ChainArgs) (op : Nat) (v : VecArgs) (i : Instr),
    let back := fun (i : Instr) => ∃ w, kernelWord k1 i = some w ∧ kernelInsn k1 id w = some i
    (∀ i ∈ [Instr.nop id, .endKernel id, .li id d imm, .lih id d imm, .add id d a b, .sub id d a b, .mul id d a b, .and id d a b, .or id d a b, .xor id d a b,
        .shl id d a b, .shr id d a b, .sra id d a b, .addi id d a imm, .beq id a b imm, .bne id a b imm, .blt id a b imm, .bltu id a b imm, .jmp id imm,
        .loop id d imm, .lds id d a imm, .sts id a b imm, .rdbt id d, .fence id, .trap id imm, .twait id t, .ttest id t d, .tposts id a flag_, .mvin id mv,
        .mvout id mv, .mvt id mv, .mlist id mv], back i) ∧
    (incr ≠ 0 → tokReserved target = false → back (.tpost id target incr flag_)) ∧
    ((flag_ = true → counter.toNat < 32) → back (.tread id d counter flag_)) ∧
    (mmaLegal x = true → back (.mma id x)) ∧ (accLegal x false = true → back (.accLoad id x)) ∧ (accLegal x true = true → back (.accStore id x)) ∧
    (accZeroLegal x = true → back (.accZero id x)) ∧ (ch.source.toNat ≤ 1 → back (.chain id ch)) ∧
    (vectorOp op id v = some i → vecLegal op v = true →
      (k1 = true → k1Op op = true ∧ v.dst.toNat < 64 ∧ v.src1.toNat < 64 ∧ v.src2.toNat < 64 ∧ v.src3.toNat < 64 ∧ v.mod.toNat % 4 = 0) → back i)

/-- The row's cut: a step runs the command at the front of the queue with the queue's rest; an empty queue leaves the block as it is, where idling is the
model's choice (log entry 2). -/
def Obligations.StepRunsFront : Prop :=
  (∀ (c : Instr) (rest : List Instr) (s : State), s.pending = c :: rest → step s = exec c { s with pending := rest }) ∧
  (∀ (s : State), s.pending = [] → step s = .next s)

/-- Every command of the table completes, in every state and with every operand: it answers a next state, whose waiting commands are those that waited. -/
def Obligations.EveryCommandCompletes : Prop := ∀ (c : Instr) (s : State), Ends c s (fun _ => True)

/-- R13: global cluster and core indices follow the TD number, and a queue belongs to the cluster whose index its number's bits [13:7] are. -/
def Obligations.GlobalIndices : Prop :=
  ∀ (td cluster core : Nat) (q : Fin 16384) (s : State), td < 16 → cluster < 8 → core < 64 →
    clusterSite (td * 8 + cluster) = tdSite td ∧ coreSite (td * 64 + core) = tdSite td ∧
    td * 8 + cluster < 128 ∧ td * 64 + core < 1024 ∧ (td * 64 + core) / 8 = td * 8 + core / 8 ∧
    s.queueSector (.csq q) = (s.cluster (bits (BitVec.ofNat 64 q.val) 13 7)).sector

/-- R111: comparisons take −0 and +0 as equal; with a NaN they are false but for ≠; maximum and minimum return a NaN if either operand is one, and order −0
below +0. -/
def Obligations.FloatOrder : Prop :=
  (∀ f ∈ [fp32, fp16, bf16], ∀ a b : Nat,
    let p := f.zeroBits false
    let n := f.zeroBits true
    (f.read a = .nan ∨ f.read b = .nan → f.max a b = f.nanBits ∧ f.min a b = f.nanBits) ∧
    f.max n p = p ∧ f.max p n = p ∧ f.min n p = n ∧ f.min p n = n) ∧
  (∀ (a b : Half) (cond : Nat), (fp32.read a.toNat = .nan ∨ fp32.read b.toNat = .nan) → vcmp 0 cond a b = decide (cond = 1)) ∧
  (∀ cond < 6, vcmp 0 cond 0x80000000#32 0 = vcmp 0 cond 0 0 ∧ vcmp 0 cond 0 0x80000000#32 = vcmp 0 cond 0 0) ∧
  vcmp 0 0 0 0 = true ∧ vcmp 0 1 0 0 = false ∧ vcmp 0 2 0 0 = false ∧ vcmp 0 3 0 0 = true ∧ vcmp 0 4 0 0 = false ∧ vcmp 0 5 0 0 = true

/-- R171, R185, R206: bytes written at the home of memory, where no error is injected, read back there, each at its place, and every other byte reads as before,
but for what the place of a line that is written, or that a slice holds, has under another key. -/
def Obligations.MemoryReadsBack : Prop :=
  ∀ (s : State) (sector : Option SectorId) (pa : Nat) (bs : List Byte) (cells : List Nat),
    s.decodeN sector pa bs.length = .ok cells → cells.Nodup → s.uninjected → inBlocks pa = false →
    (∀ c ∈ cells, s.outside (c / 128) = false ∧ blockLine (c / 128) = false) →
    (∀ c ∈ cells, ∀ d ∈ cells, lineChan (c / 128) = lineChan (d / 128) → lineOff (c / 128) = lineOff (d / 128) → c / 128 = d / 128) →
    ∃ m, s.writePhys sector pa bs = .ok m ∧ (∀ i c, cells[i]? = some c → m.homeByte c = bs.getD i 0) ∧
      (∀ c, c ∉ cells → (∀ l, l ∈ linesOf cells ∨ (s.sliceLine l).isSome = true → lineChan l = lineChan (c / 128) → lineOff l = lineOff (c / 128) →
          lineKey l = lineKey (c / 128)) →
        m.homeByte c = s.homeByte c) ∧
      m.regs = s.regs ∧ m.cores = s.cores ∧ m.out = s.out

/-- R68, R88, R89, R52, R170, R189, R224, R297, R355, R379, R398, R438: the block after reset: cores idle and unowned with their registers 0, queues FREE,
region and mooring entries invalid, ports DISABLED, staged sets EMPTY, sectors FREE, error rings empty, power STANDBY; no command waits. -/
def Claims.ResetValues : Prop :=
  let s := State.reset
  s.pending = [] ∧ (∀ c, (s.core c).st = .idle ∧ (s.core c).sector = none ∧ (s.core c).kernel = none ∧ ∀ r, (s.core c).reg r = 0) ∧
  (∀ c, (s.cluster c).sector = none) ∧ (∀ q, (s.queue q).st = .free) ∧ (∀ n, (s.region n).valid = false) ∧ (∀ n, (s.mooring n).w0 = 0) ∧
  (∀ p, (s.port p).st = .disabled) ∧ (∀ k, (s.set k).st = .empty) ∧ (∀ k, (s.sector k).st = 0) ∧ (∀ d, (s.err d).pending = 0 ∧ (s.err d).lost = 0) ∧
  s.power.st = .standby ∧ s.events = [] ∧ s.dram = [] ∧ s.caches = [] ∧ (∀ e, (s.engine e).active = false) ∧ s.tender.current = none

/-- The reset state is one of those that every step keeps. -/
def Claims.ResetSound : Prop := State.reset.Sound

/-- R52, R68, R88, R89, R170, R189, R224, R297, R355, R379, R398, R438: the block after reset, which is one of the states that every step keeps. -/
def Obligations.ResetState : Prop := Claims.ResetValues ∧ Claims.ResetSound

/-- R5, R341, R345, R354: every step keeps the waiting commands well-formed and memory in its canonical form, and undoes nothing: the part and its fuses stay,
no fused SVN falls, no key slot's contents are those of an earlier key, and no start number comes back. -/
def Obligations.NothingUndone : Prop :=
  ∀ (s t : State), s.Sound → step s = .next t → t.Sound ∧ Mod.Keeps s.toMod t.toMod
end

