-- ==== Sys2Proof/Laws/Table.lean ====
section
/-!
SUPPORT. What reading and writing a sparse table does: a read after a write, and the canonical form every write keeps.
-/
namespace Sys2Proof.Machine
open Sys2Proof

variable {α : Type}

@[simp] theorem Table.find_nil (k : Nat) : Table.find ([] : Table α) k = none := rfl

@[simp] theorem Table.get_nil (d : α) (k : Nat) : Table.get d [] k = d := rfl

theorem Table.find_erase (t : Table α) (k j : Nat) :
    Table.find (Table.erase t k) j = if j = k then none else Table.find t j := by
  induction t with
  | nil => simp [Table.erase]
  | cons p rest ih => obtain ⟨i, v⟩ := p; simp only [Table.erase, Table.find]; grind [Table.find]

theorem Table.find_insert (t : Table α) (k j : Nat) (v : α) (h : Table.find t k = none) :
    Table.find (Table.insert t k v) j = if j = k then some v else Table.find t j := by
  induction t with
  | nil => simp [Table.insert, Table.find]; grind
  | cons p rest ih => obtain ⟨i, w⟩ := p; simp only [Table.find] at h; simp only [Table.insert]; grind [Table.find]

@[simp] theorem Table.find_put (t : Table α) (k j : Nat) (v : α) :
    Table.find (Table.put t k v) j = if j = k then some v else Table.find t j := by
  rw [Table.put, Table.find_insert _ _ _ _ (by simp [Table.find_erase]), Table.find_erase]; grind

/-- A read after a write gives the value written; every other number reads as before. -/
@[simp] theorem Table.get_set [DecidableEq α] (d : α) (t : Table α) (k j : Nat) (v : α) :
    Table.get d (Table.set d t k v) j = if j = k then v else Table.get d t j := by
  unfold Table.set Table.get; split <;> simp [Table.find_erase] <;> grind

@[simp] theorem Table.get_upd [DecidableEq α] (d : α) (t : Table α) (k j : Nat) (f : α → α) :
    Table.get d (Table.upd d t k f) j = if j = k then f (Table.get d t k) else Table.get d t j := by
  simp [Table.upd]

/-! ## The canonical form -/

/-- Every listed number of a rising table lies above its first. -/
theorem Table.rising_lt (k : Nat) (v : α) (t : Table α) (h : Table.rising ((k, v) :: t) = true) :
    ∀ p ∈ t, k < p.1 := by
  induction t generalizing k v with
  | nil => simp
  | cons p rest ih =>
    obtain ⟨i, w⟩ := p
    simp only [Table.rising, Bool.and_eq_true, decide_eq_true_eq] at h
    intro q hq
    rcases List.mem_cons.mp hq with rfl | hq
    · exact h.1
    · exact Nat.lt_trans h.1 (ih i w h.2 q hq)

theorem Table.rising_tail (p : Nat × α) (t : Table α) (h : Table.rising (p :: t) = true) : Table.rising t = true := by
  cases t with
  | nil => rfl
  | cons q rest => simp [Table.rising] at h; exact h.2

/-- A number before a rising table whose numbers all lie above it. -/
theorem Table.rising_cons (k : Nat) (v : α) (t : Table α) (h : Table.rising t = true) (hk : ∀ p ∈ t, k < p.1) :
    Table.rising ((k, v) :: t) = true := by
  cases t with
  | nil => rfl
  | cons q rest => simp [Table.rising, h]; exact hk q (by simp)

theorem Table.mem_erase (t : Table α) (k : Nat) (p : Nat × α) :
    p ∈ Table.erase t k ↔ p ∈ t ∧ p.1 ≠ k := by
  induction t with
  | nil => simp [Table.erase]
  | cons q rest ih => obtain ⟨i, w⟩ := q; simp only [Table.erase]; grind

theorem Table.mem_insert (t : Table α) (k : Nat) (v : α) (p : Nat × α) :
    p ∈ Table.insert t k v ↔ p = (k, v) ∨ p ∈ t := by
  induction t with
  | nil => simp [Table.insert]
  | cons q rest ih => obtain ⟨i, w⟩ := q; simp only [Table.insert]; grind

theorem Table.rising_erase (t : Table α) (k : Nat) (h : Table.rising t = true) :
    Table.rising (Table.erase t k) = true := by
  induction t with
  | nil => rfl
  | cons q rest ih =>
    obtain ⟨i, w⟩ := q
    simp only [Table.erase]
    split
    · exact ih (Table.rising_tail _ _ h)
    · refine Table.rising_cons _ _ _ (ih (Table.rising_tail _ _ h)) (fun p hp => ?_)
      exact Table.rising_lt _ _ _ h p ((Table.mem_erase _ _ _).mp hp).1

theorem Table.rising_insert (t : Table α) (k : Nat) (v : α) (h : Table.rising t = true) (hk : ∀ p ∈ t, p.1 ≠ k) :
    Table.rising (Table.insert t k v) = true := by
  induction t with
  | nil => rfl
  | cons q rest ih =>
    obtain ⟨i, w⟩ := q
    have hi : i ≠ k := hk (i, w) (by simp)
    simp only [Table.insert]
    split
    · rename_i hlt
      refine Table.rising_cons _ _ _ h (fun p hp => ?_)
      rcases List.mem_cons.mp hp with rfl | hp
      · exact hlt
      · exact Nat.lt_trans hlt (Table.rising_lt _ _ _ h p hp)
    · refine Table.rising_cons _ _ _ (ih (Table.rising_tail _ _ h) (fun p hp => hk p (by simp [hp]))) (fun p hp => ?_)
      rcases (Table.mem_insert _ _ _ _).mp hp with rfl | hp
      · simp only; omega
      · exact Table.rising_lt _ _ _ h p hp

theorem Table.rising_put (t : Table α) (k : Nat) (v : α) (h : Table.rising t = true) :
    Table.rising (Table.put t k v) = true :=
  Table.rising_insert _ _ _ (Table.rising_erase _ _ h) (fun p hp => ((Table.mem_erase _ _ _).mp hp).2)

/-- A write keeps the canonical form. -/
theorem Table.wf_set [DecidableEq α] (d : α) (t : Table α) (k : Nat) (v : α) (h : Table.wf d t = true) :
    Table.wf d (Table.set d t k v) = true := by
  simp only [Table.wf, Bool.and_eq_true, List.all_eq_true, decide_eq_true_eq] at h ⊢
  unfold Table.set
  split
  · exact ⟨Table.rising_erase _ _ h.1, fun p hp => h.2 p ((Table.mem_erase _ _ _).mp hp).1⟩
  · rename_i hv
    refine ⟨Table.rising_put _ _ _ h.1, fun p hp => ?_⟩
    rcases (Table.mem_insert _ _ _ _).mp hp with rfl | hp
    · exact hv
    · exact h.2 p ((Table.mem_erase _ _ _).mp hp).1

end Sys2Proof.Machine
end

