-- ==== Sys2Proof/Laws/Keeps.lean ====
section
/-!
SUPPORT. What a module keeps: the lemmas from which each operation's is made.
-/
namespace Sys2Proof.Machine
open Sys2Proof

theorem Mod.Keeps.refl (m : Mod) : Mod.Keeps m m := ⟨rfl, fun _ => Nat.le_refl _, fun _ _ => Nat.le_refl _, Nat.le_refl _, id⟩

theorem Mod.Keeps.trans {a b c : Mod} (h : Mod.Keeps a b) (k : Mod.Keeps b c) : Mod.Keeps a c :=
  ⟨k.part.trans h.part, fun i => Nat.le_trans (h.svn i) (k.svn i), fun i hi => Nat.le_trans (h.keys i hi) (k.keys i hi),
   Nat.le_trans h.starts k.starts, fun r => k.memory (h.memory r)⟩

/-- What is kept, by the fields it stands in. -/
structure Mod.KeepsIn (b : Mod) (p : Part) (svn keys : Table Nat) (starts : Nat) (dram : List Host.Cell) : Prop where
  part : p = b.part
  svn : ∀ c, Table.get 0 b.svnFused c ≤ Table.get 0 svn c
  keys : ∀ k < 64, Table.get 0 b.keyEpochs k ≤ Table.get 0 keys k
  starts : b.starts ≤ starts
  memory : Table.rising b.dram = true → Table.rising dram = true

theorem Mod.Keeps.mk_iff {b : Mod} {a0 : Part} {a1 : Table Word} {a2 : Table TCore} {a3 : Table Cluster} {a4 : List Post} {a5 : List Host.Cell} {a6 : List Nat} {a7 : Table Region} {a8 : Table Mooring} {a9 : Table Controller} {a10 : List (Nat × Nat)} {a11 : Table CacheLine} {a12 : Table Eviction} {a13 : Table Slice} {a14 : Table PdCore} {a15 : Table Sector} {a16 : Table Fn} {a17 : Table Queue} {a18 : Table Queue} {a19 : Table Nat} {a20 : Table (Option SectorId)} {a21 : Nat} {a22 : Table Port} {a23 : Table EdState} {a24 : Table Engine} {a25 : Table Word} {a26 : Table Word} {a27 : List Entering} {a28 : List Entering} {a29 : List Entering} {a30 : List TxFlow} {a31 : List RxFlow} {a32 : Bool} {a33 : Tender} {a34 : Table (Option Injection)} {a35 : Table Nat} {a36 : List RemoteCmd} {a37 : BitVec 32} {a38 : List Txn} {a39 : List TagWait} {a40 : Table (Option Nat)} {a41 : Table HotStat} {a42 : Table HotStat} {a43 : Bool} {a44 : List Burst} {a45 : List PktRef} {a46 : Nat} {a47 : Table KeySlot} {a48 : Table (Option Model)} {a49 : List Session} {a50 : Nat} {a51 : List Fill2} {a52 : Bool} {a53 : Bool} {a54 : Nat} {a55 : Nat} {a56 : Table Nat} {a57 : Table Nat} {a58 : Table (BitVec 384)} {a59 : Table Die} {a60 : BitVec 25} {a61 : BitVec 25} {a62 : Bool} {a63 : Firmware} {a64 : Power} {a65 : Boot} {a66 : Patrol} {a67 : Table LaneMap} {a68 : Table Nat} {a69 : Table (Option Notice)} {a70 : List Incoming} {a71 : Queue} {a72 : BitVec 32} {a73 : Tap} {a74 : Guest} {a75 : Table PciePort} {a76 : List Iotlb} {a77 : List AdapterReq} {a78 : List Upstream} {a79 : Aia} {a80 : List ZeroFill} {a81 : Table Nat} {a82 : Beacon} {a83 : Table StagedSet} {a84 : Table ErrRing} {a85 : Table (Option EventRec)} {a86 : BitVec 32} {a87 : Nat} {a88 : Table Nat} {a89 : List Domain} {a90 : List Domain} {a91 : List Out} {a92 : Nat} :
    Mod.Keeps b (Mod.mk a0 a1 a2 a3 a4 a5 a6 a7 a8 a9 a10 a11 a12 a13 a14 a15 a16 a17 a18 a19 a20 a21 a22 a23 a24 a25 a26 a27 a28 a29 a30 a31 a32 a33 a34 a35 a36 a37 a38 a39 a40 a41 a42 a43 a44 a45 a46 a47 a48 a49 a50 a51 a52 a53 a54 a55 a56 a57 a58 a59 a60 a61 a62 a63 a64 a65 a66 a67 a68 a69 a70 a71 a72 a73 a74 a75 a76 a77 a78 a79 a80 a81 a82 a83 a84 a85 a86 a87 a88 a89 a90 a91 a92) ↔ Mod.KeepsIn b a0 a56 a88 a55 a5 := ⟨fun h => ⟨h.part, h.svn, h.keys, h.starts, h.memory⟩, fun h => ⟨h.part, h.svn, h.keys, h.starts, h.memory⟩⟩

/-- A change of other fields. -/
theorem Mod.KeepsIn.of {b X : Mod} (h : Mod.Keeps b X) : Mod.KeepsIn b X.part X.svnFused X.keyEpochs X.starts X.dram :=
  ⟨h.part, h.svn, h.keys, h.starts, h.memory⟩

/-- A change of memory that keeps its canonical form. -/
theorem Mod.KeepsIn.cells {b X : Mod} {d : List Host.Cell} (h : Mod.Keeps b X) (k : Table.rising X.dram = true → Table.rising d = true) :
    Mod.KeepsIn b X.part X.svnFused X.keyEpochs X.starts d := ⟨h.part, h.svn, h.keys, h.starts, fun r => k (h.memory r)⟩

theorem Mod.Keeps.ite {b x y : Mod} {c : Prop} [Decidable c] (h : c → Mod.Keeps b x) (k : ¬c → Mod.Keeps b y) : Mod.Keeps b (if c then x else y) := by
  split
  · exact h ‹_›
  · exact k ‹_›

theorem Mod.Keeps.foldl {α : Type} {b m : Mod} {l : List α} {f : Mod → α → Mod} (h : Mod.Keeps b m)
    (k : ∀ m x, Mod.Keeps b m → Mod.Keeps b (f m x)) : Mod.Keeps b (l.foldl f m) := by
  induction l generalizing m with
  | nil => exact h
  | cons x l ih => exact ih (k m x h)

/-- What an effect keeps that may refuse with a number. -/
def Mod.KeepsOr (b : Mod) : Except (Nat × Mod) Mod → Prop
  | .ok n => Mod.Keeps b n
  | .error e => Mod.Keeps b e.2

theorem Mod.KeepsOr.ok {b n : Mod} (h : Mod.Keeps b n) : Mod.KeepsOr b (.ok n) := h

theorem Mod.KeepsOr.error {b : Mod} {e : Nat × Mod} (h : Mod.Keeps b e.2) : Mod.KeepsOr b (.error e) := h

theorem Mod.KeepsOr.of_ok {b n : Mod} {r : Except (Nat × Mod) Mod} (e : r = .ok n) (h : Mod.KeepsOr b r) : Mod.Keeps b n := by subst e; exact h

theorem Mod.KeepsOr.of_error {b n : Mod} {c : Nat} {r : Except (Nat × Mod) Mod} (e : r = .error (c, n)) (h : Mod.KeepsOr b r) : Mod.Keeps b n := by
  subst e; exact h

theorem Mod.KeepsOr.ite {b : Mod} {x y : Except (Nat × Mod) Mod} {c : Prop} [Decidable c] (h : c → Mod.KeepsOr b x) (k : ¬c → Mod.KeepsOr b y) :
    Mod.KeepsOr b (if c then x else y) := by
  split
  · exact h ‹_›
  · exact k ‹_›

/-- What a command keeps, where it answers a next state. -/
def Mod.KeepsOut (b : Mod) (o : Host.Outcome State Fault Refusal) : Prop := ∀ t, o = .next t → Mod.Keeps b t.toMod

theorem Mod.KeepsOut.go {b m : Mod} {s : State} (h : Mod.Keeps b m) : Mod.KeepsOut b (s.go m) := by
  intro t e
  cases e
  exact h

/-! ## The canonical form of memory -/

theorem Table.rising_filter {α : Type} (t : Table α) (p : Nat × α → Bool) (h : Table.rising t = true) : Table.rising (t.filter p) = true := by
  induction t with
  | nil => rfl
  | cons q rest ih =>
    obtain ⟨i, w⟩ := q
    simp only [List.filter]
    split
    · exact Table.rising_cons _ _ _ (ih (Table.rising_tail _ _ h)) (fun x hx => Table.rising_lt _ _ _ h x (List.mem_filter.mp hx).1)
    · exact ih (Table.rising_tail _ _ h)

theorem Table.rising_set {α : Type} [DecidableEq α] (d : α) (t : Table α) (k : Nat) (v : α) (h : Table.rising t = true) :
    Table.rising (Table.set d t k v) = true := by
  unfold Table.set
  split
  · exact Table.rising_erase _ _ h
  · exact Table.rising_put _ _ _ h

/-- Writing cells keeps the canonical form. -/
theorem putCells_rising (d l : List Host.Cell) (h : Table.rising d = true) : Table.rising (putCells d l) = true := by
  induction l generalizing d with
  | nil => exact h
  | cons p rest ih =>
    obtain ⟨c, b⟩ := p
    simp only [putCells]
    split
    · exact ih _ (Table.rising_set _ _ _ _ h)
    · exact ih _ (Table.rising_put _ _ _ h)

/-- So does forgetting what lines hold under other keys. -/
theorem dropOtherKeys_rising (ls : List Nat) (d : List Host.Cell) (h : Table.rising d = true) :
    Table.rising (ls.foldl dropOtherKeys d) = true := by
  induction ls generalizing d with
  | nil => exact h
  | cons l rest ih => exact ih _ (Table.rising_filter _ _ h)

end Sys2Proof.Machine
end

