-- ==== Sys2Proof/Laws/KeepsCore.lean ====
section
/-!
SUPPORT. What each operation keeps of its module: the operations of the first files.
-/
namespace Sys2Proof.Machine
set_option linter.all false
open Sys2Proof Sys2Proof.Machine.Mod

/-! ## Access -/

theorem Mod.setCore_keeps {orig : Mod} {m : Mod} (i : Nat) (c : TCore) (kept : Mod.Keeps orig m) : Mod.Keeps orig (Mod.setCore m i c) := by
  unfold Mod.setCore
  with_reducible repeat' first
    | assumption | (simp only [Keeps.mk_iff]; apply KeepsIn.of) | dsimp only

theorem Mod.updCore_keeps {orig : Mod} {m : Mod} (i : Nat) (f : TCore → TCore) (kept : Mod.Keeps orig m) : Mod.Keeps orig (Mod.updCore m i f) := by
  unfold Mod.updCore
  with_reducible repeat' first
    | assumption | (simp only [Keeps.mk_iff]; apply KeepsIn.of) | apply setCore_keeps | dsimp only

theorem Mod.setCluster_keeps {orig : Mod} {m : Mod} (i : Nat) (c : Cluster) (kept : Mod.Keeps orig m) : Mod.Keeps orig (Mod.setCluster m i c) := by
  unfold Mod.setCluster
  with_reducible repeat' first
    | assumption | (simp only [Keeps.mk_iff]; apply KeepsIn.of) | dsimp only

theorem Mod.updCluster_keeps {orig : Mod} {m : Mod} (i : Nat) (f : Cluster → Cluster) (kept : Mod.Keeps orig m) : Mod.Keeps orig (Mod.updCluster m i f) := by
  unfold Mod.updCluster
  with_reducible repeat' first
    | assumption | (simp only [Keeps.mk_iff]; apply KeepsIn.of) | apply setCluster_keeps | dsimp only

theorem Mod.setQueue_keeps {orig : Mod} {m : Mod} (q : QRef) (v : Queue) (kept : Mod.Keeps orig m) : Mod.Keeps orig (Mod.setQueue m q v) := by
  unfold Mod.setQueue
  with_reducible repeat' first
    | intro _ | assumption | (simp only [Keeps.mk_iff]; apply KeepsIn.of) | split | dsimp only

theorem Mod.updQueue_keeps {orig : Mod} {m : Mod} (q : QRef) (f : Queue → Queue) (kept : Mod.Keeps orig m) : Mod.Keeps orig (Mod.updQueue m q f) := by
  unfold Mod.updQueue
  with_reducible repeat' first
    | assumption | (simp only [Keeps.mk_iff]; apply KeepsIn.of) | apply setQueue_keeps | dsimp only

theorem Mod.updDie_keeps {orig : Mod} {m : Mod} (site : Nat) (f : Die → Die) (kept : Mod.Keeps orig m) : Mod.Keeps orig (Mod.updDie m site f) := by
  unfold Mod.updDie
  with_reducible repeat' first
    | assumption | (simp only [Keeps.mk_iff]; apply KeepsIn.of) | dsimp only

theorem Mod.updPcie_keeps {orig : Mod} {m : Mod} (p : Nat) (f : PciePort → PciePort) (kept : Mod.Keeps orig m) : Mod.Keeps orig (Mod.updPcie m p f) := by
  unfold Mod.updPcie
  with_reducible repeat' first
    | assumption | (simp only [Keeps.mk_iff]; apply KeepsIn.of) | dsimp only

theorem Mod.setSet_keeps {orig : Mod} {m : Mod} (i : Nat) (v : StagedSet) (kept : Mod.Keeps orig m) : Mod.Keeps orig (Mod.setSet m i v) := by
  unfold Mod.setSet
  with_reducible repeat' first
    | assumption | (simp only [Keeps.mk_iff]; apply KeepsIn.of) | dsimp only

theorem Mod.setRegion_keeps {orig : Mod} {m : Mod} (i : Nat) (v : Region) (kept : Mod.Keeps orig m) : Mod.Keeps orig (Mod.setRegion m i v) := by
  unfold Mod.setRegion
  with_reducible repeat' first
    | assumption | (simp only [Keeps.mk_iff]; apply KeepsIn.of) | dsimp only

theorem Mod.setMooring_keeps {orig : Mod} {m : Mod} (i : Nat) (v : Mooring) (kept : Mod.Keeps orig m) : Mod.Keeps orig (Mod.setMooring m i v) := by
  unfold Mod.setMooring
  with_reducible repeat' first
    | assumption | (simp only [Keeps.mk_iff]; apply KeepsIn.of) | dsimp only

theorem Mod.setCtl_keeps {orig : Mod} {m : Mod} (i : Nat) (v : Controller) (kept : Mod.Keeps orig m) : Mod.Keeps orig (Mod.setCtl m i v) := by
  unfold Mod.setCtl
  with_reducible repeat' first
    | assumption | (simp only [Keeps.mk_iff]; apply KeepsIn.of) | dsimp only

theorem Mod.setErr_keeps {orig : Mod} {m : Mod} (site : Nat) (v : ErrRing) (kept : Mod.Keeps orig m) : Mod.Keeps orig (Mod.setErr m site v) := by
  unfold Mod.setErr
  with_reducible repeat' first
    | assumption | (simp only [Keeps.mk_iff]; apply KeepsIn.of) | dsimp only

theorem Mod.setSlice_keeps {orig : Mod} {m : Mod} (md : Nat) (v : Slice) (kept : Mod.Keeps orig m) : Mod.Keeps orig (Mod.setSlice m md v) := by
  unfold Mod.setSlice
  with_reducible repeat' first
    | assumption | (simp only [Keeps.mk_iff]; apply KeepsIn.of) | dsimp only

theorem Mod.setPdCore_keeps {orig : Mod} {m : Mod} (i : Nat) (v : PdCore) (kept : Mod.Keeps orig m) : Mod.Keeps orig (Mod.setPdCore m i v) := by
  unfold Mod.setPdCore
  with_reducible repeat' first
    | assumption | (simp only [Keeps.mk_iff]; apply KeepsIn.of) | dsimp only

theorem Mod.setReg_keeps {orig : Mod} {m : Mod} (site off : Nat) (dflt v : Word) (kept : Mod.Keeps orig m) : Mod.Keeps orig (Mod.setReg m site off dflt v) := by
  unfold Mod.setReg
  with_reducible repeat' first
    | intro _ | assumption | (simp only [Keeps.mk_iff]; apply KeepsIn.of) | apply Keeps.ite | split | dsimp only

theorem Mod.setSector_keeps {orig : Mod} {m : Mod} (i : Nat) (v : Sector) (kept : Mod.Keeps orig m) : Mod.Keeps orig (Mod.setSector m i v) := by
  unfold Mod.setSector
  with_reducible repeat' first
    | assumption | (simp only [Keeps.mk_iff]; apply KeepsIn.of) | dsimp only

theorem Mod.setFn_keeps {orig : Mod} {m : Mod} (port fn : Nat) (v : Fn) (kept : Mod.Keeps orig m) : Mod.Keeps orig (Mod.setFn m port fn v) := by
  unfold Mod.setFn
  with_reducible repeat' first
    | assumption | (simp only [Keeps.mk_iff]; apply KeepsIn.of) | dsimp only

theorem Mod.emit_keeps {orig : Mod} {m : Mod} (o : Out) (kept : Mod.Keeps orig m) : Mod.Keeps orig (Mod.emit m o) := by
  unfold Mod.emit
  with_reducible repeat' first
    | assumption | (simp only [Keeps.mk_iff]; apply KeepsIn.of) | dsimp only

theorem Mod.guestAnswer_keeps {orig : Mod} {m : Mod} (op tag : Nat) (fields : List (Nat × Nat × Nat)) (data : List Nat) (kept : Mod.Keeps orig m) : Mod.Keeps orig (Mod.guestAnswer m op tag fields data) := by
  unfold Mod.guestAnswer
  with_reducible repeat' first
    | assumption | (simp only [Keeps.mk_iff]; apply KeepsIn.of) | apply emit_keeps | dsimp only

theorem Mod.takeFree_keeps {orig m : Mod} (h : Mod.Keeps orig m) : Mod.Keeps orig (Mod.takeFree m).2 := by
  unfold Mod.takeFree
  with_reducible repeat' first
    | assumption | (simp only [Keeps.mk_iff]; apply KeepsIn.of) | dsimp only

/-! ## Aia -/

theorem Mod.setPendingId_keeps {orig : Mod} {m : Mod} (file id : Nat) (kept : Mod.Keeps orig m) : Mod.Keeps orig (Mod.setPendingId m file id) := by
  unfold Mod.setPendingId
  with_reducible repeat' first
    | intro _ | assumption | (simp only [Keeps.mk_iff]; apply KeepsIn.of) | apply Keeps.ite | split | dsimp only

theorem Mod.sendMsi_keeps {orig : Mod} {m : Mod} (pa data : Nat) (kept : Mod.Keeps orig m) : Mod.Keeps orig (Mod.sendMsi m pa data) := by
  unfold Mod.sendMsi
  with_reducible repeat' first
    | intro _ | assumption | (simp only [Keeps.mk_iff]; apply KeepsIn.of) | apply emit_keeps | apply setPendingId_keeps | apply Keeps.ite | split
    | dsimp only

theorem Mod.clearFiles_keeps {orig : Mod} {m : Mod} (core : Nat) (kept : Mod.Keeps orig m) : Mod.Keeps orig (Mod.clearFiles m core) := by
  unfold Mod.clearFiles
  with_reducible repeat' first
    | intro _ | assumption | (simp only [Keeps.mk_iff]; apply KeepsIn.of) | split | dsimp only

theorem Mod.setAplic_keeps {orig : Mod} {m : Mod} (k : Nat) (d : Aplic) (kept : Mod.Keeps orig m) : Mod.Keeps orig (Mod.setAplic m k d) := by
  unfold Mod.setAplic
  with_reducible repeat' first
    | assumption | (simp only [Keeps.mk_iff]; apply KeepsIn.of) | dsimp only

theorem Mod.forward_keeps {orig : Mod} {m : Mod} (k i : Nat) (kept : Mod.Keeps orig m) : Mod.Keeps orig (Mod.forward m k i) := by
  unfold Mod.forward
  with_reducible repeat' first
    | intro _ | assumption | (simp only [Keeps.mk_iff]; apply KeepsIn.of) | apply sendMsi_keeps | apply setAplic_keeps | apply Keeps.ite | split
    | dsimp only

theorem Mod.forwardAll_keeps {orig : Mod} {m : Mod} (k : Nat) (kept : Mod.Keeps orig m) : Mod.Keeps orig (Mod.forwardAll m k) := by
  unfold Mod.forwardAll
  with_reducible repeat' first
    | intro _ | assumption | (simp only [Keeps.mk_iff]; apply KeepsIn.of) | apply forward_keeps | apply Keeps.foldl | split | dsimp only

theorem Mod.pendSource_keeps {orig : Mod} {m : Mod} (k i : Nat) (kept : Mod.Keeps orig m) : Mod.Keeps orig (Mod.pendSource m k i) := by
  unfold Mod.pendSource
  with_reducible repeat' first
    | intro _ | assumption | (simp only [Keeps.mk_iff]; apply KeepsIn.of) | apply setAplic_keeps | apply Keeps.ite | split | dsimp only

theorem Mod.raiseSource_keeps {orig : Mod} {m : Mod} (site i : Nat) (kept : Mod.Keeps orig m) : Mod.Keeps orig (Mod.raiseSource m site i) := by
  unfold Mod.raiseSource
  with_reducible repeat' first
    | intro _ | assumption | (simp only [Keeps.mk_iff]; apply KeepsIn.of) | apply emit_keeps | apply forward_keeps | apply pendSource_keeps
    | apply Keeps.ite | split | dsimp only

theorem Mod.configSource_keeps {orig : Mod} {m : Mod} (k i v : Nat) (kept : Mod.Keeps orig m) : Mod.Keeps orig (Mod.configSource m k i v) := by
  unfold Mod.configSource
  with_reducible repeat' first
    | intro _ | assumption | (simp only [Keeps.mk_iff]; apply KeepsIn.of) | apply setAplic_keeps | apply Keeps.ite | split | dsimp only

theorem Mod.writeAplic_keeps {orig : Mod} {m : Mod} (k o v : Nat) (kept : Mod.Keeps orig m) : Mod.Keeps orig (Mod.writeAplic m k o v) := by
  unfold Mod.writeAplic
  with_reducible repeat' first
    | intro _ | assumption | (simp only [Keeps.mk_iff]; apply KeepsIn.of) | apply sendMsi_keeps | apply setAplic_keeps | apply forwardAll_keeps
    | apply pendSource_keeps | apply configSource_keeps | apply Keeps.ite | apply Keeps.foldl | split | dsimp only

theorem Mod.writeIommu_keeps {orig : Mod} {m : Mod} (port o : Nat) (mask value : Word) (kept : Mod.Keeps orig m) : Mod.Keeps orig (Mod.writeIommu m port o mask value) := by
  unfold Mod.writeIommu
  with_reducible repeat' first
    | intro _ | assumption | (simp only [Keeps.mk_iff]; apply KeepsIn.of) | apply Keeps.ite | split | dsimp only

/-! ## Records -/

theorem Mod.logEvent_keeps {orig : Mod} {m : Mod} (cls sub site data0 : Nat) (data1 : Word) (kept : Mod.Keeps orig m) : Mod.Keeps orig (Mod.logEvent m cls sub site data0 data1) := by
  unfold Mod.logEvent
  with_reducible repeat' first
    | intro _ | assumption | (simp only [Keeps.mk_iff]; apply KeepsIn.of) | apply Keeps.ite | split | dsimp only

theorem Mod.record_keeps {orig : Mod} {m : Mod} (f : Fail) (kept : Mod.Keeps orig m) : Mod.Keeps orig (Mod.record m f) := by
  unfold Mod.record
  with_reducible repeat' first
    | intro _ | assumption | (simp only [Keeps.mk_iff]; apply KeepsIn.of) | apply setErr_keeps | apply raiseSource_keeps | apply logEvent_keeps
    | apply Keeps.ite | split | dsimp only

theorem Mod.malformed_keeps {orig : Mod} {m : Mod} (site addr size : Nat) (sector : Option SectorId) (kept : Mod.Keeps orig m) : Mod.Keeps orig (Mod.malformed m site addr size sector) := by
  unfold Mod.malformed
  with_reducible repeat' first
    | assumption | (simp only [Keeps.mk_iff]; apply KeepsIn.of) | apply record_keeps | dsimp only

theorem Mod.report_keeps {orig : Mod} {m : Mod} (d : Domain) (kept : Mod.Keeps orig m) : Mod.Keeps orig (Mod.report m d) := by
  unfold Mod.report
  with_reducible repeat' first
    | assumption | (simp only [Keeps.mk_iff]; apply KeepsIn.of) | dsimp only

theorem Mod.reportAs_keeps {orig : Mod} {m : Mod} (d : Domain) (injected : Bool) (kept : Mod.Keeps orig m) : Mod.Keeps orig (Mod.reportAs m d injected) := by
  unfold Mod.reportAs
  with_reducible repeat' first
    | intro _ | assumption | (simp only [Keeps.mk_iff]; apply KeepsIn.of) | apply report_keeps | apply Keeps.ite | split | dsimp only

/-! ## Memory -/

theorem Mod.noteBlock_keeps {orig : Mod} {m : Mod} (sector : Option SectorId) (pa n : Nat) (kept : Mod.Keeps orig m) : Mod.Keeps orig (Mod.noteBlock m sector pa n) := by
  unfold Mod.noteBlock
  with_reducible repeat' first
    | intro _ | assumption | (simp only [Keeps.mk_iff]; apply KeepsIn.of) | apply malformed_keeps | apply Keeps.ite | split | dsimp only

theorem Mod.recordAccess_keeps {orig : Mod} {m : Mod} (site unit : Nat) (sector : Option SectorId) (e : AccErr) (pa : Nat) (kept : Mod.Keeps orig m) : Mod.Keeps orig (Mod.recordAccess m site unit sector e pa) := by
  unfold Mod.recordAccess
  with_reducible repeat' first
    | intro _ | assumption | (simp only [Keeps.mk_iff]; apply KeepsIn.of) | apply record_keeps | apply Keeps.ite | split | dsimp only

/-! ## Flows -/

theorem Mod.updEd_keeps {orig : Mod} {m : Mod} (e : Nat) (f : EdState → EdState) (kept : Mod.Keeps orig m) : Mod.Keeps orig (Mod.updEd m e f) := by
  unfold Mod.updEd
  with_reducible repeat' first
    | assumption | (simp only [Keeps.mk_iff]; apply KeepsIn.of) | dsimp only

theorem Mod.setEngine_keeps {orig : Mod} {m : Mod} (e : Nat) (x : Engine) (kept : Mod.Keeps orig m) : Mod.Keeps orig (Mod.setEngine m e x) := by
  unfold Mod.setEngine
  with_reducible repeat' first
    | assumption | (simp only [Keeps.mk_iff]; apply KeepsIn.of) | dsimp only

theorem Mod.updEngine_keeps {orig : Mod} {m : Mod} (e : Nat) (f : Engine → Engine) (kept : Mod.Keeps orig m) : Mod.Keeps orig (Mod.updEngine m e f) := by
  unfold Mod.updEngine
  with_reducible repeat' first
    | assumption | (simp only [Keeps.mk_iff]; apply KeepsIn.of) | apply setEngine_keeps | dsimp only

theorem Mod.enter_keeps {orig : Mod} {m : Mod} (ed vc : Nat) (sector : Option SectorId) (t : TPkt) (kept : Mod.Keeps orig m) : Mod.Keeps orig (Mod.enter m ed vc sector t) := by
  unfold Mod.enter
  with_reducible repeat' first
    | assumption | (simp only [Keeps.mk_iff]; apply KeepsIn.of) | dsimp only

theorem Mod.setTxFlow_keeps {orig : Mod} {m : Mod} (f : TxFlow) (kept : Mod.Keeps orig m) : Mod.Keeps orig (Mod.setTxFlow m f) := by
  unfold Mod.setTxFlow
  with_reducible repeat' first
    | intro _ | assumption | (simp only [Keeps.mk_iff]; apply KeepsIn.of) | split | dsimp only

theorem Mod.sendFlow_keeps {orig : Mod} {m : Mod} (agent dst dstAgent vc : Nat) (sector : Option SectorId) (transfer index : Nat) (build : (seq : Nat) → (gen : Nat) → TPkt) (keep : Bool) (kept : Mod.Keeps orig m) : Mod.Keeps orig (Mod.sendFlow m agent dst dstAgent vc sector transfer index build keep) := by
  unfold Mod.sendFlow
  with_reducible repeat' first
    | intro _ | assumption | (simp only [Keeps.mk_iff]; apply KeepsIn.of) | apply enter_keeps | apply setTxFlow_keeps | apply Keeps.ite | split
    | dsimp only

theorem Mod.keeperPut_keeps {orig : Mod} {m : Mod} (dst : Nat) (ws : List Word) (kept : Mod.Keeps orig m) : Mod.Keeps orig (Mod.keeperPut m dst ws) := by
  unfold Mod.keeperPut
  with_reducible repeat' first
    | intro _ | assumption | (simp only [Keeps.mk_iff]; apply KeepsIn.of) | apply sendFlow_keeps | split | dsimp only

theorem Mod.keeperSend_keeps {orig m : Mod} (dst : Nat) (ws : List Word) (h : Mod.Keeps orig m) : Mod.Keeps orig (Mod.keeperSend m dst ws).1 := by
  unfold Mod.keeperSend
  with_reducible repeat' first
    | intro _ | assumption | (simp only [Keeps.mk_iff]; apply KeepsIn.of) | apply setTxFlow_keeps | apply keeperPut_keeps | apply Keeps.ite | split
    | dsimp only

theorem Mod.keeperPump_keeps {orig m : Mod} (dst : Nat) (k_ : Nat) (h : Mod.Keeps orig m) : Mod.Keeps orig (Mod.keeperPump m dst k_) := by
  induction k_ generalizing m with
  | zero =>
    unfold Mod.keeperPump
    with_reducible repeat' first
      | intro _ | assumption | apply ih | (simp only [Keeps.mk_iff]; apply KeepsIn.of) | apply setTxFlow_keeps | apply keeperPut_keeps | apply Keeps.ite | split
      | dsimp only
  | succ n_ ih =>
    unfold Mod.keeperPump
    with_reducible repeat' first
      | intro _ | assumption | apply ih | (simp only [Keeps.mk_iff]; apply KeepsIn.of) | apply setTxFlow_keeps | apply keeperPut_keeps | apply Keeps.ite | split
      | dsimp only

/-! ## Home -/

theorem Mod.setTxn_keeps {orig : Mod} {m : Mod} (line : Nat) (t : Option HomeTxn) (kept : Mod.Keeps orig m) : Mod.Keeps orig (Mod.setTxn m line t) := by
  unfold Mod.setTxn
  with_reducible repeat' first
    | assumption | (simp only [Keeps.mk_iff]; apply KeepsIn.of) | apply setSlice_keeps | dsimp only

theorem Mod.setSliceLine_keeps {orig : Mod} {m : Mod} (line : Nat) (l : Option SliceLine) (kept : Mod.Keeps orig m) : Mod.Keeps orig (Mod.setSliceLine m line l) := by
  unfold Mod.setSliceLine
  with_reducible repeat' first
    | assumption | (simp only [Keeps.mk_iff]; apply KeepsIn.of) | apply setSlice_keeps | dsimp only

theorem Mod.setBucket_keeps {orig : Mod} {m : Mod} (ctl sector n : Nat) (kept : Mod.Keeps orig m) : Mod.Keeps orig (Mod.setBucket m ctl sector n) := by
  unfold Mod.setBucket
  with_reducible repeat' first
    | assumption | (simp only [Keeps.mk_iff]; apply KeepsIn.of) | dsimp only

theorem Mod.countBack_keeps {orig : Mod} {m : Mod} (line n : Nat) (kept : Mod.Keeps orig m) : Mod.Keeps orig (Mod.countBack m line n) := by
  unfold Mod.countBack
  with_reducible repeat' first
    | intro _ | assumption | (simp only [Keeps.mk_iff]; apply KeepsIn.of) | apply setBucket_keeps | apply Keeps.ite | split | dsimp only

theorem Mod.dropReservations_keeps {orig : Mod} {m : Mod} (line : Nat) (kept : Mod.Keeps orig m) : Mod.Keeps orig (Mod.dropReservations m line) := by
  unfold Mod.dropReservations
  with_reducible repeat' first
    | intro _ | assumption | (simp only [Keeps.mk_iff]; apply KeepsIn.of) | apply Keeps.ite | split | dsimp only

theorem Mod.dropCarried_keeps {orig : Mod} {m : Mod} (line : Nat) (kept : Mod.Keeps orig m) : Mod.Keeps orig (Mod.dropCarried m line) := by
  unfold Mod.dropCarried
  with_reducible repeat' first
    | intro _ | assumption | (simp only [Keeps.mk_iff]; apply KeepsIn.of) | apply setTxn_keeps | apply Keeps.ite | split | dsimp only

theorem Mod.dropCopies_keeps {orig : Mod} {m : Mod} (line : Nat) (kept : Mod.Keeps orig m) : Mod.Keeps orig (Mod.dropCopies m line) := by
  unfold Mod.dropCopies
  with_reducible repeat' first
    | intro _ | assumption | (simp only [Keeps.mk_iff]; apply KeepsIn.of) | apply dropReservations_keeps | apply dropCarried_keeps | apply Keeps.ite
    | apply Keeps.foldl | split | dsimp only

theorem Mod.noteWritten_keeps {orig : Mod} {m : Mod} (line : Nat) (kept : Mod.Keeps orig m) : Mod.Keeps orig (Mod.noteWritten m line) := by
  unfold Mod.noteWritten
  with_reducible repeat' first
    | intro _ | assumption | (simp only [Keeps.mk_iff]; apply KeepsIn.of) | apply setCtl_keeps | apply Keeps.ite | split | dsimp only

theorem Mod.dropSliceKeys_keeps {orig : Mod} {m : Mod} (line : Nat) (kept : Mod.Keeps orig m) : Mod.Keeps orig (Mod.dropSliceKeys m line) := by
  unfold Mod.dropSliceKeys
  with_reducible repeat' first
    | intro _ | assumption | (simp only [Keeps.mk_iff]; apply KeepsIn.of) | apply setSlice_keeps | split | dsimp only

theorem Mod.toMemory_keeps {b m : Mod} (line : Nat) (new : Table Byte) (full : Bool) (h : Mod.Keeps b m) : Mod.Keeps b (m.toMemory line new full) := by
  have k : Mod.Keeps b { m with dram := putCells (dropOtherKeys m.dram line) (new.map (fun p => (128 * line + p.1, p.2))) } := by
    simp only [Mod.Keeps.mk_iff]
    exact Mod.KeepsIn.cells h (fun r => putCells_rising _ _ (dropOtherKeys_rising [line] _ r))
  unfold Mod.toMemory
  exact Mod.Keeps.ite (fun _ => Mod.noteWritten_keeps _ k) (fun _ => k)

theorem Mod.cleanLine_keeps {orig : Mod} {m : Mod} (line : Nat) (kept : Mod.Keeps orig m) : Mod.Keeps orig (Mod.cleanLine m line) := by
  unfold Mod.cleanLine
  with_reducible repeat' first
    | intro _ | assumption | (simp only [Keeps.mk_iff]; apply KeepsIn.of) | apply setSliceLine_keeps | apply countBack_keeps | apply toMemory_keeps
    | apply Keeps.ite | split | dsimp only

theorem Mod.cleanSlices_keeps {orig : Mod} {m : Mod} (f : Nat → Bool) (kept : Mod.Keeps orig m) : Mod.Keeps orig (Mod.cleanSlices m f) := by
  unfold Mod.cleanSlices
  with_reducible repeat' first
    | intro _ | assumption | (simp only [Keeps.mk_iff]; apply KeepsIn.of) | apply cleanLine_keeps | apply Keeps.foldl | split | dsimp only

theorem Mod.forget_keeps {b m : Mod} (gone : Nat → Bool) (h : Mod.Keeps b m) : Mod.Keeps b (m.forget gone) := by
  unfold Mod.forget
  simp only [Mod.Keeps.mk_iff]
  exact Mod.KeepsIn.cells h (fun r => Table.rising_filter _ _ r)

theorem Mod.emptyWay_keeps {orig : Mod} {m : Mod} (md set way : Nat) (kept : Mod.Keeps orig m) : Mod.Keeps orig (Mod.emptyWay m md set way) := by
  unfold Mod.emptyWay
  with_reducible repeat' first
    | intro _ | assumption | (simp only [Keeps.mk_iff]; apply KeepsIn.of) | apply setSliceLine_keeps | apply cleanLine_keeps | split | dsimp only

theorem Mod.toSlice_keeps {orig m n__ : Mod} {line : Nat} {new : Table Byte} (eq_ : Mod.toSlice m line new = some n__) (h : Mod.Keeps orig m) : Mod.Keeps orig n__ := by
  unfold Mod.toSlice at eq_
  try dsimp only at eq_
  repeat' split at eq_
  all_goals (try (cases eq_))
  all_goals with_reducible repeat' first
    | intro _ | assumption | (simp only [Keeps.mk_iff]; apply KeepsIn.of) | apply setSlice_keeps | apply setSliceLine_keeps | apply emptyWay_keeps
    | split | dsimp only

theorem Mod.toSlice_getD_keeps {orig m d_ : Mod} (line : Nat) (new : Table Byte) (h : Mod.Keeps orig m) (k : Mod.Keeps orig d_) : Mod.Keeps orig ((Mod.toSlice m line new).getD d_) := by
  cases e_ : Mod.toSlice m line new with
  | none => exact k
  | some n => exact Mod.toSlice_keeps e_ h

theorem Mod.rest_keeps {orig : Mod} {m : Mod} (line : Nat) (new : Table Byte) (alloc : Bool) (kept : Mod.Keeps orig m) : Mod.Keeps orig (Mod.rest m line new alloc) := by
  unfold Mod.rest
  with_reducible repeat' first
    | intro _ | assumption | (simp only [Keeps.mk_iff]; apply KeepsIn.of) | apply dropSliceKeys_keeps | apply toMemory_keeps
    | (refine toSlice_keeps (by assumption) ?_) | apply toSlice_getD_keeps | apply Keeps.ite | split | dsimp only

theorem Mod.restBack_keeps {orig : Mod} {m : Mod} (line : Nat) (data : List Byte) (kept : Mod.Keeps orig m) : Mod.Keeps orig (Mod.restBack m line data) := by
  unfold Mod.restBack
  with_reducible repeat' first
    | intro _ | assumption | (simp only [Keeps.mk_iff]; apply KeepsIn.of) | apply countBack_keeps | apply rest_keeps | apply Keeps.ite | split
    | dsimp only

theorem Mod.recall_keeps {orig : Mod} {m : Mod} (line : Nat) (kept : Mod.Keeps orig m) : Mod.Keeps orig (Mod.recall m line) := by
  unfold Mod.recall
  with_reducible repeat' first
    | intro _ | assumption | (simp only [Keeps.mk_iff]; apply KeepsIn.of) | apply dropCopies_keeps | apply restBack_keeps | split | dsimp only

theorem Mod.setGroups_keeps {orig : Mod} {m : Mod} (line groups : Nat) (kept : Mod.Keeps orig m) : Mod.Keeps orig (Mod.setGroups m line groups) := by
  unfold Mod.setGroups
  with_reducible repeat' first
    | intro _ | assumption | (simp only [Keeps.mk_iff]; apply KeepsIn.of) | apply setSlice_keeps | apply Keeps.ite | split | dsimp only

theorem Mod.filterAdd_keeps {orig : Mod} {m : Mod} (line : Nat) (kept : Mod.Keeps orig m) : Mod.Keeps orig (Mod.filterAdd m line) := by
  unfold Mod.filterAdd
  with_reducible repeat' first
    | intro _ | assumption | (simp only [Keeps.mk_iff]; apply KeepsIn.of) | apply setSlice_keeps | apply recall_keeps | apply Keeps.ite | split
    | dsimp only

theorem Mod.findError_keeps {orig : Mod} {m : Mod} (line : Nat) (kept : Mod.Keeps orig m) : Mod.Keeps orig (Mod.findError m line) := by
  unfold Mod.findError
  with_reducible repeat' first
    | intro _ | assumption | (simp only [Keeps.mk_iff]; apply KeepsIn.of) | apply setCtl_keeps | apply takeFree_keeps | apply record_keeps
    | apply Keeps.ite | split | dsimp only

theorem Mod.channelRead_keeps {orig : Mod} {m : Mod} (lines : List Nat) (kept : Mod.Keeps orig m) : Mod.Keeps orig (Mod.channelRead m lines) := by
  unfold Mod.channelRead
  with_reducible repeat' first
    | intro _ | assumption | (simp only [Keeps.mk_iff]; apply KeepsIn.of) | apply setSlice_keeps | apply findError_keeps | apply Keeps.ite
    | apply Keeps.foldl | split | dsimp only

theorem Mod.l2Room_keeps {orig m : Mod} (agent : Nat) (h : Mod.Keeps orig m) : Mod.Keeps orig (Mod.l2Room m agent).2 := by
  unfold Mod.l2Room
  with_reducible repeat' first
    | intro _ | assumption | (simp only [Keeps.mk_iff]; apply KeepsIn.of) | apply takeFree_keeps | apply Keeps.ite | split | dsimp only

theorem Mod.intoL2_keeps {orig : Mod} {m : Mod} (agent line : Nat) (new : Table Byte) (kept : Mod.Keeps orig m) : Mod.Keeps orig (Mod.intoL2 m agent line new) := by
  unfold Mod.intoL2
  with_reducible repeat' first
    | intro _ | assumption | (simp only [Keeps.mk_iff]; apply KeepsIn.of) | apply setSliceLine_keeps | apply filterAdd_keeps | split | dsimp only

theorem Mod.countHint_keeps {orig : Mod} {m : Mod} (line : Nat) (applied : Bool) (kept : Mod.Keeps orig m) : Mod.Keeps orig (Mod.countHint m line applied) := by
  unfold Mod.countHint
  with_reducible repeat' first
    | intro _ | assumption | (simp only [Keeps.mk_iff]; apply KeepsIn.of) | apply setSlice_keeps | apply Keeps.ite | split | dsimp only

theorem Mod.placeHint_keeps {orig : Mod} {m : Mod} (line : Nat) (new : Table Byte) (h : Nat) (full : Bool) (kept : Mod.Keeps orig m) : Mod.Keeps orig (Mod.placeHint m line new h full) := by
  unfold Mod.placeHint
  with_reducible repeat' first
    | intro _ | assumption | (simp only [Keeps.mk_iff]; apply KeepsIn.of) | apply rest_keeps | apply l2Room_keeps | apply intoL2_keeps
    | apply countHint_keeps | apply Keeps.ite | split | dsimp only

theorem Mod.unpoison_keeps {orig : Mod} {m : Mod} (which : Nat → Bool) (kept : Mod.Keeps orig m) : Mod.Keeps orig (Mod.unpoison m which) := by
  unfold Mod.unpoison
  with_reducible repeat' first
    | intro _ | assumption | (simp only [Keeps.mk_iff]; apply KeepsIn.of) | apply Keeps.ite | split | dsimp only

theorem Mod.writeLine_keeps {orig : Mod} {m : Mod} (line : Nat) (bytes : List (Nat × Byte)) (hint : Nat) (kept : Mod.Keeps orig m) : Mod.Keeps orig (Mod.writeLine m line bytes hint) := by
  unfold Mod.writeLine
  with_reducible repeat' first
    | intro _ | assumption | (simp only [Keeps.mk_iff]; apply KeepsIn.of) | apply dropCopies_keeps | apply toMemory_keeps | apply findError_keeps
    | apply channelRead_keeps | apply placeHint_keeps | apply unpoison_keeps | apply Keeps.ite | split | dsimp only

theorem Mod.writeOutside_keeps {orig : Mod} {m : Mod} (cells : List (Nat × Byte)) (kept : Mod.Keeps orig m) : Mod.Keeps orig (Mod.writeOutside m cells) := by
  unfold Mod.writeOutside
  with_reducible repeat' first
    | intro _ | assumption | (simp only [Keeps.mk_iff]; apply KeepsIn.of) | apply emit_keeps | apply Keeps.ite | apply Keeps.foldl | split
    | dsimp only

theorem Mod.writeHinted_keeps {orig : Mod} {m : Mod} (cells : List Nat) (bs : List Byte) (hint : Nat) (kept : Mod.Keeps orig m) : Mod.Keeps orig (Mod.writeHinted m cells bs hint) := by
  unfold Mod.writeHinted
  with_reducible repeat' first
    | intro _ | assumption | (simp only [Keeps.mk_iff]; apply KeepsIn.of) | apply writeLine_keeps | apply writeOutside_keeps | apply Keeps.foldl
    | split | dsimp only

theorem Mod.writeBeat_keeps {orig : Mod} {m : Mod} (b : BurstBeat) (kept : Mod.Keeps orig m) : Mod.Keeps orig (Mod.writeBeat m b) := by
  unfold Mod.writeBeat
  with_reducible repeat' first
    | intro _ | assumption | (simp only [Keeps.mk_iff]; apply KeepsIn.of) | apply writeHinted_keeps | split | dsimp only

theorem Mod.prioRead_keeps {orig m n__ : Mod} {ch sector stream n : Nat} (eq_ : Mod.prioRead m ch sector stream n = some n__) (h : Mod.Keeps orig m) : Mod.Keeps orig n__ := by
  unfold Mod.prioRead at eq_
  try dsimp only at eq_
  repeat' split at eq_
  all_goals (try (cases eq_))
  all_goals with_reducible repeat' first
    | intro _ | assumption | (simp only [Keeps.mk_iff]; apply KeepsIn.of) | apply setCtl_keeps | apply Keeps.ite | split | dsimp only

theorem Mod.prioRead_getD_keeps {orig m d_ : Mod} (ch sector stream n : Nat) (h : Mod.Keeps orig m) (k : Mod.Keeps orig d_) : Mod.Keeps orig ((Mod.prioRead m ch sector stream n).getD d_) := by
  cases e_ : Mod.prioRead m ch sector stream n with
  | none => exact k
  | some n => exact Mod.prioRead_keeps e_ h

theorem Mod.Keeps.foldl_fst {α β : Type} {b : Mod} (l : List β) (f : Mod × α → β → Mod × α) (a : Mod × α)
    (hf : ∀ a p, Mod.Keeps b a.1 → Mod.Keeps b (f a p).1) (h : Mod.Keeps b a.1) : Mod.Keeps b (l.foldl f a).1 := by
  induction l generalizing a with
  | nil => exact h
  | cons p rest ih => exact ih _ (hf a p h)

theorem Mod.throughCtl_keeps {b m : Mod} (s : SectorId) (prio : Nat) (cells : List Nat) (h : Mod.Keeps b m) :
    Mod.Keeps b (m.throughCtl s prio cells).1 := by
  unfold Mod.throughCtl
  refine Mod.Keeps.foldl_fst _ _ _ (fun a l k => ?_) h
  dsimp only
  split
  · next e =>
    split at e
    · cases e
    · exact Mod.prioRead_keeps e k
  · exact k

theorem Mod.Keeps.foldlM {β : Type} {b m n : Mod} (l : List β) (f : Mod → β → Option Mod) (hf : ∀ m p n, f m p = some n → Mod.Keeps b m → Mod.Keeps b n)
    (e : l.foldlM f m = some n) (h : Mod.Keeps b m) : Mod.Keeps b n := by
  induction l generalizing m with
  | nil => cases e; exact h
  | cons p rest ih =>
    rw [List.foldlM_cons] at e
    cases q : f m p with
    | none => rw [q] at e; cases e
    | some x => rw [q] at e; exact ih e (hf _ _ _ q h)

theorem Mod.charge_keeps {b m n : Mod} {sector : Option SectorId} {prio : Nat} {cells : List Nat} (eq_ : m.charge sector prio cells = some n)
    (h : Mod.Keeps b m) : Mod.Keeps b n := by
  unfold Mod.charge at eq_
  split at eq_
  · cases eq_; exact h
  · refine Mod.Keeps.foldlM _ _ (fun x k y e hx => ?_) eq_ (Mod.throughCtl_keeps _ _ _ h)
    dsimp only at e
    split at e
    · cases e
    · cases e; exact Mod.setBucket_keeps _ _ _ hx

theorem Mod.chargeAll_keeps {orig : Mod} {m : Mod} (sector : Option SectorId) (prio : Nat) (cells : List Nat) (kept : Mod.Keeps orig m) : Mod.Keeps orig (Mod.chargeAll m sector prio cells) := by
  unfold Mod.chargeAll
  with_reducible repeat' first
    | intro _ | assumption | (simp only [Keeps.mk_iff]; apply KeepsIn.of) | apply setBucket_keeps | apply throughCtl_keeps | apply Keeps.foldl
    | split | dsimp only

theorem Mod.pass_keeps {orig m n__ : Mod} {stamp : Nat} {sector : Option SectorId} {prio : Nat} {write : Bool} {cells : List Nat} (eq_ : Mod.pass m stamp sector prio write cells = some n__) (h : Mod.Keeps orig m) : Mod.Keeps orig n__ := by
  unfold Mod.pass at eq_
  try dsimp only at eq_
  repeat' split at eq_
  all_goals (try (cases eq_))
  all_goals with_reducible repeat' first
    | intro _ | assumption | (simp only [Keeps.mk_iff]; apply KeepsIn.of) | (refine charge_keeps (by assumption) ?_) | apply Keeps.ite | split
    | dsimp only

theorem Mod.pass_getD_keeps {orig m d_ : Mod} (stamp : Nat) (sector : Option SectorId) (prio : Nat) (write : Bool) (cells : List Nat) (h : Mod.Keeps orig m) (k : Mod.Keeps orig d_) : Mod.Keeps orig ((Mod.pass m stamp sector prio write cells).getD d_) := by
  cases e_ : Mod.pass m stamp sector prio write cells with
  | none => exact k
  | some n => exact Mod.pass_keeps e_ h

theorem Mod.passNow_keeps {orig m n__ : Mod} {sector : Option SectorId} {prio : Nat} {write : Bool} {cells : List Nat} (eq_ : Mod.passNow m sector prio write cells = some n__) (h : Mod.Keeps orig m) : Mod.Keeps orig n__ := by
  unfold Mod.passNow at eq_
  try dsimp only at eq_
  repeat' split at eq_
  all_goals (try (cases eq_))
  all_goals with_reducible repeat' first
    | assumption | (simp only [Keeps.mk_iff]; apply KeepsIn.of) | (refine pass_keeps (by assumption) ?_) | apply pass_getD_keeps | dsimp only

theorem Mod.passNow_getD_keeps {orig m d_ : Mod} (sector : Option SectorId) (prio : Nat) (write : Bool) (cells : List Nat) (h : Mod.Keeps orig m) (k : Mod.Keeps orig d_) : Mod.Keeps orig ((Mod.passNow m sector prio write cells).getD d_) := by
  cases e_ : Mod.passNow m sector prio write cells with
  | none => exact k
  | some n => exact Mod.passNow_keeps e_ h

theorem Mod.writePhys_keeps {orig m n__ : Mod} {sector : Option SectorId} {pa : Nat} {bs : List Byte} (eq_ : Mod.writePhys m sector pa bs = .ok n__) (h : Mod.Keeps orig m) : Mod.Keeps orig n__ := by
  unfold Mod.writePhys at eq_
  try dsimp only at eq_
  repeat' split at eq_
  all_goals (try (cases eq_))
  all_goals with_reducible repeat' first
    | intro _ | assumption | (simp only [Keeps.mk_iff]; apply KeepsIn.of) | apply noteBlock_keeps | apply writeHinted_keeps | apply chargeAll_keeps
    | apply KeepsOr.ok | apply KeepsOr.error | apply KeepsOr.ite | split | dsimp only

theorem Mod.touchRead_keeps {orig : Mod} {m : Mod} (sector : Option SectorId) (pa n : Nat) (kept : Mod.Keeps orig m) : Mod.Keeps orig (Mod.touchRead m sector pa n) := by
  unfold Mod.touchRead
  with_reducible repeat' first
    | intro _ | assumption | (simp only [Keeps.mk_iff]; apply KeepsIn.of) | apply noteBlock_keeps | apply channelRead_keeps | apply chargeAll_keeps
    | apply KeepsOr.ok | apply KeepsOr.error | apply KeepsOr.ite | split | dsimp only

theorem Mod.atomicAt_keeps {orig m n__ : Mod} {cells : List Nat} {op : AtomOp} {size v c : Nat} {x0_ : Nat} (eq_ : Mod.atomicAt m cells op size v c = .ok (x0_, n__)) (h : Mod.Keeps orig m) : Mod.Keeps orig n__ := by
  unfold Mod.atomicAt at eq_
  try dsimp only at eq_
  repeat' split at eq_
  all_goals (first | (cases eq_) | (try (have q_ := congrArg Prod.fst (Except.ok.inj eq_); dsimp only at q_; subst q_)))
  all_goals with_reducible repeat' first
    | intro _ | assumption | (simp only [Keeps.mk_iff]; apply KeepsIn.of) | apply writeHinted_keeps | apply Keeps.ite | apply KeepsOr.ok
    | apply KeepsOr.error | apply KeepsOr.ite | split | dsimp only

theorem Mod.homeAtomic_keeps {orig m n__ : Mod} {sector : Option SectorId} {op : AtomOp} {size pa v c : Nat} {x0_ : Nat} (eq_ : Mod.homeAtomic m sector op size pa v c = .ok (x0_, n__)) (h : Mod.Keeps orig m) : Mod.Keeps orig n__ := by
  unfold Mod.homeAtomic at eq_
  try dsimp only at eq_
  repeat' split at eq_
  all_goals (first | (cases eq_) | (try (have q_ := congrArg Prod.fst (Except.ok.inj eq_); dsimp only at q_; subst q_)))
  all_goals with_reducible repeat' first
    | intro _ | assumption | (simp only [Keeps.mk_iff]; apply KeepsIn.of) | apply noteBlock_keeps | (refine atomicAt_keeps (by assumption) ?_)
    | apply KeepsOr.ok | apply KeepsOr.error | apply KeepsOr.ite | split | dsimp only

theorem Mod.reduceAt_keeps {orig m n__ : Mod} {cells : List Nat} {op : RedOp} {wide : Bool} {data : List Byte} (eq_ : Mod.reduceAt m cells op wide data = .ok n__) (h : Mod.Keeps orig m) : Mod.Keeps orig n__ := by
  unfold Mod.reduceAt at eq_
  try dsimp only at eq_
  repeat' split at eq_
  all_goals (try (cases eq_))
  all_goals with_reducible repeat' first
    | intro _ | assumption | (simp only [Keeps.mk_iff]; apply KeepsIn.of) | apply writeHinted_keeps | apply Keeps.ite | apply KeepsOr.ok
    | apply KeepsOr.error | apply KeepsOr.ite | split | dsimp only

theorem Mod.reduceInto_keeps {orig m n__ : Mod} {sector : Option SectorId} {op : RedOp} {wide : Bool} {pa : Nat} {data : List Byte} (eq_ : Mod.reduceInto m sector op wide pa data = .ok n__) (h : Mod.Keeps orig m) : Mod.Keeps orig n__ := by
  unfold Mod.reduceInto at eq_
  try dsimp only at eq_
  repeat' split at eq_
  all_goals (try (cases eq_))
  all_goals with_reducible repeat' first
    | intro _ | assumption | (simp only [Keeps.mk_iff]; apply KeepsIn.of) | apply noteBlock_keeps | (refine reduceAt_keeps (by assumption) ?_)
    | apply KeepsOr.ok | apply KeepsOr.error | apply KeepsOr.ite | split | dsimp only

/-! ## Scrub -/

theorem Mod.newContents_keeps {b m : Mod} (slot : Nat) (h : Mod.Keeps b m) : Mod.Keeps b (m.newContents slot) := by
  unfold Mod.newContents
  simp only [Mod.Keeps.mk_iff]
  refine ⟨h.part, h.svn, fun k hk => Nat.le_trans (h.keys k hk) ?_, h.starts, h.memory⟩
  rw [Table.get_upd]
  split
  · rename_i e; subst e; exact Nat.le_succ _
  · exact Nat.le_refl _

theorem Mod.genKey_keeps {orig : Mod} {m : Mod} (slot : Nat) (kept : Mod.Keeps orig m) : Mod.Keeps orig (Mod.genKey m slot) := by
  unfold Mod.genKey
  with_reducible repeat' first
    | intro _ | assumption | (simp only [Keeps.mk_iff]; apply KeepsIn.of) | apply newContents_keeps | split | dsimp only

theorem Mod.destroyKey_keeps {orig : Mod} {m : Mod} (slot : Nat) (kept : Mod.Keeps orig m) : Mod.Keeps orig (Mod.destroyKey m slot) := by
  unfold Mod.destroyKey
  with_reducible repeat' first
    | intro _ | assumption | (simp only [Keeps.mk_iff]; apply KeepsIn.of) | apply newContents_keeps | split | dsimp only

theorem Mod.dropModels_keeps {orig : Mod} {m : Mod} (sector : Nat) (kept : Mod.Keeps orig m) : Mod.Keeps orig (Mod.dropModels m sector) := by
  unfold Mod.dropModels
  with_reducible repeat' first
    | intro _ | assumption | (simp only [Keeps.mk_iff]; apply KeepsIn.of) | split | dsimp only

theorem Mod.dropKeys_keeps {orig : Mod} {m : Mod} (sector : Nat) (kept : Mod.Keeps orig m) : Mod.Keeps orig (Mod.dropKeys m sector) := by
  unfold Mod.dropKeys
  with_reducible repeat' first
    | intro _ | assumption | (simp only [Keeps.mk_iff]; apply KeepsIn.of) | apply destroyKey_keeps | apply dropModels_keeps | apply Keeps.foldl
    | split | dsimp only

theorem Mod.scrubCore_keeps {orig : Mod} {m : Mod} (id : Nat) (kept : Mod.Keeps orig m) : Mod.Keeps orig (Mod.scrubCore m id) := by
  unfold Mod.scrubCore
  with_reducible repeat' first
    | intro _ | assumption | (simp only [Keeps.mk_iff]; apply KeepsIn.of) | apply updCore_keeps | apply Keeps.ite | split | dsimp only

theorem Mod.scrubCluster_keeps {orig : Mod} {m : Mod} (c : Nat) (kept : Mod.Keeps orig m) : Mod.Keeps orig (Mod.scrubCluster m c) := by
  unfold Mod.scrubCluster
  with_reducible repeat' first
    | intro _ | assumption | (simp only [Keeps.mk_iff]; apply KeepsIn.of) | apply updCluster_keeps | apply scrubCore_keeps | apply Keeps.foldl
    | split | dsimp only

theorem Mod.clearQueues_keeps {orig : Mod} {m : Mod} (c : Nat) (kept : Mod.Keeps orig m) : Mod.Keeps orig (Mod.clearQueues m c) := by
  unfold Mod.clearQueues
  with_reducible repeat' first
    | intro _ | assumption | (simp only [Keeps.mk_iff]; apply KeepsIn.of) | apply Keeps.ite | split | dsimp only

theorem Mod.scrubEngine_keeps {orig : Mod} {m : Mod} (e : Nat) (kept : Mod.Keeps orig m) : Mod.Keeps orig (Mod.scrubEngine m e) := by
  unfold Mod.scrubEngine
  with_reducible repeat' first
    | intro _ | assumption | (simp only [Keeps.mk_iff]; apply KeepsIn.of) | apply updEngine_keeps | apply Keeps.ite | split | dsimp only

theorem Mod.scrubPd_keeps {orig : Mod} {m : Mod} (a : Nat) (kept : Mod.Keeps orig m) : Mod.Keeps orig (Mod.scrubPd m a) := by
  unfold Mod.scrubPd
  with_reducible repeat' first
    | intro _ | assumption | (simp only [Keeps.mk_iff]; apply KeepsIn.of) | apply setPdCore_keeps | apply clearFiles_keeps | split | dsimp only

theorem Mod.scrubWays_keeps {orig : Mod} {m : Mod} (md sector : Nat) (kept : Mod.Keeps orig m) : Mod.Keeps orig (Mod.scrubWays m md sector) := by
  unfold Mod.scrubWays
  with_reducible repeat' first
    | intro _ | assumption | (simp only [Keeps.mk_iff]; apply KeepsIn.of) | apply setSlice_keeps | split | dsimp only

theorem Mod.scrubChannel_keeps {orig : Mod} {m : Mod} (ch : Nat) (kept : Mod.Keeps orig m) : Mod.Keeps orig (Mod.scrubChannel m ch) := by
  unfold Mod.scrubChannel
  with_reducible repeat' first
    | intro _ | assumption | (simp only [Keeps.mk_iff]; apply KeepsIn.of) | apply forget_keeps | apply unpoison_keeps | split | dsimp only

theorem Mod.scrubBurst_keeps {b m : Mod} (lo hi : Nat) (h : Mod.Keeps b m) : Mod.Keeps b (m.scrubBurst lo hi) := by
  unfold Mod.scrubBurst
  simp only [Mod.Keeps.mk_iff]
  exact Mod.KeepsIn.cells h (fun r => Table.rising_filter _ _ r)

theorem Mod.scrubFootprint_keeps {orig : Mod} {m : Mod} (r : Region) (kept : Mod.Keeps orig m) : Mod.Keeps orig (Mod.scrubFootprint m r) := by
  unfold Mod.scrubFootprint
  with_reducible repeat' first
    | intro _ | assumption | (simp only [Keeps.mk_iff]; apply KeepsIn.of) | apply forget_keeps | apply unpoison_keeps | apply Keeps.ite | split
    | dsimp only

theorem Mod.ownCluster_keeps {orig : Mod} {m : Mod} (c : Nat) (s : Option SectorId) (kept : Mod.Keeps orig m) : Mod.Keeps orig (Mod.ownCluster m c s) := by
  unfold Mod.ownCluster
  with_reducible repeat' first
    | intro _ | assumption | (simp only [Keeps.mk_iff]; apply KeepsIn.of) | apply updCore_keeps | apply updCluster_keeps | apply Keeps.foldl | split
    | dsimp only

theorem Mod.ownChannel_keeps {orig : Mod} {m : Mod} (ch : Nat) (s : Option SectorId) (kept : Mod.Keeps orig m) : Mod.Keeps orig (Mod.ownChannel m ch s) := by
  unfold Mod.ownChannel
  with_reducible repeat' first
    | assumption | (simp only [Keeps.mk_iff]; apply KeepsIn.of) | apply setCtl_keeps | dsimp only

theorem Mod.markChannel_keeps {orig : Mod} {m : Mod} (ch : Nat) (dirty : Bool) (kept : Mod.Keeps orig m) : Mod.Keeps orig (Mod.markChannel m ch dirty) := by
  unfold Mod.markChannel
  with_reducible repeat' first
    | intro _ | assumption | (simp only [Keeps.mk_iff]; apply KeepsIn.of) | apply setCtl_keeps | apply Keeps.ite | split | dsimp only

theorem Mod.freeCluster_keeps {orig : Mod} {m : Mod} (c : Nat) (kept : Mod.Keeps orig m) : Mod.Keeps orig (Mod.freeCluster m c) := by
  unfold Mod.freeCluster
  with_reducible repeat' first
    | assumption | (simp only [Keeps.mk_iff]; apply KeepsIn.of) | apply scrubCluster_keeps | apply clearQueues_keeps | apply ownCluster_keeps
    | dsimp only

theorem Mod.freeChannel_keeps {orig : Mod} {m : Mod} (ch : Nat) (kept : Mod.Keeps orig m) : Mod.Keeps orig (Mod.freeChannel m ch) := by
  unfold Mod.freeChannel
  with_reducible repeat' first
    | intro _ | assumption | (simp only [Keeps.mk_iff]; apply KeepsIn.of) | apply scrubChannel_keeps | apply ownChannel_keeps
    | apply markChannel_keeps | apply Keeps.ite | split | dsimp only

theorem Mod.freePd_keeps {orig : Mod} {m : Mod} (a : Nat) (kept : Mod.Keeps orig m) : Mod.Keeps orig (Mod.freePd m a) := by
  unfold Mod.freePd
  with_reducible repeat' first
    | assumption | (simp only [Keeps.mk_iff]; apply KeepsIn.of) | apply setPdCore_keeps | apply scrubPd_keeps | dsimp only

theorem Mod.freeEngine_keeps {orig : Mod} {m : Mod} (e : Nat) (kept : Mod.Keeps orig m) : Mod.Keeps orig (Mod.freeEngine m e) := by
  unfold Mod.freeEngine
  with_reducible repeat' first
    | intro _ | assumption | (simp only [Keeps.mk_iff]; apply KeepsIn.of) | apply updEngine_keeps | apply scrubEngine_keeps | split | dsimp only

theorem Mod.setRegs_keeps {orig : Mod} {m : Mod} (sites : List Nat) (off : Nat) (dflt v : Word) (kept : Mod.Keeps orig m) : Mod.Keeps orig (Mod.setRegs m sites off dflt v) := by
  unfold Mod.setRegs
  with_reducible repeat' first
    | intro _ | assumption | (simp only [Keeps.mk_iff]; apply KeepsIn.of) | apply setReg_keeps | apply Keeps.foldl | split | dsimp only

theorem Mod.sectorState_keeps {orig : Mod} {m : Mod} (s st opcode : Nat) (kept : Mod.Keeps orig m) : Mod.Keeps orig (Mod.sectorState m s st opcode) := by
  unfold Mod.sectorState
  with_reducible repeat' first
    | assumption | (simp only [Keeps.mk_iff]; apply KeepsIn.of) | apply setSector_keeps | apply logEvent_keeps | dsimp only

theorem Mod.settleSector_keeps {orig : Mod} {m : Mod} (s : Nat) (kept : Mod.Keeps orig m) : Mod.Keeps orig (Mod.settleSector m s) := by
  unfold Mod.settleSector
  with_reducible repeat' first
    | intro _ | assumption | (simp only [Keeps.mk_iff]; apply KeepsIn.of) | apply setSector_keeps | apply dropKeys_keeps | apply sectorState_keeps
    | apply Keeps.ite | split | dsimp only

/-! ## Ops -/

theorem Mod.updFlight_keeps {orig : Mod} {m : Mod} (p : PktRef) (f : Flight → Flight) (kept : Mod.Keeps orig m) : Mod.Keeps orig (Mod.updFlight m p f) := by
  unfold Mod.updFlight
  with_reducible repeat' first
    | intro _ | assumption | (simp only [Keeps.mk_iff]; apply KeepsIn.of) | apply updQueue_keeps | apply Keeps.ite | split | dsimp only

theorem Mod.writeEntry_keeps {orig m n__ : Mod} {sector : Option SectorId} {addr : Nat} {k_ : List (Nat × List Byte)} (eq_ : Mod.writeEntry m sector addr k_ = .ok n__) (h : Mod.Keeps orig m) : Mod.Keeps orig n__ := by
  induction k_ generalizing m with
  | nil =>
    unfold Mod.writeEntry at eq_
    try dsimp only at eq_
    repeat' split at eq_
    all_goals (try (cases eq_))
    all_goals with_reducible repeat' first
      | intro _ | assumption | (refine ih (by assumption) ?_) | (simp only [Keeps.mk_iff]; apply KeepsIn.of) | apply rest_keeps | (refine writePhys_keeps (by assumption) ?_)
      | apply KeepsOr.ok | apply KeepsOr.error | apply KeepsOr.ite | split | dsimp only
  | cons q_ r_ ih =>
    unfold Mod.writeEntry at eq_
    try dsimp only at eq_
    repeat' split at eq_
    all_goals (try (cases eq_))
    all_goals with_reducible repeat' first
      | intro _ | assumption | (refine ih (by assumption) ?_) | (simp only [Keeps.mk_iff]; apply KeepsIn.of) | apply rest_keeps | (refine writePhys_keeps (by assumption) ?_)
      | apply KeepsOr.ok | apply KeepsOr.error | apply KeepsOr.ite | split | dsimp only

theorem Mod.putReply_keeps {orig m n__ : Mod} {q : QRef} {r : Reply} (eq_ : Mod.putReply m q r = some n__) (h : Mod.Keeps orig m) : Mod.Keeps orig n__ := by
  unfold Mod.putReply at eq_
  try dsimp only at eq_
  repeat' split at eq_
  all_goals (try (cases eq_))
  all_goals with_reducible repeat' first
    | intro _ | assumption | (simp only [Keeps.mk_iff]; apply KeepsIn.of) | apply updCluster_keeps | apply updQueue_keeps | apply emit_keeps
    | (refine writeEntry_keeps (by assumption) ?_) | apply Keeps.ite | apply Keeps.foldl | apply KeepsOr.ok | apply KeepsOr.error | apply KeepsOr.ite
    | split | dsimp only

theorem Mod.putReply_getD_keeps {orig m d_ : Mod} (q : QRef) (r : Reply) (h : Mod.Keeps orig m) (k : Mod.Keeps orig d_) : Mod.Keeps orig ((Mod.putReply m q r).getD d_) := by
  cases e_ : Mod.putReply m q r with
  | none => exact k
  | some n => exact Mod.putReply_keeps e_ h

theorem Mod.ringFault_keeps {orig : Mod} {m : Mod} (q : QRef) (kept : Mod.Keeps orig m) : Mod.Keeps orig (Mod.ringFault m q) := by
  unfold Mod.ringFault
  with_reducible repeat' first
    | intro _ | assumption | (simp only [Keeps.mk_iff]; apply KeepsIn.of) | apply recordAccess_keeps | apply Keeps.ite | apply KeepsOr.ok
    | apply KeepsOr.error | apply KeepsOr.ite | split | dsimp only

theorem Mod.writeReply_keeps {orig : Mod} {m : Mod} (q : QRef) (r : Reply) (kept : Mod.Keeps orig m) : Mod.Keeps orig (Mod.writeReply m q r) := by
  unfold Mod.writeReply
  with_reducible repeat' first
    | intro _ | assumption | (simp only [Keeps.mk_iff]; apply KeepsIn.of) | apply setQueue_keeps | (refine putReply_keeps (by assumption) ?_)
    | apply putReply_getD_keeps | apply ringFault_keeps | apply Keeps.ite | split | dsimp only

theorem Mod.remoteReply_keeps {orig : Mod} {m : Mod} (ix : BitVec 32) (r : Reply) (kept : Mod.Keeps orig m) : Mod.Keeps orig (Mod.remoteReply m ix r) := by
  unfold Mod.remoteReply
  with_reducible repeat' first
    | intro _ | assumption | (simp only [Keeps.mk_iff]; apply KeepsIn.of) | apply keeperSend_keeps | split | dsimp only

theorem Mod.reply_keeps {orig : Mod} {m : Mod} (p : PktRef) (status detail progress : Nat) (kept : Mod.Keeps orig m) : Mod.Keeps orig (Mod.reply m p status detail progress) := by
  unfold Mod.reply
  with_reducible repeat' first
    | intro _ | assumption | (simp only [Keeps.mk_iff]; apply KeepsIn.of) | apply updQueue_keeps | apply writeReply_keeps | apply remoteReply_keeps
    | apply Keeps.ite | split | dsimp only

theorem Mod.funcIgnored_keeps {orig : Mod} {m : Mod} (s : Nat) (kept : Mod.Keeps orig m) : Mod.Keeps orig (Mod.funcIgnored m s) := by
  unfold Mod.funcIgnored
  with_reducible repeat' first
    | assumption | (simp only [Keeps.mk_iff]; apply KeepsIn.of) | apply malformed_keeps | dsimp only

theorem Mod.adminAgain_keeps {orig : Mod} {m : Mod} (s : Nat) (q : QRef) (kept : Mod.Keeps orig m) : Mod.Keeps orig (Mod.adminAgain m s q) := by
  unfold Mod.adminAgain
  with_reducible repeat' first
    | intro _ | assumption | (simp only [Keeps.mk_iff]; apply KeepsIn.of) | apply setQueue_keeps | apply funcIgnored_keeps | apply Keeps.ite | split
    | dsimp only

theorem Mod.finishDisable_keeps {orig : Mod} {m : Mod} (q : QRef) (kept : Mod.Keeps orig m) : Mod.Keeps orig (Mod.finishDisable m q) := by
  unfold Mod.finishDisable
  with_reducible repeat' first
    | intro _ | assumption | (simp only [Keeps.mk_iff]; apply KeepsIn.of) | apply setQueue_keeps | apply updQueue_keeps | apply reply_keeps
    | apply adminAgain_keeps | apply Keeps.ite | apply Keeps.foldl | split | dsimp only

theorem Mod.settleQueue_keeps {orig : Mod} {m : Mod} (q : QRef) (kept : Mod.Keeps orig m) : Mod.Keeps orig (Mod.settleQueue m q) := by
  unfold Mod.settleQueue
  with_reducible repeat' first
    | intro _ | assumption | (simp only [Keeps.mk_iff]; apply KeepsIn.of) | apply settleSector_keeps | apply finishDisable_keeps | apply Keeps.ite
    | split | dsimp only

theorem Mod.settleQueues_keeps {b m : Mod} (fuel : Nat) (qs : List QRef) (h : Mod.Keeps b m) : Mod.Keeps b (m.settleQueues fuel qs) := by
  induction fuel generalizing m qs with
  | zero => exact h
  | succ n ih =>
    unfold Mod.settleQueues
    exact Mod.Keeps.ite (fun _ => h) (fun _ => ih _ (Mod.Keeps.foldl h (fun m q k => Mod.settleQueue_keeps q k)))

theorem Mod.replyNow_keeps {orig : Mod} {m : Mod} (p : PktRef) (status detail progress : Nat) (kept : Mod.Keeps orig m) : Mod.Keeps orig (Mod.replyNow m p status detail progress) := by
  unfold Mod.replyNow
  with_reducible repeat' first
    | assumption | (simp only [Keeps.mk_iff]; apply KeepsIn.of) | apply reply_keeps | apply settleQueues_keeps | dsimp only

theorem Mod.flushRead_keeps {orig m n__ : Mod} {what : FlushFor} {port pa : Nat} (eq_ : Mod.flushRead m what port pa = some n__) (h : Mod.Keeps orig m) : Mod.Keeps orig n__ := by
  unfold Mod.flushRead at eq_
  try dsimp only at eq_
  repeat' split at eq_
  all_goals (try (cases eq_))
  all_goals with_reducible repeat' first
    | intro _ | assumption | (simp only [Keeps.mk_iff]; apply KeepsIn.of) | apply emit_keeps | apply Keeps.ite | split | dsimp only

theorem Mod.flushRead_getD_keeps {orig m d_ : Mod} (what : FlushFor) (port pa : Nat) (h : Mod.Keeps orig m) (k : Mod.Keeps orig d_) : Mod.Keeps orig ((Mod.flushRead m what port pa).getD d_) := by
  cases e_ : Mod.flushRead m what port pa with
  | none => exact k
  | some n => exact Mod.flushRead_keeps e_ h

theorem Mod.flushPorts_keeps {orig m : Mod} (p : PktRef) (k_ : List (Nat × Nat)) (h : Mod.Keeps orig m) : Mod.Keeps orig (Mod.flushPorts m p k_) := by
  induction k_ generalizing m with
  | nil =>
    unfold Mod.flushPorts
    with_reducible repeat' first
      | intro _ | assumption | apply ih | (simp only [Keeps.mk_iff]; apply KeepsIn.of) | apply rest_keeps | apply updFlight_keeps
      | (refine flushRead_keeps (by assumption) ?_) | apply flushRead_getD_keeps | split | dsimp only
  | cons q_ r_ ih =>
    unfold Mod.flushPorts
    with_reducible repeat' first
      | intro _ | assumption | apply ih | (simp only [Keeps.mk_iff]; apply KeepsIn.of) | apply rest_keeps | apply updFlight_keeps
      | (refine flushRead_keeps (by assumption) ?_) | apply flushRead_getD_keeps | split | dsimp only

theorem Mod.flushEnd_keeps {orig : Mod} {m : Mod} (p : PktRef) (kept : Mod.Keeps orig m) : Mod.Keeps orig (Mod.flushEnd m p) := by
  unfold Mod.flushEnd
  with_reducible repeat' first
    | intro _ | assumption | (simp only [Keeps.mk_iff]; apply KeepsIn.of) | apply replyNow_keeps | apply flushPorts_keeps | apply Keeps.ite | split
    | dsimp only

theorem Mod.endCmd_keeps {orig : Mod} {m : Mod} (p : PktRef) (status detail progress : Nat) (kept : Mod.Keeps orig m) : Mod.Keeps orig (Mod.endCmd m p status detail progress) := by
  unfold Mod.endCmd
  with_reducible repeat' first
    | intro _ | assumption | (simp only [Keeps.mk_iff]; apply KeepsIn.of) | apply updFlight_keeps | apply replyNow_keeps | apply flushEnd_keeps
    | apply Keeps.ite | split | dsimp only

theorem Mod.noteWrites_keeps {orig : Mod} {m : Mod} (p : PktRef) (ws : List (Nat × Nat)) (kept : Mod.Keeps orig m) : Mod.Keeps orig (Mod.noteWrites m p ws) := by
  unfold Mod.noteWrites
  with_reducible repeat' first
    | intro _ | assumption | (simp only [Keeps.mk_iff]; apply KeepsIn.of) | apply updFlight_keeps | apply Keeps.ite | apply Keeps.foldl | split
    | dsimp only

theorem Mod.running_keeps {orig : Mod} {m : Mod} (p : PktRef) (w : Work) (kept : Mod.Keeps orig m) : Mod.Keeps orig (Mod.running m p w) := by
  unfold Mod.running
  with_reducible repeat' first
    | intro _ | assumption | (simp only [Keeps.mk_iff]; apply KeepsIn.of) | apply updFlight_keeps | split | dsimp only

theorem Mod.checked_keeps {b m : Mod} (p : PktRef) (fault : Option (Nat × Nat)) (act : Mod) (h : Mod.Keeps b m) (k : Mod.Keeps b act) :
    Mod.Keeps b (m.checked p fault act) := by
  unfold Mod.checked
  split
  · exact Mod.endCmd_keeps _ _ _ _ h
  · exact k

theorem Mod.command_keeps {b m : Mod} (p : PktRef) (opc : Nat) (act : List Word → Mod) (h : Mod.Keeps b m) (k : ∀ ws, Mod.Keeps b (act ws)) :
    Mod.Keeps b (m.command p opc act) := by
  unfold Mod.command
  split
  · exact k _
  · exact h

theorem Mod.sendPost_keeps {orig : Mod} {m : Mod} (target : BitVec 18) (incr : Nat) (sector : Option SectorId) (kept : Mod.Keeps orig m) : Mod.Keeps orig (Mod.sendPost m target incr sector) := by
  unfold Mod.sendPost
  with_reducible repeat' first
    | assumption | (simp only [Keeps.mk_iff]; apply KeepsIn.of) | dsimp only

/-! ## Cores -/

theorem Mod.coreNext_keeps {orig : Mod} {m : Mod} (id : Nat) (kept : Mod.Keeps orig m) : Mod.Keeps orig (Mod.coreNext m id) := by
  unfold Mod.coreNext
  with_reducible repeat' first
    | intro _ | assumption | (simp only [Keeps.mk_iff]; apply KeepsIn.of) | apply setCore_keeps | apply Keeps.ite | split | dsimp only

theorem Mod.releaseHold_keeps {orig : Mod} {m : Mod} (q : QRef) (cores : List Nat) (ends : BitVec 32 → Bool) (kept : Mod.Keeps orig m) : Mod.Keeps orig (Mod.releaseHold m q cores ends) := by
  unfold Mod.releaseHold
  with_reducible repeat' first
    | intro _ | assumption | (simp only [Keeps.mk_iff]; apply KeepsIn.of) | apply updCore_keeps | apply updFlight_keeps | apply endCmd_keeps
    | apply coreNext_keeps | apply Keeps.ite | apply Keeps.foldl | split | dsimp only

theorem Mod.launchReply_keeps {orig : Mod} {m : Mod} (p : PktRef) (mask ended lost : BitVec 8) (faulted : List (Nat × Nat)) (ctx : Bool) (kept : Mod.Keeps orig m) : Mod.Keeps orig (Mod.launchReply m p mask ended lost faulted ctx) := by
  unfold Mod.launchReply
  with_reducible repeat' first
    | intro _ | assumption | (simp only [Keeps.mk_iff]; apply KeepsIn.of) | apply endCmd_keeps | apply releaseHold_keeps | apply Keeps.ite
    | apply Keeps.foldl | split | dsimp only

theorem Mod.launchCore_keeps {orig : Mod} {m : Mod} (p : PktRef) (k : Nat) (e : CoreEnd) (kept : Mod.Keeps orig m) : Mod.Keeps orig (Mod.launchCore m p k e) := by
  unfold Mod.launchCore
  with_reducible repeat' first
    | intro _ | assumption | (simp only [Keeps.mk_iff]; apply KeepsIn.of) | apply updFlight_keeps | apply launchReply_keeps | apply Keeps.ite | split
    | dsimp only

theorem Mod.coreFaultBy_keeps {orig : Mod} {m : Mod} (id : Nat) (code trap pc : Nat) (injected : Bool) (kept : Mod.Keeps orig m) : Mod.Keeps orig (Mod.coreFaultBy m id code trap pc injected) := by
  unfold Mod.coreFaultBy
  with_reducible repeat' first
    | intro _ | assumption | (simp only [Keeps.mk_iff]; apply KeepsIn.of) | apply setCore_keeps | apply record_keeps | apply reportAs_keeps
    | apply launchCore_keeps | apply Keeps.ite | split | dsimp only

theorem Mod.coreFault_keeps {orig : Mod} {m : Mod} (id : Nat) (code trap pc : Nat) (kept : Mod.Keeps orig m) : Mod.Keeps orig (Mod.coreFault m id code trap pc) := by
  unfold Mod.coreFault
  with_reducible repeat' first
    | assumption | (simp only [Keeps.mk_iff]; apply KeepsIn.of) | apply coreFaultBy_keeps | dsimp only

theorem Mod.retire_keeps {orig : Mod} {m : Mod} (id : Nat) (c : TCore) (pc : Nat) (kept : Mod.Keeps orig m) : Mod.Keeps orig (Mod.retire m id c pc) := by
  unfold Mod.retire
  with_reducible repeat' first
    | intro _ | assumption | (simp only [Keeps.mk_iff]; apply KeepsIn.of) | apply setCore_keeps | apply coreFault_keeps | apply Keeps.ite | split
    | dsimp only

theorem Mod.issue_keeps {orig : Mod} {m : Mod} (id : CoreId) (i : Instr) (f : TCore → TCore) (kept : Mod.Keeps orig m) : Mod.Keeps orig (Mod.issue m id i f) := by
  unfold Mod.issue
  with_reducible repeat' first
    | intro _ | assumption | (simp only [Keeps.mk_iff]; apply KeepsIn.of) | apply retire_keeps | apply Keeps.ite | split | dsimp only

theorem Mod.branch_keeps {orig : Mod} {m : Mod} (id : CoreId) (i : Instr) (imm : BitVec 32) (f : TCore → TCore) (taken : TCore → Bool) (kept : Mod.Keeps orig m) : Mod.Keeps orig (Mod.branch m id i imm f taken) := by
  unfold Mod.branch
  with_reducible repeat' first
    | intro _ | assumption | (simp only [Keeps.mk_iff]; apply KeepsIn.of) | apply retire_keeps | apply Keeps.ite | split | dsimp only

theorem Mod.preemptPoint_keeps {orig : Mod} {m : Mod} (q : QRef) (kept : Mod.Keeps orig m) : Mod.Keeps orig (Mod.preemptPoint m q) := by
  unfold Mod.preemptPoint
  with_reducible repeat' first
    | intro _ | assumption | (simp only [Keeps.mk_iff]; apply KeepsIn.of) | apply updFlight_keeps | apply Keeps.ite | apply Keeps.foldl | split
    | dsimp only

theorem Mod.finishKernel_keeps {orig : Mod} {m : Mod} (id : Nat) (kept : Mod.Keeps orig m) : Mod.Keeps orig (Mod.finishKernel m id) := by
  unfold Mod.finishKernel
  with_reducible repeat' first
    | intro _ | assumption | (simp only [Keeps.mk_iff]; apply KeepsIn.of) | apply setCore_keeps | apply coreNext_keeps | apply launchCore_keeps
    | apply preemptPoint_keeps | split | dsimp only

theorem Mod.settleCore_keeps {orig : Mod} {m : Mod} (id : Nat) (kept : Mod.Keeps orig m) : Mod.Keeps orig (Mod.settleCore m id) := by
  unfold Mod.settleCore
  with_reducible repeat' first
    | intro _ | assumption | (simp only [Keeps.mk_iff]; apply KeepsIn.of) | apply setCore_keeps | apply running_keeps | apply retire_keeps
    | apply finishKernel_keeps | apply Keeps.ite | split | dsimp only

theorem Mod.recordPost_keeps {orig : Mod} {m : Mod} (id code : Nat) (sector : Option SectorId) (kept : Mod.Keeps orig m) : Mod.Keeps orig (Mod.recordPost m id code sector) := by
  unfold Mod.recordPost
  with_reducible repeat' first
    | assumption | (simp only [Keeps.mk_iff]; apply KeepsIn.of) | apply record_keeps | dsimp only

theorem Mod.takePosts_keeps {orig m : Mod} (id : Nat) (k_ : List Post) (h : Mod.Keeps orig m) : Mod.Keeps orig (Mod.takePosts m id k_).1 := by
  induction k_ generalizing m with
  | nil =>
    unfold Mod.takePosts
    with_reducible repeat' first
      | intro _ | assumption | apply ih | (simp only [Keeps.mk_iff]; apply KeepsIn.of) | apply rest_keeps | apply recordPost_keeps | apply Keeps.ite | split
      | dsimp only
  | cons q_ r_ ih =>
    unfold Mod.takePosts
    with_reducible repeat' first
      | intro _ | assumption | apply ih | (simp only [Keeps.mk_iff]; apply KeepsIn.of) | apply rest_keeps | apply recordPost_keeps | apply Keeps.ite | split
      | dsimp only

theorem Mod.arrive_keeps {orig : Mod} {m : Mod} (target : BitVec 18) (n : Nat) (kept : Mod.Keeps orig m) : Mod.Keeps orig (Mod.arrive m target n) := by
  unfold Mod.arrive
  with_reducible repeat' first
    | intro _ | assumption | (simp only [Keeps.mk_iff]; apply KeepsIn.of) | apply setCore_keeps | apply updCore_keeps | apply coreFault_keeps
    | apply recordPost_keeps | apply takePosts_keeps | apply Keeps.ite | split | dsimp only

/-! ## Scalar -/

theorem Mod.scalar_keeps {orig : Mod} {m : Mod} (id : CoreId) (i : Instr) (d : Reg) (v : TCore → Word) (kept : Mod.Keeps orig m) : Mod.Keeps orig (Mod.scalar m id i d v) := by
  unfold Mod.scalar
  with_reducible repeat' first
    | intro _ | assumption | (simp only [Keeps.mk_iff]; apply KeepsIn.of) | apply setReg_keeps | apply issue_keeps | split | dsimp only

/-! ## Token -/

theorem Mod.kernelPost_keeps {orig : Mod} {m : Mod} (id : CoreId) (c : TCore) (target : BitVec 18) (incr : Nat) (nomw : Bool) (kept : Mod.Keeps orig m) : Mod.Keeps orig (Mod.kernelPost m id c target incr nomw) := by
  unfold Mod.kernelPost
  with_reducible repeat' first
    | intro _ | assumption | (simp only [Keeps.mk_iff]; apply KeepsIn.of) | apply sendPost_keeps | apply retire_keeps | apply Keeps.ite | split
    | dsimp only

/-! ## Moves -/

theorem Mod.moveFault_keeps {orig : Mod} {m : Mod} (id pc : Nat) (e : MoveErr) (kept : Mod.Keeps orig m) : Mod.Keeps orig (Mod.moveFault m id pc e) := by
  unfold Mod.moveFault
  with_reducible repeat' first
    | intro _ | assumption | (simp only [Keeps.mk_iff]; apply KeepsIn.of) | apply recordAccess_keeps | apply coreFaultBy_keeps
    | apply coreFault_keeps | split | dsimp only

theorem Mod.readDesc_keeps {orig m : Mod} (sector : Option SectorId) (addr : Nat) (h : Mod.Keeps orig m) : Mod.Keeps orig (Mod.readDesc m sector addr).1 := by
  unfold Mod.readDesc
  with_reducible repeat' first
    | intro _ | assumption | (simp only [Keeps.mk_iff]; apply KeepsIn.of) | apply touchRead_keeps | apply Keeps.ite | apply KeepsOr.ok
    | apply KeepsOr.error | apply KeepsOr.ite | split | dsimp only

theorem Mod.listJob_keeps {orig m : Mod} (sector : Option SectorId) (serial pc addr : Nat) (post : Option Nat) (h : Mod.Keeps orig m) : Mod.Keeps orig (Mod.listJob m sector serial pc addr post).1 := by
  unfold Mod.listJob
  with_reducible repeat' first
    | intro _ | assumption | (simp only [Keeps.mk_iff]; apply KeepsIn.of) | apply readDesc_keeps | apply KeepsOr.ok | apply KeepsOr.error
    | apply KeepsOr.ite | split | dsimp only

theorem Mod.queueMove_keeps {orig : Mod} {m : Mod} (id : CoreId) (i : Instr) (touch : Touch) (f : TCore → Except MoveErr MoveJob) (kept : Mod.Keeps orig m) : Mod.Keeps orig (Mod.queueMove m id i touch f) := by
  unfold Mod.queueMove
  with_reducible repeat' first
    | intro _ | assumption | (simp only [Keeps.mk_iff]; apply KeepsIn.of) | apply retire_keeps | apply moveFault_keeps | apply Keeps.ite
    | apply KeepsOr.ok | apply KeepsOr.error | apply KeepsOr.ite | split | dsimp only

theorem Mod.cmdMoveFail_keeps {orig : Mod} {m : Mod} (p : PktRef) (e : MoveErr) (index progress : Nat) (kept : Mod.Keeps orig m) : Mod.Keeps orig (Mod.cmdMoveFail m p e index progress) := by
  unfold Mod.cmdMoveFail
  with_reducible repeat' first
    | intro _ | assumption | (simp only [Keeps.mk_iff]; apply KeepsIn.of) | apply recordAccess_keeps | apply endCmd_keeps | apply Keeps.ite | split
    | dsimp only

/-! ## Matrix -/

theorem Mod.matrix_keeps {orig : Mod} {m : Mod} (id : CoreId) (i : Instr) (op : MatOp) (x : MatArgs) (ok : MatJob → Bool) (kept : Mod.Keeps orig m) : Mod.Keeps orig (Mod.matrix m id i op x ok) := by
  unfold Mod.matrix
  with_reducible repeat' first
    | intro _ | assumption | (simp only [Keeps.mk_iff]; apply KeepsIn.of) | apply coreFault_keeps | apply retire_keeps | apply Keeps.ite | split
    | dsimp only

theorem Mod.matRetire_keeps {orig : Mod} {m : Mod} (id : CoreId) (kept : Mod.Keeps orig m) : Mod.Keeps orig (Mod.matRetire m id) := by
  unfold Mod.matRetire
  with_reducible repeat' first
    | intro _ | assumption | (simp only [Keeps.mk_iff]; apply KeepsIn.of) | apply setCore_keeps | apply rest_keeps | apply coreFault_keeps
    | apply settleCore_keeps | apply Keeps.ite | split | dsimp only

/-! ## Vector -/

theorem runGroups_keeps {b m : Mod} (id : CoreId) (f : Mod → Nat → VecStep) (l : List Nat) (h : Mod.Keeps b m)
    (k : ∀ m g, Mod.Keeps b m → Mod.KeepsOr b (f m g)) : Mod.KeepsOr b (runGroups m id f l) := by
  induction l generalizing m with
  | nil => exact h
  | cons g rest ih =>
    unfold runGroups
    have := k m g h
    split
    · rename_i e; rw [e] at this; exact this
    · rename_i e; rw [e] at this; exact ih (Mod.updCore_keeps _ _ this)

theorem Mod.vector_keeps {b m : Mod} (id : CoreId) (i : Instr) (touch : Touch) (f : Mod → VecStep) (h : Mod.Keeps b m)
    (k : ∀ m, Mod.Keeps b m → Mod.KeepsOr b (f m)) : Mod.Keeps b (m.vector id i touch f) := by
  unfold Mod.vector
  with_reducible repeat' first
    | intro _ | assumption | (simp only [Keeps.mk_iff]; apply KeepsIn.of) | apply coreFault_keeps | apply retire_keeps
    | (refine KeepsOr.of_ok (by assumption) (k _ ?_)) | (refine KeepsOr.of_error (by assumption) (k _ ?_)) | apply Keeps.ite | split | dsimp only

theorem Mod.overGroups_keeps {b m : Mod} (id : CoreId) (free : Bool) (f : Mod → Nat → VecStep) (h : Mod.Keeps b m)
    (k : ∀ m g, Mod.Keeps b m → Mod.KeepsOr b (f m g)) : Mod.KeepsOr b (m.overGroups id free f) := by
  unfold Mod.overGroups
  dsimp only
  refine Mod.KeepsOr.ite (fun _ => runGroups_keeps _ _ _ ?_ k) (fun _ => runGroups_keeps _ _ _ h k)
  simp only [Mod.Keeps.mk_iff]
  exact Mod.KeepsIn.of h

theorem Mod.groupOp_keeps {b m : Mod} (id : CoreId) (i : Instr) (v : VecArgs) (touch : Touch) (free : Bool) (f : Mod → Nat → VecStep)
    (h : Mod.Keeps b m) (k : ∀ m g, Mod.Keeps b m → Mod.KeepsOr b (f m g)) : Mod.Keeps b (m.groupOp id i v touch free f) := by
  unfold Mod.groupOp
  refine Mod.vector_keeps _ _ _ _ h (fun m hm => Mod.overGroups_keeps _ _ _ hm (fun m g hg => ?_))
  exact Mod.KeepsOr.ite (fun _ => hg) (fun _ => k _ _ hg)

theorem Mod.slotWrite_keeps {orig : Mod} {m : Mod} (id : CoreId) (i : Instr) (v : VecArgs) (f : TCore → Nat → Option (Nat → Half)) (kept : Mod.Keeps orig m) : Mod.Keeps orig (Mod.slotWrite m id i v f) := by
  unfold Mod.slotWrite
  with_reducible repeat' first
    | intro _ | assumption | (simp only [Keeps.mk_iff]; apply KeepsIn.of) | apply setCore_keeps | apply groupOp_keeps | apply Keeps.ite
    | apply KeepsOr.ok | apply KeepsOr.error | apply KeepsOr.ite | split | dsimp only

theorem Mod.elementwise_keeps {orig : Mod} {m : Mod} (id : CoreId) (i : Instr) (v : VecArgs) (f : Nat → Half → Half → Half → Half) (kept : Mod.Keeps orig m) : Mod.Keeps orig (Mod.elementwise m id i v f) := by
  unfold Mod.elementwise
  with_reducible repeat' first
    | intro _ | assumption | (simp only [Keeps.mk_iff]; apply KeepsIn.of) | apply slotWrite_keeps | split | dsimp only

theorem Mod.division_keeps {orig : Mod} {m : Mod} (id : CoreId) (i : Instr) (v : VecArgs) (f : Bool → Half → Half → Half) (kept : Mod.Keeps orig m) : Mod.Keeps orig (Mod.division m id i v f) := by
  unfold Mod.division
  with_reducible repeat' first
    | intro _ | assumption | (simp only [Keeps.mk_iff]; apply KeepsIn.of) | apply slotWrite_keeps | apply Keeps.ite | split | dsimp only

theorem Mod.funcOp_keeps {orig : Mod} {m : Mod} (id : CoreId) (i : Instr) (v : VecArgs) (f : Func) (kept : Mod.Keeps orig m) : Mod.Keeps orig (Mod.funcOp m id i v f) := by
  unfold Mod.funcOp
  with_reducible repeat' first
    | intro _ | assumption | (simp only [Keeps.mk_iff]; apply KeepsIn.of) | apply elementwise_keeps | split | dsimp only

theorem Mod.tileLoad_keeps {orig : Mod} {m : Mod} (id : CoreId) (i : Instr) (v : VecArgs) (touch : Touch) (addr : TCore → Nat → Nat → Nat) (kept : Mod.Keeps orig m) : Mod.Keeps orig (Mod.tileLoad m id i v touch addr) := by
  unfold Mod.tileLoad
  with_reducible repeat' first
    | intro _ | assumption | (simp only [Keeps.mk_iff]; apply KeepsIn.of) | apply setCore_keeps | apply groupOp_keeps | apply Keeps.ite
    | apply KeepsOr.ok | apply KeepsOr.error | apply KeepsOr.ite | split | dsimp only

theorem Mod.tileStore_keeps {orig : Mod} {m : Mod} (id : CoreId) (i : Instr) (v : VecArgs) (touch : Touch) (addr : TCore → Nat → Nat → Nat) (data : TCore → Nat → Nat → Half) (kept : Mod.Keeps orig m) : Mod.Keeps orig (Mod.tileStore m id i v touch addr data) := by
  unfold Mod.tileStore
  with_reducible repeat' first
    | intro _ | assumption | (simp only [Keeps.mk_iff]; apply KeepsIn.of) | apply setCore_keeps | apply groupOp_keeps | apply Keeps.ite
    | apply KeepsOr.ok | apply KeepsOr.error | apply KeepsOr.ite | split | dsimp only

theorem Mod.atomCheck_keeps {orig m n__ : Mod} {id : CoreId} {sector : Option SectorId} {k_ : List Nat} {x0_ : Nat} (eq_ : Mod.atomCheck m id sector k_ = some (x0_, n__)) (h : Mod.Keeps orig m) : Mod.Keeps orig n__ := by
  induction k_ generalizing m x0_ with
  | nil =>
    unfold Mod.atomCheck at eq_
    try dsimp only at eq_
    repeat' split at eq_
    all_goals (first | (cases eq_) | (try (have q_ := congrArg Prod.fst (Option.some.inj eq_); dsimp only at q_; subst q_)))
    all_goals with_reducible repeat' first
      | intro _ | assumption | (refine ih (by assumption) ?_) | (simp only [Keeps.mk_iff]; apply KeepsIn.of) | apply recordAccess_keeps | apply rest_keeps | apply Keeps.ite
      | apply KeepsOr.ok | apply KeepsOr.error | apply KeepsOr.ite | split | dsimp only
  | cons q_ r_ ih =>
    unfold Mod.atomCheck at eq_
    try dsimp only at eq_
    repeat' split at eq_
    all_goals (first | (cases eq_) | (try (have q_ := congrArg Prod.fst (Option.some.inj eq_); dsimp only at q_; subst q_)))
    all_goals with_reducible repeat' first
      | intro _ | assumption | (refine ih (by assumption) ?_) | (simp only [Keeps.mk_iff]; apply KeepsIn.of) | apply recordAccess_keeps | apply rest_keeps | apply Keeps.ite
      | apply KeepsOr.ok | apply KeepsOr.error | apply KeepsOr.ite | split | dsimp only

theorem Mod.atomCombined_keeps {orig m : Mod} (sector : Option SectorId) (kind ty a : Nat) (vals : List (Nat × Half)) (h : Mod.Keeps orig m) : Mod.Keeps orig (Mod.atomCombined m sector kind ty a vals).1 := by
  unfold Mod.atomCombined
  with_reducible repeat' first
    | intro _ | assumption | (simp only [Keeps.mk_iff]; apply KeepsIn.of) | (refine homeAtomic_keeps (by assumption) ?_) | apply KeepsOr.ok
    | apply KeepsOr.error | apply KeepsOr.ite | split | dsimp only

theorem Mod.atomSingles_keeps {orig m : Mod} (sector : Option SectorId) (op : AtomOp) (k_ : List (Nat × Nat × Half × Half)) (h : Mod.Keeps orig m) : Mod.Keeps orig (Mod.atomSingles m sector op k_).1 := by
  induction k_ generalizing m with
  | nil =>
    unfold Mod.atomSingles
    with_reducible repeat' first
      | intro _ | assumption | apply ih | (simp only [Keeps.mk_iff]; apply KeepsIn.of) | apply rest_keeps | (refine homeAtomic_keeps (by assumption) ?_)
      | apply KeepsOr.ok | apply KeepsOr.error | apply KeepsOr.ite | split | dsimp only
  | cons q_ r_ ih =>
    unfold Mod.atomSingles
    with_reducible repeat' first
      | intro _ | assumption | apply ih | (simp only [Keeps.mk_iff]; apply KeepsIn.of) | apply rest_keeps | (refine homeAtomic_keeps (by assumption) ?_)
      | apply KeepsOr.ok | apply KeepsOr.error | apply KeepsOr.ite | split | dsimp only

theorem Mod.noteAtoms_keeps {orig : Mod} {m : Mod} (c : TCore) (as : List Nat) (kept : Mod.Keeps orig m) : Mod.Keeps orig (Mod.noteAtoms m c as) := by
  unfold Mod.noteAtoms
  with_reducible repeat' first
    | intro _ | assumption | (simp only [Keeps.mk_iff]; apply KeepsIn.of) | apply noteWrites_keeps | apply KeepsOr.ok | apply KeepsOr.error
    | apply KeepsOr.ite | split | dsimp only

theorem Mod.vatom_keeps {b m : Mod} (id : CoreId) (i : Instr) (v : VecArgs) (f : TCore → Nat → Mod → Mod × List (Nat × Half)) (h : Mod.Keeps b m)
    (k : ∀ c g m, Mod.Keeps b m → Mod.Keeps b (f c g m).1) : Mod.Keeps b (m.vatom id i v f) := by
  unfold Mod.vatom
  with_reducible repeat' first
    | intro _ | assumption | (simp only [Keeps.mk_iff]; apply KeepsIn.of) | apply groupOp_keeps | apply noteAtoms_keeps | apply updCore_keeps | apply k
    | apply chargeAll_keeps | (refine atomCheck_keeps (by assumption) ?_) | apply Keeps.ite | apply KeepsOr.ok | apply KeepsOr.error | apply KeepsOr.ite
    | split | dsimp only

theorem Mod.atomGroups_keeps {orig m : Mod} (c : TCore) (v : VecArgs) (g kind : Nat) (k_ : List (Nat × List Nat)) (h : Mod.Keeps orig m) : Mod.Keeps orig (Mod.atomGroups m c v g kind k_).1 := by
  induction k_ generalizing m with
  | nil =>
    unfold Mod.atomGroups
    with_reducible repeat' first
      | intro _ | assumption | apply ih | (simp only [Keeps.mk_iff]; apply KeepsIn.of) | apply rest_keeps | apply atomCombined_keeps | split | dsimp only
  | cons q_ r_ ih =>
    unfold Mod.atomGroups
    with_reducible repeat' first
      | intro _ | assumption | apply ih | (simp only [Keeps.mk_iff]; apply KeepsIn.of) | apply rest_keeps | apply atomCombined_keeps | split | dsimp only

theorem Mod.vatomCombine_keeps {orig : Mod} {m : Mod} (id : CoreId) (i : Instr) (kind : Nat) (v : VecArgs) (kept : Mod.Keeps orig m) : Mod.Keeps orig (Mod.vatomCombine m id i kind v) := by
  unfold Mod.vatomCombine
  with_reducible repeat' first
    | intro _ | assumption | (simp only [Keeps.mk_iff]; apply KeepsIn.of) | apply vatom_keeps | apply atomGroups_keeps | split | dsimp only

theorem Mod.maskOp_keeps {orig : Mod} {m : Mod} (id : CoreId) (i : Instr) (f : Group → Option Group) (kept : Mod.Keeps orig m) : Mod.Keeps orig (Mod.maskOp m id i f) := by
  unfold Mod.maskOp
  with_reducible repeat' first
    | intro _ | assumption | (simp only [Keeps.mk_iff]; apply KeepsIn.of) | apply setCore_keeps | apply vector_keeps | apply overGroups_keeps
    | (refine KeepsOr.of_ok (by assumption) (overGroups_keeps _ _ _ ?_ ?_))
    | (refine KeepsOr.of_error (by assumption) (overGroups_keeps _ _ _ ?_ ?_)) | apply KeepsOr.ok | apply KeepsOr.error | apply KeepsOr.ite | split
    | dsimp only

theorem Mod.engineOp_keeps {orig : Mod} {m : Mod} (id : CoreId) (i : Instr) (touch : Touch) (f : TCore → Except Nat TCore) (kept : Mod.Keeps orig m) : Mod.Keeps orig (Mod.engineOp m id i touch f) := by
  unfold Mod.engineOp
  with_reducible repeat' first
    | intro _ | assumption | (simp only [Keeps.mk_iff]; apply KeepsIn.of) | apply setCore_keeps | apply vector_keeps | apply KeepsOr.ok
    | apply KeepsOr.error | apply KeepsOr.ite | split | dsimp only

theorem Mod.packOp_keeps {orig : Mod} {m : Mod} (id : CoreId) (i : Instr) (op : Nat) (v : VecArgs) (kept : Mod.Keeps orig m) : Mod.Keeps orig (Mod.packOp m id i op v) := by
  unfold Mod.packOp
  with_reducible repeat' first
    | intro _ | assumption | (simp only [Keeps.mk_iff]; apply KeepsIn.of) | apply engineOp_keeps | apply Keeps.ite | apply KeepsOr.ok
    | apply KeepsOr.error | apply KeepsOr.ite | split | dsimp only

theorem Mod.packPerform_keeps {orig : Mod} {m : Mod} (id : CoreId) (p : PackJob) (kept : Mod.Keeps orig m) : Mod.Keeps orig (Mod.packPerform m id p) := by
  unfold Mod.packPerform
  with_reducible repeat' first
    | intro _ | assumption | (simp only [Keeps.mk_iff]; apply KeepsIn.of) | apply setCore_keeps | apply coreFault_keeps | apply settleCore_keeps
    | apply Keeps.ite | split | dsimp only

theorem Mod.vecRetire_keeps {orig : Mod} {m : Mod} (id : CoreId) (kept : Mod.Keeps orig m) : Mod.Keeps orig (Mod.vecRetire m id) := by
  unfold Mod.vecRetire
  with_reducible repeat' first
    | intro _ | assumption | (simp only [Keeps.mk_iff]; apply KeepsIn.of) | apply setCore_keeps | apply settleCore_keeps | apply packPerform_keeps
    | split | dsimp only

/-! ## Kernel -/

theorem Mod.imageFail_keeps {orig : Mod} {m : Mod} (p : PktRef) (site unit : Nat) (e : AccErr) (addr : Nat) (kept : Mod.Keeps orig m) : Mod.Keeps orig (Mod.imageFail m p site unit e addr) := by
  unfold Mod.imageFail
  with_reducible repeat' first
    | assumption | (simp only [Keeps.mk_iff]; apply KeepsIn.of) | apply recordAccess_keeps | apply endCmd_keeps | dsimp only

theorem Mod.loadKernel_keeps {orig : Mod} {m : Mod} (p : PktRef) (cl slot image : Nat) (kept : Mod.Keeps orig m) : Mod.Keeps orig (Mod.loadKernel m p cl slot image) := by
  unfold Mod.loadKernel
  with_reducible repeat' first
    | intro _ | assumption | (simp only [Keeps.mk_iff]; apply KeepsIn.of) | apply updCluster_keeps | apply touchRead_keeps | apply endCmd_keeps
    | apply imageFail_keeps | apply Keeps.ite | apply KeepsOr.ok | apply KeepsOr.error | apply KeepsOr.ite | split | dsimp only

theorem Mod.launchOn_keeps {orig : Mod} {m : Mod} (id : Nat) (l : LaunchWait) (kept : Mod.Keeps orig m) : Mod.Keeps orig (Mod.launchOn m id l) := by
  unfold Mod.launchOn
  with_reducible repeat' first
    | intro _ | assumption | (simp only [Keeps.mk_iff]; apply KeepsIn.of) | apply setCore_keeps | apply updCore_keeps | apply coreNext_keeps
    | apply Keeps.ite | split | dsimp only

theorem Mod.beginMove_keeps {orig : Mod} {m : Mod} (p : PktRef) (ws : List Word) (op : Nat) (kept : Mod.Keeps orig m) : Mod.Keeps orig (Mod.beginMove m p ws op) := by
  unfold Mod.beginMove
  with_reducible repeat' first
    | intro _ | assumption | (simp only [Keeps.mk_iff]; apply KeepsIn.of) | apply updFlight_keeps | apply endCmd_keeps | apply running_keeps
    | apply cmdMoveFail_keeps | apply Keeps.ite | split | dsimp only

/-! ## Preempt -/

theorem Mod.preempted_keeps {orig : Mod} {m : Mod} (id : Nat) (kept : Mod.Keeps orig m) : Mod.Keeps orig (Mod.preempted m id) := by
  unfold Mod.preempted
  with_reducible repeat' first
    | intro _ | assumption | (simp only [Keeps.mk_iff]; apply KeepsIn.of) | apply updQueue_keeps | apply preemptPoint_keeps | apply Keeps.ite | split
    | dsimp only

theorem Mod.reportCore_keeps {orig : Mod} {m : Mod} (id : Nat) (kept : Mod.Keeps orig m) : Mod.Keeps orig (Mod.reportCore m id) := by
  unfold Mod.reportCore
  with_reducible repeat' first
    | intro _ | assumption | (simp only [Keeps.mk_iff]; apply KeepsIn.of) | apply report_keeps | apply Keeps.ite | split | dsimp only

theorem Mod.writeParts_keeps {orig m n__ : Mod} {sector : Option SectorId} {base : Nat} {k_ : List (Nat × List Byte)} (eq_ : Mod.writeParts m sector base k_ = .ok n__) (h : Mod.Keeps orig m) : Mod.Keeps orig n__ := by
  induction k_ generalizing m with
  | nil =>
    unfold Mod.writeParts at eq_
    try dsimp only at eq_
    repeat' split at eq_
    all_goals (try (cases eq_))
    all_goals with_reducible repeat' first
      | intro _ | assumption | (refine ih (by assumption) ?_) | (simp only [Keeps.mk_iff]; apply KeepsIn.of) | apply rest_keeps | (refine writePhys_keeps (by assumption) ?_)
      | apply KeepsOr.ok | apply KeepsOr.error | apply KeepsOr.ite | split | dsimp only
  | cons q_ r_ ih =>
    unfold Mod.writeParts at eq_
    try dsimp only at eq_
    repeat' split at eq_
    all_goals (try (cases eq_))
    all_goals with_reducible repeat' first
      | intro _ | assumption | (refine ih (by assumption) ?_) | (simp only [Keeps.mk_iff]; apply KeepsIn.of) | apply rest_keeps | (refine writePhys_keeps (by assumption) ?_)
      | apply KeepsOr.ok | apply KeepsOr.error | apply KeepsOr.ite | split | dsimp only

theorem Mod.contextFault_keeps {orig : Mod} {m : Mod} (id pc : Nat) (launch : Option PktRef) (e : AccErr) (addr : Nat) (kept : Mod.Keeps orig m) : Mod.Keeps orig (Mod.contextFault m id pc launch e addr) := by
  unfold Mod.contextFault
  with_reducible repeat' first
    | intro _ | assumption | (simp only [Keeps.mk_iff]; apply KeepsIn.of) | apply setCore_keeps | apply record_keeps | apply recordAccess_keeps
    | apply launchCore_keeps | apply reportCore_keeps | split | dsimp only

/-! ## Sets -/

theorem Mod.emptySet_keeps {orig : Mod} {m : Mod} (i : Nat) (kept : Mod.Keeps orig m) : Mod.Keeps orig (Mod.emptySet m i) := by
  unfold Mod.emptySet
  with_reducible repeat' first
    | assumption | (simp only [Keeps.mk_iff]; apply KeepsIn.of) | apply setSet_keeps | dsimp only

theorem Mod.leaveSet_keeps {orig : Mod} {m : Mod} (i sub status detail progress : Nat) (kept : Mod.Keeps orig m) : Mod.Keeps orig (Mod.leaveSet m i sub status detail progress) := by
  unfold Mod.leaveSet
  with_reducible repeat' first
    | intro _ | assumption | (simp only [Keeps.mk_iff]; apply KeepsIn.of) | apply logEvent_keeps | apply updFlight_keeps | apply endCmd_keeps
    | apply emptySet_keeps | split | dsimp only

theorem Mod.dropSets_keeps {orig : Mod} {m : Mod} (sub status : Nat) (which : StagedSet → Bool) (kept : Mod.Keeps orig m) : Mod.Keeps orig (Mod.dropSets m sub status which) := by
  unfold Mod.dropSets
  with_reducible repeat' first
    | intro _ | assumption | (simp only [Keeps.mk_iff]; apply KeepsIn.of) | apply emptySet_keeps | apply leaveSet_keeps | apply Keeps.ite
    | apply Keeps.foldl | split | dsimp only

/-! ## Queue -/

theorem Mod.bellError_keeps {orig : Mod} {m : Mod} (q : QRef) (off : Nat) (kept : Mod.Keeps orig m) : Mod.Keeps orig (Mod.bellError m q off) := by
  unfold Mod.bellError
  with_reducible repeat' first
    | assumption | (simp only [Keeps.mk_iff]; apply KeepsIn.of) | apply record_keeps | dsimp only

theorem Mod.queueError_keeps {orig : Mod} {m : Mod} (q : QRef) (code : Nat) (kept : Mod.Keeps orig m) : Mod.Keeps orig (Mod.queueError m q code) := by
  unfold Mod.queueError
  with_reducible repeat' first
    | intro _ | assumption | (simp only [Keeps.mk_iff]; apply KeepsIn.of) | apply updQueue_keeps | apply KeepsOr.ok | apply KeepsOr.error
    | apply KeepsOr.ite | split | dsimp only

theorem Mod.bellSq_keeps {orig : Mod} {m : Mod} (q : QRef) (pi : BitVec 32) (kept : Mod.Keeps orig m) : Mod.Keeps orig (Mod.bellSq m q pi) := by
  unfold Mod.bellSq
  with_reducible repeat' first
    | intro _ | assumption | (simp only [Keeps.mk_iff]; apply KeepsIn.of) | apply setQueue_keeps | apply bellError_keeps | apply queueError_keeps
    | apply Keeps.ite | split | dsimp only

theorem Mod.bellRq_keeps {orig : Mod} {m : Mod} (q : QRef) (ci : BitVec 32) (kept : Mod.Keeps orig m) : Mod.Keeps orig (Mod.bellRq m q ci) := by
  unfold Mod.bellRq
  with_reducible repeat' first
    | intro _ | assumption | (simp only [Keeps.mk_iff]; apply KeepsIn.of) | apply setQueue_keeps | apply bellError_keeps | apply Keeps.ite | split
    | dsimp only

theorem Mod.touchEntries_keeps {orig : Mod} {m : Mod} (q : QRef) (ix : BitVec 32) (n : Nat) (kept : Mod.Keeps orig m) : Mod.Keeps orig (Mod.touchEntries m q ix n) := by
  unfold Mod.touchEntries
  with_reducible repeat' first
    | intro _ | assumption | (simp only [Keeps.mk_iff]; apply KeepsIn.of) | apply touchRead_keeps | apply Keeps.foldl | split | dsimp only

theorem Mod.fetchFail_keeps {orig : Mod} {m : Mod} (q : QRef) (e : AccErr) (addr : Nat) (kept : Mod.Keeps orig m) : Mod.Keeps orig (Mod.fetchFail m q e addr) := by
  unfold Mod.fetchFail
  with_reducible repeat' first
    | assumption | (simp only [Keeps.mk_iff]; apply KeepsIn.of) | apply recordAccess_keeps | apply queueError_keeps | dsimp only

theorem Mod.acceptWords_keeps {orig : Mod} {m : Mod} (q : QRef) (ws : List Word) (kept : Mod.Keeps orig m) : Mod.Keeps orig (Mod.acceptWords m q ws) := by
  unfold Mod.acceptWords
  with_reducible repeat' first
    | intro _ | assumption | (simp only [Keeps.mk_iff]; apply KeepsIn.of) | apply updCluster_keeps | apply setQueue_keeps | apply queueError_keeps
    | apply Keeps.ite | split | dsimp only

theorem Mod.fetchDevice_keeps {orig : Mod} {m : Mod} (q : QRef) (kept : Mod.Keeps orig m) : Mod.Keeps orig (Mod.fetchDevice m q) := by
  unfold Mod.fetchDevice
  with_reducible repeat' first
    | intro _ | assumption | (simp only [Keeps.mk_iff]; apply KeepsIn.of) | apply queueError_keeps | apply touchEntries_keeps | apply fetchFail_keeps
    | apply acceptWords_keeps | apply Keeps.ite | apply KeepsOr.ok | apply KeepsOr.error | apply KeepsOr.ite | split | dsimp only

theorem Mod.fetchHost_keeps {orig : Mod} {m : Mod} (q : QRef) (host : Option (List Word)) (kept : Mod.Keeps orig m) : Mod.Keeps orig (Mod.fetchHost m q host) := by
  unfold Mod.fetchHost
  with_reducible repeat' first
    | intro _ | assumption | (simp only [Keeps.mk_iff]; apply KeepsIn.of) | apply queueError_keeps | apply acceptWords_keeps | apply Keeps.ite
    | split | dsimp only

theorem Mod.sendVector_keeps {orig m n__ : Mod} {port fn vec : Nat} (eq_ : Mod.sendVector m port fn vec = some n__) (h : Mod.Keeps orig m) : Mod.Keeps orig n__ := by
  unfold Mod.sendVector at eq_
  try dsimp only at eq_
  repeat' split at eq_
  all_goals (try (cases eq_))
  all_goals with_reducible repeat' first
    | intro _ | assumption | (simp only [Keeps.mk_iff]; apply KeepsIn.of) | apply setFn_keeps | apply emit_keeps | apply Keeps.ite | split
    | dsimp only

theorem Mod.sendVector_getD_keeps {orig m d_ : Mod} (port fn vec : Nat) (h : Mod.Keeps orig m) (k : Mod.Keeps orig d_) : Mod.Keeps orig ((Mod.sendVector m port fn vec).getD d_) := by
  cases e_ : Mod.sendVector m port fn vec with
  | none => exact k
  | some n => exact Mod.sendVector_keeps e_ h

theorem Mod.sendPending_keeps {orig : Mod} {m : Mod} (port fn : Nat) (kept : Mod.Keeps orig m) : Mod.Keeps orig (Mod.sendPending m port fn) := by
  unfold Mod.sendPending
  with_reducible repeat' first
    | intro _ | assumption | (simp only [Keeps.mk_iff]; apply KeepsIn.of) | apply setFn_keeps | (refine sendVector_keeps (by assumption) ?_)
    | apply sendVector_getD_keeps | apply Keeps.ite | apply Keeps.foldl | split | dsimp only

theorem Mod.notify_keeps {orig m n__ : Mod} {q : QRef} (eq_ : Mod.notify m q = some n__) (h : Mod.Keeps orig m) : Mod.Keeps orig n__ := by
  unfold Mod.notify at eq_
  try dsimp only at eq_
  repeat' split at eq_
  all_goals (try (cases eq_))
  all_goals with_reducible repeat' first
    | intro _ | assumption | (simp only [Keeps.mk_iff]; apply KeepsIn.of) | apply sendMsi_keeps | apply vector_keeps
    | (refine sendVector_keeps (by assumption) ?_) | apply sendVector_getD_keeps | split | dsimp only

theorem Mod.notify_getD_keeps {orig m d_ : Mod} (q : QRef) (h : Mod.Keeps orig m) (k : Mod.Keeps orig d_) : Mod.Keeps orig ((Mod.notify m q).getD d_) := by
  cases e_ : Mod.notify m q with
  | none => exact k
  | some n => exact Mod.notify_keeps e_ h

theorem Mod.issueNotify_keeps {orig : Mod} {m : Mod} (q : QRef) (kept : Mod.Keeps orig m) : Mod.Keeps orig (Mod.issueNotify m q) := by
  unfold Mod.issueNotify
  with_reducible repeat' first
    | intro _ | assumption | (simp only [Keeps.mk_iff]; apply KeepsIn.of) | apply updQueue_keeps | (refine notify_keeps (by assumption) ?_)
    | apply notify_getD_keeps | split | dsimp only

theorem Mod.notifyFlushed_keeps {orig : Mod} {m : Mod} (q : QRef) (kept : Mod.Keeps orig m) : Mod.Keeps orig (Mod.notifyFlushed m q) := by
  unfold Mod.notifyFlushed
  with_reducible repeat' first
    | intro _ | assumption | (simp only [Keeps.mk_iff]; apply KeepsIn.of) | apply updQueue_keeps | apply issueNotify_keeps | apply Keeps.ite | split
    | dsimp only

theorem Mod.writeHeld_keeps {orig m : Mod} (q : QRef) (k_ : List Reply) (h : Mod.Keeps orig m) : Mod.Keeps orig (Mod.writeHeld m q k_) := by
  induction k_ generalizing m with
  | nil =>
    unfold Mod.writeHeld
    with_reducible repeat' first
      | intro _ | assumption | apply ih | (simp only [Keeps.mk_iff]; apply KeepsIn.of) | apply updQueue_keeps | apply rest_keeps
      | (refine putReply_keeps (by assumption) ?_) | apply putReply_getD_keeps | split | dsimp only
  | cons q_ r_ ih =>
    unfold Mod.writeHeld
    with_reducible repeat' first
      | intro _ | assumption | apply ih | (simp only [Keeps.mk_iff]; apply KeepsIn.of) | apply updQueue_keeps | apply rest_keeps
      | (refine putReply_keeps (by assumption) ?_) | apply putReply_getD_keeps | split | dsimp only

theorem Mod.startDisable_keeps {orig : Mod} {m : Mod} (q : QRef) (p : Option PktRef) (kept : Mod.Keeps orig m) : Mod.Keeps orig (Mod.startDisable m q p) := by
  unfold Mod.startDisable
  with_reducible repeat' first
    | intro _ | assumption | (simp only [Keeps.mk_iff]; apply KeepsIn.of) | apply setQueue_keeps | apply reply_keeps | apply settleQueues_keeps
    | apply endCmd_keeps | apply Keeps.ite | apply Keeps.foldl | apply KeepsOr.ok | apply KeepsOr.error | apply KeepsOr.ite | split | dsimp only

/-! ## Fabric -/

theorem Mod.setPort_keeps {orig : Mod} {m : Mod} (p : Nat) (x : Port) (kept : Mod.Keeps orig m) : Mod.Keeps orig (Mod.setPort m p x) := by
  unfold Mod.setPort
  with_reducible repeat' first
    | assumption | (simp only [Keeps.mk_iff]; apply KeepsIn.of) | dsimp only

theorem Mod.updPort_keeps {orig : Mod} {m : Mod} (p : Nat) (f : Port → Port) (kept : Mod.Keeps orig m) : Mod.Keeps orig (Mod.updPort m p f) := by
  unfold Mod.updPort
  with_reducible repeat' first
    | assumption | (simp only [Keeps.mk_iff]; apply KeepsIn.of) | apply setPort_keeps | dsimp only

theorem Mod.portEvent_keeps {orig : Mod} {m : Mod} (p sub : Nat) (kept : Mod.Keeps orig m) : Mod.Keeps orig (Mod.portEvent m p sub) := by
  unfold Mod.portEvent
  with_reducible repeat' first
    | assumption | (simp only [Keeps.mk_iff]; apply KeepsIn.of) | apply logEvent_keeps | dsimp only

theorem Mod.portOnce_keeps {orig : Mod} {m : Mod} (p sub : Nat) (kept : Mod.Keeps orig m) : Mod.Keeps orig (Mod.portOnce m p sub) := by
  unfold Mod.portOnce
  with_reducible repeat' first
    | intro _ | assumption | (simp only [Keeps.mk_iff]; apply KeepsIn.of) | apply updPort_keeps | apply portEvent_keeps | apply Keeps.ite | split
    | dsimp only

theorem Mod.portTo_keeps {orig : Mod} {m : Mod} (p : Nat) (st : PortSt) (kept : Mod.Keeps orig m) : Mod.Keeps orig (Mod.portTo m p st) := by
  unfold Mod.portTo
  with_reducible repeat' first
    | intro _ | assumption | (simp only [Keeps.mk_iff]; apply KeepsIn.of) | apply updPort_keeps | apply portOnce_keeps | split | dsimp only

theorem Mod.portMalformed_keeps {orig : Mod} {m : Mod} (p : Nat) (kept : Mod.Keeps orig m) : Mod.Keeps orig (Mod.portMalformed m p) := by
  unfold Mod.portMalformed
  with_reducible repeat' first
    | intro _ | assumption | (simp only [Keeps.mk_iff]; apply KeepsIn.of) | apply malformed_keeps | apply updPort_keeps | apply portOnce_keeps
    | split | dsimp only

theorem Mod.portLatch_keeps {orig : Mod} {m : Mod} (p : Nat) (kept : Mod.Keeps orig m) : Mod.Keeps orig (Mod.portLatch m p) := by
  unfold Mod.portLatch
  with_reducible repeat' first
    | intro _ | assumption | (simp only [Keeps.mk_iff]; apply KeepsIn.of) | apply updPort_keeps | apply Keeps.ite | apply Keeps.foldl | split
    | dsimp only

theorem Mod.putFrame_keeps {orig : Mod} {m : Mod} (p : Nat) (data : List Byte) (kept : Mod.Keeps orig m) : Mod.Keeps orig (Mod.putFrame m p data) := by
  unfold Mod.putFrame
  with_reducible repeat' first
    | intro _ | assumption | (simp only [Keeps.mk_iff]; apply KeepsIn.of) | apply emit_keeps | apply updPort_keeps | apply Keeps.ite | split
    | dsimp only

theorem Mod.sendFrames_keeps {orig m : Mod} (p : Nat) (k_ : Nat) (l_ : List Flit) (h : Mod.Keeps orig m) : Mod.Keeps orig (Mod.sendFrames m p k_ l_) := by
  induction k_ generalizing m l_ with
  | zero =>
    unfold Mod.sendFrames
    with_reducible repeat' first
      | intro _ | assumption | apply ih | (simp only [Keeps.mk_iff]; apply KeepsIn.of) | apply putFrame_keeps | apply Keeps.ite | split | dsimp only
  | succ n_ ih =>
    unfold Mod.sendFrames
    with_reducible repeat' first
      | intro _ | assumption | apply ih | (simp only [Keeps.mk_iff]; apply KeepsIn.of) | apply putFrame_keeps | apply Keeps.ite | split | dsimp only

theorem Mod.sendProbe_keeps {orig : Mod} {m : Mod} (p : Nat) (kept : Mod.Keeps orig m) : Mod.Keeps orig (Mod.sendProbe m p) := by
  unfold Mod.sendProbe
  with_reducible repeat' first
    | intro _ | assumption | (simp only [Keeps.mk_iff]; apply KeepsIn.of) | apply putFrame_keeps | apply Keeps.ite | split | dsimp only

theorem Mod.putFlits_keeps {orig : Mod} {m : Mod} (p : Nat) (l : List Flit) (kept : Mod.Keeps orig m) : Mod.Keeps orig (Mod.putFlits m p l) := by
  unfold Mod.putFlits
  with_reducible repeat' first
    | intro _ | assumption | (simp only [Keeps.mk_iff]; apply KeepsIn.of) | apply emit_keeps | apply sendFrames_keeps | apply Keeps.ite
    | apply Keeps.foldl | split | dsimp only

theorem Mod.sendFlits_keeps {orig : Mod} {m : Mod} (p kind : Nat) (l : List SentFlit) (kept : Mod.Keeps orig m) : Mod.Keeps orig (Mod.sendFlits m p kind l) := by
  unfold Mod.sendFlits
  with_reducible repeat' first
    | intro _ | assumption | (simp only [Keeps.mk_iff]; apply KeepsIn.of) | apply rest_keeps | apply setPort_keeps | apply putFlits_keeps | split
    | dsimp only

theorem Mod.sendBare_keeps {orig : Mod} {m : Mod} (p kind : Nat) (kept : Mod.Keeps orig m) : Mod.Keeps orig (Mod.sendBare m p kind) := by
  unfold Mod.sendBare
  with_reducible repeat' first
    | assumption | (simp only [Keeps.mk_iff]; apply KeepsIn.of) | apply sendFlits_keeps | dsimp only

theorem Mod.sendDown_keeps {orig : Mod} {m : Mod} (p : Nat) (kept : Mod.Keeps orig m) : Mod.Keeps orig (Mod.sendDown m p) := by
  unfold Mod.sendDown
  with_reducible repeat' first
    | assumption | (simp only [Keeps.mk_iff]; apply KeepsIn.of) | apply sendFlits_keeps | dsimp only

theorem Mod.endLink_keeps {orig : Mod} {m : Mod} (p : Nat) (kept : Mod.Keeps orig m) : Mod.Keeps orig (Mod.endLink m p) := by
  unfold Mod.endLink
  with_reducible repeat' first
    | intro _ | assumption | (simp only [Keeps.mk_iff]; apply KeepsIn.of) | apply updPort_keeps | apply sendDown_keeps | split | dsimp only

theorem Mod.linksDown_keeps {orig : Mod} {m : Mod} (kept : Mod.Keeps orig m) : Mod.Keeps orig (Mod.linksDown m) := by
  unfold Mod.linksDown
  with_reducible repeat' first
    | intro _ | assumption | (simp only [Keeps.mk_iff]; apply KeepsIn.of) | apply endLink_keeps | apply Keeps.ite | apply Keeps.foldl | split
    | dsimp only

theorem Mod.portRecord_keeps {orig : Mod} {m : Mod} (p reason : Nat) (kept : Mod.Keeps orig m) : Mod.Keeps orig (Mod.portRecord m p reason) := by
  unfold Mod.portRecord
  with_reducible repeat' first
    | intro _ | assumption | (simp only [Keeps.mk_iff]; apply KeepsIn.of) | apply record_keeps | split | dsimp only

theorem Mod.countBumps_keeps {orig : Mod} {m : Mod} (l : List Domain) (kept : Mod.Keeps orig m) : Mod.Keeps orig (Mod.countBumps m l) := by
  unfold Mod.countBumps
  with_reducible repeat' first
    | intro _ | assumption | (simp only [Keeps.mk_iff]; apply KeepsIn.of) | split | dsimp only

theorem Mod.portReset_keeps {orig : Mod} {m : Mod} (p reason : Nat) (kept : Mod.Keeps orig m) : Mod.Keeps orig (Mod.portReset m p reason) := by
  unfold Mod.portReset
  with_reducible repeat' first
    | intro _ | assumption | (simp only [Keeps.mk_iff]; apply KeepsIn.of) | apply setPort_keeps | apply portTo_keeps | apply endLink_keeps
    | apply portRecord_keeps | apply countBumps_keeps | apply Keeps.ite | split | dsimp only

theorem Mod.portFault_keeps {orig : Mod} {m : Mod} (p reason : Nat) (kept : Mod.Keeps orig m) : Mod.Keeps orig (Mod.portFault m p reason) := by
  unfold Mod.portFault
  with_reducible repeat' first
    | intro _ | assumption | (simp only [Keeps.mk_iff]; apply KeepsIn.of) | apply report_keeps | apply portReset_keeps | apply Keeps.ite | split
    | dsimp only

theorem Mod.portOff_keeps {orig : Mod} {m : Mod} (p reason : Nat) (kept : Mod.Keeps orig m) : Mod.Keeps orig (Mod.portOff m p reason) := by
  unfold Mod.portOff
  with_reducible repeat' first
    | assumption | (simp only [Keeps.mk_iff]; apply KeepsIn.of) | apply setPort_keeps | apply portTo_keeps | dsimp only

theorem Mod.setEnable_keeps {orig : Mod} {m : Mod} (p : Nat) (on : Bool) (kept : Mod.Keeps orig m) : Mod.Keeps orig (Mod.setEnable m p on) := by
  unfold Mod.setEnable
  with_reducible repeat' first
    | intro _ | assumption | (simp only [Keeps.mk_iff]; apply KeepsIn.of) | apply setReg_keeps | apply Keeps.ite | split | dsimp only

theorem Mod.portEnable_keeps {orig : Mod} {m : Mod} (port : Nat) (kept : Mod.Keeps orig m) : Mod.Keeps orig (Mod.portEnable m port) := by
  unfold Mod.portEnable
  with_reducible repeat' first
    | intro _ | assumption | (simp only [Keeps.mk_iff]; apply KeepsIn.of) | apply setPort_keeps | apply portTo_keeps | apply portLatch_keeps
    | apply setEnable_keeps | apply Keeps.ite | split | dsimp only

theorem Mod.portDisable_keeps {orig : Mod} {m : Mod} (port : Nat) (kept : Mod.Keeps orig m) : Mod.Keeps orig (Mod.portDisable m port) := by
  unfold Mod.portDisable
  with_reducible repeat' first
    | intro _ | assumption | (simp only [Keeps.mk_iff]; apply KeepsIn.of) | apply updPort_keeps | apply portReset_keeps | apply setEnable_keeps
    | apply Keeps.ite | split | dsimp only

theorem Mod.startRetrain_keeps {orig : Mod} {m : Mod} (p : Nat) (kept : Mod.Keeps orig m) : Mod.Keeps orig (Mod.startRetrain m p) := by
  unfold Mod.startRetrain
  with_reducible repeat' first
    | intro _ | assumption | (simp only [Keeps.mk_iff]; apply KeepsIn.of) | apply updPort_keeps | apply portTo_keeps | apply Keeps.ite | split
    | dsimp only

theorem Mod.portIn_keeps {orig : Mod} {m : Mod} (p : Nat) (st : PortSt) (f : Mod → Mod) (h_f : ∀ m, Mod.Keeps orig m → Mod.Keeps orig (f m)) (kept : Mod.Keeps orig m) : Mod.Keeps orig (Mod.portIn m p st f) := by
  unfold Mod.portIn
  with_reducible repeat' first
    | intro _ | assumption | (simp only [Keeps.mk_iff]; apply KeepsIn.of) | apply Keeps.ite | apply h_f | split | dsimp only

theorem Mod.setDelay_keeps {orig : Mod} {m : Mod} (p : Nat) (delay : BitVec 24) (kept : Mod.Keeps orig m) : Mod.Keeps orig (Mod.setDelay m p delay) := by
  unfold Mod.setDelay
  with_reducible repeat' first
    | intro _ | assumption | (simp only [Keeps.mk_iff]; apply KeepsIn.of) | split | dsimp only

theorem Mod.partnerReport_keeps {orig : Mod} {m : Mod} (p : Nat) (kept : Mod.Keeps orig m) : Mod.Keeps orig (Mod.partnerReport m p) := by
  unfold Mod.partnerReport
  with_reducible repeat' first
    | intro _ | assumption | (simp only [Keeps.mk_iff]; apply KeepsIn.of) | apply takeFree_keeps | apply updPort_keeps | split | dsimp only

theorem Mod.refusePartner_keeps {orig : Mod} {m : Mod} (p : Nat) (policy : Bool) (kept : Mod.Keeps orig m) : Mod.Keeps orig (Mod.refusePartner m p policy) := by
  unfold Mod.refusePartner
  with_reducible repeat' first
    | intro _ | assumption | (simp only [Keeps.mk_iff]; apply KeepsIn.of) | apply updPort_keeps | apply portOnce_keeps | apply portTo_keeps
    | apply Keeps.ite | split | dsimp only

theorem Mod.portResetDone_keeps {orig : Mod} {m : Mod} (p : Nat) (kept : Mod.Keeps orig m) : Mod.Keeps orig (Mod.portResetDone m p) := by
  unfold Mod.portResetDone
  with_reducible repeat' first
    | intro _ | assumption | (simp only [Keeps.mk_iff]; apply KeepsIn.of) | apply setPort_keeps | apply portTo_keeps | apply portLatch_keeps
    | apply Keeps.ite | split | dsimp only

theorem Mod.startPacket_keeps {orig : Mod} {m : Mod} (p : Nat) (o : LinkOut) (kept : Mod.Keeps orig m) : Mod.Keeps orig (Mod.startPacket m p o) := by
  unfold Mod.startPacket
  with_reducible repeat' first
    | intro _ | assumption | (simp only [Keeps.mk_iff]; apply KeepsIn.of) | apply emit_keeps | apply setPort_keeps | apply sendFlits_keeps
    | apply Keeps.ite | split | dsimp only

theorem Mod.demote_keeps {orig : Mod} {m : Mod} (p : Nat) (kept : Mod.Keeps orig m) : Mod.Keeps orig (Mod.demote m p) := by
  unfold Mod.demote
  with_reducible repeat' first
    | intro _ | assumption | (simp only [Keeps.mk_iff]; apply KeepsIn.of) | apply updEd_keeps | split | dsimp only

theorem Mod.admitOne_keeps {orig m : Mod} (p : Nat) (o : LinkOut) (h : Mod.Keeps orig m) : Mod.Keeps orig (Mod.admitOne m p o).1 := by
  unfold Mod.admitOne
  with_reducible repeat' first
    | intro _ | assumption | (simp only [Keeps.mk_iff]; apply KeepsIn.of) | apply updEd_keeps | apply demote_keeps | apply Keeps.ite | split
    | dsimp only

theorem Mod.admitAll_keeps {orig m : Mod} (p : Nat) (k_ : List LinkOut) (h : Mod.Keeps orig m) : Mod.Keeps orig (Mod.admitAll m p k_).1 := by
  induction k_ generalizing m with
  | nil =>
    unfold Mod.admitAll
    with_reducible repeat' first
      | intro _ | assumption | apply ih | (simp only [Keeps.mk_iff]; apply KeepsIn.of) | apply rest_keeps | apply admitOne_keeps | split | dsimp only
  | cons q_ r_ ih =>
    unfold Mod.admitAll
    with_reducible repeat' first
      | intro _ | assumption | apply ih | (simp only [Keeps.mk_iff]; apply KeepsIn.of) | apply rest_keeps | apply admitOne_keeps | split | dsimp only

theorem Mod.serveOut_keeps {orig : Mod} {m : Mod} (p : Nat) (o : LinkOut) (kept : Mod.Keeps orig m) : Mod.Keeps orig (Mod.serveOut m p o) := by
  unfold Mod.serveOut
  with_reducible repeat' first
    | intro _ | assumption | (simp only [Keeps.mk_iff]; apply KeepsIn.of) | apply updPort_keeps | apply startPacket_keeps | apply Keeps.ite | split
    | dsimp only

theorem Mod.pumpQueue_keeps {orig m : Mod} (p : Nat) (k_ : Nat) (h : Mod.Keeps orig m) : Mod.Keeps orig (Mod.pumpQueue m p k_) := by
  induction k_ generalizing m with
  | zero =>
    unfold Mod.pumpQueue
    with_reducible repeat' first
      | intro _ | assumption | apply ih | (simp only [Keeps.mk_iff]; apply KeepsIn.of) | apply serveOut_keeps | split | dsimp only
  | succ n_ ih =>
    unfold Mod.pumpQueue
    with_reducible repeat' first
      | intro _ | assumption | apply ih | (simp only [Keeps.mk_iff]; apply KeepsIn.of) | apply serveOut_keeps | split | dsimp only

theorem Mod.pumpPort_keeps {orig : Mod} {m : Mod} (p : Nat) (kept : Mod.Keeps orig m) : Mod.Keeps orig (Mod.pumpPort m p) := by
  unfold Mod.pumpPort
  with_reducible repeat' first
    | intro _ | assumption | (simp only [Keeps.mk_iff]; apply KeepsIn.of) | apply updPort_keeps | apply sendBare_keeps | apply admitAll_keeps
    | apply pumpQueue_keeps | apply Keeps.ite | split | dsimp only

theorem Mod.sendLink_keeps {orig : Mod} {m : Mod} (p vc : Nat) (sector : Option SectorId) (t : TPkt) (kept : Mod.Keeps orig m) : Mod.Keeps orig (Mod.sendLink m p vc sector t) := by
  unfold Mod.sendLink
  with_reducible repeat' first
    | intro _ | assumption | (simp only [Keeps.mk_iff]; apply KeepsIn.of) | apply updPort_keeps | apply pumpPort_keeps | split | dsimp only

theorem Mod.sendHello_keeps {orig : Mod} {m : Mod} (p : Nat) (kept : Mod.Keeps orig m) : Mod.Keeps orig (Mod.sendHello m p) := by
  unfold Mod.sendHello
  with_reducible repeat' first
    | assumption | (simp only [Keeps.mk_iff]; apply KeepsIn.of) | apply sendLink_keeps | dsimp only

theorem Mod.takeAck_keeps {orig : Mod} {m : Mod} (p : Nat) (f : Flit) (kept : Mod.Keeps orig m) : Mod.Keeps orig (Mod.takeAck m p f) := by
  unfold Mod.takeAck
  with_reducible repeat' first
    | intro _ | assumption | (simp only [Keeps.mk_iff]; apply KeepsIn.of) | apply setPort_keeps | apply pumpPort_keeps | apply Keeps.ite | split
    | dsimp only

theorem Mod.sendNak_keeps {orig : Mod} {m : Mod} (p : Nat) (kept : Mod.Keeps orig m) : Mod.Keeps orig (Mod.sendNak m p) := by
  unfold Mod.sendNak
  with_reducible repeat' first
    | intro _ | assumption | (simp only [Keeps.mk_iff]; apply KeepsIn.of) | apply updPort_keeps | apply sendBare_keeps | split | dsimp only

theorem Mod.resend_keeps {orig : Mod} {m : Mod} (p : Nat) (kept : Mod.Keeps orig m) : Mod.Keeps orig (Mod.resend m p) := by
  unfold Mod.resend
  with_reducible repeat' first
    | intro _ | assumption | (simp only [Keeps.mk_iff]; apply KeepsIn.of) | apply setPort_keeps | apply sendFlits_keeps | apply startRetrain_keeps
    | apply Keeps.ite | split | dsimp only

theorem Mod.bufferPacket_keeps {orig : Mod} {m : Mod} (p : Nat) (k : RxPkt) (kept : Mod.Keeps orig m) : Mod.Keeps orig (Mod.bufferPacket m p k) := by
  unfold Mod.bufferPacket
  with_reducible repeat' first
    | intro _ | assumption | (simp only [Keeps.mk_iff]; apply KeepsIn.of) | apply setPort_keeps | apply portMalformed_keeps | apply Keeps.ite | split
    | dsimp only

theorem Mod.takePackets_keeps {orig : Mod} {m : Mod} (p : Nat) (f : Flit) (kept : Mod.Keeps orig m) : Mod.Keeps orig (Mod.takePackets m p f) := by
  unfold Mod.takePackets
  with_reducible repeat' first
    | intro _ | assumption | (simp only [Keeps.mk_iff]; apply KeepsIn.of) | apply updPort_keeps | apply portMalformed_keeps
    | apply bufferPacket_keeps | apply Keeps.ite | apply Keeps.foldl | split | dsimp only

theorem Mod.receiveFlit_keeps {orig : Mod} {m : Mod} (p : Nat) (f : Flit) (kept : Mod.Keeps orig m) : Mod.Keeps orig (Mod.receiveFlit m p f) := by
  unfold Mod.receiveFlit
  with_reducible repeat' first
    | intro _ | assumption | (simp only [Keeps.mk_iff]; apply KeepsIn.of) | apply setPort_keeps | apply sendBare_keeps | apply portReset_keeps
    | apply takeAck_keeps | apply sendNak_keeps | apply resend_keeps | apply takePackets_keeps | apply Keeps.ite | split | dsimp only

theorem Mod.deliver_keeps {orig : Mod} {m : Mod} (p : PortId) (vc : Nat) (t : TPkt) (kept : Mod.Keeps orig m) : Mod.Keeps orig (Mod.deliver m p vc t) := by
  unfold Mod.deliver
  with_reducible repeat' first
    | assumption | (simp only [Keeps.mk_iff]; apply KeepsIn.of) | dsimp only

theorem Mod.linkAuthFail_keeps {orig : Mod} {m : Mod} (p : Nat) (kept : Mod.Keeps orig m) : Mod.Keeps orig (Mod.linkAuthFail m p) := by
  unfold Mod.linkAuthFail
  with_reducible repeat' first
    | intro _ | assumption | (simp only [Keeps.mk_iff]; apply KeepsIn.of) | apply updPort_keeps | apply portOnce_keeps | apply portFault_keeps
    | apply Keeps.ite | split | dsimp only

theorem Mod.checkPacket_keeps {orig : Mod} {m : Mod} (p : PortId) (hdr : Word) (body : LinkBody) (kept : Mod.Keeps orig m) : Mod.Keeps orig (Mod.checkPacket m p hdr body) := by
  unfold Mod.checkPacket
  with_reducible repeat' first
    | intro _ | assumption | (simp only [Keeps.mk_iff]; apply KeepsIn.of) | apply setPort_keeps | apply portOnce_keeps | apply portMalformed_keeps
    | apply deliver_keeps | apply linkAuthFail_keeps | apply Keeps.ite | split | dsimp only

theorem Mod.checkClear_keeps {orig : Mod} {m : Mod} (p : PortId) (hdr : Word) (body : LinkBody) (kept : Mod.Keeps orig m) : Mod.Keeps orig (Mod.checkClear m p hdr body) := by
  unfold Mod.checkClear
  with_reducible repeat' first
    | intro _ | assumption | (simp only [Keeps.mk_iff]; apply KeepsIn.of) | apply setPort_keeps | apply portMalformed_keeps | apply Keeps.ite | split
    | dsimp only

theorem Mod.choosePfc_keeps {orig : Mod} {m : Mod} (p : Nat) (kept : Mod.Keeps orig m) : Mod.Keeps orig (Mod.choosePfc m p) := by
  unfold Mod.choosePfc
  with_reducible repeat' first
    | intro _ | assumption | (simp only [Keeps.mk_iff]; apply KeepsIn.of) | apply emit_keeps | apply takeFree_keeps | apply updPort_keeps
    | apply Keeps.ite | split | dsimp only

theorem Mod.stepDown_keeps {orig : Mod} {m : Mod} (p : Nat) (sym : List Nat) (kept : Mod.Keeps orig m) : Mod.Keeps orig (Mod.stepDown m p sym) := by
  unfold Mod.stepDown
  with_reducible repeat' first
    | intro _ | assumption | (simp only [Keeps.mk_iff]; apply KeepsIn.of) | apply setPort_keeps | apply portOnce_keeps | apply portOff_keeps
    | apply startRetrain_keeps | apply Keeps.ite | split | dsimp only

theorem Mod.laneErrors_keeps {orig : Mod} {m : Mod} (p : Nat) (sym : List Nat) (injected : Option Nat) (kept : Mod.Keeps orig m) : Mod.Keeps orig (Mod.laneErrors m p sym injected) := by
  unfold Mod.laneErrors
  with_reducible repeat' first
    | intro _ | assumption | (simp only [Keeps.mk_iff]; apply KeepsIn.of) | apply record_keeps | apply Keeps.foldl | split | dsimp only

theorem Mod.takeFlits_keeps {orig m : Mod} (p : Nat) (k_ : List Flit) (h : Mod.Keeps orig m) : Mod.Keeps orig (Mod.takeFlits m p k_) := by
  induction k_ generalizing m with
  | nil =>
    unfold Mod.takeFlits
    with_reducible repeat' first
      | intro _ | assumption | apply ih | (simp only [Keeps.mk_iff]; apply KeepsIn.of) | apply rest_keeps | apply receiveFlit_keeps | apply Keeps.ite | split
      | dsimp only
  | cons q_ r_ ih =>
    unfold Mod.takeFlits
    with_reducible repeat' first
      | intro _ | assumption | apply ih | (simp only [Keeps.mk_iff]; apply KeepsIn.of) | apply rest_keeps | apply receiveFlit_keeps | apply Keeps.ite | split
      | dsimp only

theorem Mod.releaseFrames_keeps {orig : Mod} {m : Mod} (p : Nat) (kept : Mod.Keeps orig m) : Mod.Keeps orig (Mod.releaseFrames m p) := by
  unfold Mod.releaseFrames
  with_reducible repeat' first
    | intro _ | assumption | (simp only [Keeps.mk_iff]; apply KeepsIn.of) | apply emit_keeps | apply updPort_keeps | apply Keeps.foldl | split
    | dsimp only

/-! ## Beacon -/

theorem Mod.updBeacon_keeps {orig : Mod} {m : Mod} (f : Beacon → Beacon) (kept : Mod.Keeps orig m) : Mod.Keeps orig (Mod.updBeacon m f) := by
  unfold Mod.updBeacon
  with_reducible repeat' first
    | assumption | (simp only [Keeps.mk_iff]; apply KeepsIn.of) | dsimp only

theorem Mod.powerLog_keeps {orig : Mod} {m : Mod} (sub site data0 : Nat) (kept : Mod.Keeps orig m) : Mod.Keeps orig (Mod.powerLog m sub site data0) := by
  unfold Mod.powerLog
  with_reducible repeat' first
    | assumption | (simp only [Keeps.mk_iff]; apply KeepsIn.of) | apply logEvent_keeps | dsimp only

theorem Mod.checkMember_keeps {orig : Mod} {m : Mod} (kept : Mod.Keeps orig m) : Mod.Keeps orig (Mod.checkMember m) := by
  unfold Mod.checkMember
  with_reducible repeat' first
    | intro _ | assumption | (simp only [Keeps.mk_iff]; apply KeepsIn.of) | apply powerLog_keeps | apply Keeps.ite | split | dsimp only

theorem Mod.beaconTo_keeps {orig : Mod} {m : Mod} (st : BcnSt) (kept : Mod.Keeps orig m) : Mod.Keeps orig (Mod.beaconTo m st) := by
  unfold Mod.beaconTo
  with_reducible repeat' first
    | intro _ | assumption | (simp only [Keeps.mk_iff]; apply KeepsIn.of) | apply logEvent_keeps | apply updBeacon_keeps | apply checkMember_keeps
    | apply Keeps.ite | split | dsimp only

theorem Mod.stepBt_keeps {orig : Mod} {m : Mod} (d : Int) (kept : Mod.Keeps orig m) : Mod.Keeps orig (Mod.stepBt m d) := by
  unfold Mod.stepBt
  with_reducible repeat' first
    | intro _ | assumption | (simp only [Keeps.mk_iff]; apply KeepsIn.of) | apply logEvent_keeps | apply updBeacon_keeps | split | dsimp only

theorem Mod.toHoldover_keeps {orig : Mod} {m : Mod} (kept : Mod.Keeps orig m) : Mod.Keeps orig (Mod.toHoldover m) := by
  unfold Mod.toHoldover
  with_reducible repeat' first
    | intro _ | assumption | (simp only [Keeps.mk_iff]; apply KeepsIn.of) | apply updBeacon_keeps | apply beaconTo_keeps | split | dsimp only

theorem Mod.toFree_keeps {orig : Mod} {m : Mod} (kept : Mod.Keeps orig m) : Mod.Keeps orig (Mod.toFree m) := by
  unfold Mod.toFree
  with_reducible repeat' first
    | intro _ | assumption | (simp only [Keeps.mk_iff]; apply KeepsIn.of) | apply dropSets_keeps | apply updBeacon_keeps | apply beaconTo_keeps
    | split | dsimp only

theorem Mod.toLocked_keeps {orig : Mod} {m : Mod} (kept : Mod.Keeps orig m) : Mod.Keeps orig (Mod.toLocked m) := by
  unfold Mod.toLocked
  with_reducible repeat' first
    | intro _ | assumption | (simp only [Keeps.mk_iff]; apply KeepsIn.of) | apply updBeacon_keeps | apply beaconTo_keeps | split | dsimp only

theorem Mod.selectUpstream_keeps {orig : Mod} {m : Mod} (kept : Mod.Keeps orig m) : Mod.Keeps orig (Mod.selectUpstream m) := by
  unfold Mod.selectUpstream
  with_reducible repeat' first
    | intro _ | assumption | (simp only [Keeps.mk_iff]; apply KeepsIn.of) | apply updBeacon_keeps | apply toHoldover_keeps | apply Keeps.ite | split
    | dsimp only

theorem Mod.leaveRole_keeps {orig : Mod} {m : Mod} (kept : Mod.Keeps orig m) : Mod.Keeps orig (Mod.leaveRole m) := by
  unfold Mod.leaveRole
  with_reducible repeat' first
    | intro _ | assumption | (simp only [Keeps.mk_iff]; apply KeepsIn.of) | apply updBeacon_keeps | apply toHoldover_keeps | split | dsimp only

theorem Mod.enterRole_keeps {orig : Mod} {m : Mod} (kept : Mod.Keeps orig m) : Mod.Keeps orig (Mod.enterRole m) := by
  unfold Mod.enterRole
  with_reducible repeat' first
    | intro _ | assumption | (simp only [Keeps.mk_iff]; apply KeepsIn.of) | apply updBeacon_keeps | apply beaconTo_keeps | split | dsimp only

theorem Mod.checkRole_keeps {orig : Mod} {m : Mod} (master : Bool) (kept : Mod.Keeps orig m) : Mod.Keeps orig (Mod.checkRole m master) := by
  unfold Mod.checkRole
  with_reducible repeat' first
    | intro _ | assumption | (simp only [Keeps.mk_iff]; apply KeepsIn.of) | apply leaveRole_keeps | apply enterRole_keeps | apply Keeps.ite | split
    | dsimp only

theorem Mod.takeReference_keeps {orig : Mod} {m : Mod} (source : BitVec 2) (off : Int) (kept : Mod.Keeps orig m) : Mod.Keeps orig (Mod.takeReference m source off) := by
  unfold Mod.takeReference
  with_reducible repeat' first
    | intro _ | assumption | (simp only [Keeps.mk_iff]; apply KeepsIn.of) | apply updBeacon_keeps | apply beaconTo_keeps | apply Keeps.ite | split
    | dsimp only

theorem Mod.loseReference_keeps {orig : Mod} {m : Mod} (kept : Mod.Keeps orig m) : Mod.Keeps orig (Mod.loseReference m) := by
  unfold Mod.loseReference
  with_reducible repeat' first
    | intro _ | assumption | (simp only [Keeps.mk_iff]; apply KeepsIn.of) | apply updBeacon_keeps | apply beaconTo_keeps | apply Keeps.ite | split
    | dsimp only

theorem Mod.hearMaster_keeps {orig : Mod} {m : Mod} (f : BeaconFlit) (kept : Mod.Keeps orig m) : Mod.Keeps orig (Mod.hearMaster m f) := by
  unfold Mod.hearMaster
  with_reducible repeat' first
    | intro _ | assumption | (simp only [Keeps.mk_iff]; apply KeepsIn.of) | apply logEvent_keeps | apply updBeacon_keeps | apply selectUpstream_keeps
    | apply leaveRole_keeps | apply Keeps.ite | split | dsimp only

theorem Mod.followFlit_keeps {orig : Mod} {m : Mod} (f : BeaconFlit) (err : Int) (kept : Mod.Keeps orig m) : Mod.Keeps orig (Mod.followFlit m f err) := by
  unfold Mod.followFlit
  with_reducible repeat' first
    | intro _ | assumption | (simp only [Keeps.mk_iff]; apply KeepsIn.of) | apply updBeacon_keeps | apply beaconTo_keeps | apply stepBt_keeps
    | apply toHoldover_keeps | apply toFree_keeps | apply toLocked_keeps | apply Keeps.ite | split | dsimp only

theorem Mod.takeFlit_keeps {orig m : Mod} (port : PortId) (f : BeaconFlit) (err : Int) (h : Mod.Keeps orig m) : Mod.Keeps orig (Mod.takeFlit m port f err).1 := by
  unfold Mod.takeFlit
  with_reducible repeat' first
    | intro _ | assumption | (simp only [Keeps.mk_iff]; apply KeepsIn.of) | apply updBeacon_keeps | apply hearMaster_keeps | apply followFlit_keeps
    | apply Keeps.ite | split | dsimp only

theorem Mod.takeEvents_keeps {orig m : Mod} (k_ : List BcnEvent) (h : Mod.Keeps orig m) : Mod.Keeps orig (Mod.takeEvents m k_).1 := by
  induction k_ generalizing m with
  | nil =>
    unfold Mod.takeEvents
    with_reducible repeat' first
      | intro _ | assumption | apply ih | (simp only [Keeps.mk_iff]; apply KeepsIn.of) | apply rest_keeps | apply checkRole_keeps | apply takeReference_keeps
      | apply loseReference_keeps | apply takeFlit_keeps | split | dsimp only
  | cons q_ r_ ih =>
    unfold Mod.takeEvents
    with_reducible repeat' first
      | intro _ | assumption | apply ih | (simp only [Keeps.mk_iff]; apply KeepsIn.of) | apply rest_keeps | apply checkRole_keeps | apply takeReference_keeps
      | apply loseReference_keeps | apply takeFlit_keeps | split | dsimp only

theorem Mod.hearPorts_keeps {orig : Mod} {m : Mod} (ev : List BcnEvent) (kept : Mod.Keeps orig m) : Mod.Keeps orig (Mod.hearPorts m ev) := by
  unfold Mod.hearPorts
  with_reducible repeat' first
    | intro _ | assumption | (simp only [Keeps.mk_iff]; apply KeepsIn.of) | apply updBeacon_keeps | apply Keeps.foldl | split | dsimp only

theorem Mod.sendBeacon_keeps {orig : Mod} {m : Mod} (p : Nat) (bt : Word) (f : BeaconFlit) (kept : Mod.Keeps orig m) : Mod.Keeps orig (Mod.sendBeacon m p bt f) := by
  unfold Mod.sendBeacon
  with_reducible repeat' first
    | assumption | (simp only [Keeps.mk_iff]; apply KeepsIn.of) | apply emit_keeps | dsimp only

theorem Mod.sendBeacons_keeps {orig : Mod} {m : Mod} (bt : Word) (fwd : List (Nat × BeaconFlit)) (kept : Mod.Keeps orig m) : Mod.Keeps orig (Mod.sendBeacons m bt fwd) := by
  unfold Mod.sendBeacons
  with_reducible repeat' first
    | intro _ | assumption | (simp only [Keeps.mk_iff]; apply KeepsIn.of) | apply sendBeacon_keeps | apply Keeps.ite | apply Keeps.foldl | split
    | dsimp only

theorem Mod.masterStep_keeps {orig : Mod} {m : Mod} (kept : Mod.Keeps orig m) : Mod.Keeps orig (Mod.masterStep m) := by
  unfold Mod.masterStep
  with_reducible repeat' first
    | intro _ | assumption | (simp only [Keeps.mk_iff]; apply KeepsIn.of) | apply updBeacon_keeps | apply beaconTo_keeps | apply stepBt_keeps
    | apply Keeps.ite | split | dsimp only

theorem Mod.beaconCtrl_keeps {orig : Mod} {m : Mod} (master : Bool) (source : BitVec 2) (kept : Mod.Keeps orig m) : Mod.Keeps orig (Mod.beaconCtrl m master source) := by
  unfold Mod.beaconCtrl
  with_reducible repeat' first
    | intro _ | assumption | (simp only [Keeps.mk_iff]; apply KeepsIn.of) | apply malformed_keeps | apply updBeacon_keeps | apply Keeps.ite | split
    | dsimp only

theorem Mod.clearConflict_keeps {orig : Mod} {m : Mod} (kept : Mod.Keeps orig m) : Mod.Keeps orig (Mod.clearConflict m) := by
  unfold Mod.clearConflict
  with_reducible repeat' first
    | intro _ | assumption | (simp only [Keeps.mk_iff]; apply KeepsIn.of) | apply updBeacon_keeps | apply Keeps.ite | split | dsimp only

/-! ## Transport -/

theorem Mod.startPlan_keeps {orig : Mod} {m : Mod} (e : Nat) (p : PktRef) (ws : List Word) (kept : Mod.Keeps orig m) : Mod.Keeps orig (Mod.startPlan m e p ws) := by
  unfold Mod.startPlan
  with_reducible repeat' first
    | intro _ | assumption | (simp only [Keeps.mk_iff]; apply KeepsIn.of) | apply setEngine_keeps | apply running_keeps | apply arrive_keeps
    | apply Keeps.ite | apply Keeps.foldl | split | dsimp only

theorem Mod.finishPlan_keeps {orig : Mod} {m : Mod} (e : Nat) (kept : Mod.Keeps orig m) : Mod.Keeps orig (Mod.finishPlan m e) := by
  unfold Mod.finishPlan
  with_reducible repeat' first
    | intro _ | assumption | (simp only [Keeps.mk_iff]; apply KeepsIn.of) | apply setEngine_keeps | apply endCmd_keeps | apply startPlan_keeps
    | apply Keeps.ite | split | dsimp only

theorem Mod.settlePlan_keeps {orig : Mod} {m : Mod} (e : Nat) (kept : Mod.Keeps orig m) : Mod.Keeps orig (Mod.settlePlan m e) := by
  unfold Mod.settlePlan
  with_reducible repeat' first
    | intro _ | assumption | (simp only [Keeps.mk_iff]; apply KeepsIn.of) | apply finishPlan_keeps | apply Keeps.ite | split | dsimp only

theorem Mod.failPlan_keeps {orig : Mod} {m : Mod} (e code step : Nat) (kept : Mod.Keeps orig m) : Mod.Keeps orig (Mod.failPlan m e code step) := by
  unfold Mod.failPlan
  with_reducible repeat' first
    | intro _ | assumption | (simp only [Keeps.mk_iff]; apply KeepsIn.of) | apply setEngine_keeps | apply running_keeps | apply settlePlan_keeps
    | apply Keeps.ite | split | dsimp only

theorem Mod.sourceFail_keeps {orig : Mod} {m : Mod} (e : Nat) (t : Transfer) (i : Nat) (err : AccErr) (kept : Mod.Keeps orig m) : Mod.Keeps orig (Mod.sourceFail m e t i err) := by
  unfold Mod.sourceFail
  with_reducible repeat' first
    | assumption | (simp only [Keeps.mk_iff]; apply KeepsIn.of) | apply recordAccess_keeps | apply failPlan_keeps | dsimp only

theorem Mod.pumpEngine_keeps {orig m : Mod} (e : Nat) (k_ : Nat) (h : Mod.Keeps orig m) : Mod.Keeps orig (Mod.pumpEngine m e k_) := by
  induction k_ generalizing m with
  | zero =>
    unfold Mod.pumpEngine
    with_reducible repeat' first
      | intro _ | assumption | apply ih | (simp only [Keeps.mk_iff]; apply KeepsIn.of) | apply updEngine_keeps | apply sendFlow_keeps | apply touchRead_keeps
      | apply sourceFail_keeps | apply Keeps.ite | apply KeepsOr.ok | apply KeepsOr.error | apply KeepsOr.ite | split | dsimp only
  | succ n_ ih =>
    unfold Mod.pumpEngine
    with_reducible repeat' first
      | intro _ | assumption | apply ih | (simp only [Keeps.mk_iff]; apply KeepsIn.of) | apply updEngine_keeps | apply sendFlow_keeps | apply touchRead_keeps
      | apply sourceFail_keeps | apply Keeps.ite | apply KeepsOr.ok | apply KeepsOr.error | apply KeepsOr.ite | split | dsimp only

theorem Mod.leave_keeps {orig : Mod} {m : Mod} (e : Entering) (w : Word) (port : Nat) (vc : Nat) (kept : Mod.Keeps orig m) : Mod.Keeps orig (Mod.leave m e w port vc) := by
  unfold Mod.leave
  with_reducible repeat' first
    | intro _ | assumption | (simp only [Keeps.mk_iff]; apply KeepsIn.of) | apply updPort_keeps | apply sendLink_keeps | apply Keeps.ite | split
    | dsimp only

theorem Mod.routeBy_keeps {orig m n__ : Mod} {e : Entering} {w : Word} (eq_ : Mod.routeBy m e w = some n__) (h : Mod.Keeps orig m) : Mod.Keeps orig n__ := by
  unfold Mod.routeBy at eq_
  try dsimp only at eq_
  repeat' split at eq_
  all_goals (try (cases eq_))
  all_goals with_reducible repeat' first
    | intro _ | assumption | (simp only [Keeps.mk_iff]; apply KeepsIn.of) | apply demote_keeps | apply leave_keeps | apply Keeps.ite | split
    | dsimp only

theorem Mod.routeBy_getD_keeps {orig m d_ : Mod} (e : Entering) (w : Word) (h : Mod.Keeps orig m) (k : Mod.Keeps orig d_) : Mod.Keeps orig ((Mod.routeBy m e w).getD d_) := by
  cases e_ : Mod.routeBy m e w with
  | none => exact k
  | some n => exact Mod.routeBy_keeps e_ h

theorem Mod.dropNoRoute_keeps {orig : Mod} {m : Mod} (e : Entering) (kept : Mod.Keeps orig m) : Mod.Keeps orig (Mod.dropNoRoute m e) := by
  unfold Mod.dropNoRoute
  with_reducible repeat' first
    | intro _ | assumption | (simp only [Keeps.mk_iff]; apply KeepsIn.of) | apply updEd_keeps | apply failPlan_keeps | apply Keeps.ite | split
    | dsimp only

theorem Mod.dropMalformed_keeps {orig : Mod} {m : Mod} (e : Entering) (kept : Mod.Keeps orig m) : Mod.Keeps orig (Mod.dropMalformed m e) := by
  unfold Mod.dropMalformed
  with_reducible repeat' first
    | intro _ | assumption | (simp only [Keeps.mk_iff]; apply KeepsIn.of) | apply portMalformed_keeps | split | dsimp only

theorem Mod.routeOut_keeps {orig : Mod} {m : Mod} (own : Nat) (e : Entering) (kept : Mod.Keeps orig m) : Mod.Keeps orig (Mod.routeOut m own e) := by
  unfold Mod.routeOut
  with_reducible repeat' first
    | intro _ | assumption | (simp only [Keeps.mk_iff]; apply KeepsIn.of) | apply leave_keeps | (refine routeBy_keeps (by assumption) ?_)
    | apply routeBy_getD_keeps | apply dropNoRoute_keeps | split | dsimp only

theorem Mod.lookup_keeps {orig : Mod} {m : Mod} (e : Entering) (kept : Mod.Keeps orig m) : Mod.Keeps orig (Mod.lookup m e) := by
  unfold Mod.lookup
  with_reducible repeat' first
    | intro _ | assumption | (simp only [Keeps.mk_iff]; apply KeepsIn.of) | apply malformed_keeps | apply updEd_keeps | apply arrive_keeps
    | apply dropMalformed_keeps | apply routeOut_keeps | apply Keeps.ite | split | dsimp only

theorem Mod.sendAck_keeps {orig : Mod} {m : Mod} (f : RxFlow) (kept : Mod.Keeps orig m) : Mod.Keeps orig (Mod.sendAck m f) := by
  unfold Mod.sendAck
  with_reducible repeat' first
    | intro _ | assumption | (simp only [Keeps.mk_iff]; apply KeepsIn.of) | apply enter_keeps | apply Keeps.ite | split | dsimp only

theorem Mod.sendNack_keeps {orig : Mod} {m : Mod} (f : RxFlow) (seq reason : Nat) (kept : Mod.Keeps orig m) : Mod.Keeps orig (Mod.sendNack m f seq reason) := by
  unfold Mod.sendNack
  with_reducible repeat' first
    | intro _ | assumption | (simp only [Keeps.mk_iff]; apply KeepsIn.of) | apply enter_keeps | apply Keeps.ite | split | dsimp only

theorem Mod.setRxFlow_keeps {orig : Mod} {m : Mod} (f : RxFlow) (kept : Mod.Keeps orig m) : Mod.Keeps orig (Mod.setRxFlow m f) := by
  unfold Mod.setRxFlow
  with_reducible repeat' first
    | intro _ | assumption | (simp only [Keeps.mk_iff]; apply KeepsIn.of) | split | dsimp only

theorem Mod.inFlow_keeps {b m : Mod} (e : Entering) (effect : Mod → Except (Nat × Mod) Mod) (h : Mod.Keeps b m)
    (k : ∀ m, Mod.Keeps b m → Mod.KeepsOr b (effect m)) : Mod.Keeps b (m.inFlow e effect) := by
  unfold Mod.inFlow
  with_reducible repeat' first
    | intro _ | assumption | (simp only [Keeps.mk_iff]; apply KeepsIn.of) | apply sendAck_keeps | apply setRxFlow_keeps | apply sendNack_keeps
    | (refine KeepsOr.of_ok (by assumption) (k _ ?_)) | (refine KeepsOr.of_error (by assumption) (k _ ?_)) | apply Keeps.ite | apply Keeps.foldl
    | apply KeepsOr.ok | apply KeepsOr.error | apply KeepsOr.ite | split | dsimp only

theorem Mod.arrival_keeps {orig m n__ : Mod} {ed kind : Nat} {x0_ : Entering} (eq_ : Mod.arrival m ed kind = some (x0_, n__)) (h : Mod.Keeps orig m) : Mod.Keeps orig n__ := by
  unfold Mod.arrival at eq_
  try dsimp only at eq_
  repeat' split at eq_
  all_goals (first | (cases eq_) | (try (have q_ := congrArg Prod.fst (Option.some.inj eq_); dsimp only at q_; subst q_)))
  all_goals with_reducible repeat' first
    | intro _ | assumption | (simp only [Keeps.mk_iff]; apply KeepsIn.of) | split | dsimp only

theorem Mod.serve_keeps {b m : Mod} (ed kind : Nat) (effect : Entering → SectorId → Mod → Except (Nat × Mod) Mod) (h : Mod.Keeps b m)
    (k : ∀ e s m, Mod.Keeps b m → Mod.KeepsOr b (effect e s m)) : Mod.Keeps b (m.serve ed kind effect) := by
  unfold Mod.serve
  with_reducible repeat' first
    | intro _ | assumption | (simp only [Keeps.mk_iff]; apply KeepsIn.of) | (refine arrival_keeps (by assumption) ?_)
    | (refine inFlow_keeps _ _ ?_ (k _ _)) | apply updEd_keeps | apply Keeps.ite | apply Keeps.foldl | apply KeepsOr.ok | apply KeepsOr.error
    | apply KeepsOr.ite | split | dsimp only

theorem Mod.countArrival_keeps {orig : Mod} {m : Mod} (e : Entering) (kept : Mod.Keeps orig m) : Mod.Keeps orig (Mod.countArrival m e) := by
  unfold Mod.countArrival
  with_reducible repeat' first
    | intro _ | assumption | (simp only [Keeps.mk_iff]; apply KeepsIn.of) | apply updEngine_keeps | apply arrive_keeps | split | dsimp only

theorem Mod.refuseAddr_keeps {orig m : Mod} (ed agent : Nat) (s : SectorId) (err : AccErr) (addr : Nat) (h : Mod.Keeps orig m) : Mod.Keeps orig (Mod.refuseAddr m ed agent s err addr).2 := by
  unfold Mod.refuseAddr
  with_reducible repeat' first
    | assumption | (simp only [Keeps.mk_iff]; apply KeepsIn.of) | apply recordAccess_keeps | dsimp only

theorem Mod.reduceLines_keeps {orig m n__ : Mod} {sec : SectorId} {op : RedOp} {wide : Bool} {addr : Nat} {k_ : Nat} {l_ : List Byte} (eq_ : Mod.reduceLines m sec op wide addr k_ l_ = .ok n__) (h : Mod.Keeps orig m) : Mod.Keeps orig n__ := by
  induction k_ generalizing m l_ addr with
  | zero =>
    unfold Mod.reduceLines at eq_
    try dsimp only at eq_
    repeat' split at eq_
    all_goals (try (cases eq_))
    all_goals with_reducible repeat' first
      | intro _ | assumption | (refine ih (by assumption) ?_) | (simp only [Keeps.mk_iff]; apply KeepsIn.of) | apply touchRead_keeps | (refine reduceInto_keeps (by assumption) ?_)
      | apply KeepsOr.ok | apply KeepsOr.error | apply KeepsOr.ite | split | dsimp only
  | succ n_ ih =>
    unfold Mod.reduceLines at eq_
    try dsimp only at eq_
    repeat' split at eq_
    all_goals (try (cases eq_))
    all_goals with_reducible repeat' first
      | intro _ | assumption | (refine ih (by assumption) ?_) | (simp only [Keeps.mk_iff]; apply KeepsIn.of) | apply touchRead_keeps | (refine reduceInto_keeps (by assumption) ?_)
      | apply KeepsOr.ok | apply KeepsOr.error | apply KeepsOr.ite | split | dsimp only

theorem Mod.enginePost_keeps {orig : Mod} {m : Mod} (e counter incr : Nat) (kept : Mod.Keeps orig m) : Mod.Keeps orig (Mod.enginePost m e counter incr) := by
  unfold Mod.enginePost
  with_reducible repeat' first
    | intro _ | assumption | (simp only [Keeps.mk_iff]; apply KeepsIn.of) | apply updEngine_keeps | apply Keeps.ite | split | dsimp only

theorem Mod.signal_keeps {orig : Mod} {m : Mod} (sector : Option SectorId) (agent : Nat) (w : Word) (kept : Mod.Keeps orig m) : Mod.Keeps orig (Mod.signal m sector agent w) := by
  unfold Mod.signal
  with_reducible repeat' first
    | intro _ | assumption | (simp only [Keeps.mk_iff]; apply KeepsIn.of) | apply sendPost_keeps | apply enginePost_keeps | apply Keeps.ite | split
    | dsimp only

theorem Mod.stepDone_keeps {orig : Mod} {m : Mod} (e next : Nat) (kept : Mod.Keeps orig m) : Mod.Keeps orig (Mod.stepDone m e next) := by
  unfold Mod.stepDone
  with_reducible repeat' first
    | intro _ | assumption | (simp only [Keeps.mk_iff]; apply KeepsIn.of) | apply updEngine_keeps | apply running_keeps | apply settlePlan_keeps
    | split | dsimp only

theorem Mod.startTransfer_keeps {orig : Mod} {m : Mod} (e op : Nat) (kept : Mod.Keeps orig m) : Mod.Keeps orig (Mod.startTransfer m e op) := by
  unfold Mod.startTransfer
  with_reducible repeat' first
    | intro _ | assumption | (simp only [Keeps.mk_iff]; apply KeepsIn.of) | apply setEngine_keeps | apply settlePlan_keeps | apply failPlan_keeps
    | apply pumpEngine_keeps | apply Keeps.ite | split | dsimp only

theorem Mod.stepTake_keeps {orig : Mod} {m : Mod} (e : Nat) (ws : List Word) (kept : Mod.Keeps orig m) : Mod.Keeps orig (Mod.stepTake m e ws) := by
  unfold Mod.stepTake
  with_reducible repeat' first
    | intro _ | assumption | (simp only [Keeps.mk_iff]; apply KeepsIn.of) | apply setEngine_keeps | apply sendPost_keeps | apply arrive_keeps
    | apply stepDone_keeps | apply Keeps.ite | split | dsimp only

theorem Mod.startWait_keeps {orig : Mod} {m : Mod} (e op : Nat) (kept : Mod.Keeps orig m) : Mod.Keeps orig (Mod.startWait m e op) := by
  unfold Mod.startWait
  with_reducible repeat' first
    | intro _ | assumption | (simp only [Keeps.mk_iff]; apply KeepsIn.of) | apply updEngine_keeps | apply stepTake_keeps | apply Keeps.ite | split
    | dsimp only

theorem Mod.endBooking_keeps {orig : Mod} {m : Mod} (ed i status : Nat) (kept : Mod.Keeps orig m) : Mod.Keeps orig (Mod.endBooking m ed i status) := by
  unfold Mod.endBooking
  with_reducible repeat' first
    | intro _ | assumption | (simp only [Keeps.mk_iff]; apply KeepsIn.of) | apply updEd_keeps | apply endCmd_keeps | apply Keeps.foldl | split
    | dsimp only

theorem Mod.updBooking_keeps {orig : Mod} {m : Mod} (ed i : Nat) (f : Booking → Booking) (kept : Mod.Keeps orig m) : Mod.Keeps orig (Mod.updBooking m ed i f) := by
  unfold Mod.updBooking
  with_reducible repeat' first
    | intro _ | assumption | (simp only [Keeps.mk_iff]; apply KeepsIn.of) | apply updEd_keeps | split | dsimp only

theorem Mod.revoke_keeps {orig m : Mod} (ed port cap : Nat) (k_ : List (Nat × Booking)) (h : Mod.Keeps orig m) : Mod.Keeps orig (Mod.revoke m ed port cap k_) := by
  induction k_ generalizing m with
  | nil =>
    unfold Mod.revoke
    with_reducible repeat' first
      | intro _ | assumption | apply ih | (simp only [Keeps.mk_iff]; apply KeepsIn.of) | apply rest_keeps | apply endBooking_keeps | apply Keeps.ite | split
      | dsimp only
  | cons q_ r_ ih =>
    unfold Mod.revoke
    with_reducible repeat' first
      | intro _ | assumption | apply ih | (simp only [Keeps.mk_iff]; apply KeepsIn.of) | apply rest_keeps | apply endBooking_keeps | apply Keeps.ite | split
      | dsimp only

theorem Mod.portCap_keeps {orig : Mod} {m : Mod} (port : Nat) (kept : Mod.Keeps orig m) : Mod.Keeps orig (Mod.portCap m port) := by
  unfold Mod.portCap
  with_reducible repeat' first
    | intro _ | assumption | (simp only [Keeps.mk_iff]; apply KeepsIn.of) | apply updEd_keeps | apply updPort_keeps | apply endBooking_keeps
    | apply revoke_keeps | apply Keeps.ite | apply Keeps.foldl | split | dsimp only

theorem Mod.portFloors_keeps {orig : Mod} {m : Mod} (port : Nat) (kept : Mod.Keeps orig m) : Mod.Keeps orig (Mod.portFloors m port) := by
  unfold Mod.portFloors
  with_reducible repeat' first
    | intro _ | assumption | (simp only [Keeps.mk_iff]; apply KeepsIn.of) | apply updEd_keeps | apply Keeps.ite | apply Keeps.foldl | split
    | dsimp only

theorem Mod.portFrame_keeps {orig : Mod} {m : Mod} (port : Nat) (kept : Mod.Keeps orig m) : Mod.Keeps orig (Mod.portFrame m port) := by
  unfold Mod.portFrame
  with_reducible repeat' first
    | intro _ | assumption | (simp only [Keeps.mk_iff]; apply KeepsIn.of) | apply updPort_keeps | split | dsimp only

/-! ## RegMap -/

theorem Mod.waysChanged_keeps {orig : Mod} {m : Mod} (site : Nat) (old new : Word) (kept : Mod.Keeps orig m) : Mod.Keeps orig (Mod.waysChanged m site old new) := by
  unfold Mod.waysChanged
  with_reducible repeat' first
    | intro _ | assumption | (simp only [Keeps.mk_iff]; apply KeepsIn.of) | apply setSlice_keeps | split | dsimp only

theorem Mod.keepBucket_keeps {b m : Mod} (site off : Nat) (old : Mod) (h : Mod.Keeps b m) : Mod.Keeps b (m.keepBucket site off old) := by
  unfold Mod.keepBucket
  split
  · exact Mod.setBucket_keeps _ _ _ h
  · exact h

theorem Mod.writeBits_keeps {orig : Mod} {m : Mod} (site off : Nat) (d : RegDef) (mask value : Word) (kept : Mod.Keeps orig m) : Mod.Keeps orig (Mod.writeBits m site off d mask value) := by
  unfold Mod.writeBits
  with_reducible repeat' first
    | intro _ | assumption | (simp only [Keeps.mk_iff]; apply KeepsIn.of) | apply setReg_keeps | apply waysChanged_keeps | apply keepBucket_keeps
    | apply Keeps.ite | split | dsimp only

/-! ## Routes -/

theorem Mod.meshPath_keeps {orig m : Mod} (ordered : Bool) (a b : Nat) (h : Mod.Keeps orig m) : Mod.Keeps orig (Mod.meshPath m ordered a b).2 := by
  unfold Mod.meshPath
  with_reducible repeat' first
    | intro _ | assumption | (simp only [Keeps.mk_iff]; apply KeepsIn.of) | apply takeFree_keeps | apply Keeps.ite | split | dsimp only

/-! ## Regions -/

theorem Mod.writeRegion_keeps {orig : Mod} {m : Mod} (n : Nat) (r : Region) (kept : Mod.Keeps orig m) : Mod.Keeps orig (Mod.writeRegion m n r) := by
  unfold Mod.writeRegion
  with_reducible repeat' first
    | intro _ | assumption | (simp only [Keeps.mk_iff]; apply KeepsIn.of) | apply setRegion_keeps | apply Keeps.ite | split | dsimp only

theorem Mod.dropMoved_keeps {orig : Mod} {m : Mod} (n : Nat) (olds : List (Nat × Region × List Nat)) (kept : Mod.Keeps orig m) : Mod.Keeps orig (Mod.dropMoved m n olds) := by
  unfold Mod.dropMoved
  with_reducible repeat' first
    | intro _ | assumption | (simp only [Keeps.mk_iff]; apply KeepsIn.of) | apply forget_keeps | apply Keeps.ite | split | dsimp only

theorem Mod.outChannel_keeps {orig : Mod} {m : Mod} (ch : Nat) (kept : Mod.Keeps orig m) : Mod.Keeps orig (Mod.outChannel m ch) := by
  unfold Mod.outChannel
  with_reducible repeat' first
    | intro _ | assumption | (simp only [Keeps.mk_iff]; apply KeepsIn.of) | apply setCtl_keeps | split | dsimp only

theorem Mod.settleDrains_keeps {orig : Mod} {m : Mod} (kept : Mod.Keeps orig m) : Mod.Keeps orig (Mod.settleDrains m) := by
  unfold Mod.settleDrains
  with_reducible repeat' first
    | intro _ | assumption | (simp only [Keeps.mk_iff]; apply KeepsIn.of) | apply endCmd_keeps | apply Keeps.ite | apply Keeps.foldl | split
    | dsimp only

theorem Mod.tellError_keeps {orig : Mod} {m : Mod} (r : Requester) (tag : Nat) (e : AccErr) (pa : Nat) (kept : Mod.Keeps orig m) : Mod.Keeps orig (Mod.tellError m r tag e pa) := by
  unfold Mod.tellError
  with_reducible repeat' first
    | intro _ | assumption | (simp only [Keeps.mk_iff]; apply KeepsIn.of) | apply emit_keeps | apply guestAnswer_keeps | apply coreFaultBy_keeps
    | apply coreFault_keeps | apply failPlan_keeps | apply Keeps.ite | split | dsimp only

theorem Mod.serveTxn_keeps {orig m : Mod} (t : Txn) (h : Mod.Keeps orig m) : Mod.Keeps orig (Mod.serveTxn m t).1 := by
  unfold Mod.serveTxn
  with_reducible repeat' first
    | intro _ | assumption | (simp only [Keeps.mk_iff]; apply KeepsIn.of) | apply channelRead_keeps | apply writeHinted_keeps | apply Keeps.ite
    | split | dsimp only

theorem Mod.txnFail_keeps {orig : Mod} {m : Mod} (t : Txn) (e : AccErr) (kept : Mod.Keeps orig m) : Mod.Keeps orig (Mod.txnFail m t e) := by
  unfold Mod.txnFail
  with_reducible repeat' first
    | assumption | (simp only [Keeps.mk_iff]; apply KeepsIn.of) | apply recordAccess_keeps | apply tellError_keeps | dsimp only

theorem Mod.perform_keeps {orig : Mod} {m : Mod} (t : Txn) (a : TxnAct) (kept : Mod.Keeps orig m) : Mod.Keeps orig (Mod.perform m t a) := by
  unfold Mod.perform
  with_reducible repeat' first
    | intro _ | assumption | (simp only [Keeps.mk_iff]; apply KeepsIn.of) | apply emit_keeps | apply guestAnswer_keeps | apply recordAccess_keeps
    | apply rest_keeps | apply channelRead_keeps | apply writeBeat_keeps | (refine atomicAt_keeps (by assumption) ?_) | apply txnFail_keeps
    | apply Keeps.ite | apply Keeps.foldl | apply KeepsOr.ok | apply KeepsOr.error | apply KeepsOr.ite | split | dsimp only

theorem Mod.serveRequest_keeps {orig : Mod} {m : Mod} (t : Txn) (kept : Mod.Keeps orig m) : Mod.Keeps orig (Mod.serveRequest m t) := by
  unfold Mod.serveRequest
  with_reducible repeat' first
    | intro _ | assumption | (simp only [Keeps.mk_iff]; apply KeepsIn.of) | apply serveTxn_keeps | apply perform_keeps | apply Keeps.ite | split
    | dsimp only

theorem Mod.admitTxn_keeps {orig : Mod} {m : Mod} (t : Txn) (kept : Mod.Keeps orig m) : Mod.Keeps orig (Mod.admitTxn m t) := by
  unfold Mod.admitTxn
  with_reducible repeat' first
    | intro _ | assumption | (simp only [Keeps.mk_iff]; apply KeepsIn.of) | (refine passNow_keeps (by assumption) ?_) | apply passNow_getD_keeps
    | apply serveRequest_keeps | split | dsimp only

theorem Mod.readyTxn_keeps {b m n : Mod} {t : Txn} (eq_ : m.readyTxn = some (t, n)) (h : Mod.Keeps b m) : Mod.Keeps b n := by
  unfold Mod.readyTxn at eq_
  dsimp only at eq_
  obtain ⟨i, _, e⟩ := List.exists_of_findSome?_eq_some eq_
  rw [Option.map_eq_some_iff] at e
  obtain ⟨y, e, q⟩ := e
  cases q
  exact Mod.pass_keeps e h

theorem Mod.drainTxns_keeps {b m : Mod} (n : Nat) (h : Mod.Keeps b m) : Mod.Keeps b (Mod.drainTxns n m) := by
  induction n generalizing m with
  | zero => exact h
  | succ n ih =>
    unfold Mod.drainTxns
    split
    · exact h
    · next e =>
      apply ih
      apply Mod.serveRequest_keeps
      simp only [Mod.Keeps.mk_iff]
      exact Mod.KeepsIn.of (Mod.readyTxn_keeps e h)

theorem Mod.leaveRouter_keeps {orig : Mod} {m : Mod} (r : Requester) (tag outerTag : Nat) (sector : Option SectorId) (mooring : Option Nat) (hint pa : Nat) (cells : List Nat) (write : Option (List Byte)) (act : Option TxnAct) (kept : Mod.Keeps orig m) : Mod.Keeps orig (Mod.leaveRouter m r tag outerTag sector mooring hint pa cells write act) := by
  unfold Mod.leaveRouter
  with_reducible repeat' first
    | assumption | (simp only [Keeps.mk_iff]; apply KeepsIn.of) | apply meshPath_keeps | apply admitTxn_keeps | dsimp only

theorem Mod.issueRequest_keeps {orig : Mod} {m : Mod} (tag : Nat) (w : TagWait) (kept : Mod.Keeps orig m) : Mod.Keeps orig (Mod.issueRequest m tag w) := by
  unfold Mod.issueRequest
  with_reducible repeat' first
    | intro _ | assumption | (simp only [Keeps.mk_iff]; apply KeepsIn.of) | apply recordAccess_keeps | apply tellError_keeps
    | apply leaveRouter_keeps | apply KeepsOr.ok | apply KeepsOr.error | apply KeepsOr.ite | split | dsimp only

theorem Mod.request_keeps {orig : Mod} {m : Mod} (r : Requester) (sector : Option SectorId) (mooring : Option Nat) (hint : Nat) (outerTag : Option Nat) (pa n : Nat) (write : Option (List Byte)) (act : Option TxnAct) (kept : Mod.Keeps orig m) : Mod.Keeps orig (Mod.request m r sector mooring hint outerTag pa n write act) := by
  unfold Mod.request
  with_reducible repeat' first
    | intro _ | assumption | (simp only [Keeps.mk_iff]; apply KeepsIn.of) | apply issueRequest_keeps | apply Keeps.ite | split | dsimp only

theorem Mod.tagFreed_keeps {orig : Mod} {m : Mod} (r : Requester) (kept : Mod.Keeps orig m) : Mod.Keeps orig (Mod.tagFreed m r) := by
  unfold Mod.tagFreed
  with_reducible repeat' first
    | intro _ | assumption | (simp only [Keeps.mk_iff]; apply KeepsIn.of) | apply issueRequest_keeps | apply Keeps.ite | split | dsimp only

theorem Mod.sendUpstream_keeps {orig : Mod} {m : Mod} (u : Upstream) (tag : Nat) (kept : Mod.Keeps orig m) : Mod.Keeps orig (Mod.sendUpstream m u tag) := by
  unfold Mod.sendUpstream
  with_reducible repeat' first
    | assumption | (simp only [Keeps.mk_iff]; apply KeepsIn.of) | apply emit_keeps | dsimp only

theorem Mod.sendWaiting_keeps {orig : Mod} {m : Mod} (port : Nat) (kept : Mod.Keeps orig m) : Mod.Keeps orig (Mod.sendWaiting m port) := by
  unfold Mod.sendWaiting
  with_reducible repeat' first
    | intro _ | assumption | (simp only [Keeps.mk_iff]; apply KeepsIn.of) | apply updPcie_keeps | apply tellError_keeps | apply sendUpstream_keeps
    | apply Keeps.ite | split | dsimp only

theorem Mod.recordStack_keeps {orig : Mod} {m : Mod} (stack code : Nat) (kept : Mod.Keeps orig m) : Mod.Keeps orig (Mod.recordStack m stack code) := by
  unfold Mod.recordStack
  with_reducible repeat' first
    | assumption | (simp only [Keeps.mk_iff]; apply KeepsIn.of) | apply record_keeps | dsimp only

/-! ## Coherence -/

theorem Mod.recordHolders_keeps {orig : Mod} {m : Mod} (line : Nat) (kept : Mod.Keeps orig m) : Mod.Keeps orig (Mod.recordHolders m line) := by
  unfold Mod.recordHolders
  with_reducible repeat' first
    | intro _ | assumption | (simp only [Keeps.mk_iff]; apply KeepsIn.of) | apply setGroups_keeps | apply Keeps.ite | apply Keeps.foldl | split
    | dsimp only

theorem Mod.dropReservation_keeps {orig : Mod} {m : Mod} (agent line : Nat) (kept : Mod.Keeps orig m) : Mod.Keeps orig (Mod.dropReservation m agent line) := by
  unfold Mod.dropReservation
  with_reducible repeat' first
    | intro _ | assumption | (simp only [Keeps.mk_iff]; apply KeepsIn.of) | apply setPdCore_keeps | apply Keeps.ite | split | dsimp only

theorem Mod.install_keeps {orig : Mod} {m : Mod} (agent line : Nat) (st : LineSt) (kept : Mod.Keeps orig m) : Mod.Keeps orig (Mod.install m agent line st) := by
  unfold Mod.install
  with_reducible repeat' first
    | intro _ | assumption | (simp only [Keeps.mk_iff]; apply KeepsIn.of) | apply dropCarried_keeps | apply filterAdd_keeps
    | apply recordHolders_keeps | apply dropReservation_keeps | apply Keeps.ite | split | dsimp only

theorem Mod.setWindow_keeps {orig : Mod} {m : Mod} (agent : Nat) (window reservation : Option Nat) (kept : Mod.Keeps orig m) : Mod.Keeps orig (Mod.setWindow m agent window reservation) := by
  unfold Mod.setWindow
  with_reducible repeat' first
    | assumption | (simp only [Keeps.mk_iff]; apply KeepsIn.of) | apply setPdCore_keeps | dsimp only

theorem Mod.coreOp_keeps {orig : Mod} {m : Mod} (a : AgentId) (line pa : Nat) (op : CoreOp) (kept : Mod.Keeps orig m) : Mod.Keeps orig (Mod.coreOp m a line pa op) := by
  unfold Mod.coreOp
  with_reducible repeat' first
    | intro _ | assumption | (simp only [Keeps.mk_iff]; apply KeepsIn.of) | apply emit_keeps | apply recordAccess_keeps | apply tellError_keeps
    | apply setWindow_keeps | apply Keeps.ite | split | dsimp only

theorem Mod.ackEvictions_keeps {orig : Mod} {m : Mod} (line : Nat) (kept : Mod.Keeps orig m) : Mod.Keeps orig (Mod.ackEvictions m line) := by
  unfold Mod.ackEvictions
  with_reducible repeat' first
    | intro _ | assumption | (simp only [Keeps.mk_iff]; apply KeepsIn.of) | apply restBack_keeps | apply Keeps.ite | split | dsimp only

theorem Mod.agentFail_keeps {orig : Mod} {m : Mod} (a : AgentId) (sector : Option SectorId) (e : AccErr) (pa : Nat) (kept : Mod.Keeps orig m) : Mod.Keeps orig (Mod.agentFail m a sector e pa) := by
  unfold Mod.agentFail
  with_reducible repeat' first
    | assumption | (simp only [Keeps.mk_iff]; apply KeepsIn.of) | apply recordAccess_keeps | apply tellError_keeps | dsimp only

theorem Mod.grantOwned_keeps {orig : Mod} {m : Mod} (w : HomeWait) (a : AgentId) (supplied : Bool) (op : Option CoreOp) (kept : Mod.Keeps orig m) : Mod.Keeps orig (Mod.grantOwned m w a supplied op) := by
  unfold Mod.grantOwned
  with_reducible repeat' first
    | intro _ | assumption | (simp only [Keeps.mk_iff]; apply KeepsIn.of) | apply channelRead_keeps | apply install_keeps | apply coreOp_keeps
    | apply agentFail_keeps | apply Keeps.ite | split | dsimp only

theorem Mod.grant_keeps {orig : Mod} {m : Mod} (w : HomeWait) (supplied : Bool) (kept : Mod.Keeps orig m) : Mod.Keeps orig (Mod.grant m w supplied) := by
  unfold Mod.grant
  with_reducible repeat' first
    | intro _ | assumption | (simp only [Keeps.mk_iff]; apply KeepsIn.of) | apply channelRead_keeps | apply install_keeps | apply agentFail_keeps
    | apply grantOwned_keeps | apply Keeps.ite | split | dsimp only

theorem Mod.recallTo_keeps {orig : Mod} {m : Mod} (line : Nat) (inval : Bool) (kept : Mod.Keeps orig m) : Mod.Keeps orig (Mod.recallTo m line inval) := by
  unfold Mod.recallTo
  with_reducible repeat' first
    | intro _ | assumption | (simp only [Keeps.mk_iff]; apply KeepsIn.of) | apply dropCarried_keeps | apply restBack_keeps | apply recall_keeps
    | apply Keeps.ite | split | dsimp only

theorem Mod.ncFail_keeps {orig : Mod} {m : Mod} (r : Requester) (sector : Option SectorId) (e : AccErr) (pa : Nat) (kept : Mod.Keeps orig m) : Mod.Keeps orig (Mod.ncFail m r sector e pa) := by
  unfold Mod.ncFail
  with_reducible repeat' first
    | assumption | (simp only [Keeps.mk_iff]; apply KeepsIn.of) | apply recordAccess_keeps | apply tellError_keeps | dsimp only

theorem Mod.serveNow_keeps {orig : Mod} {m : Mod} (w : HomeWait) (supplied : Bool) (kept : Mod.Keeps orig m) : Mod.Keeps orig (Mod.serveNow m w supplied) := by
  unfold Mod.serveNow
  with_reducible repeat' first
    | intro _ | assumption | (simp only [Keeps.mk_iff]; apply KeepsIn.of) | apply emit_keeps | apply channelRead_keeps | apply writeHinted_keeps
    | apply writeBeat_keeps | (refine atomicAt_keeps (by assumption) ?_) | (refine reduceAt_keeps (by assumption) ?_) | apply grant_keeps
    | apply recallTo_keeps | apply ncFail_keeps | apply Keeps.ite | apply Keeps.foldl | apply KeepsOr.ok | apply KeepsOr.error | apply KeepsOr.ite
    | split | dsimp only

theorem Mod.chargeWait_keeps {orig m n__ : Mod} {w : HomeWait} (eq_ : Mod.chargeWait m w = some n__) (h : Mod.Keeps orig m) : Mod.Keeps orig n__ := by
  unfold Mod.chargeWait at eq_
  try dsimp only at eq_
  repeat' split at eq_
  all_goals (try (cases eq_))
  all_goals with_reducible repeat' first
    | intro _ | assumption | (simp only [Keeps.mk_iff]; apply KeepsIn.of) | (refine charge_keeps (by assumption) ?_) | apply Keeps.ite | split
    | dsimp only

theorem Mod.chargeWait_getD_keeps {orig m d_ : Mod} (w : HomeWait) (h : Mod.Keeps orig m) (k : Mod.Keeps orig d_) : Mod.Keeps orig ((Mod.chargeWait m w).getD d_) := by
  cases e_ : Mod.chargeWait m w with
  | none => exact k
  | some n => exact Mod.chargeWait_keeps e_ h

theorem Mod.openTxn_keeps {orig : Mod} {m : Mod} (w : HomeWait) (kept : Mod.Keeps orig m) : Mod.Keeps orig (Mod.openTxn m w) := by
  unfold Mod.openTxn
  with_reducible repeat' first
    | intro _ | assumption | (simp only [Keeps.mk_iff]; apply KeepsIn.of) | apply setTxn_keeps | apply filterAdd_keeps | apply ackEvictions_keeps
    | apply serveNow_keeps | (refine chargeWait_keeps (by assumption) ?_) | apply chargeWait_getD_keeps | apply Keeps.ite | split | dsimp only

theorem Mod.drainHome_keeps {orig m : Mod} (md : Nat) (k_ : Nat) (h : Mod.Keeps orig m) : Mod.Keeps orig (Mod.drainHome m md k_) := by
  induction k_ generalizing m with
  | zero =>
    unfold Mod.drainHome
    with_reducible repeat' first
      | intro _ | assumption | apply ih | (simp only [Keeps.mk_iff]; apply KeepsIn.of) | apply setSlice_keeps | apply openTxn_keeps | split | dsimp only
  | succ n_ ih =>
    unfold Mod.drainHome
    with_reducible repeat' first
      | intro _ | assumption | apply ih | (simp only [Keeps.mk_iff]; apply KeepsIn.of) | apply setSlice_keeps | apply openTxn_keeps | split | dsimp only

theorem Mod.answerSnoop_keeps {orig : Mod} {m : Mod} (line agent : Nat) (t : HomeTxn) (evicting : Bool) (kept : Mod.Keeps orig m) : Mod.Keeps orig (Mod.answerSnoop m line agent t evicting) := by
  unfold Mod.answerSnoop
  with_reducible repeat' first
    | intro _ | assumption | (simp only [Keeps.mk_iff]; apply KeepsIn.of) | apply setTxn_keeps | apply dropReservation_keeps | apply Keeps.ite
    | split | dsimp only

theorem Mod.answerFreed_keeps {orig : Mod} {m : Mod} (kept : Mod.Keeps orig m) : Mod.Keeps orig (Mod.answerFreed m) := by
  unfold Mod.answerFreed
  with_reducible repeat' first
    | intro _ | assumption | (simp only [Keeps.mk_iff]; apply KeepsIn.of) | apply answerSnoop_keeps | apply Keeps.foldl | split | dsimp only

theorem Mod.resume_keeps {orig : Mod} {m : Mod} (kept : Mod.Keeps orig m) : Mod.Keeps orig (Mod.resume m) := by
  unfold Mod.resume
  with_reducible repeat' first
    | intro _ | assumption | (simp only [Keeps.mk_iff]; apply KeepsIn.of) | apply settleDrains_keeps | apply drainTxns_keeps | apply drainHome_keeps
    | apply answerFreed_keeps | apply Keeps.foldl | split | dsimp only

theorem Mod.homeRequest_keeps {orig : Mod} {m : Mod} (w : HomeWait) (kept : Mod.Keeps orig m) : Mod.Keeps orig (Mod.homeRequest m w) := by
  unfold Mod.homeRequest
  with_reducible repeat' first
    | intro _ | assumption | (simp only [Keeps.mk_iff]; apply KeepsIn.of) | apply setSlice_keeps | apply openTxn_keeps | apply Keeps.ite | split
    | dsimp only

theorem Mod.closeTxn_keeps {orig : Mod} {m : Mod} (line : Nat) (kept : Mod.Keeps orig m) : Mod.Keeps orig (Mod.closeTxn m line) := by
  unfold Mod.closeTxn
  with_reducible repeat' first
    | intro _ | assumption | (simp only [Keeps.mk_iff]; apply KeepsIn.of) | apply setTxn_keeps | apply restBack_keeps | split | dsimp only

theorem Mod.tryComplete_keeps {orig : Mod} {m : Mod} (line : Nat) (kept : Mod.Keeps orig m) : Mod.Keeps orig (Mod.tryComplete m line) := by
  unfold Mod.tryComplete
  with_reducible repeat' first
    | intro _ | assumption | (simp only [Keeps.mk_iff]; apply KeepsIn.of) | apply setTxn_keeps | apply ackEvictions_keeps | apply serveNow_keeps
    | apply resume_keeps | apply closeTxn_keeps | apply Keeps.ite | split | dsimp only

theorem Mod.protocolError_keeps {orig : Mod} {m : Mod} (line pa code agent : Nat) (kept : Mod.Keeps orig m) : Mod.Keeps orig (Mod.protocolError m line pa code agent) := by
  unfold Mod.protocolError
  with_reducible repeat' first
    | assumption | (simp only [Keeps.mk_iff]; apply KeepsIn.of) | apply record_keeps | dsimp only

theorem Mod.agentRequest_keeps {b m : Mod} (a : AgentId) (pa : Nat) (f : Nat → Option SectorId → Option Nat → Mod) (h : Mod.Keeps b m)
    (k : ∀ l s e, Mod.Keeps b (f l s e)) : Mod.Keeps b (m.agentRequest a pa f) := by
  unfold Mod.agentRequest
  with_reducible repeat' first
    | intro _ | assumption | (simp only [Keeps.mk_iff]; apply KeepsIn.of) | apply k | apply agentFail_keeps | apply Keeps.ite | split | dsimp only

theorem Mod.askOwnership_keeps {orig : Mod} {m : Mod} (agent : AgentId) (pa : Nat) (upgrade : Bool) (op : Option CoreOp) (kept : Mod.Keeps orig m) : Mod.Keeps orig (Mod.askOwnership m agent pa upgrade op) := by
  unfold Mod.askOwnership
  with_reducible repeat' first
    | intro _ | assumption | (simp only [Keeps.mk_iff]; apply KeepsIn.of) | apply coreOp_keeps | apply homeRequest_keeps | apply agentRequest_keeps
    | apply Keeps.ite | split | dsimp only

theorem Mod.coreAct_keeps {orig : Mod} {m : Mod} (agent : AgentId) (pa : Nat) (op : CoreOp) (kept : Mod.Keeps orig m) : Mod.Keeps orig (Mod.coreAct m agent pa op) := by
  unfold Mod.coreAct
  with_reducible repeat' first
    | assumption | (simp only [Keeps.mk_iff]; apply KeepsIn.of) | apply askOwnership_keeps | dsimp only

theorem Mod.leaveWindow_keeps {orig : Mod} {m : Mod} (agent : AgentId) (pa : Nat) (kept : Mod.Keeps orig m) : Mod.Keeps orig (Mod.leaveWindow m agent pa) := by
  unfold Mod.leaveWindow
  with_reducible repeat' first
    | intro _ | assumption | (simp only [Keeps.mk_iff]; apply KeepsIn.of) | apply setPdCore_keeps | apply resume_keeps | apply Keeps.ite | split
    | dsimp only

theorem Mod.cbo_keeps {orig : Mod} {m : Mod} (agent : AgentId) (pa : Nat) (inval : Bool) (kept : Mod.Keeps orig m) : Mod.Keeps orig (Mod.cbo m agent pa inval) := by
  unfold Mod.cbo
  with_reducible repeat' first
    | intro _ | assumption | (simp only [Keeps.mk_iff]; apply KeepsIn.of) | apply homeRequest_keeps | apply agentRequest_keeps | split | dsimp only

theorem Mod.takeWriteback_keeps {orig : Mod} {m : Mod} (line agent : Nat) (e : Eviction) (kept : Mod.Keeps orig m) : Mod.Keeps orig (Mod.takeWriteback m line agent e) := by
  unfold Mod.takeWriteback
  with_reducible repeat' first
    | intro _ | assumption | (simp only [Keeps.mk_iff]; apply KeepsIn.of) | apply setTxn_keeps | apply ackEvictions_keeps | apply resume_keeps
    | apply tryComplete_keeps | apply Keeps.ite | split | dsimp only

/-! ## Fences -/

theorem Mod.detach_keeps {orig : Mod} {m : Mod} (p : PktRef) (f : Flight) (kept : Mod.Keeps orig m) : Mod.Keeps orig (Mod.detach m p f) := by
  unfold Mod.detach
  with_reducible repeat' first
    | intro _ | assumption | (simp only [Keeps.mk_iff]; apply KeepsIn.of) | apply updQueue_keeps | apply setSet_keeps | apply updEngine_keeps
    | apply running_keeps | apply updBooking_keeps | apply Keeps.ite | split | dsimp only

theorem Mod.flushQueue_keeps {orig : Mod} {m : Mod} (q : QRef) (kept : Mod.Keeps orig m) : Mod.Keeps orig (Mod.flushQueue m q) := by
  unfold Mod.flushQueue
  with_reducible repeat' first
    | intro _ | assumption | (simp only [Keeps.mk_iff]; apply KeepsIn.of) | apply reply_keeps | apply detach_keeps | apply Keeps.foldl | split
    | dsimp only

theorem Mod.fenceReply_keeps {orig : Mod} {m : Mod} (p : PktRef) (f : Flight) (kept : Mod.Keeps orig m) : Mod.Keeps orig (Mod.fenceReply m p f) := by
  unfold Mod.fenceReply
  with_reducible repeat' first
    | intro _ | assumption | (simp only [Keeps.mk_iff]; apply KeepsIn.of) | apply updFlight_keeps | apply writeReply_keeps | split | dsimp only

theorem Mod.answerQueue_keeps {orig : Mod} {m : Mod} (q : QRef) (kept : Mod.Keeps orig m) : Mod.Keeps orig (Mod.answerQueue m q) := by
  unfold Mod.answerQueue
  with_reducible repeat' first
    | intro _ | assumption | (simp only [Keeps.mk_iff]; apply KeepsIn.of) | apply flushQueue_keeps | apply fenceReply_keeps | apply Keeps.foldl
    | split | dsimp only

theorem Mod.fenceCore_keeps {orig : Mod} {m : Mod} (id : Nat) (kept : Mod.Keeps orig m) : Mod.Keeps orig (Mod.fenceCore m id) := by
  unfold Mod.fenceCore
  with_reducible repeat' first
    | intro _ | assumption | (simp only [Keeps.mk_iff]; apply KeepsIn.of) | apply updCore_keeps | split | dsimp only

theorem Mod.fenceMoves_keeps {orig : Mod} {m : Mod} (id : Nat) (kept : Mod.Keeps orig m) : Mod.Keeps orig (Mod.fenceMoves m id) := by
  unfold Mod.fenceMoves
  with_reducible repeat' first
    | intro _ | assumption | (simp only [Keeps.mk_iff]; apply KeepsIn.of) | apply endCmd_keeps | apply Keeps.ite | apply Keeps.foldl | split
    | dsimp only

theorem Mod.answerCore_keeps {orig : Mod} {m : Mod} (id : Nat) (kept : Mod.Keeps orig m) : Mod.Keeps orig (Mod.answerCore m id) := by
  unfold Mod.answerCore
  with_reducible repeat' first
    | intro _ | assumption | (simp only [Keeps.mk_iff]; apply KeepsIn.of) | apply releaseHold_keeps | apply launchCore_keeps | apply fenceMoves_keeps
    | split | dsimp only

theorem Mod.resetCore_keeps {orig : Mod} {m : Mod} (id : Nat) (kept : Mod.Keeps orig m) : Mod.Keeps orig (Mod.resetCore m id) := by
  unfold Mod.resetCore
  with_reducible repeat' first
    | intro _ | assumption | (simp only [Keeps.mk_iff]; apply KeepsIn.of) | apply updCore_keeps | apply Keeps.ite | split | dsimp only

theorem Mod.fenceCluster_keeps {orig : Mod} {m : Mod} (c : Nat) (kept : Mod.Keeps orig m) : Mod.Keeps orig (Mod.fenceCluster m c) := by
  unfold Mod.fenceCluster
  with_reducible repeat' first
    | intro _ | assumption | (simp only [Keeps.mk_iff]; apply KeepsIn.of) | apply updCluster_keeps | apply updQueue_keeps | apply fenceCore_keeps
    | apply Keeps.ite | apply Keeps.foldl | split | dsimp only

theorem Mod.answerCluster_keeps {orig : Mod} {m : Mod} (c : Nat) (kept : Mod.Keeps orig m) : Mod.Keeps orig (Mod.answerCluster m c) := by
  unfold Mod.answerCluster
  with_reducible repeat' first
    | intro _ | assumption | (simp only [Keeps.mk_iff]; apply KeepsIn.of) | apply answerQueue_keeps | apply Keeps.foldl | split | dsimp only

theorem Mod.unfenceQueue_keeps {orig : Mod} {m : Mod} (q : QRef) (kept : Mod.Keeps orig m) : Mod.Keeps orig (Mod.unfenceQueue m q) := by
  unfold Mod.unfenceQueue
  with_reducible repeat' first
    | intro _ | assumption | (simp only [Keeps.mk_iff]; apply KeepsIn.of) | apply setQueue_keeps | apply finishDisable_keeps
    | apply settleQueues_keeps | apply Keeps.ite | split | dsimp only

theorem Mod.resetCluster_keeps {orig : Mod} {m : Mod} (c : Nat) (kept : Mod.Keeps orig m) : Mod.Keeps orig (Mod.resetCluster m c) := by
  unfold Mod.resetCluster
  with_reducible repeat' first
    | intro _ | assumption | (simp only [Keeps.mk_iff]; apply KeepsIn.of) | apply updCore_keeps | apply updCluster_keeps | apply settleSector_keeps
    | apply resetCore_keeps | apply unfenceQueue_keeps | apply Keeps.ite | apply Keeps.foldl | split | dsimp only

theorem Mod.fenceEngine_keeps {orig : Mod} {m : Mod} (e : Nat) (kept : Mod.Keeps orig m) : Mod.Keeps orig (Mod.fenceEngine m e) := by
  unfold Mod.fenceEngine
  with_reducible repeat' first
    | intro _ | assumption | (simp only [Keeps.mk_iff]; apply KeepsIn.of) | apply updEngine_keeps | split | dsimp only

theorem Mod.answerEngine_keeps {orig : Mod} {m : Mod} (e : Nat) (kept : Mod.Keeps orig m) : Mod.Keeps orig (Mod.answerEngine m e) := by
  unfold Mod.answerEngine
  with_reducible repeat' first
    | intro _ | assumption | (simp only [Keeps.mk_iff]; apply KeepsIn.of) | apply updEngine_keeps | apply endCmd_keeps | split | dsimp only

theorem Mod.resetEngine_keeps {orig : Mod} {m : Mod} (e : Nat) (kept : Mod.Keeps orig m) : Mod.Keeps orig (Mod.resetEngine m e) := by
  unfold Mod.resetEngine
  with_reducible repeat' first
    | intro _ | assumption | (simp only [Keeps.mk_iff]; apply KeepsIn.of) | apply setEngine_keeps | apply startPlan_keeps | apply settlePlan_keeps
    | apply Keeps.ite | split | dsimp only

theorem Mod.fenceEdge_keeps {orig : Mod} {m : Mod} (x : Nat) (kept : Mod.Keeps orig m) : Mod.Keeps orig (Mod.fenceEdge m x) := by
  unfold Mod.fenceEdge
  with_reducible repeat' first
    | intro _ | assumption | (simp only [Keeps.mk_iff]; apply KeepsIn.of) | apply portReset_keeps | apply fenceEngine_keeps | apply Keeps.foldl
    | split | dsimp only

theorem Mod.answerEdge_keeps {orig : Mod} {m : Mod} (x : Nat) (kept : Mod.Keeps orig m) : Mod.Keeps orig (Mod.answerEdge m x) := by
  unfold Mod.answerEdge
  with_reducible repeat' first
    | intro _ | assumption | (simp only [Keeps.mk_iff]; apply KeepsIn.of) | apply endBooking_keeps | apply answerEngine_keeps | apply Keeps.foldl
    | split | dsimp only

theorem Mod.setCompute_keeps {orig : Mod} {m : Mod} (site : Nat) (up : Bool) (kept : Mod.Keeps orig m) : Mod.Keeps orig (Mod.setCompute m site up) := by
  unfold Mod.setCompute
  with_reducible repeat' first
    | intro _ | assumption | (simp only [Keeps.mk_iff]; apply KeepsIn.of) | apply Keeps.ite | split | dsimp only

theorem Mod.fenceUnits_keeps {orig : Mod} {m : Mod} (d : Domain) (kept : Mod.Keeps orig m) : Mod.Keeps orig (Mod.fenceUnits m d) := by
  unfold Mod.fenceUnits
  with_reducible repeat' first
    | intro _ | assumption | (simp only [Keeps.mk_iff]; apply KeepsIn.of) | apply portReset_keeps | apply fenceCore_keeps | apply fenceCluster_keeps
    | apply fenceEngine_keeps | apply fenceEdge_keeps | apply setCompute_keeps | apply Keeps.ite | apply Keeps.foldl | split | dsimp only

theorem Mod.answerUnits_keeps {orig : Mod} {m : Mod} (d : Domain) (kept : Mod.Keeps orig m) : Mod.Keeps orig (Mod.answerUnits m d) := by
  unfold Mod.answerUnits
  with_reducible repeat' first
    | intro _ | assumption | (simp only [Keeps.mk_iff]; apply KeepsIn.of) | apply answerCore_keeps | apply answerCluster_keeps
    | apply answerEngine_keeps | apply answerEdge_keeps | apply Keeps.foldl | split | dsimp only

theorem Mod.bumpTag_keeps {orig : Mod} {m : Mod} (k : Nat) (kept : Mod.Keeps orig m) : Mod.Keeps orig (Mod.bumpTag m k) := by
  unfold Mod.bumpTag
  with_reducible repeat' first
    | assumption | (simp only [Keeps.mk_iff]; apply KeepsIn.of) | dsimp only

theorem Mod.bumpCore_keeps {orig : Mod} {m : Mod} (id : Nat) (kept : Mod.Keeps orig m) : Mod.Keeps orig (Mod.bumpCore m id) := by
  unfold Mod.bumpCore
  with_reducible repeat' first
    | intro _ | assumption | (simp only [Keeps.mk_iff]; apply KeepsIn.of) | apply updCore_keeps | split | dsimp only

theorem Mod.bumpCluster_keeps {orig : Mod} {m : Mod} (c : Nat) (kept : Mod.Keeps orig m) : Mod.Keeps orig (Mod.bumpCluster m c) := by
  unfold Mod.bumpCluster
  with_reducible repeat' first
    | intro _ | assumption | (simp only [Keeps.mk_iff]; apply KeepsIn.of) | apply updCluster_keeps | apply updQueue_keeps | apply bumpCore_keeps
    | apply Keeps.foldl | split | dsimp only

theorem Mod.bumpUnits_keeps {orig : Mod} {m : Mod} (d : Domain) (kept : Mod.Keeps orig m) : Mod.Keeps orig (Mod.bumpUnits m d) := by
  unfold Mod.bumpUnits
  with_reducible repeat' first
    | intro _ | assumption | (simp only [Keeps.mk_iff]; apply KeepsIn.of) | apply updEngine_keeps | apply updPort_keeps | apply bumpTag_keeps
    | apply bumpCore_keeps | apply bumpCluster_keeps | apply Keeps.ite | apply Keeps.foldl | split | dsimp only

theorem Mod.logIncrements_keeps {orig : Mod} {m : Mod} (d : Domain) (kept : Mod.Keeps orig m) : Mod.Keeps orig (Mod.logIncrements m d) := by
  unfold Mod.logIncrements
  with_reducible repeat' first
    | assumption | (simp only [Keeps.mk_iff]; apply KeepsIn.of) | apply countBumps_keeps | dsimp only

theorem Mod.freeTags_keeps {orig : Mod} {m : Mod} (d : Domain) (kept : Mod.Keeps orig m) : Mod.Keeps orig (Mod.freeTags m d) := by
  unfold Mod.freeTags
  with_reducible repeat' first
    | intro _ | assumption | (simp only [Keeps.mk_iff]; apply KeepsIn.of) | apply resume_keeps | split | dsimp only

theorem Mod.resetUnits_keeps {orig : Mod} {m : Mod} (d : Domain) (kept : Mod.Keeps orig m) : Mod.Keeps orig (Mod.resetUnits m d) := by
  unfold Mod.resetUnits
  with_reducible repeat' first
    | intro _ | assumption | (simp only [Keeps.mk_iff]; apply KeepsIn.of) | apply cleanSlices_keeps | apply coreNext_keeps | apply resume_keeps
    | apply resetCore_keeps | apply resetCluster_keeps | apply resetEngine_keeps | apply setCompute_keeps | apply Keeps.foldl | split | dsimp only

theorem Mod.abortLaunchOn_keeps {orig : Mod} {m : Mod} (p : PktRef) (id : Nat) (kept : Mod.Keeps orig m) : Mod.Keeps orig (Mod.abortLaunchOn m p id) := by
  unfold Mod.abortLaunchOn
  with_reducible repeat' first
    | intro _ | assumption | (simp only [Keeps.mk_iff]; apply KeepsIn.of) | apply setCore_keeps | apply launchCore_keeps | apply reportCore_keeps
    | apply Keeps.ite | split | dsimp only

theorem Mod.abortCmd_keeps {orig : Mod} {m : Mod} (p : PktRef) (f : Flight) (kept : Mod.Keeps orig m) : Mod.Keeps orig (Mod.abortCmd m p f) := by
  unfold Mod.abortCmd
  with_reducible repeat' first
    | intro _ | assumption | (simp only [Keeps.mk_iff]; apply KeepsIn.of) | apply updQueue_keeps | apply report_keeps | apply endCmd_keeps
    | apply running_keeps | apply releaseHold_keeps | apply leaveSet_keeps | apply updBooking_keeps | apply detach_keeps | apply abortLaunchOn_keeps
    | apply Keeps.ite | apply Keeps.foldl | split | dsimp only

/-! ## Sectors -/

theorem Mod.measure_keeps {orig : Mod} {m : Mod} (index : Nat) (d : BitVec 384) (kept : Mod.Keeps orig m) : Mod.Keeps orig (Mod.measure m index d) := by
  unfold Mod.measure
  with_reducible repeat' first
    | intro _ | assumption | (simp only [Keeps.mk_iff]; apply KeepsIn.of) | apply logEvent_keeps | apply Keeps.ite | split | dsimp only

theorem Mod.measureKeeper_keeps {orig : Mod} {m : Mod} (kept : Mod.Keeps orig m) : Mod.Keeps orig (Mod.measureKeeper m) := by
  unfold Mod.measureKeeper
  with_reducible repeat' first
    | assumption | (simp only [Keeps.mk_iff]; apply KeepsIn.of) | apply measure_keeps | dsimp only

theorem Mod.measureSector_keeps {orig : Mod} {m : Mod} (s : Nat) (kept : Mod.Keeps orig m) : Mod.Keeps orig (Mod.measureSector m s) := by
  unfold Mod.measureSector
  with_reducible repeat' first
    | assumption | (simp only [Keeps.mk_iff]; apply KeepsIn.of) | apply measure_keeps | dsimp only

theorem Mod.takeWay_keeps {orig : Mod} {m : Mod} (md way : Nat) (kept : Mod.Keeps orig m) : Mod.Keeps orig (Mod.takeWay m md way) := by
  unfold Mod.takeWay
  with_reducible repeat' first
    | intro _ | assumption | (simp only [Keeps.mk_iff]; apply KeepsIn.of) | apply setReg_keeps | apply Keeps.foldl | split | dsimp only

theorem Mod.clearWays_keeps {orig : Mod} {m : Mod} (s : Nat) (kept : Mod.Keeps orig m) : Mod.Keeps orig (Mod.clearWays m s) := by
  unfold Mod.clearWays
  with_reducible repeat' first
    | assumption | (simp only [Keeps.mk_iff]; apply KeepsIn.of) | apply setRegs_keeps | dsimp only

theorem Mod.grantKind_keeps {orig : Mod} {m : Mod} (kind s : Nat) (l : List Nat) (kept : Mod.Keeps orig m) : Mod.Keeps orig (Mod.grantKind m kind s l) := by
  unfold Mod.grantKind
  with_reducible repeat' first
    | intro _ | assumption | (simp only [Keeps.mk_iff]; apply KeepsIn.of) | apply setPdCore_keeps | apply setReg_keeps | apply updEngine_keeps
    | apply ownCluster_keeps | apply ownChannel_keeps | apply running_keeps | apply takeWay_keeps | apply Keeps.foldl | split | dsimp only

theorem Mod.sectorKeys_keeps {orig : Mod} {m : Mod} (s : Nat) (kept : Mod.Keeps orig m) : Mod.Keeps orig (Mod.sectorKeys m s) := by
  unfold Mod.sectorKeys
  with_reducible repeat' first
    | intro _ | assumption | (simp only [Keeps.mk_iff]; apply KeepsIn.of) | apply genKey_keeps | apply Keeps.ite | apply Keeps.foldl | split
    | dsimp only

theorem Mod.createSector_keeps {orig : Mod} {m : Mod} (p : PktRef) (ws : List Word) (deferred : Bool) (kept : Mod.Keeps orig m) : Mod.Keeps orig (Mod.createSector m p ws deferred) := by
  unfold Mod.createSector
  with_reducible repeat' first
    | intro _ | assumption | (simp only [Keeps.mk_iff]; apply KeepsIn.of) | apply setSector_keeps | apply sectorState_keeps | apply updFlight_keeps
    | apply endCmd_keeps | apply running_keeps | apply sectorKeys_keeps | split | dsimp only

theorem Mod.stopEngine_keeps {orig : Mod} {m : Mod} (e : Nat) (kept : Mod.Keeps orig m) : Mod.Keeps orig (Mod.stopEngine m e) := by
  unfold Mod.stopEngine
  with_reducible repeat' first
    | intro _ | assumption | (simp only [Keeps.mk_iff]; apply KeepsIn.of) | apply updEngine_keeps | apply endCmd_keeps | apply fenceEngine_keeps
    | apply answerEngine_keeps | apply Keeps.foldl | split | dsimp only

theorem Mod.endBookings_keeps {orig : Mod} {m : Mod} (s : Nat) (kept : Mod.Keeps orig m) : Mod.Keeps orig (Mod.endBookings m s) := by
  unfold Mod.endBookings
  with_reducible repeat' first
    | intro _ | assumption | (simp only [Keeps.mk_iff]; apply KeepsIn.of) | apply updBooking_keeps | apply Keeps.foldl | split | dsimp only

theorem Mod.dropSectorSets_keeps {orig : Mod} {m : Mod} (s : Nat) (kept : Mod.Keeps orig m) : Mod.Keeps orig (Mod.dropSectorSets m s) := by
  unfold Mod.dropSectorSets
  with_reducible repeat' first
    | intro _ | assumption | (simp only [Keeps.mk_iff]; apply KeepsIn.of) | apply dropSets_keeps | split | dsimp only

theorem Mod.dropMoorings_keeps {orig : Mod} {m : Mod} (which : Mooring → Bool) (kept : Mod.Keeps orig m) : Mod.Keeps orig (Mod.dropMoorings m which) := by
  unfold Mod.dropMoorings
  with_reducible repeat' first
    | intro _ | assumption | (simp only [Keeps.mk_iff]; apply KeepsIn.of) | split | dsimp only

theorem Mod.freeDrained_keeps {orig : Mod} {m : Mod} (s : Nat) (kept : Mod.Keeps orig m) : Mod.Keeps orig (Mod.freeDrained m s) := by
  unfold Mod.freeDrained
  with_reducible repeat' first
    | intro _ | assumption | (simp only [Keeps.mk_iff]; apply KeepsIn.of) | apply updQueue_keeps | apply settleSector_keeps | apply Keeps.ite
    | apply Keeps.foldl | split | dsimp only

theorem Mod.startTeardown_keeps {orig : Mod} {m : Mod} (s : Nat) (kept : Mod.Keeps orig m) : Mod.Keeps orig (Mod.startTeardown m s) := by
  unfold Mod.startTeardown
  with_reducible repeat' first
    | intro _ | assumption | (simp only [Keeps.mk_iff]; apply KeepsIn.of) | apply sectorState_keeps | apply startDisable_keeps
    | apply stopEngine_keeps | apply endBookings_keeps | apply dropSectorSets_keeps | apply dropMoorings_keeps | apply freeDrained_keeps
    | apply Keeps.foldl | split | dsimp only

theorem Mod.loseWay_keeps {orig : Mod} {m : Mod} (md s way : Nat) (kept : Mod.Keeps orig m) : Mod.Keeps orig (Mod.loseWay m md s way) := by
  unfold Mod.loseWay
  with_reducible repeat' first
    | intro _ | assumption | (simp only [Keeps.mk_iff]; apply KeepsIn.of) | apply setSlice_keeps | apply recall_keeps | apply Keeps.foldl | split
    | dsimp only

theorem Mod.freeWay_keeps {orig : Mod} {m : Mod} (i s : Nat) (kept : Mod.Keeps orig m) : Mod.Keeps orig (Mod.freeWay m i s) := by
  unfold Mod.freeWay
  with_reducible repeat' first
    | assumption | (simp only [Keeps.mk_iff]; apply KeepsIn.of) | apply setReg_keeps | apply loseWay_keeps | dsimp only

theorem Mod.freeBurst_keeps {orig : Mod} {m : Mod} (s : Nat) (kept : Mod.Keeps orig m) : Mod.Keeps orig (Mod.freeBurst m s) := by
  unfold Mod.freeBurst
  with_reducible repeat' first
    | assumption | (simp only [Keeps.mk_iff]; apply KeepsIn.of) | apply scrubBurst_keeps | apply setRegs_keeps | dsimp only

theorem Mod.releaseEngine_keeps {orig : Mod} {m : Mod} (e : Nat) (kept : Mod.Keeps orig m) : Mod.Keeps orig (Mod.releaseEngine m e) := by
  unfold Mod.releaseEngine
  with_reducible repeat' first
    | assumption | (simp only [Keeps.mk_iff]; apply KeepsIn.of) | apply freeEngine_keeps | apply stopEngine_keeps | dsimp only

theorem Mod.clearSectorRegs_keeps {orig : Mod} {m : Mod} (s : Nat) (kept : Mod.Keeps orig m) : Mod.Keeps orig (Mod.clearSectorRegs m s) := by
  unfold Mod.clearSectorRegs
  with_reducible repeat' first
    | intro _ | assumption | (simp only [Keeps.mk_iff]; apply KeepsIn.of) | apply setReg_keeps | apply setRegs_keeps | apply Keeps.foldl | split
    | dsimp only

theorem Mod.linkSet_keeps {orig : Mod} {m : Mod} (p : Nat) (x : PciePort) (kept : Mod.Keeps orig m) : Mod.Keeps orig (Mod.linkSet m p x) := by
  unfold Mod.linkSet
  with_reducible repeat' first
    | intro _ | assumption | (simp only [Keeps.mk_iff]; apply KeepsIn.of) | apply updPcie_keeps | apply raiseSource_keeps | apply Keeps.ite | split
    | dsimp only

theorem Mod.resetRoot_keeps {orig : Mod} {m : Mod} (p : Nat) (kept : Mod.Keeps orig m) : Mod.Keeps orig (Mod.resetRoot m p) := by
  unfold Mod.resetRoot
  with_reducible repeat' first
    | intro _ | assumption | (simp only [Keeps.mk_iff]; apply KeepsIn.of) | apply linkSet_keeps | apply Keeps.ite | split | dsimp only

theorem Mod.freeRoot_keeps {orig : Mod} {m : Mod} (p : Nat) (kept : Mod.Keeps orig m) : Mod.Keeps orig (Mod.freeRoot m p) := by
  unfold Mod.freeRoot
  with_reducible repeat' first
    | intro _ | assumption | (simp only [Keeps.mk_iff]; apply KeepsIn.of) | apply setReg_keeps | apply resetRoot_keeps | split | dsimp only

theorem Mod.dropRegions_keeps {orig : Mod} {m : Mod} (s : Nat) (which : Region → Bool) (kept : Mod.Keeps orig m) : Mod.Keeps orig (Mod.dropRegions m s which) := by
  unfold Mod.dropRegions
  with_reducible repeat' first
    | intro _ | assumption | (simp only [Keeps.mk_iff]; apply KeepsIn.of) | apply setRegion_keeps | apply scrubFootprint_keeps | apply Keeps.ite
    | apply Keeps.foldl | split | dsimp only

theorem Mod.releaseSector_keeps {orig : Mod} {m : Mod} (s : Nat) (kept : Mod.Keeps orig m) : Mod.Keeps orig (Mod.releaseSector m s) := by
  unfold Mod.releaseSector
  with_reducible repeat' first
    | intro _ | assumption | (simp only [Keeps.mk_iff]; apply KeepsIn.of) | apply setFn_keeps | apply scrubWays_keeps | apply freeCluster_keeps
    | apply freeChannel_keeps | apply freePd_keeps | apply freeEngine_keeps | apply dropMoorings_keeps | apply freeBurst_keeps
    | apply clearSectorRegs_keeps | apply freeRoot_keeps | apply dropRegions_keeps | apply Keeps.ite | apply Keeps.foldl | split | dsimp only

theorem Mod.assignAdd_keeps {orig : Mod} {m : Mod} (p : PktRef) (ws : List Word) (deferred : Bool) (kept : Mod.Keeps orig m) : Mod.Keeps orig (Mod.assignAdd m p ws deferred) := by
  unfold Mod.assignAdd
  with_reducible repeat' first
    | intro _ | assumption | (simp only [Keeps.mk_iff]; apply KeepsIn.of) | apply updFlight_keeps | apply endCmd_keeps | apply running_keeps
    | apply Keeps.ite | split | dsimp only

theorem Mod.assignRelease_keeps {orig : Mod} {m : Mod} (p : PktRef) (ws : List Word) (kept : Mod.Keeps orig m) : Mod.Keeps orig (Mod.assignRelease m p ws) := by
  unfold Mod.assignRelease
  with_reducible repeat' first
    | intro _ | assumption | (simp only [Keeps.mk_iff]; apply KeepsIn.of) | apply endCmd_keeps | apply running_keeps | apply startDisable_keeps
    | apply Keeps.ite | apply Keeps.foldl | split | dsimp only

theorem Mod.activate_keeps {orig : Mod} {m : Mod} (s : Nat) (kept : Mod.Keeps orig m) : Mod.Keeps orig (Mod.activate m s) := by
  unfold Mod.activate
  with_reducible repeat' first
    | intro _ | assumption | (simp only [Keeps.mk_iff]; apply KeepsIn.of) | apply setQueue_keeps | apply setSector_keeps | apply setFn_keeps
    | apply ownChannel_keeps | apply setRegs_keeps | apply sectorState_keeps | apply measureSector_keeps | apply clearWays_keeps
    | apply grantKind_keeps | apply Keeps.ite | apply Keeps.foldl | split | dsimp only

theorem Mod.releaseKind_keeps {orig : Mod} {m : Mod} (kind s : Nat) (l : List Nat) (kept : Mod.Keeps orig m) : Mod.Keeps orig (Mod.releaseKind m kind s l) := by
  unfold Mod.releaseKind
  with_reducible repeat' first
    | intro _ | assumption | (simp only [Keeps.mk_iff]; apply KeepsIn.of) | apply freeChannel_keeps | apply freePd_keeps | apply freeWay_keeps
    | apply releaseEngine_keeps | apply Keeps.foldl | split | dsimp only

theorem Mod.assignNow_keeps {orig : Mod} {m : Mod} (ws : List Word) (kept : Mod.Keeps orig m) : Mod.Keeps orig (Mod.assignNow m ws) := by
  unfold Mod.assignNow
  with_reducible repeat' first
    | intro _ | assumption | (simp only [Keeps.mk_iff]; apply KeepsIn.of) | apply setRegs_keeps | apply measureSector_keeps | apply grantKind_keeps
    | apply freeBurst_keeps | apply releaseKind_keeps | apply Keeps.ite | split | dsimp only

theorem Mod.releaseClusters_keeps {orig : Mod} {m : Mod} (p : PktRef) (ws : List Word) (kept : Mod.Keeps orig m) : Mod.Keeps orig (Mod.releaseClusters m p ws) := by
  unfold Mod.releaseClusters
  with_reducible repeat' first
    | intro _ | assumption | (simp only [Keeps.mk_iff]; apply KeepsIn.of) | apply freeCluster_keeps | apply endCmd_keeps | apply measureSector_keeps
    | apply assignAdd_keeps | apply Keeps.ite | apply Keeps.foldl | split | dsimp only

theorem Mod.phaseNow_keeps {orig : Mod} {m : Mod} (ws : List Word) (kept : Mod.Keeps orig m) : Mod.Keeps orig (Mod.phaseNow m ws) := by
  unfold Mod.phaseNow
  with_reducible repeat' first
    | intro _ | assumption | (simp only [Keeps.mk_iff]; apply KeepsIn.of) | apply updCluster_keeps | apply Keeps.foldl | split | dsimp only

theorem Mod.chunkDone_keeps {orig : Mod} {m : Mod} (n : Nat) (p : PktRef) (sec : SectorId) (v : Model) (i : Nat) (ws : List Word) (tagOk : Bool) (kept : Mod.Keeps orig m) : Mod.Keeps orig (Mod.chunkDone m n p sec v i ws tagOk) := by
  unfold Mod.chunkDone
  with_reducible repeat' first
    | intro _ | assumption | (simp only [Keeps.mk_iff]; apply KeepsIn.of) | apply recordAccess_keeps | (refine writePhys_keeps (by assumption) ?_)
    | apply touchRead_keeps | apply updFlight_keeps | apply endCmd_keeps | apply running_keeps | apply Keeps.ite | apply KeepsOr.ok
    | apply KeepsOr.error | apply KeepsOr.ite | split | dsimp only

theorem Mod.svnCommit_keeps {b m : Mod} (components : Nat) (h : Mod.Keeps b m) : Mod.Keeps b (m.svnCommit components) := by
  unfold Mod.svnCommit
  apply Mod.measureKeeper_keeps
  refine Mod.Keeps.foldl h (fun m c k => ?_)
  dsimp only
  split
  · exact k
  · rename_i lt
    apply Mod.logEvent_keeps
    simp only [Mod.Keeps.mk_iff]
    refine ⟨k.part, fun i => Nat.le_trans (k.svn i) ?_, k.keys, k.starts, k.memory⟩
    rw [Table.get_set]
    split
    · rename_i e; subst e; omega
    · exact Nat.le_refl _

theorem Mod.openSession_keeps {orig : Mod} {m : Mod} (path : SpdmPath) (id : BitVec 32) (authed : Bool) (kept : Mod.Keeps orig m) : Mod.Keeps orig (Mod.openSession m path id authed) := by
  unfold Mod.openSession
  with_reducible repeat' first
    | intro _ | assumption | (simp only [Keeps.mk_iff]; apply KeepsIn.of) | apply emit_keeps | apply Keeps.ite | split | dsimp only

theorem Mod.bindSession_keeps {orig : Mod} {m : Mod} (id : BitVec 32) (sector : SectorId) (kept : Mod.Keeps orig m) : Mod.Keeps orig (Mod.bindSession m id sector) := by
  unfold Mod.bindSession
  with_reducible repeat' first
    | intro _ | assumption | (simp only [Keeps.mk_iff]; apply KeepsIn.of) | apply Keeps.ite | split | dsimp only

end Sys2Proof.Machine
end

