-- ==== Sys2Proof/Laws/KeepsUnits.lean ====
section
/-!
SUPPORT. What each operation keeps of its module: the operations of the later files.
-/
namespace Sys2Proof.Machine
set_option linter.all false
open Sys2Proof Sys2Proof.Machine.Mod

/-! ## Host -/

theorem Mod.stopDependent_keeps {orig : Mod} {m : Mod} (p : PktRef) (f : Flight) (kept : Mod.Keeps orig m) : Mod.Keeps orig (Mod.stopDependent m p f) := by
  unfold Mod.stopDependent
  with_reducible repeat' first
    | intro _ | assumption | (simp only [Keeps.mk_iff]; apply KeepsIn.of) | apply report_keeps | apply abortLaunchOn_keeps | apply Keeps.foldl
    | split | dsimp only

theorem Mod.replyDependents_keeps {orig : Mod} {m : Mod} (port s : Nat) (kept : Mod.Keeps orig m) : Mod.Keeps orig (Mod.replyDependents m port s) := by
  unfold Mod.replyDependents
  with_reducible repeat' first
    | intro _ | assumption | (simp only [Keeps.mk_iff]; apply KeepsIn.of) | apply replyNow_keeps | apply detach_keeps | apply stopDependent_keeps
    | apply Keeps.ite | apply Keeps.foldl | split | dsimp only

theorem Mod.bmeClear_keeps {orig : Mod} {m : Mod} (port fn : Nat) (kept : Mod.Keeps orig m) : Mod.Keeps orig (Mod.bmeClear m port fn) := by
  unfold Mod.bmeClear
  with_reducible repeat' first
    | intro _ | assumption | (simp only [Keeps.mk_iff]; apply KeepsIn.of) | apply setFn_keeps | apply replyDependents_keeps | apply Keeps.ite | split
    | dsimp only

theorem Mod.bmeSet_keeps {orig : Mod} {m : Mod} (port fn : Nat) (kept : Mod.Keeps orig m) : Mod.Keeps orig (Mod.bmeSet m port fn) := by
  unfold Mod.bmeSet
  with_reducible repeat' first
    | intro _ | assumption | (simp only [Keeps.mk_iff]; apply KeepsIn.of) | apply setFn_keeps | apply sendPending_keeps | apply Keeps.ite | split
    | dsimp only

theorem Mod.resetQueue_keeps {orig : Mod} {m : Mod} (port : Option Nat) (q : QRef) (kept : Mod.Keeps orig m) : Mod.Keeps orig (Mod.resetQueue m port q) := by
  unfold Mod.resetQueue
  with_reducible repeat' first
    | intro _ | assumption | (simp only [Keeps.mk_iff]; apply KeepsIn.of) | apply updQueue_keeps | apply reply_keeps | apply replyNow_keeps
    | apply detach_keeps | apply Keeps.ite | apply Keeps.foldl | split | dsimp only

theorem Mod.stopSector_keeps {orig : Mod} {m : Mod} (s : Nat) (kept : Mod.Keeps orig m) : Mod.Keeps orig (Mod.stopSector m s) := by
  unfold Mod.stopSector
  with_reducible repeat' first
    | intro _ | assumption | (simp only [Keeps.mk_iff]; apply KeepsIn.of) | apply fenceCore_keeps | apply stopEngine_keeps | apply endBookings_keeps
    | apply dropSectorSets_keeps | apply resetQueue_keeps | apply Keeps.ite | apply Keeps.foldl | split | dsimp only

theorem Mod.resetSector_keeps {orig : Mod} {m : Mod} (s kind : Nat) (kept : Mod.Keeps orig m) : Mod.Keeps orig (Mod.resetSector m s kind) := by
  unfold Mod.resetSector
  with_reducible repeat' first
    | intro _ | assumption | (simp only [Keeps.mk_iff]; apply KeepsIn.of) | apply setSector_keeps | apply setFn_keeps | apply dropModels_keeps
    | apply sectorState_keeps | apply dropMoorings_keeps | apply freeDrained_keeps | apply dropRegions_keeps | apply resetQueue_keeps
    | apply stopSector_keeps | apply Keeps.ite | apply Keeps.foldl | split | dsimp only

theorem Mod.sizeBars_keeps {orig : Mod} {m : Mod} (port : Nat) (kept : Mod.Keeps orig m) : Mod.Keeps orig (Mod.sizeBars m port) := by
  unfold Mod.sizeBars
  with_reducible repeat' first
    | intro _ | assumption | (simp only [Keeps.mk_iff]; apply KeepsIn.of) | apply setFn_keeps | apply Keeps.ite | apply Keeps.foldl | split
    | dsimp only

theorem Mod.conventional_keeps {orig : Mod} {m : Mod} (port : Nat) (kept : Mod.Keeps orig m) : Mod.Keeps orig (Mod.conventional m port) := by
  unfold Mod.conventional
  with_reducible repeat' first
    | intro _ | assumption | (simp only [Keeps.mk_iff]; apply KeepsIn.of) | apply setFn_keeps | apply resetSector_keeps | apply sizeBars_keeps
    | apply Keeps.foldl | split | dsimp only

theorem Mod.activateImage_keeps {orig : Mod} {m : Mod} (c : Nat) (kept : Mod.Keeps orig m) : Mod.Keeps orig (Mod.activateImage m c) := by
  unfold Mod.activateImage
  with_reducible repeat' first
    | intro _ | assumption | (simp only [Keeps.mk_iff]; apply KeepsIn.of) | apply logEvent_keeps | apply measure_keeps | apply Keeps.ite | split
    | dsimp only

theorem Mod.restartPd_keeps {orig : Mod} {m : Mod} (a : Nat) (kept : Mod.Keeps orig m) : Mod.Keeps orig (Mod.restartPd m a) := by
  unfold Mod.restartPd
  with_reducible repeat' first
    | intro _ | assumption | (simp only [Keeps.mk_iff]; apply KeepsIn.of) | apply setPdCore_keeps | apply clearFiles_keeps | apply restBack_keeps
    | apply running_keeps | apply Keeps.foldl | split | dsimp only

theorem Mod.restartPds_keeps {orig : Mod} {m : Mod} (s : Nat) (kept : Mod.Keeps orig m) : Mod.Keeps orig (Mod.restartPds m s) := by
  unfold Mod.restartPds
  with_reducible repeat' first
    | intro _ | assumption | (simp only [Keeps.mk_iff]; apply KeepsIn.of) | apply activateImage_keeps | apply restartPd_keeps | apply Keeps.ite
    | apply Keeps.foldl | split | dsimp only

theorem Mod.restoreAdmin_keeps {orig : Mod} {m : Mod} (s : Nat) (kept : Mod.Keeps orig m) : Mod.Keeps orig (Mod.restoreAdmin m s) := by
  unfold Mod.restoreAdmin
  with_reducible repeat' first
    | intro _ | assumption | (simp only [Keeps.mk_iff]; apply KeepsIn.of) | apply setQueue_keeps | (refine writePhys_keeps (by assumption) ?_)
    | apply reply_keeps | apply Keeps.ite | apply KeepsOr.ok | apply KeepsOr.error | apply KeepsOr.ite | split | dsimp only

theorem Mod.adminEnable_keeps {orig : Mod} {m : Mod} (s : Nat) (kept : Mod.Keeps orig m) : Mod.Keeps orig (Mod.adminEnable m s) := by
  unfold Mod.adminEnable
  with_reducible repeat' first
    | intro _ | assumption | (simp only [Keeps.mk_iff]; apply KeepsIn.of) | apply setQueue_keeps | apply funcIgnored_keeps | apply adminAgain_keeps
    | apply Keeps.ite | apply KeepsOr.ok | apply KeepsOr.error | apply KeepsOr.ite | split | dsimp only

theorem Mod.adminDisable_keeps {orig : Mod} {m : Mod} (s : Nat) (kept : Mod.Keeps orig m) : Mod.Keeps orig (Mod.adminDisable m s) := by
  unfold Mod.adminDisable
  with_reducible repeat' first
    | intro _ | assumption | (simp only [Keeps.mk_iff]; apply KeepsIn.of) | apply startDisable_keeps | apply Keeps.ite | split | dsimp only

theorem Mod.unmask_keeps {orig : Mod} {m : Mod} (port fn vec : Nat) (kept : Mod.Keeps orig m) : Mod.Keeps orig (Mod.unmask m port fn vec) := by
  unfold Mod.unmask
  with_reducible repeat' first
    | intro _ | assumption | (simp only [Keeps.mk_iff]; apply KeepsIn.of) | apply setFn_keeps | apply sendPending_keeps | apply Keeps.ite | split
    | dsimp only

theorem Mod.linkState_keeps {orig : Mod} {m : Mod} (p : PcieId) (l : LinkReport) (kept : Mod.Keeps orig m) : Mod.Keeps orig (Mod.linkState m p l) := by
  unfold Mod.linkState
  with_reducible repeat' first
    | intro _ | assumption | (simp only [Keeps.mk_iff]; apply KeepsIn.of) | apply sendPending_keeps | apply linkSet_keeps | apply conventional_keeps
    | apply Keeps.ite | apply Keeps.foldl | split | dsimp only

/-! ## Power -/

theorem Mod.powerTo_keeps {orig : Mod} {m : Mod} (st : PwrSt) (kept : Mod.Keeps orig m) : Mod.Keeps orig (Mod.powerTo m st) := by
  unfold Mod.powerTo
  with_reducible repeat' first
    | assumption | (simp only [Keeps.mk_iff]; apply KeepsIn.of) | apply powerLog_keeps | dsimp only

theorem Mod.powerRefuse_keeps {orig : Mod} {m : Mod} (r : PwrReq) (kept : Mod.Keeps orig m) : Mod.Keeps orig (Mod.powerRefuse m r) := by
  unfold Mod.powerRefuse
  with_reducible repeat' first
    | assumption | (simp only [Keeps.mk_iff]; apply KeepsIn.of) | apply powerLog_keeps | dsimp only

theorem Mod.formGroup_keeps {orig : Mod} {m : Mod} (kept : Mod.Keeps orig m) : Mod.Keeps orig (Mod.formGroup m) := by
  unfold Mod.formGroup
  with_reducible repeat' first
    | intro _ | assumption | (simp only [Keeps.mk_iff]; apply KeepsIn.of) | apply Keeps.ite | split | dsimp only

theorem Mod.spreadVote_keeps {orig : Mod} {m : Mod} (t : TPkt) (except_ : Option PortId) (kept : Mod.Keeps orig m) : Mod.Keeps orig (Mod.spreadVote m t except_) := by
  unfold Mod.spreadVote
  with_reducible repeat' first
    | intro _ | assumption | (simp only [Keeps.mk_iff]; apply KeepsIn.of) | apply sendLink_keeps | apply Keeps.foldl | split | dsimp only

theorem Mod.postVote_keeps {orig : Mod} {m : Mod} (ceiling t : Nat) (kept : Mod.Keeps orig m) : Mod.Keeps orig (Mod.postVote m ceiling t) := by
  unfold Mod.postVote
  with_reducible repeat' first
    | assumption | (simp only [Keeps.mk_iff]; apply KeepsIn.of) | apply logEvent_keeps | apply spreadVote_keeps | dsimp only

theorem Mod.mgmtArrival_keeps {b m : Mod} (ty : Nat) (size : TPkt → Bool) (h : Mod.Keeps b m) : Mod.Keeps b (m.mgmtArrival ty size).2 := by
  unfold Mod.mgmtArrival
  with_reducible repeat' first
    | intro _ | assumption | (simp only [Keeps.mk_iff]; apply KeepsIn.of) | apply dropMalformed_keeps | apply Keeps.ite | apply Keeps.foldl
    | split | dsimp only

theorem Mod.takeVote_keeps {orig : Mod} {m : Mod} (e : Entering) (kept : Mod.Keeps orig m) : Mod.Keeps orig (Mod.takeVote m e) := by
  unfold Mod.takeVote
  with_reducible repeat' first
    | intro _ | assumption | (simp only [Keeps.mk_iff]; apply KeepsIn.of) | apply spreadVote_keeps | apply Keeps.ite | split | dsimp only

theorem Mod.effectVote_keeps {orig : Mod} {m : Mod} (v : Vote) (kept : Mod.Keeps orig m) : Mod.Keeps orig (Mod.effectVote m v) := by
  unfold Mod.effectVote
  with_reducible repeat' first
    | intro _ | assumption | (simp only [Keeps.mk_iff]; apply KeepsIn.of) | apply logEvent_keeps | apply powerLog_keeps | apply Keeps.ite | split
    | dsimp only

theorem Mod.forcePoints_keeps {orig : Mod} {m : Mod} (line : Nat) (kept : Mod.Keeps orig m) : Mod.Keeps orig (Mod.forcePoints m line) := by
  unfold Mod.forcePoints
  with_reducible repeat' first
    | intro _ | assumption | (simp only [Keeps.mk_iff]; apply KeepsIn.of) | apply updCluster_keeps | apply updDie_keeps | apply Keeps.ite
    | apply Keeps.foldl | split | dsimp only

theorem Mod.forceGroup_keeps {orig : Mod} {m : Mod} (line : Nat) (kept : Mod.Keeps orig m) : Mod.Keeps orig (Mod.forceGroup m line) := by
  unfold Mod.forceGroup
  with_reducible repeat' first
    | intro _ | assumption | (simp only [Keeps.mk_iff]; apply KeepsIn.of) | apply powerLog_keeps | apply forcePoints_keeps | apply Keeps.ite | split
    | dsimp only

theorem Mod.setDemand_keeps {orig : Mod} {m : Mod} (c : Nat) (kept : Mod.Keeps orig m) : Mod.Keeps orig (Mod.setDemand m c) := by
  unfold Mod.setDemand
  with_reducible repeat' first
    | intro _ | assumption | (simp only [Keeps.mk_iff]; apply KeepsIn.of) | apply updCluster_keeps | split | dsimp only

theorem Mod.setLimit_keeps {orig : Mod} {m : Mod} (site bits_ : Nat) (kept : Mod.Keeps orig m) : Mod.Keeps orig (Mod.setLimit m site bits_) := by
  unfold Mod.setLimit
  with_reducible repeat' first
    | intro _ | assumption | (simp only [Keeps.mk_iff]; apply KeepsIn.of) | apply updDie_keeps | apply powerLog_keeps | apply Keeps.ite | split
    | dsimp only

theorem Mod.tickTd_keeps {orig : Mod} {m : Mod} (x : PowerSample) (td : Nat) (kept : Mod.Keeps orig m) : Mod.Keeps orig (Mod.tickTd m x td) := by
  unfold Mod.tickTd
  with_reducible repeat' first
    | intro _ | assumption | (simp only [Keeps.mk_iff]; apply KeepsIn.of) | apply updCluster_keeps | apply updDie_keeps | apply setDemand_keeps
    | apply setLimit_keeps | apply Keeps.ite | apply Keeps.foldl | split | dsimp only

theorem Mod.tickPd_keeps {orig : Mod} {m : Mod} (x : PowerSample) (pd : Nat) (kept : Mod.Keeps orig m) : Mod.Keeps orig (Mod.tickPd m x pd) := by
  unfold Mod.tickPd
  with_reducible repeat' first
    | intro _ | assumption | (simp only [Keeps.mk_iff]; apply KeepsIn.of) | apply updDie_keeps | apply setLimit_keeps | split | dsimp only

theorem Mod.tickDie_keeps {orig : Mod} {m : Mod} (site : Nat) (kept : Mod.Keeps orig m) : Mod.Keeps orig (Mod.tickDie m site) := by
  unfold Mod.tickDie
  with_reducible repeat' first
    | intro _ | assumption | (simp only [Keeps.mk_iff]; apply KeepsIn.of) | apply setLimit_keeps | apply Keeps.ite | split | dsimp only

theorem Mod.tickVotes_keeps {orig : Mod} {m : Mod} (x : PowerSample) (kept : Mod.Keeps orig m) : Mod.Keeps orig (Mod.tickVotes m x) := by
  unfold Mod.tickVotes
  with_reducible repeat' first
    | intro _ | assumption | (simp only [Keeps.mk_iff]; apply KeepsIn.of) | apply postVote_keeps | apply Keeps.ite | split | dsimp only

theorem Mod.tickAllow_keeps {orig : Mod} {m : Mod} (demand : Nat) (kept : Mod.Keeps orig m) : Mod.Keeps orig (Mod.tickAllow m demand) := by
  unfold Mod.tickAllow
  with_reducible repeat' first
    | intro _ | assumption | (simp only [Keeps.mk_iff]; apply KeepsIn.of) | apply Keeps.ite | split | dsimp only

theorem Mod.tickSamples_keeps {orig : Mod} {m : Mod} (x : PowerSample) (kept : Mod.Keeps orig m) : Mod.Keeps orig (Mod.tickSamples m x) := by
  unfold Mod.tickSamples
  with_reducible repeat' first
    | intro _ | assumption | (simp only [Keeps.mk_iff]; apply KeepsIn.of) | apply updDie_keeps | apply Keeps.ite | apply Keeps.foldl | split
    | dsimp only

theorem Mod.tickPoints_keeps {orig : Mod} {m : Mod} (x : PowerSample) (kept : Mod.Keeps orig m) : Mod.Keeps orig (Mod.tickPoints m x) := by
  unfold Mod.tickPoints
  with_reducible repeat' first
    | intro _ | assumption | (simp only [Keeps.mk_iff]; apply KeepsIn.of) | apply tickTd_keeps | apply tickPd_keeps | apply tickDie_keeps
    | apply tickVotes_keeps | apply Keeps.ite | apply Keeps.foldl | split | dsimp only

theorem Mod.startHold_keeps {orig : Mod} {m : Mod} (kept : Mod.Keeps orig m) : Mod.Keeps orig (Mod.startHold m) := by
  unfold Mod.startHold
  with_reducible repeat' first
    | assumption | (simp only [Keeps.mk_iff]; apply KeepsIn.of) | apply powerTo_keeps | dsimp only

theorem Mod.writeBackAll_keeps {orig : Mod} {m : Mod} (kept : Mod.Keeps orig m) : Mod.Keeps orig (Mod.writeBackAll m) := by
  unfold Mod.writeBackAll
  with_reducible repeat' first
    | intro _ | assumption | (simp only [Keeps.mk_iff]; apply KeepsIn.of) | apply recall_keeps | apply Keeps.foldl | split | dsimp only

theorem Mod.emptySlices_keeps {orig : Mod} {m : Mod} (kept : Mod.Keeps orig m) : Mod.Keeps orig (Mod.emptySlices m) := by
  unfold Mod.emptySlices
  with_reducible repeat' first
    | intro _ | assumption | (simp only [Keeps.mk_iff]; apply KeepsIn.of) | apply cleanSlices_keeps | split | dsimp only

theorem Mod.refresh_keeps {orig : Mod} {m : Mod} (on : Bool) (kept : Mod.Keeps orig m) : Mod.Keeps orig (Mod.refresh m on) := by
  unfold Mod.refresh
  with_reducible repeat' first
    | intro _ | assumption | (simp only [Keeps.mk_iff]; apply KeepsIn.of) | apply Keeps.ite | split | dsimp only

theorem Mod.startResume_keeps {orig : Mod} {m : Mod} (kept : Mod.Keeps orig m) : Mod.Keeps orig (Mod.startResume m) := by
  unfold Mod.startResume
  with_reducible repeat' first
    | assumption | (simp only [Keeps.mk_iff]; apply KeepsIn.of) | apply powerTo_keeps | dsimp only

theorem Mod.finishResume_keeps {orig : Mod} {m : Mod} (kept : Mod.Keeps orig m) : Mod.Keeps orig (Mod.finishResume m) := by
  unfold Mod.finishResume
  with_reducible repeat' first
    | intro _ | assumption | (simp only [Keeps.mk_iff]; apply KeepsIn.of) | apply pumpEngine_keeps | apply powerTo_keeps | apply forceGroup_keeps
    | apply refresh_keeps | apply Keeps.foldl | split | dsimp only

/-! ## Restart -/

theorem Mod.replyFlush_keeps {orig : Mod} {m : Mod} (kept : Mod.Keeps orig m) : Mod.Keeps orig (Mod.replyFlush m) := by
  unfold Mod.replyFlush
  with_reducible repeat' first
    | intro _ | assumption | (simp only [Keeps.mk_iff]; apply KeepsIn.of) | apply dropSets_keeps | apply flushQueue_keeps | apply Keeps.foldl | split
    | dsimp only

theorem Mod.fallBack_keeps {orig : Mod} {m : Mod} (trial booted : Bool) (level : Nat) (kept : Mod.Keeps orig m) : Mod.Keeps orig (Mod.fallBack m trial booted level) := by
  unfold Mod.fallBack
  with_reducible repeat' first
    | intro _ | assumption | (simp only [Keeps.mk_iff]; apply KeepsIn.of) | apply setReg_keeps | apply logEvent_keeps | apply Keeps.ite | split
    | dsimp only

theorem Mod.warmKeys_keeps {b m : Mod} (h : Mod.Keeps b m) : Mod.Keeps b m.warmKeys := by
  unfold Mod.warmKeys
  simp only [Mod.Keeps.mk_iff]
  refine Mod.KeepsIn.cells ?_ (fun r => Table.rising_filter _ _ r)
  refine Mod.Keeps.foldl (Mod.Keeps.foldl h (fun m k x => Mod.destroyKey_keeps k x)) (fun m k x => ?_)
  simp only [Mod.Keeps.mk_iff]
  exact Mod.KeepsIn.of x

theorem Mod.warmFills_keeps {orig : Mod} {m : Mod} (kept : Mod.Keeps orig m) : Mod.Keeps orig (Mod.warmFills m) := by
  unfold Mod.warmFills
  with_reducible repeat' first
    | intro _ | assumption | (simp only [Keeps.mk_iff]; apply KeepsIn.of) | apply markChannel_keeps | apply Keeps.foldl | split | dsimp only

theorem Mod.warmSectors_keeps {b m : Mod} (old : Mod) (h : Mod.Keeps b m) : Mod.Keeps b (m.warmSectors old) := by
  unfold Mod.warmSectors
  with_reducible repeat' first
    | intro _ | assumption | (simp only [Keeps.mk_iff]; apply KeepsIn.of) | apply setSector_keeps | apply sectorState_keeps | apply Keeps.ite
    | apply Keeps.foldl | split | dsimp only

theorem Mod.warm_keeps {b m : Mod} (cause : Nat) (h : Mod.Keeps b m) : Mod.Keeps b (m.warm cause) := by
  unfold Mod.warm
  apply Mod.fallBack_keeps
  apply Mod.checkRole_keeps
  apply Mod.warmSectors_keeps
  have k : Mod.Keeps b (m.cleanSlices (fun _ => true)).warmFills.warmKeys := Mod.warmKeys_keeps (Mod.warmFills_keeps (Mod.cleanSlices_keeps _ h))
  simp only [Mod.Keeps.mk_iff]
  exact ⟨k.part, k.svn, k.keys, Nat.le_succ_of_le k.starts, k.memory⟩

theorem buildTable_get (f : Nat → Nat) (n k : Nat) (h : k < n) : Table.get 0 (buildTable 0 n f) k = f k := by
  have key : ∀ (l : List Nat), k ∈ l → Table.get 0 (l.filterMap (fun i => if f i = 0 then none else some (i, f i))) k = f k := by
    intro l
    have no : ∀ l : List Nat, k ∉ l → Table.find (l.filterMap (fun i => if f i = 0 then none else some (i, f i))) k = none := by
      intro l
      induction l with
      | nil => intro _; rfl
      | cons a rest ih =>
        intro hk
        simp only [List.mem_cons, not_or] at hk
        by_cases h0 : f a = 0
        · simp [h0, ih hk.2]
        · simp [h0, Table.find, ih hk.2, Ne.symm hk.1]
    induction l with
    | nil => intro hk; cases hk
    | cons a rest ih =>
      intro hk
      by_cases ha : k = a
      · subst ha
        by_cases h0 : f k = 0
        · by_cases hr : k ∈ rest
          · simp [h0] at ih ⊢; exact ih hr
          · have := no rest hr
            simp [h0, Table.get, this]
        · simp [h0, Table.get, Table.find]
      · have hr : k ∈ rest := by
          rcases List.mem_cons.mp hk with e | e
          · exact absurd e ha
          · exact e
        by_cases h0 : f a = 0
        · simp [h0]; exact ih hr
        · have := ih hr
          simp [h0, Table.get, Table.find, Ne.symm ha] at this ⊢
          exact this
  exact key _ (List.mem_range.mpr h)

theorem Mod.fixed_keeps {b m : Mod} (h : Mod.Keeps b m) : Mod.Keeps b m.fixed := by
  unfold Mod.fixed
  simp only [Mod.Keeps.mk_iff]
  refine ⟨h.part, h.svn, fun k hk => ?_, Nat.le_succ_of_le h.starts, fun _ => rfl⟩
  rw [Mod.coldKeys, buildTable_get _ _ _ hk]
  exact Nat.le_succ_of_le (h.keys k hk)

theorem Mod.cold_keeps {orig : Mod} {m : Mod} (kind cause : Nat) (kept : Mod.Keeps orig m) : Mod.Keeps orig (Mod.cold m kind cause) := by
  unfold Mod.cold
  with_reducible repeat' first
    | assumption | (simp only [Keeps.mk_iff]; apply KeepsIn.of) | apply fallBack_keeps | apply fixed_keeps | dsimp only

theorem Mod.railsCut_keeps {b m : Mod} (h : Mod.Keeps b m) : Mod.Keeps b m.railsCut := by
  unfold Mod.railsCut
  have f := Mod.fixed_keeps h
  refine Mod.Keeps.foldl ?_ (fun x s k => ?_)
  · simp only [Mod.Keeps.mk_iff]
    exact ⟨f.part, f.svn, f.keys, h.starts, f.memory⟩
  · split
    · exact Mod.setSector_keeps _ _ k
    · exact Mod.setSector_keeps _ _ (Mod.sectorState_keeps _ _ _ k)

/-! ## Boot -/

theorem Mod.beginWarm_keeps {orig : Mod} {m : Mod} (cause : Nat) (kept : Mod.Keeps orig m) : Mod.Keeps orig (Mod.beginWarm m cause) := by
  unfold Mod.beginWarm
  with_reducible repeat' first
    | assumption | (simp only [Keeps.mk_iff]; apply KeepsIn.of) | apply linksDown_keeps | apply writeBackAll_keeps | apply replyFlush_keeps
    | apply warm_keeps | dsimp only

theorem Mod.beginCold_keeps {orig : Mod} {m : Mod} (kind cause : Nat) (kept : Mod.Keeps orig m) : Mod.Keeps orig (Mod.beginCold m kind cause) := by
  unfold Mod.beginCold
  with_reducible repeat' first
    | assumption | (simp only [Keeps.mk_iff]; apply KeepsIn.of) | apply linksDown_keeps | apply replyFlush_keeps | apply cold_keeps | dsimp only

theorem Mod.restartWarm_keeps {orig : Mod} {m : Mod} (cause : Nat) (kept : Mod.Keeps orig m) : Mod.Keeps orig (Mod.restartWarm m cause) := by
  unfold Mod.restartWarm
  with_reducible repeat' first
    | intro _ | assumption | (simp only [Keeps.mk_iff]; apply KeepsIn.of) | apply beginWarm_keeps | apply beginCold_keeps | apply Keeps.ite | split
    | dsimp only

theorem Mod.askRestart_keeps {orig : Mod} {m : Mod} (cold : Bool) (cause : Nat) (kept : Mod.Keeps orig m) : Mod.Keeps orig (Mod.askRestart m cold cause) := by
  unfold Mod.askRestart
  with_reducible repeat' first
    | intro _ | assumption | (simp only [Keeps.mk_iff]; apply KeepsIn.of) | apply request_keeps | apply cold_keeps | apply Keeps.ite | split
    | dsimp only

theorem Mod.bootFail_keeps {orig : Mod} {m : Mod} (code detail : Nat) (kept : Mod.Keeps orig m) : Mod.Keeps orig (Mod.bootFail m code detail) := by
  unfold Mod.bootFail
  with_reducible repeat' first
    | assumption | (simp only [Keeps.mk_iff]; apply KeepsIn.of) | apply record_keeps | dsimp only

theorem Mod.keeperUp_keeps {orig : Mod} {m : Mod} (kept : Mod.Keeps orig m) : Mod.Keeps orig (Mod.keeperUp m) := by
  unfold Mod.keeperUp
  with_reducible repeat' first
    | intro _ | assumption | (simp only [Keeps.mk_iff]; apply KeepsIn.of) | split | dsimp only

theorem Mod.restartParked_keeps {b m : Mod} (h : Mod.Keeps b m) : Mod.Keeps b m.restartParked := by
  have k := Mod.fixed_keeps (Mod.replyFlush_keeps h)
  unfold Mod.restartParked
  apply Mod.keeperUp_keeps
  apply Mod.setFn_keeps
  simp only [Mod.Keeps.mk_iff]
  exact Mod.KeepsIn.of k

theorem Mod.startUp_keeps {b m : Mod} (h : Mod.Keeps b m) : Mod.Keeps b m.startUp := by
  unfold Mod.startUp
  apply Mod.powerTo_keeps
  simp only [Mod.Keeps.mk_iff]
  apply Mod.KeepsIn.of
  exact Mod.Keeps.ite (fun _ => Mod.restartParked_keeps h) (fun _ => h)

theorem Mod.fenceAll_keeps {orig : Mod} {m : Mod} (kept : Mod.Keeps orig m) : Mod.Keeps orig (Mod.fenceAll m) := by
  unfold Mod.fenceAll
  with_reducible repeat' first
    | intro _ | assumption | (simp only [Keeps.mk_iff]; apply KeepsIn.of) | apply fenceUnits_keeps | apply Keeps.foldl | split | dsimp only

theorem Mod.startDown_keeps {orig : Mod} {m : Mod} (kept : Mod.Keeps orig m) : Mod.Keeps orig (Mod.startDown m) := by
  unfold Mod.startDown
  with_reducible repeat' first
    | assumption | (simp only [Keeps.mk_iff]; apply KeepsIn.of) | apply powerTo_keeps | apply replyFlush_keeps | apply fenceAll_keeps | dsimp only

theorem Mod.pend_keeps {orig : Mod} {m : Mod} (r : Option PwrReq) (kept : Mod.Keeps orig m) : Mod.Keeps orig (Mod.pend m r) := by
  unfold Mod.pend
  with_reducible repeat' first
    | assumption | (simp only [Keeps.mk_iff]; apply KeepsIn.of) | dsimp only

theorem Mod.pauseStart_keeps {orig : Mod} {m : Mod} (kept : Mod.Keeps orig m) : Mod.Keeps orig (Mod.pauseStart m) := by
  unfold Mod.pauseStart
  with_reducible repeat' first
    | assumption | (simp only [Keeps.mk_iff]; apply KeepsIn.of) | dsimp only

theorem Mod.endHold_keeps {orig : Mod} {m : Mod} (kept : Mod.Keeps orig m) : Mod.Keeps orig (Mod.endHold m) := by
  unfold Mod.endHold
  with_reducible repeat' first
    | intro _ | assumption | (simp only [Keeps.mk_iff]; apply KeepsIn.of) | apply request_keeps | apply refresh_keeps | apply startResume_keeps
    | apply beginWarm_keeps | split | dsimp only

theorem Mod.powerEvent_keeps {orig : Mod} {m : Mod} (r : PwrReq) (kept : Mod.Keeps orig m) : Mod.Keeps orig (Mod.powerEvent m r) := by
  unfold Mod.powerEvent
  with_reducible repeat' first
    | intro _ | assumption | (simp only [Keeps.mk_iff]; apply KeepsIn.of) | apply powerRefuse_keeps | apply startHold_keeps | apply startUp_keeps
    | apply startDown_keeps | apply pend_keeps | apply pauseStart_keeps | apply endHold_keeps | apply Keeps.ite | split | dsimp only

theorem Mod.runPending_keeps {orig : Mod} {m : Mod} (kept : Mod.Keeps orig m) : Mod.Keeps orig (Mod.runPending m) := by
  unfold Mod.runPending
  with_reducible repeat' first
    | intro _ | assumption | (simp only [Keeps.mk_iff]; apply KeepsIn.of) | apply pend_keeps | apply powerEvent_keeps | split | dsimp only

theorem Mod.toStandby_keeps {orig : Mod} {m : Mod} (kept : Mod.Keeps orig m) : Mod.Keeps orig (Mod.toStandby m) := by
  unfold Mod.toStandby
  with_reducible repeat' first
    | assumption | (simp only [Keeps.mk_iff]; apply KeepsIn.of) | apply powerTo_keeps | apply railsCut_keeps | dsimp only

theorem Mod.settleStandby_keeps {orig : Mod} {m : Mod} (request : Option (Bool × Nat)) (kept : Mod.Keeps orig m) : Mod.Keeps orig (Mod.settleStandby m request) := by
  unfold Mod.settleStandby
  with_reducible repeat' first
    | intro _ | assumption | (simp only [Keeps.mk_iff]; apply KeepsIn.of) | apply request_keeps | apply beginCold_keeps | apply runPending_keeps
    | split | dsimp only

theorem Mod.mqIgnored_keeps {orig : Mod} {m : Mod} (q : Nat) (kept : Mod.Keeps orig m) : Mod.Keeps orig (Mod.mqIgnored m q) := by
  unfold Mod.mqIgnored
  with_reducible repeat' first
    | assumption | (simp only [Keeps.mk_iff]; apply KeepsIn.of) | apply malformed_keeps | dsimp only

theorem Mod.mqDisable_keeps {orig : Mod} {m : Mod} (n : Fin 64) (kept : Mod.Keeps orig m) : Mod.Keeps orig (Mod.mqDisable m n) := by
  unfold Mod.mqDisable
  with_reducible repeat' first
    | intro _ | assumption | (simp only [Keeps.mk_iff]; apply KeepsIn.of) | apply startDisable_keeps | apply mqIgnored_keeps | apply Keeps.ite
    | split | dsimp only

theorem Mod.failLanes_keeps {orig : Mod} {m : Mod} (edge : Nat) (back : Bool) (k : Nat) (lanes : List Nat) (fuse : Bool) (kept : Mod.Keeps orig m) : Mod.Keeps orig (Mod.failLanes m edge back k lanes fuse) := by
  unfold Mod.failLanes
  with_reducible repeat' first
    | intro _ | assumption | (simp only [Keeps.mk_iff]; apply KeepsIn.of) | apply Keeps.ite | split | dsimp only

theorem Mod.lanesFail_keeps {orig : Mod} {m : Mod} (edge : Nat) (back : Bool) (k : Nat) (lanes : List Nat) (kept : Mod.Keeps orig m) : Mod.Keeps orig (Mod.lanesFail m edge back k lanes) := by
  unfold Mod.lanesFail
  with_reducible repeat' first
    | intro _ | assumption | (simp only [Keeps.mk_iff]; apply KeepsIn.of) | apply record_keeps | apply report_keeps | apply failLanes_keeps
    | apply Keeps.ite | apply Keeps.foldl | split | dsimp only

theorem Mod.phaseDone_keeps {orig : Mod} {m : Mod} (n : Nat) (kept : Mod.Keeps orig m) : Mod.Keeps orig (Mod.phaseDone m n) := by
  unfold Mod.phaseDone
  with_reducible repeat' first
    | assumption | (simp only [Keeps.mk_iff]; apply KeepsIn.of) | dsimp only

theorem Mod.bootStop_keeps {orig : Mod} {m : Mod} (code detail : Nat) (kept : Mod.Keeps orig m) : Mod.Keeps orig (Mod.bootStop m code detail) := by
  unfold Mod.bootStop
  with_reducible repeat' first
    | assumption | (simp only [Keeps.mk_iff]; apply KeepsIn.of) | apply bootFail_keeps | dsimp only

theorem Mod.runImage_keeps {orig : Mod} {m : Mod} (c set : Nat) (x : ImageReport) (kept : Mod.Keeps orig m) : Mod.Keeps orig (Mod.runImage m c set x) := by
  unfold Mod.runImage
  with_reducible repeat' first
    | intro _ | assumption | (simp only [Keeps.mk_iff]; apply KeepsIn.of) | apply measure_keeps | apply Keeps.ite | split | dsimp only

theorem Mod.imageRefused_keeps {orig : Mod} {m : Mod} (c set level : Nat) (x : Option ImageReport) (kept : Mod.Keeps orig m) : Mod.Keeps orig (Mod.imageRefused m c set level x) := by
  unfold Mod.imageRefused
  with_reducible repeat' first
    | intro _ | assumption | (simp only [Keeps.mk_iff]; apply KeepsIn.of) | apply logEvent_keeps | split | dsimp only

theorem Mod.bootKeeper_keeps {orig : Mod} {m : Mod} (r : BootReport) (kept : Mod.Keeps orig m) : Mod.Keeps orig (Mod.bootKeeper m r) := by
  unfold Mod.bootKeeper
  with_reducible repeat' first
    | intro _ | assumption | (simp only [Keeps.mk_iff]; apply KeepsIn.of) | apply setFn_keeps | apply logEvent_keeps | apply fallBack_keeps
    | apply keeperUp_keeps | apply powerEvent_keeps | apply phaseDone_keeps | apply bootStop_keeps | apply runImage_keeps | apply imageRefused_keeps
    | apply Keeps.ite | split | dsimp only

theorem Mod.noteClocks_keeps {orig : Mod} {m : Mod} (r : BootReport) (kept : Mod.Keeps orig m) : Mod.Keeps orig (Mod.noteClocks m r) := by
  unfold Mod.noteClocks
  with_reducible repeat' first
    | intro _ | assumption | (simp only [Keeps.mk_iff]; apply KeepsIn.of) | apply bootFail_keeps | apply Keeps.ite | split | dsimp only

theorem Mod.bootMesh_keeps {orig : Mod} {m : Mod} (r : BootReport) (kept : Mod.Keeps orig m) : Mod.Keeps orig (Mod.bootMesh m r) := by
  unfold Mod.bootMesh
  with_reducible repeat' first
    | intro _ | assumption | (simp only [Keeps.mk_iff]; apply KeepsIn.of) | apply setCtl_keeps | apply warm_keeps | apply bootFail_keeps
    | apply toStandby_keeps | apply failLanes_keeps | apply phaseDone_keeps | apply bootStop_keeps | apply noteClocks_keeps | apply Keeps.ite
    | apply Keeps.foldl | split | dsimp only

theorem Mod.bootTests_keeps {orig : Mod} {m : Mod} (r : BootReport) (kept : Mod.Keeps orig m) : Mod.Keeps orig (Mod.bootTests m r) := by
  unfold Mod.bootTests
  with_reducible repeat' first
    | intro _ | assumption | (simp only [Keeps.mk_iff]; apply KeepsIn.of) | apply setPdCore_keeps | apply phaseDone_keeps | apply bootStop_keeps
    | apply Keeps.ite | apply Keeps.foldl | split | dsimp only

theorem Mod.bootMemory_keeps {orig : Mod} {m : Mod} (r : BootReport) (kept : Mod.Keeps orig m) : Mod.Keeps orig (Mod.bootMemory m r) := by
  unfold Mod.bootMemory
  with_reducible repeat' first
    | intro _ | assumption | (simp only [Keeps.mk_iff]; apply KeepsIn.of) | apply setCtl_keeps | apply record_keeps | apply report_keeps
    | apply phaseDone_keeps | apply Keeps.ite | apply Keeps.foldl | split | dsimp only

theorem Mod.layoutTier2_keeps {b m : Mod} (hdm : List (Fin 9 × Nat)) (h : Mod.Keeps b m) : Mod.Keeps b (m.layoutTier2 hdm) := by
  unfold Mod.layoutTier2
  have : ∀ (l : List Nat) (f : Mod × Nat → Nat → Mod × Nat) (a : Mod × Nat), (∀ a p, Mod.Keeps b a.1 → Mod.Keeps b (f a p).1) → Mod.Keeps b a.1 →
      Mod.Keeps b (l.foldl f a).1 := by
    intro l f
    induction l with
    | nil => intro a _ k; exact k
    | cons p rest ih => intro a hf k; exact ih _ hf (hf a p k)
  apply this
  · intro a p k
    dsimp only
    simp only [Mod.Keeps.mk_iff]
    exact Mod.KeepsIn.of (Mod.updPcie_keeps _ _ k)
  · dsimp only
    simp only [Mod.Keeps.mk_iff]
    exact Mod.KeepsIn.of h

theorem Mod.startFns_keeps {orig : Mod} {m : Mod} (kept : Mod.Keeps orig m) : Mod.Keeps orig (Mod.startFns m) := by
  unfold Mod.startFns
  with_reducible repeat' first
    | intro _ | assumption | (simp only [Keeps.mk_iff]; apply KeepsIn.of) | apply setFn_keeps | apply sizeBars_keeps | apply Keeps.foldl | split
    | dsimp only

theorem Mod.startGuest_keeps {orig : Mod} {m : Mod} (kept : Mod.Keeps orig m) : Mod.Keeps orig (Mod.startGuest m) := by
  unfold Mod.startGuest
  with_reducible repeat' first
    | intro _ | assumption | (simp only [Keeps.mk_iff]; apply KeepsIn.of) | apply Keeps.ite | split | dsimp only

theorem Mod.bootFirmware_keeps {orig : Mod} {m : Mod} (r : BootReport) (kept : Mod.Keeps orig m) : Mod.Keeps orig (Mod.bootFirmware m r) := by
  unfold Mod.bootFirmware
  with_reducible repeat' first
    | intro _ | assumption | (simp only [Keeps.mk_iff]; apply KeepsIn.of) | apply updDie_keeps | apply setCompute_keeps | apply measureKeeper_keeps
    | apply phaseDone_keeps | apply bootStop_keeps | apply runImage_keeps | apply imageRefused_keeps | apply layoutTier2_keeps | apply startFns_keeps
    | apply startGuest_keeps | apply Keeps.ite | apply Keeps.foldl | split | dsimp only

/-! ## Tender -/

theorem Mod.poisonLines_keeps {orig : Mod} {m : Mod} (lines : List Nat) (kept : Mod.Keeps orig m) : Mod.Keeps orig (Mod.poisonLines m lines) := by
  unfold Mod.poisonLines
  with_reducible repeat' first
    | intro _ | assumption | (simp only [Keeps.mk_iff]; apply KeepsIn.of) | split | dsimp only

theorem Mod.stopAgents_keeps {orig : Mod} {m : Mod} (kept : Mod.Keeps orig m) : Mod.Keeps orig (Mod.stopAgents m) := by
  unfold Mod.stopAgents
  with_reducible repeat' first
    | intro _ | assumption | (simp only [Keeps.mk_iff]; apply KeepsIn.of) | apply running_keeps | split | dsimp only

theorem Mod.loseSlice_keeps {orig : Mod} {m : Mod} (md : Nat) (kept : Mod.Keeps orig m) : Mod.Keeps orig (Mod.loseSlice m md) := by
  unfold Mod.loseSlice
  with_reducible repeat' first
    | intro _ | assumption | (simp only [Keeps.mk_iff]; apply KeepsIn.of) | apply poisonLines_keeps | apply Keeps.ite | split | dsimp only

theorem Mod.endCoherent_keeps {orig : Mod} {m : Mod} (failing : Option MdId) (kept : Mod.Keeps orig m) : Mod.Keeps orig (Mod.endCoherent m failing) := by
  unfold Mod.endCoherent
  with_reducible repeat' first
    | intro _ | assumption | (simp only [Keeps.mk_iff]; apply KeepsIn.of) | apply cleanSlices_keeps | apply poisonLines_keeps
    | apply stopAgents_keeps | apply loseSlice_keeps | split | dsimp only

theorem Mod.beginForced_keeps {orig : Mod} {m : Mod} (kept : Mod.Keeps orig m) : Mod.Keeps orig (Mod.beginForced m) := by
  unfold Mod.beginForced
  with_reducible repeat' first
    | assumption | (simp only [Keeps.mk_iff]; apply KeepsIn.of) | apply linksDown_keeps | apply replyFlush_keeps | apply warm_keeps
    | apply stopAgents_keeps | dsimp only

theorem Mod.recordEscalation_keeps {orig : Mod} {m : Mod} (old d : Domain) (injected : Bool) (kept : Mod.Keeps orig m) : Mod.Keeps orig (Mod.recordEscalation m old d injected) := by
  unfold Mod.recordEscalation
  with_reducible repeat' first
    | intro _ | assumption | (simp only [Keeps.mk_iff]; apply KeepsIn.of) | apply record_keeps | apply Keeps.ite | split | dsimp only

theorem Mod.moduleFault_keeps {orig : Mod} {m : Mod} (injected : Bool) (kept : Mod.Keeps orig m) : Mod.Keeps orig (Mod.moduleFault m injected) := by
  unfold Mod.moduleFault
  with_reducible repeat' first
    | intro _ | assumption | (simp only [Keeps.mk_iff]; apply KeepsIn.of) | apply askRestart_keeps | apply bootFail_keeps | apply toStandby_keeps
    | apply recordEscalation_keeps | apply Keeps.ite | split | dsimp only

theorem Mod.fenceDomain_keeps {orig : Mod} {m : Mod} (d : Domain) (injected : Bool) (kept : Mod.Keeps orig m) : Mod.Keeps orig (Mod.fenceDomain m d injected) := by
  unfold Mod.fenceDomain
  with_reducible repeat' first
    | intro _ | assumption | (simp only [Keeps.mk_iff]; apply KeepsIn.of) | apply fenceUnits_keeps | apply linkState_keeps | apply Keeps.ite | split
    | dsimp only

theorem Mod.beginRecovery_keeps {orig : Mod} {m : Mod} (d : Domain) (injected : Bool) (kept : Mod.Keeps orig m) : Mod.Keeps orig (Mod.beginRecovery m d injected) := by
  unfold Mod.beginRecovery
  with_reducible repeat' first
    | intro _ | assumption | (simp only [Keeps.mk_iff]; apply KeepsIn.of) | apply fenceDomain_keeps | split | dsimp only

theorem Mod.takeFault_keeps {b m : Mod} (n : Nat) (d : Domain) (injected : Bool) (h : Mod.Keeps b m) : Mod.Keeps b (Mod.takeFault n m d injected) := by
  induction n generalizing m d with
  | zero => exact h
  | succ n ih =>
    unfold Mod.takeFault
    with_reducible repeat' first
      | intro _ | assumption | (simp only [Keeps.mk_iff]; apply KeepsIn.of) | apply ih | apply recordEscalation_keeps | apply askRestart_keeps
      | apply moduleFault_keeps | apply beginRecovery_keeps | apply fenceDomain_keeps | apply Keeps.ite | apply Keeps.foldl | apply KeepsOr.ok
      | apply KeepsOr.error | apply KeepsOr.ite | split | dsimp only

theorem Mod.detected_keeps {orig : Mod} {m : Mod} (d : Domain) (kept : Mod.Keeps orig m) : Mod.Keeps orig (Mod.detected m d) := by
  unfold Mod.detected
  with_reducible repeat' first
    | intro _ | assumption | (simp only [Keeps.mk_iff]; apply KeepsIn.of) | apply record_keeps | apply recordStack_keeps | apply Keeps.ite | split
    | dsimp only

theorem Mod.nextRecovery_keeps {orig : Mod} {m : Mod} (kept : Mod.Keeps orig m) : Mod.Keeps orig (Mod.nextRecovery m) := by
  unfold Mod.nextRecovery
  with_reducible repeat' first
    | intro _ | assumption | (simp only [Keeps.mk_iff]; apply KeepsIn.of) | apply rest_keeps | split | dsimp only

theorem Mod.guestRefuse_keeps {orig : Mod} {m : Mod} (reason : Nat) (kept : Mod.Keeps orig m) : Mod.Keeps orig (Mod.guestRefuse m reason) := by
  unfold Mod.guestRefuse
  with_reducible repeat' first
    | assumption | (simp only [Keeps.mk_iff]; apply KeepsIn.of) | dsimp only

theorem Mod.guestFault_keeps {orig : Mod} {m : Mod} (kept : Mod.Keeps orig m) : Mod.Keeps orig (Mod.guestFault m) := by
  unfold Mod.guestFault
  with_reducible repeat' first
    | intro _ | assumption | (simp only [Keeps.mk_iff]; apply KeepsIn.of) | apply takeFree_keeps | apply record_keeps | apply guestRefuse_keeps
    | apply Keeps.ite | split | dsimp only

theorem Mod.coreStall_keeps {orig : Mod} {m : Mod} (core : CoreId) (injected : Bool) (kept : Mod.Keeps orig m) : Mod.Keeps orig (Mod.coreStall m core injected) := by
  unfold Mod.coreStall
  with_reducible repeat' first
    | assumption | (simp only [Keeps.mk_iff]; apply KeepsIn.of) | apply record_keeps | apply reportAs_keeps | dsimp only

theorem Mod.clusterHang_keeps {orig : Mod} {m : Mod} (cl : ClusterId) (cls code detail : Nat) (injected : Bool) (kept : Mod.Keeps orig m) : Mod.Keeps orig (Mod.clusterHang m cl cls code detail injected) := by
  unfold Mod.clusterHang
  with_reducible repeat' first
    | assumption | (simp only [Keeps.mk_iff]; apply KeepsIn.of) | apply record_keeps | apply reportAs_keeps | dsimp only

theorem Mod.upstreamTimeout_keeps {orig : Mod} {m : Mod} (r : Requester) (tag : Nat) (kept : Mod.Keeps orig m) : Mod.Keeps orig (Mod.upstreamTimeout m r tag) := by
  unfold Mod.upstreamTimeout
  with_reducible repeat' first
    | intro _ | assumption | (simp only [Keeps.mk_iff]; apply KeepsIn.of) | apply record_keeps | apply settleDrains_keeps | apply tellError_keeps
    | apply sendWaiting_keeps | split | dsimp only

theorem Mod.forceRestart_keeps {orig : Mod} {m : Mod} (kept : Mod.Keeps orig m) : Mod.Keeps orig (Mod.forceRestart m) := by
  unfold Mod.forceRestart
  with_reducible repeat' first
    | intro _ | assumption | (simp only [Keeps.mk_iff]; apply KeepsIn.of) | apply record_keeps | apply beginCold_keeps | apply beginForced_keeps
    | apply Keeps.ite | split | dsimp only

theorem Mod.ackErr_keeps {orig : Mod} {m : Mod} (site count : Nat) (kept : Mod.Keeps orig m) : Mod.Keeps orig (Mod.ackErr m site count) := by
  unfold Mod.ackErr
  with_reducible repeat' first
    | assumption | (simp only [Keeps.mk_iff]; apply KeepsIn.of) | apply setErr_keeps | dsimp only

theorem Mod.injectMem_keeps {orig : Mod} {m : Mod} (site pa : Nat) (uncorrectable : Bool) (kept : Mod.Keeps orig m) : Mod.Keeps orig (Mod.injectMem m site pa uncorrectable) := by
  unfold Mod.injectMem
  with_reducible repeat' first
    | intro _ | assumption | (simp only [Keeps.mk_iff]; apply KeepsIn.of) | apply setCtl_keeps | apply malformed_keeps | apply Keeps.ite | split
    | dsimp only

theorem Mod.fire_keeps {orig : Mod} {m : Mod} (site : Nat) (i : Injection) (kept : Mod.Keeps orig m) : Mod.Keeps orig (Mod.fire m site i) := by
  unfold Mod.fire
  with_reducible repeat' first
    | intro _ | assumption | (simp only [Keeps.mk_iff]; apply KeepsIn.of) | apply record_keeps | apply reportAs_keeps | apply updPort_keeps
    | apply coreStall_keeps | apply clusterHang_keeps | apply injectMem_keeps | split | dsimp only

theorem Mod.writeInject_keeps {orig : Mod} {m : Mod} (site : Nat) (value : Word) (kept : Mod.Keeps orig m) : Mod.Keeps orig (Mod.writeInject m site value) := by
  unfold Mod.writeInject
  with_reducible repeat' first
    | intro _ | assumption | (simp only [Keeps.mk_iff]; apply KeepsIn.of) | apply setReg_keeps | apply malformed_keeps | apply fire_keeps
    | apply Keeps.ite | split | dsimp only

/-! ## Packets -/

theorem Mod.sendCommand_keeps {orig : Mod} {m : Mod} (p : PktRef) (node : Nat) (ws : List Word) (kept : Mod.Keeps orig m) : Mod.Keeps orig (Mod.sendCommand m p node ws) := by
  unfold Mod.sendCommand
  with_reducible repeat' first
    | assumption | (simp only [Keeps.mk_iff]; apply KeepsIn.of) | apply keeperSend_keeps | apply running_keeps | dsimp only

theorem Mod.turned_keeps {orig : Mod} {m : Mod} (q : QRef) (kept : Mod.Keeps orig m) : Mod.Keeps orig (Mod.turned m q) := by
  unfold Mod.turned
  with_reducible repeat' first
    | intro _ | assumption | (simp only [Keeps.mk_iff]; apply KeepsIn.of) | apply updCluster_keeps | split | dsimp only

/-! ## Staging -/

theorem Mod.stageWrite_keeps {orig m n__ : Mod} {owner : Option Issuer} {written : List Nat} {next : Option StageEntry} {site off : Nat} {mask value : Word} (eq_ : Mod.stageWrite m owner written next site off mask value = some n__) (h : Mod.Keeps orig m) : Mod.Keeps orig n__ := by
  unfold Mod.stageWrite at eq_
  try dsimp only at eq_
  repeat' split at eq_
  all_goals (try (cases eq_))
  all_goals with_reducible repeat' first
    | intro _ | assumption | (simp only [Keeps.mk_iff]; apply KeepsIn.of) | apply setRegion_keeps | apply writeBits_keeps | apply Keeps.ite | split
    | dsimp only

theorem Mod.stageWrite_getD_keeps {orig m d_ : Mod} (owner : Option Issuer) (written : List Nat) (next : Option StageEntry) (site off : Nat) (mask value : Word) (h : Mod.Keeps orig m) (k : Mod.Keeps orig d_) : Mod.Keeps orig ((Mod.stageWrite m owner written next site off mask value).getD d_) := by
  cases e_ : Mod.stageWrite m owner written next site off mask value with
  | none => exact k
  | some n => exact Mod.stageWrite_keeps e_ h

theorem Mod.stageOne_keeps {orig m n : Mod} {owner : Option Issuer} {written : List Nat} {next : Option StageEntry} {x : StageEntry}
    (eq_ : m.stageOne owner written next x = some n) (h : Mod.Keeps orig m) : Mod.Keeps orig n := by
  unfold Mod.stageOne at eq_
  split at eq_
  · cases eq_
  · split at eq_
    · dsimp only at eq_
      split at eq_
      · cases eq_
      · cases eq_; exact Mod.Keeps.foldl h (fun m ch k => Mod.outChannel_keeps ch k)
    · exact Mod.stageWrite_keeps eq_ h

theorem Mod.stageRun_keeps {orig m n__ : Mod} {owner : Option Issuer} {written : List Nat} {i : Nat} {k_ : List StageEntry} (eq_ : Mod.stageRun m owner written i k_ = .ok n__) (h : Mod.Keeps orig m) : Mod.Keeps orig n__ := by
  induction k_ generalizing m i with
  | nil =>
    unfold Mod.stageRun at eq_
    try dsimp only at eq_
    repeat' split at eq_
    all_goals (try (cases eq_))
    all_goals with_reducible repeat' first
      | intro _ | assumption | (refine ih (by assumption) ?_) | (simp only [Keeps.mk_iff]; apply KeepsIn.of) | apply rest_keeps | (refine stageOne_keeps (by assumption) ?_)
      | apply KeepsOr.ok | apply KeepsOr.error | apply KeepsOr.ite | split | dsimp only
  | cons q_ r_ ih =>
    unfold Mod.stageRun at eq_
    try dsimp only at eq_
    repeat' split at eq_
    all_goals (try (cases eq_))
    all_goals with_reducible repeat' first
      | intro _ | assumption | (refine ih (by assumption) ?_) | (simp only [Keeps.mk_iff]; apply KeepsIn.of) | apply rest_keeps | (refine stageOne_keeps (by assumption) ?_)
      | apply KeepsOr.ok | apply KeepsOr.error | apply KeepsOr.ite | split | dsimp only

theorem Mod.setCommand_keeps {b m : Mod} (p : PktRef) (opc : Nat) (act : List Word → Nat → Mod) (h : Mod.Keeps b m)
    (k : ∀ ws i, Mod.Keeps b (act ws i)) : Mod.Keeps b (m.setCommand p opc act) := by
  unfold Mod.setCommand
  apply Mod.command_keeps _ _ _ h
  intro ws
  exact Mod.Keeps.ite (fun _ => k _ _) (fun _ => Mod.endCmd_keeps _ _ _ _ h)

theorem Mod.finalCheck_keeps {orig m : Mod} (k_ : Nat) (l_ : List Nat) (h : Mod.Keeps orig m) : Mod.Keeps orig (Mod.finalCheck m k_ l_) := by
  induction k_ generalizing m l_ with
  | zero =>
    unfold Mod.finalCheck
    with_reducible repeat' first
      | intro _ | assumption | apply ih | (simp only [Keeps.mk_iff]; apply KeepsIn.of) | apply setSet_keeps | apply leaveSet_keeps | apply Keeps.foldl | split
      | dsimp only
  | succ n_ ih =>
    unfold Mod.finalCheck
    with_reducible repeat' first
      | intro _ | assumption | apply ih | (simp only [Keeps.mk_iff]; apply KeepsIn.of) | apply setSet_keeps | apply leaveSet_keeps | apply Keeps.foldl | split
      | dsimp only

theorem Mod.activateStaged_keeps {orig : Mod} {m : Mod} (set : Word) (kept : Mod.Keeps orig m) : Mod.Keeps orig (Mod.activateStaged m set) := by
  unfold Mod.activateStaged
  with_reducible repeat' first
    | intro _ | assumption | (simp only [Keeps.mk_iff]; apply KeepsIn.of) | apply activateImage_keeps | apply Keeps.ite | split | dsimp only

theorem Mod.applyRegister_keeps {orig : Mod} {m : Mod} (site off : Nat) (d : RegDef) (mask value : Word) (kept : Mod.Keeps orig m) : Mod.Keeps orig (Mod.applyRegister m site off d mask value) := by
  unfold Mod.applyRegister
  with_reducible repeat' first
    | intro _ | assumption | (simp only [Keeps.mk_iff]; apply KeepsIn.of) | apply writeBits_keeps | apply resetRoot_keeps | apply formGroup_keeps
    | apply activateStaged_keeps | apply Keeps.ite | split | dsimp only

theorem Mod.applyWrite_keeps {orig : Mod} {m : Mod} (site off : Nat) (mask value : Word) (kept : Mod.Keeps orig m) : Mod.Keeps orig (Mod.applyWrite m site off mask value) := by
  unfold Mod.applyWrite
  with_reducible repeat' first
    | intro _ | assumption | (simp only [Keeps.mk_iff]; apply KeepsIn.of) | apply applyRegister_keeps | split | dsimp only

theorem Mod.applyEntry_keeps {orig : Mod} {m : Mod} (e : StageEntry) (kept : Mod.Keeps orig m) : Mod.Keeps orig (Mod.applyEntry m e) := by
  unfold Mod.applyEntry
  with_reducible repeat' first
    | intro _ | assumption | (simp only [Keeps.mk_iff]; apply KeepsIn.of) | apply outChannel_keeps | apply applyWrite_keeps | apply Keeps.ite
    | apply Keeps.foldl | split | dsimp only

theorem Mod.applied_keeps {orig : Mod} {m : Mod} (i : Nat) (kept : Mod.Keeps orig m) : Mod.Keeps orig (Mod.applied m i) := by
  unfold Mod.applied
  with_reducible repeat' first
    | intro _ | assumption | (simp only [Keeps.mk_iff]; apply KeepsIn.of) | apply updFlight_keeps | split | dsimp only

theorem Mod.applySet_keeps {orig : Mod} {m : Mod} (i : Nat) (kept : Mod.Keeps orig m) : Mod.Keeps orig (Mod.applySet m i) := by
  unfold Mod.applySet
  with_reducible repeat' first
    | intro _ | assumption | (simp only [Keeps.mk_iff]; apply KeepsIn.of) | apply setSet_keeps | apply writeRegion_keeps | apply dropMoved_keeps
    | apply resume_keeps | apply measureSector_keeps | apply applyEntry_keeps | apply applied_keeps | apply Keeps.foldl | split | dsimp only

theorem Mod.applyDone_keeps {orig : Mod} {m : Mod} (i : Nat) (kept : Mod.Keeps orig m) : Mod.Keeps orig (Mod.applyDone m i) := by
  unfold Mod.applyDone
  with_reducible repeat' first
    | intro _ | assumption | (simp only [Keeps.mk_iff]; apply KeepsIn.of) | apply leaveSet_keeps | apply freeDrained_keeps | apply applied_keeps
    | split | dsimp only

/-! ## Commands -/

theorem Mod.repairLane_keeps {orig : Mod} {m : Mod} (l : LaneRef) (kept : Mod.Keeps orig m) : Mod.Keeps orig (Mod.repairLane m l) := by
  unfold Mod.repairLane
  with_reducible repeat' first
    | intro _ | assumption | (simp only [Keeps.mk_iff]; apply KeepsIn.of) | apply Keeps.ite | split | dsimp only

theorem Mod.stageMapOut_keeps {orig : Mod} {m : Mod} (p : PktRef) (kind target i : Nat) (kept : Mod.Keeps orig m) : Mod.Keeps orig (Mod.stageMapOut m p kind target i) := by
  unfold Mod.stageMapOut
  with_reducible repeat' first
    | assumption | (simp only [Keeps.mk_iff]; apply KeepsIn.of) | apply setSet_keeps | apply endCmd_keeps | dsimp only

theorem Mod.copyNotice_keeps {orig : Mod} {m : Mod} (i : Nat) (x : Notice) (kept : Mod.Keeps orig m) : Mod.Keeps orig (Mod.copyNotice m i x) := by
  unfold Mod.copyNotice
  with_reducible repeat' first
    | intro _ | assumption | (simp only [Keeps.mk_iff]; apply KeepsIn.of) | (refine writePhys_keeps (by assumption) ?_) | apply Keeps.ite
    | apply KeepsOr.ok | apply KeepsOr.error | apply KeepsOr.ite | split | dsimp only

theorem Mod.noticeSignal_keeps {orig : Mod} {m : Mod} (owner : Issuer) (kept : Mod.Keeps orig m) : Mod.Keeps orig (Mod.noticeSignal m owner) := by
  unfold Mod.noticeSignal
  with_reducible repeat' first
    | intro _ | assumption | (simp only [Keeps.mk_iff]; apply KeepsIn.of) | apply raiseSource_keeps | (refine sendVector_keeps (by assumption) ?_)
    | apply sendVector_getD_keeps | apply Keeps.ite | apply Keeps.foldl | split | dsimp only

theorem Mod.noticeFired_keeps {orig : Mod} {m : Mod} (i : Nat) (x : Notice) (down : Bool) (y : Mark) (kept : Mod.Keeps orig m) : Mod.Keeps orig (Mod.noticeFired m i x down y) := by
  unfold Mod.noticeFired
  with_reducible repeat' first
    | assumption | (simp only [Keeps.mk_iff]; apply KeepsIn.of) | apply logEvent_keeps | apply noticeSignal_keeps | dsimp only

theorem Mod.setNotice_keeps {orig : Mod} {m : Mod} (i : Nat) (old new : Notice) (kept : Mod.Keeps orig m) : Mod.Keeps orig (Mod.setNotice m i old new) := by
  unfold Mod.setNotice
  with_reducible repeat' first
    | intro _ | assumption | (simp only [Keeps.mk_iff]; apply KeepsIn.of) | apply copyNotice_keeps | apply noticeFired_keeps | apply Keeps.ite
    | split | dsimp only

/-! ## Admission -/

theorem Mod.noteDispatch_keeps {orig : Mod} {m : Mod} (p : PktRef) (ws : List Word) (stage : Stage) (kept : Mod.Keeps orig m) : Mod.Keeps orig (Mod.noteDispatch m p ws stage) := by
  unfold Mod.noteDispatch
  with_reducible repeat' first
    | intro _ | assumption | (simp only [Keeps.mk_iff]; apply KeepsIn.of) | apply updCluster_keeps | apply updFlight_keeps | apply Keeps.ite | split
    | dsimp only

theorem Mod.dispatch_keeps {orig : Mod} {m : Mod} (p : PktRef) (ws : List Word) (kept : Mod.Keeps orig m) : Mod.Keeps orig (Mod.dispatch m p ws) := by
  unfold Mod.dispatch
  with_reducible repeat' first
    | intro _ | assumption | (simp only [Keeps.mk_iff]; apply KeepsIn.of) | apply checked_keeps | apply sendCommand_keeps | apply noteDispatch_keeps
    | apply Keeps.ite | split | dsimp only

/-! ## Mgmt -/

theorem Mod.mqEnable_keeps {orig : Mod} {m : Mod} (n : Fin 64) (kept : Mod.Keeps orig m) : Mod.Keeps orig (Mod.mqEnable m n) := by
  unfold Mod.mqEnable
  with_reducible repeat' first
    | intro _ | assumption | (simp only [Keeps.mk_iff]; apply KeepsIn.of) | apply setQueue_keeps | apply mqIgnored_keeps | apply Keeps.ite
    | apply KeepsOr.ok | apply KeepsOr.error | apply KeepsOr.ite | split | dsimp only

theorem Mod.mqDestroy_keeps {orig : Mod} {m : Mod} (n : Fin 64) (kept : Mod.Keeps orig m) : Mod.Keeps orig (Mod.mqDestroy m n) := by
  unfold Mod.mqDestroy
  with_reducible repeat' first
    | intro _ | assumption | (simp only [Keeps.mk_iff]; apply KeepsIn.of) | apply setQueue_keeps | apply mqIgnored_keeps | apply Keeps.ite
    | apply KeepsOr.ok | apply KeepsOr.error | apply KeepsOr.ite | split | dsimp only

theorem Mod.takeCommand_keeps {orig : Mod} {m : Mod} (e : Entering) (kept : Mod.Keeps orig m) : Mod.Keeps orig (Mod.takeCommand m e) := by
  unfold Mod.takeCommand
  with_reducible repeat' first
    | intro _ | assumption | (simp only [Keeps.mk_iff]; apply KeepsIn.of) | apply endCmd_keeps | apply dispatch_keeps | apply Keeps.ite | split
    | dsimp only

theorem Mod.takeReply_keeps {orig : Mod} {m : Mod} (e : Entering) (kept : Mod.Keeps orig m) : Mod.Keeps orig (Mod.takeReply m e) := by
  unfold Mod.takeReply
  with_reducible repeat' first
    | intro _ | assumption | (simp only [Keeps.mk_iff]; apply KeepsIn.of) | apply updQueue_keeps | apply writeReply_keeps | apply settleQueues_keeps
    | (refine notify_keeps (by assumption) ?_) | apply notify_getD_keeps | split | dsimp only

theorem Mod.setInactive_keeps {orig : Mod} {m : Mod} (x : Mem) (kept : Mod.Keeps orig m) : Mod.Keeps orig (Mod.setInactive m x) := by
  unfold Mod.setInactive
  with_reducible repeat' first
    | intro _ | assumption | (simp only [Keeps.mk_iff]; apply KeepsIn.of) | apply Keeps.ite | split | dsimp only

theorem Mod.eraseFlash_keeps {orig : Mod} {m : Mod} (sector : Nat) (kept : Mod.Keeps orig m) : Mod.Keeps orig (Mod.eraseFlash m sector) := by
  unfold Mod.eraseFlash
  with_reducible repeat' first
    | intro _ | assumption | (simp only [Keeps.mk_iff]; apply KeepsIn.of) | apply setInactive_keeps | split | dsimp only

theorem Mod.writeFlash_keeps {orig : Mod} {m : Mod} (off : Nat) (data : List Byte) (kept : Mod.Keeps orig m) : Mod.Keeps orig (Mod.writeFlash m off data) := by
  unfold Mod.writeFlash
  with_reducible repeat' first
    | assumption | (simp only [Keeps.mk_iff]; apply KeepsIn.of) | apply setInactive_keeps | dsimp only

theorem Mod.verifySet_keeps {orig : Mod} {m : Mod} (kept : Mod.Keeps orig m) : Mod.Keeps orig (Mod.verifySet m) := by
  unfold Mod.verifySet
  with_reducible repeat' first
    | assumption | (simp only [Keeps.mk_iff]; apply KeepsIn.of) | dsimp only

theorem Mod.confirmTrial_keeps {orig : Mod} {m : Mod} (kept : Mod.Keeps orig m) : Mod.Keeps orig (Mod.confirmTrial m) := by
  unfold Mod.confirmTrial
  with_reducible repeat' first
    | intro _ | assumption | (simp only [Keeps.mk_iff]; apply KeepsIn.of) | apply setReg_keeps | apply logEvent_keeps | apply Keeps.ite | split
    | dsimp only

theorem Mod.platformActivate_keeps {orig : Mod} {m : Mod} (kept : Mod.Keeps orig m) : Mod.Keeps orig (Mod.platformActivate m) := by
  unfold Mod.platformActivate
  with_reducible repeat' first
    | assumption | (simp only [Keeps.mk_iff]; apply KeepsIn.of) | dsimp only

/-! ## Guest -/

theorem Mod.tapTo_keeps {orig : Mod} {m : Mod} (ir : BitVec 8) (kept : Mod.Keeps orig m) : Mod.Keeps orig (Mod.tapTo m ir) := by
  unfold Mod.tapTo
  with_reducible repeat' first
    | assumption | (simp only [Keeps.mk_iff]; apply KeepsIn.of) | dsimp only

theorem Mod.tapShows_keeps {orig : Mod} {m : Mod} (ir : Nat) (fields : List Nat) (kept : Mod.Keeps orig m) : Mod.Keeps orig (Mod.tapShows m ir fields) := by
  unfold Mod.tapShows
  with_reducible repeat' first
    | assumption | (simp only [Keeps.mk_iff]; apply KeepsIn.of) | apply emit_keeps | dsimp only

theorem Mod.destroyAll_keeps {orig : Mod} {m : Mod} (kept : Mod.Keeps orig m) : Mod.Keeps orig (Mod.destroyAll m) := by
  unfold Mod.destroyAll
  with_reducible repeat' first
    | intro _ | assumption | (simp only [Keeps.mk_iff]; apply KeepsIn.of) | apply destroyKey_keeps | apply Keeps.foldl | split | dsimp only

theorem Mod.guestDetect_keeps {orig : Mod} {m : Mod} (kept : Mod.Keeps orig m) : Mod.Keeps orig (Mod.guestDetect m) := by
  unfold Mod.guestDetect
  with_reducible repeat' first
    | assumption | (simp only [Keeps.mk_iff]; apply KeepsIn.of) | dsimp only

theorem Mod.guestIn_keeps {orig : Mod} {m : Mod} (st : Nat) (f : Mod → Mod) (h_f : ∀ m, Mod.Keeps orig m → Mod.Keeps orig (f m)) (kept : Mod.Keeps orig m) : Mod.Keeps orig (Mod.guestIn m st f) := by
  unfold Mod.guestIn
  with_reducible repeat' first
    | intro _ | assumption | (simp only [Keeps.mk_iff]; apply KeepsIn.of) | apply Keeps.ite | apply h_f | split | dsimp only

theorem Mod.readmit_keeps {orig : Mod} {m : Mod} (kept : Mod.Keeps orig m) : Mod.Keeps orig (Mod.readmit m) := by
  unfold Mod.readmit
  with_reducible repeat' first
    | intro _ | assumption | (simp only [Keeps.mk_iff]; apply KeepsIn.of) | apply malformed_keeps | apply guestDetect_keeps | apply Keeps.ite | split
    | dsimp only

theorem Mod.guestMalformed_keeps {orig : Mod} {m : Mod} (tag : Nat) (kept : Mod.Keeps orig m) : Mod.Keeps orig (Mod.guestMalformed m tag) := by
  unfold Mod.guestMalformed
  with_reducible repeat' first
    | intro _ | assumption | (simp only [Keeps.mk_iff]; apply KeepsIn.of) | apply guestAnswer_keeps | apply malformed_keeps | apply guestFault_keeps
    | apply Keeps.ite | split | dsimp only

theorem Mod.guestError_keeps {orig : Mod} {m : Mod} (tag : Nat) (e : AccErr) (pa : Nat) (kept : Mod.Keeps orig m) : Mod.Keeps orig (Mod.guestError m tag e pa) := by
  unfold Mod.guestError
  with_reducible repeat' first
    | intro _ | assumption | (simp only [Keeps.mk_iff]; apply KeepsIn.of) | apply guestAnswer_keeps | apply recordAccess_keeps | apply Keeps.ite
    | split | dsimp only

theorem Mod.guestMessage_keeps {orig : Mod} {m : Mod} (tag : BitVec 12) (gen : BitVec 8) (sound : Bool) (pa : Nat) (f : Mod → Mod) (h_f : ∀ m, Mod.Keeps orig m → Mod.Keeps orig (f m)) (kept : Mod.Keeps orig m) : Mod.Keeps orig (Mod.guestMessage m tag gen sound pa f) := by
  unfold Mod.guestMessage
  with_reducible repeat' first
    | intro _ | assumption | (simp only [Keeps.mk_iff]; apply KeepsIn.of) | apply emit_keeps | apply guestMalformed_keeps | apply guestError_keeps
    | apply Keeps.ite | apply h_f | split | dsimp only

theorem Mod.guestRequest_keeps {orig : Mod} {m : Mod} (tag base n pa : Nat) (act : List Nat → TxnAct) (kept : Mod.Keeps orig m) : Mod.Keeps orig (Mod.guestRequest m tag base n pa act) := by
  unfold Mod.guestRequest
  with_reducible repeat' first
    | intro _ | assumption | (simp only [Keeps.mk_iff]; apply KeepsIn.of) | apply leaveRouter_keeps | apply guestError_keeps | apply KeepsOr.ok
    | apply KeepsOr.error | apply KeepsOr.ite | split | dsimp only

/-! ## RegWrite -/

theorem Mod.writeIgnored_keeps {orig : Mod} {m : Mod} (w : RegWriter) (site off : Nat) (kept : Mod.Keeps orig m) : Mod.Keeps orig (Mod.writeIgnored m w site off) := by
  unfold Mod.writeIgnored
  with_reducible repeat' first
    | assumption | (simp only [Keeps.mk_iff]; apply KeepsIn.of) | apply malformed_keeps | dsimp only

theorem Mod.writePlain_keeps {orig : Mod} {m : Mod} (site off : Nat) (value : Word) (kept : Mod.Keeps orig m) : Mod.Keeps orig (Mod.writePlain m site off value) := by
  unfold Mod.writePlain
  with_reducible repeat' first
    | intro _ | assumption | (simp only [Keeps.mk_iff]; apply KeepsIn.of) | apply writeBits_keeps | apply resume_keeps | apply Keeps.ite | split
    | dsimp only

theorem Mod.writeCore_keeps {orig : Mod} {m : Mod} (w : RegWriter) (id site off : Nat) (value : Word) (kept : Mod.Keeps orig m) : Mod.Keeps orig (Mod.writeCore m w id site off value) := by
  unfold Mod.writeCore
  with_reducible repeat' first
    | intro _ | assumption | (simp only [Keeps.mk_iff]; apply KeepsIn.of) | apply updCore_keeps | apply record_keeps | apply running_keeps
    | apply Keeps.ite | split | dsimp only

theorem Mod.writeBell_keeps {orig : Mod} {m : Mod} (q : QRef) (o : Nat) (value : Word) (kept : Mod.Keeps orig m) : Mod.Keeps orig (Mod.writeBell m q o value) := by
  unfold Mod.writeBell
  with_reducible repeat' first
    | intro _ | assumption | (simp only [Keeps.mk_iff]; apply KeepsIn.of) | apply bellSq_keeps | apply bellRq_keeps | split | dsimp only

theorem Mod.writeTd_keeps {orig : Mod} {m : Mod} (w : RegWriter) (t site off : Nat) (value : Word) (kept : Mod.Keeps orig m) : Mod.Keeps orig (Mod.writeTd m w t site off value) := by
  unfold Mod.writeTd
  with_reducible repeat' first
    | intro _ | assumption | (simp only [Keeps.mk_iff]; apply KeepsIn.of) | apply writePlain_keeps | apply writeCore_keeps | apply writeBell_keeps
    | apply Keeps.ite | split | dsimp only

theorem Mod.writeFabCtrl_keeps {orig : Mod} {m : Mod} (p site off : Nat) (value : Word) (kept : Mod.Keeps orig m) : Mod.Keeps orig (Mod.writeFabCtrl m p site off value) := by
  unfold Mod.writeFabCtrl
  with_reducible repeat' first
    | intro _ | assumption | (simp only [Keeps.mk_iff]; apply KeepsIn.of) | apply portReset_keeps | apply portEnable_keeps | apply portDisable_keeps
    | apply startRetrain_keeps | apply writePlain_keeps | apply Keeps.ite | split | dsimp only

theorem Mod.writePcieCtrl_keeps {orig : Mod} {m : Mod} (p site off : Nat) (value : Word) (kept : Mod.Keeps orig m) : Mod.Keeps orig (Mod.writePcieCtrl m p site off value) := by
  unfold Mod.writePcieCtrl
  with_reducible repeat' first
    | intro _ | assumption | (simp only [Keeps.mk_iff]; apply KeepsIn.of) | apply setFn_keeps | apply writePlain_keeps | apply Keeps.ite | split
    | dsimp only

theorem Mod.writeCePost_keeps {orig : Mod} {m : Mod} (e : Nat) (value : Word) (kept : Mod.Keeps orig m) : Mod.Keeps orig (Mod.writeCePost m e value) := by
  unfold Mod.writeCePost
  with_reducible repeat' first
    | assumption | (simp only [Keeps.mk_iff]; apply KeepsIn.of) | apply enginePost_keeps | dsimp only

theorem Mod.writeEd_keeps {orig : Mod} {m : Mod} (e site off : Nat) (value : Word) (kept : Mod.Keeps orig m) : Mod.Keeps orig (Mod.writeEd m e site off value) := by
  unfold Mod.writeEd
  with_reducible repeat' first
    | intro _ | assumption | (simp only [Keeps.mk_iff]; apply KeepsIn.of) | apply writePlain_keeps | apply writeFabCtrl_keeps
    | apply writePcieCtrl_keeps | apply writeCePost_keeps | apply Keeps.ite | split | dsimp only

theorem Mod.writeBind_keeps {orig : Mod} {m : Mod} (w : RegWriter) (n : Fin 64) (off : Nat) (value : Word) (kept : Mod.Keeps orig m) : Mod.Keeps orig (Mod.writeBind m w n off value) := by
  unfold Mod.writeBind
  with_reducible repeat' first
    | intro _ | assumption | (simp only [Keeps.mk_iff]; apply KeepsIn.of) | apply writeIgnored_keeps | apply writePlain_keeps | apply Keeps.ite
    | split | dsimp only

theorem Mod.writeMqCtrl_keeps {orig : Mod} {m : Mod} (n : Fin 64) (value : Word) (kept : Mod.Keeps orig m) : Mod.Keeps orig (Mod.writeMqCtrl m n value) := by
  unfold Mod.writeMqCtrl
  with_reducible repeat' first
    | intro _ | assumption | (simp only [Keeps.mk_iff]; apply KeepsIn.of) | apply mqIgnored_keeps | apply mqDisable_keeps | apply mqEnable_keeps
    | apply mqDestroy_keeps | split | dsimp only

theorem Mod.writeMq_keeps {orig : Mod} {m : Mod} (w : RegWriter) (n : Fin 64) (off : Nat) (value : Word) (kept : Mod.Keeps orig m) : Mod.Keeps orig (Mod.writeMq m w n off value) := by
  unfold Mod.writeMq
  with_reducible repeat' first
    | intro _ | assumption | (simp only [Keeps.mk_iff]; apply KeepsIn.of) | apply updQueue_keeps | apply writeIgnored_keeps | apply writeBind_keeps
    | apply writeMqCtrl_keeps | apply Keeps.ite | split | dsimp only

theorem Mod.writeBcn_keeps {orig : Mod} {m : Mod} (o : Nat) (value : Word) (kept : Mod.Keeps orig m) : Mod.Keeps orig (Mod.writeBcn m o value) := by
  unfold Mod.writeBcn
  with_reducible repeat' first
    | intro _ | assumption | (simp only [Keeps.mk_iff]; apply KeepsIn.of) | apply beaconCtrl_keeps | apply clearConflict_keeps | apply Keeps.ite
    | split | dsimp only

theorem Mod.writeModCtrl_keeps {orig : Mod} {m : Mod} (value : Word) (kept : Mod.Keeps orig m) : Mod.Keeps orig (Mod.writeModCtrl m value) := by
  unfold Mod.writeModCtrl
  with_reducible repeat' first
    | intro _ | assumption | (simp only [Keeps.mk_iff]; apply KeepsIn.of) | apply powerEvent_keeps | apply writePlain_keeps | split | dsimp only

theorem Mod.writeBootStatus_keeps {orig : Mod} {m : Mod} (value : Word) (kept : Mod.Keeps orig m) : Mod.Keeps orig (Mod.writeBootStatus m value) := by
  unfold Mod.writeBootStatus
  with_reducible repeat' first
    | assumption | (simp only [Keeps.mk_iff]; apply KeepsIn.of) | dsimp only

theorem Mod.writeBootCtrl_keeps {orig : Mod} {m : Mod} (value : Word) (kept : Mod.Keeps orig m) : Mod.Keeps orig (Mod.writeBootCtrl m value) := by
  unfold Mod.writeBootCtrl
  with_reducible repeat' first
    | intro _ | assumption | (simp only [Keeps.mk_iff]; apply KeepsIn.of) | apply askRestart_keeps | split | dsimp only

theorem Mod.writeFwCtrl_keeps {orig : Mod} {m : Mod} (value : Word) (kept : Mod.Keeps orig m) : Mod.Keeps orig (Mod.writeFwCtrl m value) := by
  unfold Mod.writeFwCtrl
  with_reducible repeat' first
    | intro _ | assumption | (simp only [Keeps.mk_iff]; apply KeepsIn.of) | apply eraseFlash_keeps | apply verifySet_keeps | apply confirmTrial_keeps
    | apply Keeps.ite | split | dsimp only

theorem Mod.writeHostCtrl_keeps {orig : Mod} {m : Mod} (value : Word) (kept : Mod.Keeps orig m) : Mod.Keeps orig (Mod.writeHostCtrl m value) := by
  unfold Mod.writeHostCtrl
  with_reducible repeat' first
    | intro _ | assumption | (simp only [Keeps.mk_iff]; apply KeepsIn.of) | apply resetSector_keeps | apply restartPds_keeps | split | dsimp only

theorem Mod.writeSessionBind_keeps {orig : Mod} {m : Mod} (w : RegWriter) (off : Nat) (value : Word) (kept : Mod.Keeps orig m) : Mod.Keeps orig (Mod.writeSessionBind m w off value) := by
  unfold Mod.writeSessionBind
  with_reducible repeat' first
    | intro _ | assumption | (simp only [Keeps.mk_iff]; apply KeepsIn.of) | apply bindSession_keeps | apply writeIgnored_keeps | apply Keeps.ite
    | split | dsimp only

theorem Mod.writeKd_keeps {orig : Mod} {m : Mod} (w : RegWriter) (off : Nat) (value : Word) (kept : Mod.Keeps orig m) : Mod.Keeps orig (Mod.writeKd m w off value) := by
  unfold Mod.writeKd
  with_reducible repeat' first
    | intro _ | assumption | (simp only [Keeps.mk_iff]; apply KeepsIn.of) | apply svnCommit_keeps | apply platformActivate_keeps
    | apply writePlain_keeps | apply writeBell_keeps | apply writeMq_keeps | apply writeBcn_keeps | apply writeModCtrl_keeps
    | apply writeBootStatus_keeps | apply writeBootCtrl_keeps | apply writeFwCtrl_keeps | apply writeHostCtrl_keeps | apply writeSessionBind_keeps
    | apply Keeps.ite | split | dsimp only

theorem Mod.writeTnd_keeps {orig : Mod} {m : Mod} (site off : Nat) (value : Word) (kept : Mod.Keeps orig m) : Mod.Keeps orig (Mod.writeTnd m site off value) := by
  unfold Mod.writeTnd
  with_reducible repeat' first
    | intro _ | assumption | (simp only [Keeps.mk_iff]; apply KeepsIn.of) | apply ackErr_keeps | apply writeInject_keeps | apply writePlain_keeps
    | split | dsimp only

theorem Mod.writeGuestCtrl_keeps {orig : Mod} {m : Mod} (value : Word) (kept : Mod.Keeps orig m) : Mod.Keeps orig (Mod.writeGuestCtrl m value) := by
  unfold Mod.writeGuestCtrl
  with_reducible repeat' first
    | intro _ | assumption | (simp only [Keeps.mk_iff]; apply KeepsIn.of) | apply readmit_keeps | apply writePlain_keeps | apply Keeps.ite | split
    | dsimp only

theorem Mod.writeRegister_keeps {orig : Mod} {m : Mod} (w : RegWriter) (site off : Nat) (value : Word) (kept : Mod.Keeps orig m) : Mod.Keeps orig (Mod.writeRegister m w site off value) := by
  unfold Mod.writeRegister
  with_reducible repeat' first
    | intro _ | assumption | (simp only [Keeps.mk_iff]; apply KeepsIn.of) | apply setCtl_keeps | apply writePlain_keeps | apply writeTd_keeps
    | apply writeEd_keeps | apply writeKd_keeps | apply writeTnd_keeps | apply writeGuestCtrl_keeps | apply Keeps.ite | split | dsimp only

theorem Mod.writeBurst_keeps {orig : Mod} {m : Mod} (w : RegWriter) (site o : Nat) (data : List Byte) (kept : Mod.Keeps orig m) : Mod.Keeps orig (Mod.writeBurst m w site o data) := by
  unfold Mod.writeBurst
  with_reducible repeat' first
    | intro _ | assumption | (simp only [Keeps.mk_iff]; apply KeepsIn.of) | apply recordAccess_keeps | (refine writePhys_keeps (by assumption) ?_)
    | apply KeepsOr.ok | apply KeepsOr.error | apply KeepsOr.ite | split | dsimp only

theorem Mod.writeBlock_keeps {orig : Mod} {m : Mod} (w : RegWriter) (site off size : Nat) (value : Word) (kept : Mod.Keeps orig m) : Mod.Keeps orig (Mod.writeBlock m w site off size value) := by
  unfold Mod.writeBlock
  with_reducible repeat' first
    | intro _ | assumption | (simp only [Keeps.mk_iff]; apply KeepsIn.of) | apply sendMsi_keeps | apply writeAplic_keeps | apply writeIommu_keeps
    | apply malformed_keeps | apply writeFlash_keeps | apply writeRegister_keeps | apply writeBurst_keeps | apply Keeps.ite | split | dsimp only

/-! ## HostAccess -/

theorem Mod.readBlock_keeps {orig m : Mod} (w : RegWriter) (site off n : Nat) (h : Mod.Keeps orig m) : Mod.Keeps orig (Mod.readBlock m w site off n).1 := by
  unfold Mod.readBlock
  with_reducible repeat' first
    | intro _ | assumption | (simp only [Keeps.mk_iff]; apply KeepsIn.of) | apply malformed_keeps | apply recordAccess_keeps | apply Keeps.ite
    | apply KeepsOr.ok | apply KeepsOr.error | apply KeepsOr.ite | split | dsimp only

theorem Mod.writeMsix_keeps {orig : Mod} {m : Mod} (port fn i : Nat) (mask value : Word) (kept : Mod.Keeps orig m) : Mod.Keeps orig (Mod.writeMsix m port fn i mask value) := by
  unfold Mod.writeMsix
  with_reducible repeat' first
    | intro _ | assumption | (simp only [Keeps.mk_iff]; apply KeepsIn.of) | apply setFn_keeps | apply unmask_keeps | apply Keeps.ite | split
    | dsimp only

theorem Mod.writeFunc_keeps {orig : Mod} {m : Mod} (port s o : Nat) (value : Word) (kept : Mod.Keeps orig m) : Mod.Keeps orig (Mod.writeFunc m port s o value) := by
  unfold Mod.writeFunc
  with_reducible repeat' first
    | intro _ | assumption | (simp only [Keeps.mk_iff]; apply KeepsIn.of) | apply setFn_keeps | apply adminEnable_keeps | apply adminDisable_keeps
    | apply Keeps.ite | split | dsimp only

theorem Mod.bar0Ignored_keeps {orig : Mod} {m : Mod} (port s off n : Nat) (kept : Mod.Keeps orig m) : Mod.Keeps orig (Mod.bar0Ignored m port s off n) := by
  unfold Mod.bar0Ignored
  with_reducible repeat' first
    | assumption | (simp only [Keeps.mk_iff]; apply KeepsIn.of) | apply malformed_keeps | dsimp only

theorem Mod.hostRead_keeps {orig m : Mod} (port s off n : Nat) (h : Mod.Keeps orig m) : Mod.Keeps orig (Mod.hostRead m port s off n).1 := by
  unfold Mod.hostRead
  with_reducible repeat' first
    | intro _ | assumption | (simp only [Keeps.mk_iff]; apply KeepsIn.of) | apply bar0Ignored_keeps | apply Keeps.ite | split | dsimp only

theorem Mod.hostWrite_keeps {orig : Mod} {m : Mod} (port s off : Nat) (data : List Byte) (kept : Mod.Keeps orig m) : Mod.Keeps orig (Mod.hostWrite m port s off data) := by
  unfold Mod.hostWrite
  with_reducible repeat' first
    | intro _ | assumption | (simp only [Keeps.mk_iff]; apply KeepsIn.of) | apply writeBell_keeps | apply writeMsix_keeps | apply writeFunc_keeps
    | apply bar0Ignored_keeps | apply Keeps.ite | split | dsimp only

theorem Mod.mgmtBar2_keeps {orig m : Mod} (port : Nat) (off n : Nat) (write : Option (List Byte)) (h : Mod.Keeps orig m) : Mod.Keeps orig (Mod.mgmtBar2 m port off n write).1 := by
  unfold Mod.mgmtBar2
  with_reducible repeat' first
    | intro _ | assumption | (simp only [Keeps.mk_iff]; apply KeepsIn.of) | apply writeMsix_keeps | apply Keeps.ite | split | dsimp only

theorem Mod.mgmtBar0_keeps {orig m : Mod} (port : Fin 9) (off n : Nat) (write : Option (List Byte)) (h : Mod.Keeps orig m) : Mod.Keeps orig (Mod.mgmtBar0 m port off n write).1 := by
  unfold Mod.mgmtBar0
  with_reducible repeat' first
    | intro _ | assumption | (simp only [Keeps.mk_iff]; apply KeepsIn.of) | apply writeFlash_keeps | apply writeBurst_keeps | apply writeBlock_keeps
    | apply readBlock_keeps | apply Keeps.ite | split | dsimp only

theorem Mod.throughMooring_keeps {orig : Mod} {m : Mod} (p : PcieId) (e : Nat × Mooring) (addr tag n : Nat) (write : Option (List Byte)) (kept : Mod.Keeps orig m) : Mod.Keeps orig (Mod.throughMooring m p e addr tag n write) := by
  unfold Mod.throughMooring
  with_reducible repeat' first
    | intro _ | assumption | (simp only [Keeps.mk_iff]; apply KeepsIn.of) | apply emit_keeps | apply request_keeps | apply Keeps.ite | split
    | dsimp only

theorem Mod.inBar_keeps {orig : Mod} {m : Mod} (port : Fin 9) (rid : Nat) (t : BarTarget) (tag n : Nat) (write : Option (List Byte)) (kept : Mod.Keeps orig m) : Mod.Keeps orig (Mod.inBar m port rid t tag n write) := by
  unfold Mod.inBar
  with_reducible repeat' first
    | intro _ | assumption | (simp only [Keeps.mk_iff]; apply KeepsIn.of) | apply emit_keeps | apply hostRead_keeps | apply hostWrite_keeps
    | apply mgmtBar2_keeps | apply mgmtBar0_keeps | apply throughMooring_keeps | apply Keeps.ite | split | dsimp only

theorem Mod.config_keeps {orig : Mod} {m : Mod} (port fn tag : Nat) (a : CfgAccess) (kept : Mod.Keeps orig m) : Mod.Keeps orig (Mod.config m port fn tag a) := by
  unfold Mod.config
  with_reducible repeat' first
    | intro _ | assumption | (simp only [Keeps.mk_iff]; apply KeepsIn.of) | apply setFn_keeps | apply emit_keeps | apply takeFree_keeps
    | apply command_keeps | apply bmeClear_keeps | apply bmeSet_keeps | apply Keeps.ite | split | dsimp only

theorem Mod.atomicThrough_keeps {orig : Mod} {m : Mod} (p : PcieId) (n : Nat) (x : Mooring) (addr tag : Nat) (op : AtomOp) (size v c : Nat) (kept : Mod.Keeps orig m) : Mod.Keeps orig (Mod.atomicThrough m p n x addr tag op size v c) := by
  unfold Mod.atomicThrough
  with_reducible repeat' first
    | intro _ | assumption | (simp only [Keeps.mk_iff]; apply KeepsIn.of) | apply emit_keeps | apply request_keeps | apply Keeps.ite | split
    | dsimp only

theorem Mod.translated_keeps {orig : Mod} {m : Mod} (p : PcieId) (pa tag n : Nat) (write : Option (List Byte)) (kept : Mod.Keeps orig m) : Mod.Keeps orig (Mod.translated m p pa tag n write) := by
  unfold Mod.translated
  with_reducible repeat' first
    | intro _ | assumption | (simp only [Keeps.mk_iff]; apply KeepsIn.of) | apply emit_keeps | apply sendMsi_keeps | apply recordAccess_keeps
    | apply tellError_keeps | apply request_keeps | apply Keeps.ite | split | dsimp only

theorem Mod.walked_keeps {orig : Mod} {m : Mod} (a : AdapterReq) (result : Option (Nat × Bool)) (kept : Mod.Keeps orig m) : Mod.Keeps orig (Mod.walked m a result) := by
  unfold Mod.walked
  with_reducible repeat' first
    | intro _ | assumption | (simp only [Keeps.mk_iff]; apply KeepsIn.of) | apply emit_keeps | apply raiseSource_keeps | apply translated_keeps
    | apply Keeps.ite | split | dsimp only

theorem Mod.leaveBy_keeps {orig : Mod} {m : Mod} (r : Requester) (port pa n : Nat) (write : Option (List Byte)) (kept : Mod.Keeps orig m) : Mod.Keeps orig (Mod.leaveBy m r port pa n write) := by
  unfold Mod.leaveBy
  with_reducible repeat' first
    | intro _ | assumption | (simp only [Keeps.mk_iff]; apply KeepsIn.of) | apply emit_keeps | apply takeFree_keeps | apply sendUpstream_keeps
    | apply Keeps.ite | split | dsimp only

theorem Mod.flushed_keeps {orig : Mod} {m : Mod} (what : FlushFor) (kept : Mod.Keeps orig m) : Mod.Keeps orig (Mod.flushed m what) := by
  unfold Mod.flushed
  with_reducible repeat' first
    | intro _ | assumption | (simp only [Keeps.mk_iff]; apply KeepsIn.of) | apply flushEnd_keeps | (refine notify_keeps (by assumption) ?_)
    | apply notify_getD_keeps | apply notifyFlushed_keeps | apply Keeps.foldl | split | dsimp only

/-! ## MoveBlocks -/

theorem Mod.readUnits_keeps {orig m : Mod} (sector : SectorId) (k_ : List (Nat × Nat × Nat)) (l_ : List Byte) (h : Mod.Keeps orig m) : Mod.Keeps orig (Mod.readUnits m sector k_ l_).1 := by
  induction k_ generalizing m l_ with
  | nil =>
    unfold Mod.readUnits
    with_reducible repeat' first
      | intro _ | assumption | apply ih | (simp only [Keeps.mk_iff]; apply KeepsIn.of) | apply rest_keeps | apply readBlock_keeps | split | dsimp only
  | cons q_ r_ ih =>
    unfold Mod.readUnits
    with_reducible repeat' first
      | intro _ | assumption | apply ih | (simp only [Keeps.mk_iff]; apply KeepsIn.of) | apply rest_keeps | apply readBlock_keeps | split | dsimp only

theorem Mod.writeUnits_keeps {orig m : Mod} (sector : SectorId) (bs : List Byte) (k_ : List (Nat × Nat × Nat)) (h : Mod.Keeps orig m) : Mod.Keeps orig (Mod.writeUnits m sector bs k_) := by
  induction k_ generalizing m with
  | nil =>
    unfold Mod.writeUnits
    with_reducible repeat' first
      | intro _ | assumption | apply ih | (simp only [Keeps.mk_iff]; apply KeepsIn.of) | apply rest_keeps | apply writeBlock_keeps | split | dsimp only
  | cons q_ r_ ih =>
    unfold Mod.writeUnits
    with_reducible repeat' first
      | intro _ | assumption | apply ih | (simp only [Keeps.mk_iff]; apply KeepsIn.of) | apply rest_keeps | apply writeBlock_keeps | split | dsimp only

theorem Mod.blockRequest_keeps {orig : Mod} {m : Mod} (w : RegWriter) (pa n : Nat) (write : Option (List Byte)) (kept : Mod.Keeps orig m) : Mod.Keeps orig (Mod.blockRequest m w pa n write) := by
  unfold Mod.blockRequest
  with_reducible repeat' first
    | intro _ | assumption | (simp only [Keeps.mk_iff]; apply KeepsIn.of) | apply emit_keeps | apply writeBlock_keeps | apply readBlock_keeps | split
    | dsimp only

theorem Mod.moveRead_keeps {orig m n__ : Mod} {cluster : Nat} {sector : Option SectorId} {d : Desc} {k : Nat} {x1_ : List Byte} (eq_ : Mod.moveRead m cluster sector d k = .ok (n__, x1_)) (h : Mod.Keeps orig m) : Mod.Keeps orig n__ := by
  unfold Mod.moveRead at eq_
  try dsimp only at eq_
  repeat' split at eq_
  all_goals (first | (cases eq_) | (try (have q_ := congrArg Prod.fst (Except.ok.inj eq_); dsimp only at q_; subst q_)))
  all_goals with_reducible repeat' first
    | intro _ | assumption | (simp only [Keeps.mk_iff]; apply KeepsIn.of) | apply channelRead_keeps | (refine passNow_keeps (by assumption) ?_)
    | apply passNow_getD_keeps | apply readUnits_keeps | apply Keeps.ite | apply KeepsOr.ok | apply KeepsOr.error | apply KeepsOr.ite | split
    | dsimp only

theorem Mod.moveWrite_keeps {orig m n__ : Mod} {cluster : Nat} {sector : Option SectorId} {d : Desc} {k : Nat} {bs : List Byte} {x1_ : List (Nat × Nat)} (eq_ : Mod.moveWrite m cluster sector d k bs = .ok (n__, x1_)) (h : Mod.Keeps orig m) : Mod.Keeps orig n__ := by
  unfold Mod.moveWrite at eq_
  try dsimp only at eq_
  repeat' split at eq_
  all_goals (first | (cases eq_) | (try (have q_ := congrArg Prod.fst (Except.ok.inj eq_); dsimp only at q_; subst q_)))
  all_goals with_reducible repeat' first
    | intro _ | assumption | (simp only [Keeps.mk_iff]; apply KeepsIn.of) | apply updCore_keeps | apply writeHinted_keeps
    | (refine passNow_keeps (by assumption) ?_) | apply passNow_getD_keeps | apply writeUnits_keeps | apply Keeps.ite | apply KeepsOr.ok
    | apply KeepsOr.error | apply KeepsOr.ite | split | dsimp only

theorem Mod.readDesc_kept {orig m n : Mod} {sector : Option SectorId} {addr : Nat} {r : Except MoveErr (List Word)}
    (eq_ : m.readDesc sector addr = (n, r)) (h : Mod.Keeps orig m) : Mod.Keeps orig n := by
  have k := Mod.readDesc_keeps sector addr h
  rw [eq_] at k
  exact k

theorem Mod.moveRead_failed {orig m : Mod} {cluster : Nat} {sector : Option SectorId} {d : Desc} {k : Nat} {e : Mod × MoveErr}
    (eq_ : m.moveRead cluster sector d k = .error e) (h : Mod.Keeps orig m) : Mod.Keeps orig e.1 := by
  unfold Mod.moveRead at eq_
  try dsimp only at eq_
  repeat' split at eq_
  all_goals (try (cases eq_))
  all_goals with_reducible repeat' first
    | intro _ | assumption | (simp only [Keeps.mk_iff]; apply KeepsIn.of) | (refine passNow_keeps (by assumption) ?_)
    | apply channelRead_keeps | split | dsimp only

theorem Mod.moveWrite_failed {orig m : Mod} {cluster : Nat} {sector : Option SectorId} {d : Desc} {k : Nat} {bs : List Byte} {e : Mod × MoveErr}
    (eq_ : m.moveWrite cluster sector d k bs = .error e) (h : Mod.Keeps orig m) : Mod.Keeps orig e.1 := by
  unfold Mod.moveWrite at eq_
  try dsimp only at eq_
  repeat' split at eq_
  all_goals (try (cases eq_))
  all_goals with_reducible repeat' first
    | intro _ | assumption | (simp only [Keeps.mk_iff]; apply KeepsIn.of) | (refine passNow_keeps (by assumption) ?_)
    | apply channelRead_keeps | split | dsimp only

theorem Mod.listJob_kept {orig m n : Mod} {sector : Option SectorId} {a b addr : Nat} {post : Option Nat} {r : Except MoveErr MoveJob}
    (eq_ : m.listJob sector a b addr post = (n, r)) (h : Mod.Keeps orig m) : Mod.Keeps orig n := by
  have k := Mod.listJob_keeps sector a b addr post h
  rw [eq_] at k
  exact k

theorem Mod.holdBlocks_keeps {orig m n__ : Mod} {cluster : Nat} {sector : Option SectorId} {start : Nat} {p : MovePart} {k_ : List Nat} {x1_ : MovePart} (eq_ : Mod.holdBlocks m cluster sector start p k_ = .ok (n__, x1_)) (h : Mod.Keeps orig m) : Mod.Keeps orig n__ := by
  induction k_ generalizing m x1_ p with
  | nil =>
    unfold Mod.holdBlocks at eq_
    try dsimp only at eq_
    repeat' split at eq_
    all_goals (first | (cases eq_) | (try (have q_ := congrArg Prod.fst (Except.ok.inj eq_); dsimp only at q_; subst q_)))
    all_goals with_reducible repeat' first
      | intro _ | assumption | (refine ih (by assumption) ?_) | (simp only [Keeps.mk_iff]; apply KeepsIn.of) | apply rest_keeps | (refine moveRead_keeps (by assumption) ?_)
      | apply Keeps.ite | apply KeepsOr.ok | apply KeepsOr.error | apply KeepsOr.ite | split | dsimp only
  | cons q_ r_ ih =>
    unfold Mod.holdBlocks at eq_
    try dsimp only at eq_
    repeat' split at eq_
    all_goals (first | (cases eq_) | (try (have q_ := congrArg Prod.fst (Except.ok.inj eq_); dsimp only at q_; subst q_)))
    all_goals with_reducible repeat' first
      | intro _ | assumption | (refine ih (by assumption) ?_) | (simp only [Keeps.mk_iff]; apply KeepsIn.of) | apply rest_keeps | (refine moveRead_keeps (by assumption) ?_)
      | apply Keeps.ite | apply KeepsOr.ok | apply KeepsOr.error | apply KeepsOr.ite | split | dsimp only

theorem Mod.holdBlocks_failed {orig m : Mod} {cluster : Nat} {sector : Option SectorId} {start : Nat} {p : MovePart} {l : List Nat}
    {e : Mod × MoveErr} (eq_ : m.holdBlocks cluster sector start p l = .error e) (h : Mod.Keeps orig m) : Mod.Keeps orig e.1 := by
  induction l generalizing m p with
  | nil => unfold Mod.holdBlocks at eq_; cases eq_
  | cons k rest ih =>
    unfold Mod.holdBlocks at eq_
    split at eq_
    · exact ih eq_ h
    · split at eq_
      · next q => cases eq_; exact Mod.moveRead_failed q h
      · next q => exact ih eq_ (Mod.moveRead_keeps q h)

theorem Mod.holdParts_keeps {orig m n__ : Mod} {cluster : Nat} {sector : Option SectorId} {start : Nat} {k_ : List MovePart} {x1_ : List MovePart} (eq_ : Mod.holdParts m cluster sector start k_ = .ok (n__, x1_)) (h : Mod.Keeps orig m) : Mod.Keeps orig n__ := by
  induction k_ generalizing m x1_ with
  | nil =>
    unfold Mod.holdParts at eq_
    try dsimp only at eq_
    repeat' split at eq_
    all_goals (first | (cases eq_) | (try (have q_ := congrArg Prod.fst (Except.ok.inj eq_); dsimp only at q_; subst q_)))
    all_goals with_reducible repeat' first
      | intro _ | assumption | (refine ih (by assumption) ?_) | (simp only [Keeps.mk_iff]; apply KeepsIn.of) | apply rest_keeps | (refine holdBlocks_keeps (by assumption) ?_)
      | apply KeepsOr.ok | apply KeepsOr.error | apply KeepsOr.ite | split | dsimp only
  | cons q_ r_ ih =>
    unfold Mod.holdParts at eq_
    try dsimp only at eq_
    repeat' split at eq_
    all_goals (first | (cases eq_) | (try (have q_ := congrArg Prod.fst (Except.ok.inj eq_); dsimp only at q_; subst q_)))
    all_goals with_reducible repeat' first
      | intro _ | assumption | (refine ih (by assumption) ?_) | (simp only [Keeps.mk_iff]; apply KeepsIn.of) | apply rest_keeps | (refine holdBlocks_keeps (by assumption) ?_)
      | apply KeepsOr.ok | apply KeepsOr.error | apply KeepsOr.ite | split | dsimp only

theorem Mod.holdParts_failed {orig m : Mod} {cluster : Nat} {sector : Option SectorId} {start : Nat} {l : List MovePart}
    {e : Mod × MoveErr × Nat} (eq_ : m.holdParts cluster sector start l = .error e) (h : Mod.Keeps orig m) : Mod.Keeps orig e.1 := by
  induction l generalizing m with
  | nil => unfold Mod.holdParts at eq_; cases eq_
  | cons p rest ih =>
    unfold Mod.holdParts at eq_
    split at eq_
    · next q => cases eq_; exact Mod.holdBlocks_failed q h
    · next q =>
      split at eq_
      · next r => cases eq_; exact ih r (Mod.holdBlocks_keeps q h)
      · cases eq_

theorem Mod.openPart_keeps {orig m n : Mod} {cluster : Nat} {sector : Option SectorId} {start : Nat} {j j' : MoveJob}
    (eq_ : m.openPart cluster sector start j = .ok (n, j')) (h : Mod.Keeps orig m) : Mod.Keeps orig n := by
  unfold Mod.openPart at eq_
  try dsimp only at eq_
  repeat' split at eq_
  all_goals (try (cases eq_))
  all_goals with_reducible repeat' first
    | intro _ | assumption | (simp only [Keeps.mk_iff]; apply KeepsIn.of) | (refine readDesc_kept (by assumption) ?_)
    | (refine moveRead_failed (by assumption) ?_) | (refine moveRead_keeps (by assumption) ?_) | (refine moveWrite_failed (by assumption) ?_)
    | (refine passNow_keeps (by assumption) ?_) | apply channelRead_keeps | (refine holdBlocks_failed (by assumption) ?_)
    | (refine holdBlocks_keeps (by assumption) ?_) | (refine holdParts_failed (by assumption) ?_)
    | (refine holdParts_keeps (by assumption) ?_) | split | dsimp only

theorem Mod.openPart_failed {orig m : Mod} {cluster : Nat} {sector : Option SectorId} {start : Nat} {j : MoveJob}
    {e : Mod × MoveErr × Nat} (eq_ : m.openPart cluster sector start j = .error e) (h : Mod.Keeps orig m) : Mod.Keeps orig e.1 := by
  unfold Mod.openPart at eq_
  try dsimp only at eq_
  repeat' split at eq_
  all_goals (try (cases eq_))
  all_goals with_reducible repeat' first
    | intro _ | assumption | (simp only [Keeps.mk_iff]; apply KeepsIn.of) | (refine readDesc_kept (by assumption) ?_)
    | (refine moveRead_failed (by assumption) ?_) | (refine moveRead_keeps (by assumption) ?_) | (refine moveWrite_failed (by assumption) ?_)
    | (refine passNow_keeps (by assumption) ?_) | apply channelRead_keeps | (refine holdBlocks_failed (by assumption) ?_)
    | (refine holdBlocks_keeps (by assumption) ?_) | (refine holdParts_failed (by assumption) ?_)
    | (refine holdParts_keeps (by assumption) ?_) | split | dsimp only

theorem Mod.reach_keeps {orig m n__ : Mod} {cluster : Nat} {sector : Option SectorId} {start block : Nat} {j : MoveJob} {x1_ : MoveJob} (eq_ : Mod.reach m cluster sector start block j = .ok (n__, x1_)) (h : Mod.Keeps orig m) : Mod.Keeps orig n__ := by
  unfold Mod.reach at eq_
  try dsimp only at eq_
  repeat' split at eq_
  all_goals (first | (cases eq_) | (try (have q_ := congrArg Prod.fst (Except.ok.inj eq_); dsimp only at q_; subst q_)))
  all_goals with_reducible repeat' first
    | intro _ | assumption | (simp only [Keeps.mk_iff]; apply KeepsIn.of) | (refine openPart_keeps (by assumption) ?_) | apply Keeps.ite
    | apply KeepsOr.ok | apply KeepsOr.error | apply KeepsOr.ite | split | dsimp only

theorem Mod.reach_failed {orig m : Mod} {cluster : Nat} {sector : Option SectorId} {start block : Nat} {j : MoveJob}
    {e : Mod × MoveErr × Nat} (eq_ : m.reach cluster sector start block j = .error e) (h : Mod.Keeps orig m) : Mod.Keeps orig e.1 := by
  unfold Mod.reach at eq_
  try dsimp only at eq_
  repeat' split at eq_
  all_goals (try (cases eq_))
  all_goals with_reducible repeat' first
    | intro _ | assumption | (simp only [Keeps.mk_iff]; apply KeepsIn.of) | (refine readDesc_kept (by assumption) ?_)
    | (refine moveRead_failed (by assumption) ?_) | (refine moveRead_keeps (by assumption) ?_) | (refine moveWrite_failed (by assumption) ?_)
    | (refine passNow_keeps (by assumption) ?_) | apply channelRead_keeps | (refine holdBlocks_failed (by assumption) ?_)
    | (refine holdBlocks_keeps (by assumption) ?_) | (refine holdParts_failed (by assumption) ?_)
    | (refine holdParts_keeps (by assumption) ?_) | (refine openPart_failed (by assumption) ?_) | split | dsimp only

theorem Mod.jobBlock_keeps {orig m n : Mod} {cluster : Nat} {sector : Option SectorId} {start block : Nat} {j j' : MoveJob}
    {l : List (Nat × Nat)} (eq_ : m.jobBlock cluster sector start block j = .ok (n, j', l)) (h : Mod.Keeps orig m) : Mod.Keeps orig n := by
  unfold Mod.jobBlock at eq_
  split at eq_
  · cases eq_
  · next e₁ =>
    have h₁ := Mod.reach_keeps e₁ h
    split at eq_
    · cases eq_; exact h₁
    · dsimp only at eq_
      split at eq_
      · cases eq_
      · next m₂ _ e₂ =>
        have h₂ : Mod.Keeps orig m₂ := by
          split at e₂
          · cases e₂; exact h₁
          · exact Mod.moveRead_keeps e₂ h₁
        split at eq_
        · cases eq_
        · next e₃ => cases eq_; exact Mod.moveWrite_keeps e₃ h₂

theorem Mod.postParts_keeps {orig : Mod} {m : Mod} (sector : Option SectorId) (start : Nat) (ps : List MovePart) (kept : Mod.Keeps orig m) : Mod.Keeps orig (Mod.postParts m sector start ps) := by
  unfold Mod.postParts
  with_reducible repeat' first
    | intro _ | assumption | (simp only [Keeps.mk_iff]; apply KeepsIn.of) | apply sendPost_keeps | apply Keeps.ite | apply Keeps.foldl | split
    | dsimp only

theorem Mod.jobDone_keeps {orig m n__ : Mod} {cluster : Nat} {sector : Option SectorId} {start : Nat} {j : MoveJob} {x1_ : MoveJob} {x2_ : Bool} (eq_ : Mod.jobDone m cluster sector start j = .ok (n__, x1_, x2_)) (h : Mod.Keeps orig m) : Mod.Keeps orig n__ := by
  unfold Mod.jobDone at eq_
  try dsimp only at eq_
  repeat' split at eq_
  all_goals (first | (cases eq_) | (try (have q_ := congrArg Prod.fst (Except.ok.inj eq_); dsimp only at q_; subst q_)))
  all_goals with_reducible repeat' first
    | intro _ | assumption | (simp only [Keeps.mk_iff]; apply KeepsIn.of) | (refine openPart_keeps (by assumption) ?_) | apply postParts_keeps
    | apply Keeps.ite | apply KeepsOr.ok | apply KeepsOr.error | apply KeepsOr.ite | split | dsimp only

theorem Mod.jobBlock_failed {orig m : Mod} {cluster : Nat} {sector : Option SectorId} {start block : Nat} {j : MoveJob}
    {e : Mod × MoveErr × Nat} (eq_ : m.jobBlock cluster sector start block j = .error e) (h : Mod.Keeps orig m) : Mod.Keeps orig e.1 := by
  unfold Mod.jobBlock at eq_
  split at eq_
  · next q => cases eq_; exact Mod.reach_failed q h
  · next q =>
    have k := Mod.reach_keeps q h
    split at eq_
    · cases eq_
    · dsimp only at eq_
      split at eq_
      · next r =>
        cases eq_
        split at r
        · cases r
        · exact Mod.moveRead_failed r k
      · next r =>
        split at eq_
        · next w =>
          cases eq_
          refine Mod.moveWrite_failed w ?_
          split at r
          · cases r; exact k
          · exact Mod.moveRead_keeps r k
        · cases eq_

theorem Mod.jobDone_failed {orig m : Mod} {cluster : Nat} {sector : Option SectorId} {start : Nat} {j : MoveJob}
    {e : Mod × MoveErr × Nat} (eq_ : m.jobDone cluster sector start j = .error e) (h : Mod.Keeps orig m) : Mod.Keeps orig e.1 := by
  unfold Mod.jobDone at eq_
  try dsimp only at eq_
  repeat' split at eq_
  all_goals (try (cases eq_))
  all_goals with_reducible repeat' first
    | intro _ | assumption | (simp only [Keeps.mk_iff]; apply KeepsIn.of) | (refine readDesc_kept (by assumption) ?_)
    | (refine moveRead_failed (by assumption) ?_) | (refine moveRead_keeps (by assumption) ?_) | (refine moveWrite_failed (by assumption) ?_)
    | (refine passNow_keeps (by assumption) ?_) | apply channelRead_keeps | (refine holdBlocks_failed (by assumption) ?_)
    | (refine holdBlocks_keeps (by assumption) ?_) | (refine holdParts_failed (by assumption) ?_)
    | (refine holdParts_keeps (by assumption) ?_) | (refine openPart_failed (by assumption) ?_) | apply postParts_keeps | split | dsimp only

theorem Mod.coreBlock_keeps {orig : Mod} {m : Mod} (id : CoreId) (n block : Nat) (kept : Mod.Keeps orig m) : Mod.Keeps orig (Mod.coreBlock m id n block) := by
  unfold Mod.coreBlock
  with_reducible repeat' first
    | intro _ | assumption | (simp only [Keeps.mk_iff]; apply KeepsIn.of) | apply updCore_keeps | apply noteWrites_keeps | apply moveFault_keeps
    | (refine jobBlock_keeps (by assumption) ?_) | apply Keeps.ite | apply KeepsOr.ok | apply KeepsOr.error | apply KeepsOr.ite
    | (refine jobBlock_failed (by assumption) ?_) | split | dsimp only

theorem Mod.coreMoveDone_keeps {orig : Mod} {m : Mod} (id : CoreId) (n : Nat) (kept : Mod.Keeps orig m) : Mod.Keeps orig (Mod.coreMoveDone m id n) := by
  unfold Mod.coreMoveDone
  with_reducible repeat' first
    | intro _ | assumption | (simp only [Keeps.mk_iff]; apply KeepsIn.of) | apply updCore_keeps | apply sendPost_keeps | apply settleCore_keeps
    | apply moveFault_keeps | (refine jobDone_keeps (by assumption) ?_) | apply Keeps.ite | apply KeepsOr.ok | apply KeepsOr.error
    | apply KeepsOr.ite | (refine jobDone_failed (by assumption) ?_) | split | dsimp only

theorem Mod.cmdBlock_keeps {orig : Mod} {m : Mod} (p : PktRef) (block : Nat) (kept : Mod.Keeps orig m) : Mod.Keeps orig (Mod.cmdBlock m p block) := by
  unfold Mod.cmdBlock
  with_reducible repeat' first
    | intro _ | assumption | (simp only [Keeps.mk_iff]; apply KeepsIn.of) | apply updFlight_keeps | apply noteWrites_keeps | apply cmdMoveFail_keeps
    | (refine jobBlock_keeps (by assumption) ?_) | apply Keeps.ite | apply KeepsOr.ok | apply KeepsOr.error | apply KeepsOr.ite
    | (refine jobBlock_failed (by assumption) ?_) | split | dsimp only

theorem Mod.cmdMoveDone_keeps {orig : Mod} {m : Mod} (p : PktRef) (kept : Mod.Keeps orig m) : Mod.Keeps orig (Mod.cmdMoveDone m p) := by
  unfold Mod.cmdMoveDone
  with_reducible repeat' first
    | intro _ | assumption | (simp only [Keeps.mk_iff]; apply KeepsIn.of) | apply updFlight_keeps | apply endCmd_keeps | apply cmdMoveFail_keeps
    | (refine jobDone_keeps (by assumption) ?_) | apply Keeps.ite | apply KeepsOr.ok | apply KeepsOr.error | apply KeepsOr.ite
    | (refine jobDone_failed (by assumption) ?_) | split | dsimp only

/-! ## Requests -/

theorem Mod.ncBlock_keeps {orig : Mod} {m : Mod} (r : Requester) (pa n : Nat) (req : HomeReq) (kept : Mod.Keeps orig m) : Mod.Keeps orig (Mod.ncBlock m r pa n req) := by
  unfold Mod.ncBlock
  with_reducible repeat' first
    | intro _ | assumption | (simp only [Keeps.mk_iff]; apply KeepsIn.of) | apply noteBlock_keeps | apply blockRequest_keeps | split | dsimp only

theorem Mod.ncRequest_keeps {orig : Mod} {m : Mod} (r : Requester) (pa n : Nat) (req : HomeReq) (kept : Mod.Keeps orig m) : Mod.Keeps orig (Mod.ncRequest m r pa n req) := by
  unfold Mod.ncRequest
  with_reducible repeat' first
    | intro _ | assumption | (simp only [Keeps.mk_iff]; apply KeepsIn.of) | apply ncFail_keeps | apply homeRequest_keeps | apply ncBlock_keeps
    | apply Keeps.ite | apply KeepsOr.ok | apply KeepsOr.error | apply KeepsOr.ite | split | dsimp only

theorem Mod.beatAt_keeps {b m n : Mod} {r : Requester} {pa : Nat} {enables : BitVec 128} {data : List Byte} (e : m.beatAt r pa enables data = .error n)
    (h : Mod.Keeps b m) : Mod.Keeps b n := by
  unfold Mod.beatAt at e
  repeat' split at e
  all_goals first
    | (cases e; first | exact h | exact Mod.ncFail_keeps _ _ _ _ h | exact Mod.noteBlock_keeps _ _ _ h)
    | cases e

theorem Mod.sendBeat_keeps {orig : Mod} {m : Mod} (r : Requester) (sector : Option SectorId) (b : BurstBeat) (kept : Mod.Keeps orig m) : Mod.Keeps orig (Mod.sendBeat m r sector b) := by
  unfold Mod.sendBeat
  with_reducible repeat' first
    | intro _ | assumption | (simp only [Keeps.mk_iff]; apply KeepsIn.of) | apply homeRequest_keeps | apply Keeps.ite | split | dsimp only

end Sys2Proof.Machine
end

