-- ==== Sys2Proof/Laws/KeepsCommands.lean ====
section
/-!
SUPPORT. What each command keeps of its module.
-/
namespace Sys2Proof.Machine
set_option linter.all false
open Sys2Proof Sys2Proof.Machine.Mod

/-! ## Scalar -/

theorem execNop_keeps (core : CoreId) (s : State) : Mod.KeepsOut s.toMod (execNop core s) := by
  have kept := Mod.Keeps.refl s.toMod
  unfold execNop
  apply Mod.KeepsOut.go
  with_reducible repeat' first
    | intro _ | assumption | (simp only [Keeps.mk_iff]; apply KeepsIn.of) | apply issue_keeps | split | dsimp only

theorem execEndKernel_keeps (core : CoreId) (s : State) : Mod.KeepsOut s.toMod (execEndKernel core s) := by
  have kept := Mod.Keeps.refl s.toMod
  unfold execEndKernel
  apply Mod.KeepsOut.go
  with_reducible repeat' first
    | intro _ | assumption | (simp only [Keeps.mk_iff]; apply KeepsIn.of) | apply setCore_keeps | apply finishKernel_keeps | apply Keeps.ite | split
    | dsimp only

theorem execLi_keeps (core : CoreId) (d : Reg) (imm : BitVec 32) (s : State) : Mod.KeepsOut s.toMod (execLi core d imm s) := by
  have kept := Mod.Keeps.refl s.toMod
  unfold execLi
  apply Mod.KeepsOut.go
  with_reducible repeat' first
    | intro _ | assumption | (simp only [Keeps.mk_iff]; apply KeepsIn.of) | apply scalar_keeps | split | dsimp only

theorem execLih_keeps (core : CoreId) (d : Reg) (imm : BitVec 32) (s : State) : Mod.KeepsOut s.toMod (execLih core d imm s) := by
  have kept := Mod.Keeps.refl s.toMod
  unfold execLih
  apply Mod.KeepsOut.go
  with_reducible repeat' first
    | intro _ | assumption | (simp only [Keeps.mk_iff]; apply KeepsIn.of) | apply scalar_keeps | split | dsimp only

theorem execAdd_keeps (core : CoreId) (d a b : Reg) (s : State) : Mod.KeepsOut s.toMod (execAdd core d a b s) := by
  have kept := Mod.Keeps.refl s.toMod
  unfold execAdd
  apply Mod.KeepsOut.go
  with_reducible repeat' first
    | intro _ | assumption | (simp only [Keeps.mk_iff]; apply KeepsIn.of) | apply scalar_keeps | split | dsimp only

theorem execSub_keeps (core : CoreId) (d a b : Reg) (s : State) : Mod.KeepsOut s.toMod (execSub core d a b s) := by
  have kept := Mod.Keeps.refl s.toMod
  unfold execSub
  apply Mod.KeepsOut.go
  with_reducible repeat' first
    | intro _ | assumption | (simp only [Keeps.mk_iff]; apply KeepsIn.of) | apply scalar_keeps | split | dsimp only

theorem execMul_keeps (core : CoreId) (d a b : Reg) (s : State) : Mod.KeepsOut s.toMod (execMul core d a b s) := by
  have kept := Mod.Keeps.refl s.toMod
  unfold execMul
  apply Mod.KeepsOut.go
  with_reducible repeat' first
    | intro _ | assumption | (simp only [Keeps.mk_iff]; apply KeepsIn.of) | apply scalar_keeps | split | dsimp only

theorem execAnd_keeps (core : CoreId) (d a b : Reg) (s : State) : Mod.KeepsOut s.toMod (execAnd core d a b s) := by
  have kept := Mod.Keeps.refl s.toMod
  unfold execAnd
  apply Mod.KeepsOut.go
  with_reducible repeat' first
    | intro _ | assumption | (simp only [Keeps.mk_iff]; apply KeepsIn.of) | apply scalar_keeps | split | dsimp only

theorem execOr_keeps (core : CoreId) (d a b : Reg) (s : State) : Mod.KeepsOut s.toMod (execOr core d a b s) := by
  have kept := Mod.Keeps.refl s.toMod
  unfold execOr
  apply Mod.KeepsOut.go
  with_reducible repeat' first
    | intro _ | assumption | (simp only [Keeps.mk_iff]; apply KeepsIn.of) | apply scalar_keeps | split | dsimp only

theorem execXor_keeps (core : CoreId) (d a b : Reg) (s : State) : Mod.KeepsOut s.toMod (execXor core d a b s) := by
  have kept := Mod.Keeps.refl s.toMod
  unfold execXor
  apply Mod.KeepsOut.go
  with_reducible repeat' first
    | intro _ | assumption | (simp only [Keeps.mk_iff]; apply KeepsIn.of) | apply scalar_keeps | split | dsimp only

theorem execShl_keeps (core : CoreId) (d a b : Reg) (s : State) : Mod.KeepsOut s.toMod (execShl core d a b s) := by
  have kept := Mod.Keeps.refl s.toMod
  unfold execShl
  apply Mod.KeepsOut.go
  with_reducible repeat' first
    | intro _ | assumption | (simp only [Keeps.mk_iff]; apply KeepsIn.of) | apply scalar_keeps | split | dsimp only

theorem execShr_keeps (core : CoreId) (d a b : Reg) (s : State) : Mod.KeepsOut s.toMod (execShr core d a b s) := by
  have kept := Mod.Keeps.refl s.toMod
  unfold execShr
  apply Mod.KeepsOut.go
  with_reducible repeat' first
    | intro _ | assumption | (simp only [Keeps.mk_iff]; apply KeepsIn.of) | apply scalar_keeps | split | dsimp only

theorem execSra_keeps (core : CoreId) (d a b : Reg) (s : State) : Mod.KeepsOut s.toMod (execSra core d a b s) := by
  have kept := Mod.Keeps.refl s.toMod
  unfold execSra
  apply Mod.KeepsOut.go
  with_reducible repeat' first
    | intro _ | assumption | (simp only [Keeps.mk_iff]; apply KeepsIn.of) | apply scalar_keeps | split | dsimp only

theorem execAddi_keeps (core : CoreId) (d a : Reg) (imm : BitVec 32) (s : State) : Mod.KeepsOut s.toMod (execAddi core d a imm s) := by
  have kept := Mod.Keeps.refl s.toMod
  unfold execAddi
  apply Mod.KeepsOut.go
  with_reducible repeat' first
    | intro _ | assumption | (simp only [Keeps.mk_iff]; apply KeepsIn.of) | apply scalar_keeps | split | dsimp only

theorem execBeq_keeps (core : CoreId) (a b : Reg) (imm : BitVec 32) (s : State) : Mod.KeepsOut s.toMod (execBeq core a b imm s) := by
  have kept := Mod.Keeps.refl s.toMod
  unfold execBeq
  apply Mod.KeepsOut.go
  with_reducible repeat' first
    | intro _ | assumption | (simp only [Keeps.mk_iff]; apply KeepsIn.of) | apply branch_keeps | split | dsimp only

theorem execBne_keeps (core : CoreId) (a b : Reg) (imm : BitVec 32) (s : State) : Mod.KeepsOut s.toMod (execBne core a b imm s) := by
  have kept := Mod.Keeps.refl s.toMod
  unfold execBne
  apply Mod.KeepsOut.go
  with_reducible repeat' first
    | intro _ | assumption | (simp only [Keeps.mk_iff]; apply KeepsIn.of) | apply branch_keeps | split | dsimp only

theorem execBlt_keeps (core : CoreId) (a b : Reg) (imm : BitVec 32) (s : State) : Mod.KeepsOut s.toMod (execBlt core a b imm s) := by
  have kept := Mod.Keeps.refl s.toMod
  unfold execBlt
  apply Mod.KeepsOut.go
  with_reducible repeat' first
    | intro _ | assumption | (simp only [Keeps.mk_iff]; apply KeepsIn.of) | apply branch_keeps | split | dsimp only

theorem execBltu_keeps (core : CoreId) (a b : Reg) (imm : BitVec 32) (s : State) : Mod.KeepsOut s.toMod (execBltu core a b imm s) := by
  have kept := Mod.Keeps.refl s.toMod
  unfold execBltu
  apply Mod.KeepsOut.go
  with_reducible repeat' first
    | intro _ | assumption | (simp only [Keeps.mk_iff]; apply KeepsIn.of) | apply branch_keeps | split | dsimp only

theorem execJmp_keeps (core : CoreId) (imm : BitVec 32) (s : State) : Mod.KeepsOut s.toMod (execJmp core imm s) := by
  have kept := Mod.Keeps.refl s.toMod
  unfold execJmp
  apply Mod.KeepsOut.go
  with_reducible repeat' first
    | intro _ | assumption | (simp only [Keeps.mk_iff]; apply KeepsIn.of) | apply branch_keeps | split | dsimp only

theorem execLoop_keeps (core : CoreId) (d : Reg) (imm : BitVec 32) (s : State) : Mod.KeepsOut s.toMod (execLoop core d imm s) := by
  have kept := Mod.Keeps.refl s.toMod
  unfold execLoop
  apply Mod.KeepsOut.go
  with_reducible repeat' first
    | intro _ | assumption | (simp only [Keeps.mk_iff]; apply KeepsIn.of) | apply setReg_keeps | apply branch_keeps | split | dsimp only

theorem execLds_keeps (core : CoreId) (d a : Reg) (imm : BitVec 32) (s : State) : Mod.KeepsOut s.toMod (execLds core d a imm s) := by
  have kept := Mod.Keeps.refl s.toMod
  unfold execLds
  apply Mod.KeepsOut.go
  with_reducible repeat' first
    | intro _ | assumption | (simp only [Keeps.mk_iff]; apply KeepsIn.of) | apply setReg_keeps | apply coreFault_keeps | apply retire_keeps
    | apply Keeps.ite | split | dsimp only

theorem execSts_keeps (core : CoreId) (a b : Reg) (imm : BitVec 32) (s : State) : Mod.KeepsOut s.toMod (execSts core a b imm s) := by
  have kept := Mod.Keeps.refl s.toMod
  unfold execSts
  apply Mod.KeepsOut.go
  with_reducible repeat' first
    | intro _ | assumption | (simp only [Keeps.mk_iff]; apply KeepsIn.of) | apply coreFault_keeps | apply retire_keeps | apply Keeps.ite | split
    | dsimp only

theorem execRdbt_keeps (core : CoreId) (d : Reg) (s : State) : Mod.KeepsOut s.toMod (execRdbt core d s) := by
  have kept := Mod.Keeps.refl s.toMod
  unfold execRdbt
  apply Mod.KeepsOut.go
  with_reducible repeat' first
    | intro _ | assumption | (simp only [Keeps.mk_iff]; apply KeepsIn.of) | apply scalar_keeps | split | dsimp only

theorem execFence_keeps (core : CoreId) (s : State) : Mod.KeepsOut s.toMod (execFence core s) := by
  have kept := Mod.Keeps.refl s.toMod
  unfold execFence
  apply Mod.KeepsOut.go
  with_reducible repeat' first
    | intro _ | assumption | (simp only [Keeps.mk_iff]; apply KeepsIn.of) | apply setCore_keeps | apply retire_keeps | apply Keeps.ite | split
    | dsimp only

theorem execTrap_keeps (core : CoreId) (imm : BitVec 32) (s : State) : Mod.KeepsOut s.toMod (execTrap core imm s) := by
  have kept := Mod.Keeps.refl s.toMod
  unfold execTrap
  apply Mod.KeepsOut.go
  with_reducible repeat' first
    | intro _ | assumption | (simp only [Keeps.mk_iff]; apply KeepsIn.of) | apply coreFault_keeps | apply Keeps.ite | split | dsimp only

/-! ## Token -/

theorem execTwait_keeps (core : CoreId) (t : TwaitArgs) (s : State) : Mod.KeepsOut s.toMod (execTwait core t s) := by
  have kept := Mod.Keeps.refl s.toMod
  unfold execTwait
  apply Mod.KeepsOut.go
  with_reducible repeat' first
    | intro _ | assumption | (simp only [Keeps.mk_iff]; apply KeepsIn.of) | apply setCore_keeps | apply retire_keeps | apply Keeps.ite | split
    | dsimp only

theorem execTwaitMet_keeps (core : CoreId) (s : State) : Mod.KeepsOut s.toMod (execTwaitMet core s) := by
  have kept := Mod.Keeps.refl s.toMod
  unfold execTwaitMet
  apply Mod.KeepsOut.go
  with_reducible repeat' first
    | intro _ | assumption | (simp only [Keeps.mk_iff]; apply KeepsIn.of) | apply running_keeps | apply retire_keeps | apply Keeps.ite | split
    | dsimp only

theorem execTpost_keeps (core : CoreId) (target : BitVec 18) (incr : BitVec 16) (nomw : Bool) (s : State) : Mod.KeepsOut s.toMod (execTpost core target incr nomw s) := by
  have kept := Mod.Keeps.refl s.toMod
  unfold execTpost
  apply Mod.KeepsOut.go
  with_reducible repeat' first
    | intro _ | assumption | (simp only [Keeps.mk_iff]; apply KeepsIn.of) | apply kernelPost_keeps | apply Keeps.ite | split | dsimp only

theorem execTposts_keeps (core : CoreId) (a : Reg) (nomw : Bool) (s : State) : Mod.KeepsOut s.toMod (execTposts core a nomw s) := by
  have kept := Mod.Keeps.refl s.toMod
  unfold execTposts
  apply Mod.KeepsOut.go
  with_reducible repeat' first
    | intro _ | assumption | (simp only [Keeps.mk_iff]; apply KeepsIn.of) | apply coreFault_keeps | apply kernelPost_keeps | apply Keeps.ite | split
    | dsimp only

theorem execTread_keeps (core : CoreId) (d : Reg) (counter : BitVec 6) (kind : Bool) (s : State) : Mod.KeepsOut s.toMod (execTread core d counter kind s) := by
  have kept := Mod.Keeps.refl s.toMod
  unfold execTread
  apply Mod.KeepsOut.go
  with_reducible repeat' first
    | intro _ | assumption | (simp only [Keeps.mk_iff]; apply KeepsIn.of) | apply setReg_keeps | apply issue_keeps | apply Keeps.ite | split
    | dsimp only

theorem execTtest_keeps (core : CoreId) (t : TwaitArgs) (d : Reg) (s : State) : Mod.KeepsOut s.toMod (execTtest core t d s) := by
  have kept := Mod.Keeps.refl s.toMod
  unfold execTtest
  apply Mod.KeepsOut.go
  with_reducible repeat' first
    | intro _ | assumption | (simp only [Keeps.mk_iff]; apply KeepsIn.of) | apply setReg_keeps | apply issue_keeps | apply Keeps.ite | split
    | dsimp only

theorem execPostArrive_keeps (target : BitVec 18) (n : Nat) (s : State) : Mod.KeepsOut s.toMod (execPostArrive target n s) := by
  have kept := Mod.Keeps.refl s.toMod
  unfold execPostArrive
  apply Mod.KeepsOut.go
  with_reducible repeat' first
    | intro _ | assumption | (simp only [Keeps.mk_iff]; apply KeepsIn.of) | apply arrive_keeps | apply Keeps.ite | split | dsimp only

/-! ## Moves -/

theorem execMvin_keeps (core : CoreId) (v : MoveArgs) (s : State) : Mod.KeepsOut s.toMod (execMvin core v s) := by
  have kept := Mod.Keeps.refl s.toMod
  unfold execMvin
  apply Mod.KeepsOut.go
  with_reducible repeat' first
    | intro _ | assumption | (simp only [Keeps.mk_iff]; apply KeepsIn.of) | apply queueMove_keeps | split | dsimp only

theorem execMvout_keeps (core : CoreId) (v : MoveArgs) (s : State) : Mod.KeepsOut s.toMod (execMvout core v s) := by
  have kept := Mod.Keeps.refl s.toMod
  unfold execMvout
  apply Mod.KeepsOut.go
  with_reducible repeat' first
    | intro _ | assumption | (simp only [Keeps.mk_iff]; apply KeepsIn.of) | apply queueMove_keeps | split | dsimp only

theorem execMvt_keeps (core : CoreId) (v : MoveArgs) (s : State) : Mod.KeepsOut s.toMod (execMvt core v s) := by
  have kept := Mod.Keeps.refl s.toMod
  unfold execMvt
  apply Mod.KeepsOut.go
  with_reducible repeat' first
    | intro _ | assumption | (simp only [Keeps.mk_iff]; apply KeepsIn.of) | apply queueMove_keeps | split | dsimp only

theorem execMlist_keeps (core : CoreId) (v : MoveArgs) (s : State) : Mod.KeepsOut s.toMod (execMlist core v s) := by
  have kept := Mod.Keeps.refl s.toMod
  unfold execMlist
  apply Mod.KeepsOut.go
  with_reducible repeat' first
    | intro _ | assumption | (simp only [Keeps.mk_iff]; apply KeepsIn.of) | apply listJob_keeps | apply queueMove_keeps | apply Keeps.ite | split
    | dsimp only

/-! ## Matrix -/

theorem execMma_keeps (core : CoreId) (x : MatArgs) (s : State) : Mod.KeepsOut s.toMod (execMma core x s) := by
  have kept := Mod.Keeps.refl s.toMod
  unfold execMma
  apply Mod.KeepsOut.go
  with_reducible repeat' first
    | intro _ | assumption | (simp only [Keeps.mk_iff]; apply KeepsIn.of) | apply matrix_keeps | split | dsimp only

theorem execAccLoad_keeps (core : CoreId) (x : MatArgs) (s : State) : Mod.KeepsOut s.toMod (execAccLoad core x s) := by
  have kept := Mod.Keeps.refl s.toMod
  unfold execAccLoad
  apply Mod.KeepsOut.go
  with_reducible repeat' first
    | intro _ | assumption | (simp only [Keeps.mk_iff]; apply KeepsIn.of) | apply matrix_keeps | split | dsimp only

theorem execAccStore_keeps (core : CoreId) (x : MatArgs) (s : State) : Mod.KeepsOut s.toMod (execAccStore core x s) := by
  have kept := Mod.Keeps.refl s.toMod
  unfold execAccStore
  apply Mod.KeepsOut.go
  with_reducible repeat' first
    | intro _ | assumption | (simp only [Keeps.mk_iff]; apply KeepsIn.of) | apply matrix_keeps | split | dsimp only

theorem execAccZero_keeps (core : CoreId) (x : MatArgs) (s : State) : Mod.KeepsOut s.toMod (execAccZero core x s) := by
  have kept := Mod.Keeps.refl s.toMod
  unfold execAccZero
  apply Mod.KeepsOut.go
  with_reducible repeat' first
    | intro _ | assumption | (simp only [Keeps.mk_iff]; apply KeepsIn.of) | apply matrix_keeps | split | dsimp only

theorem execMatrixInstructionComplete_keeps (core : CoreId) (s : State) : Mod.KeepsOut s.toMod (execMatrixInstructionComplete core s) := by
  have kept := Mod.Keeps.refl s.toMod
  unfold execMatrixInstructionComplete
  apply Mod.KeepsOut.go
  with_reducible repeat' first
    | intro _ | assumption | (simp only [Keeps.mk_iff]; apply KeepsIn.of) | apply matRetire_keeps | apply Keeps.ite | split | dsimp only

/-! ## Chain -/

theorem execChain_keeps (core : CoreId) (x : ChainArgs) (s : State) : Mod.KeepsOut s.toMod (execChain core x s) := by
  have kept := Mod.Keeps.refl s.toMod
  unfold execChain
  apply Mod.KeepsOut.go
  with_reducible repeat' first
    | intro _ | assumption | (simp only [Keeps.mk_iff]; apply KeepsIn.of) | apply coreFault_keeps | apply retire_keeps | apply Keeps.ite | split
    | dsimp only

theorem execChainCompletion_keeps (core : CoreId) (s : State) : Mod.KeepsOut s.toMod (execChainCompletion core s) := by
  have kept := Mod.Keeps.refl s.toMod
  unfold execChainCompletion
  apply Mod.KeepsOut.go
  with_reducible repeat' first
    | intro _ | assumption | (simp only [Keeps.mk_iff]; apply KeepsIn.of) | apply setCore_keeps | apply settleCore_keeps | apply Keeps.ite | split
    | dsimp only

/-! ## Vector -/

theorem execVadd_keeps (core : CoreId) (v : VecArgs) (s : State) : Mod.KeepsOut s.toMod (execVadd core v s) := by
  have kept := Mod.Keeps.refl s.toMod
  unfold execVadd
  apply Mod.KeepsOut.go
  with_reducible repeat' first
    | intro _ | assumption | (simp only [Keeps.mk_iff]; apply KeepsIn.of) | apply elementwise_keeps | split | dsimp only

theorem execVsub_keeps (core : CoreId) (v : VecArgs) (s : State) : Mod.KeepsOut s.toMod (execVsub core v s) := by
  have kept := Mod.Keeps.refl s.toMod
  unfold execVsub
  apply Mod.KeepsOut.go
  with_reducible repeat' first
    | intro _ | assumption | (simp only [Keeps.mk_iff]; apply KeepsIn.of) | apply elementwise_keeps | split | dsimp only

theorem execVmul_keeps (core : CoreId) (v : VecArgs) (s : State) : Mod.KeepsOut s.toMod (execVmul core v s) := by
  have kept := Mod.Keeps.refl s.toMod
  unfold execVmul
  apply Mod.KeepsOut.go
  with_reducible repeat' first
    | intro _ | assumption | (simp only [Keeps.mk_iff]; apply KeepsIn.of) | apply elementwise_keeps | split | dsimp only

theorem execVfma_keeps (core : CoreId) (v : VecArgs) (s : State) : Mod.KeepsOut s.toMod (execVfma core v s) := by
  have kept := Mod.Keeps.refl s.toMod
  unfold execVfma
  apply Mod.KeepsOut.go
  with_reducible repeat' first
    | intro _ | assumption | (simp only [Keeps.mk_iff]; apply KeepsIn.of) | apply elementwise_keeps | apply Keeps.ite | split | dsimp only

theorem execVmin_keeps (core : CoreId) (v : VecArgs) (s : State) : Mod.KeepsOut s.toMod (execVmin core v s) := by
  have kept := Mod.Keeps.refl s.toMod
  unfold execVmin
  apply Mod.KeepsOut.go
  with_reducible repeat' first
    | intro _ | assumption | (simp only [Keeps.mk_iff]; apply KeepsIn.of) | apply elementwise_keeps | apply Keeps.ite | split | dsimp only

theorem execVmax_keeps (core : CoreId) (v : VecArgs) (s : State) : Mod.KeepsOut s.toMod (execVmax core v s) := by
  have kept := Mod.Keeps.refl s.toMod
  unfold execVmax
  apply Mod.KeepsOut.go
  with_reducible repeat' first
    | intro _ | assumption | (simp only [Keeps.mk_iff]; apply KeepsIn.of) | apply elementwise_keeps | apply Keeps.ite | split | dsimp only

theorem execVabs_keeps (core : CoreId) (v : VecArgs) (s : State) : Mod.KeepsOut s.toMod (execVabs core v s) := by
  have kept := Mod.Keeps.refl s.toMod
  unfold execVabs
  apply Mod.KeepsOut.go
  with_reducible repeat' first
    | intro _ | assumption | (simp only [Keeps.mk_iff]; apply KeepsIn.of) | apply elementwise_keeps | apply Keeps.ite | split | dsimp only

theorem execVneg_keeps (core : CoreId) (v : VecArgs) (s : State) : Mod.KeepsOut s.toMod (execVneg core v s) := by
  have kept := Mod.Keeps.refl s.toMod
  unfold execVneg
  apply Mod.KeepsOut.go
  with_reducible repeat' first
    | intro _ | assumption | (simp only [Keeps.mk_iff]; apply KeepsIn.of) | apply elementwise_keeps | apply Keeps.ite | split | dsimp only

theorem execVand_keeps (core : CoreId) (v : VecArgs) (s : State) : Mod.KeepsOut s.toMod (execVand core v s) := by
  have kept := Mod.Keeps.refl s.toMod
  unfold execVand
  apply Mod.KeepsOut.go
  with_reducible repeat' first
    | intro _ | assumption | (simp only [Keeps.mk_iff]; apply KeepsIn.of) | apply elementwise_keeps | split | dsimp only

theorem execVor_keeps (core : CoreId) (v : VecArgs) (s : State) : Mod.KeepsOut s.toMod (execVor core v s) := by
  have kept := Mod.Keeps.refl s.toMod
  unfold execVor
  apply Mod.KeepsOut.go
  with_reducible repeat' first
    | intro _ | assumption | (simp only [Keeps.mk_iff]; apply KeepsIn.of) | apply elementwise_keeps | split | dsimp only

theorem execVxor_keeps (core : CoreId) (v : VecArgs) (s : State) : Mod.KeepsOut s.toMod (execVxor core v s) := by
  have kept := Mod.Keeps.refl s.toMod
  unfold execVxor
  apply Mod.KeepsOut.go
  with_reducible repeat' first
    | intro _ | assumption | (simp only [Keeps.mk_iff]; apply KeepsIn.of) | apply elementwise_keeps | split | dsimp only

theorem execVshl_keeps (core : CoreId) (v : VecArgs) (s : State) : Mod.KeepsOut s.toMod (execVshl core v s) := by
  have kept := Mod.Keeps.refl s.toMod
  unfold execVshl
  apply Mod.KeepsOut.go
  with_reducible repeat' first
    | intro _ | assumption | (simp only [Keeps.mk_iff]; apply KeepsIn.of) | apply elementwise_keeps | split | dsimp only

theorem execVshr_keeps (core : CoreId) (v : VecArgs) (s : State) : Mod.KeepsOut s.toMod (execVshr core v s) := by
  have kept := Mod.Keeps.refl s.toMod
  unfold execVshr
  apply Mod.KeepsOut.go
  with_reducible repeat' first
    | intro _ | assumption | (simp only [Keeps.mk_iff]; apply KeepsIn.of) | apply elementwise_keeps | split | dsimp only

theorem execVsra_keeps (core : CoreId) (v : VecArgs) (s : State) : Mod.KeepsOut s.toMod (execVsra core v s) := by
  have kept := Mod.Keeps.refl s.toMod
  unfold execVsra
  apply Mod.KeepsOut.go
  with_reducible repeat' first
    | intro _ | assumption | (simp only [Keeps.mk_iff]; apply KeepsIn.of) | apply elementwise_keeps | split | dsimp only

theorem execVdiv_keeps (core : CoreId) (v : VecArgs) (s : State) : Mod.KeepsOut s.toMod (execVdiv core v s) := by
  have kept := Mod.Keeps.refl s.toMod
  unfold execVdiv
  apply Mod.KeepsOut.go
  with_reducible repeat' first
    | assumption | (simp only [Keeps.mk_iff]; apply KeepsIn.of) | apply division_keeps | dsimp only

theorem execVrem_keeps (core : CoreId) (v : VecArgs) (s : State) : Mod.KeepsOut s.toMod (execVrem core v s) := by
  have kept := Mod.Keeps.refl s.toMod
  unfold execVrem
  apply Mod.KeepsOut.go
  with_reducible repeat' first
    | assumption | (simp only [Keeps.mk_iff]; apply KeepsIn.of) | apply division_keeps | dsimp only

theorem execVcmp_keeps (core : CoreId) (v : VecArgs) (s : State) : Mod.KeepsOut s.toMod (execVcmp core v s) := by
  have kept := Mod.Keeps.refl s.toMod
  unfold execVcmp
  apply Mod.KeepsOut.go
  with_reducible repeat' first
    | intro _ | assumption | (simp only [Keeps.mk_iff]; apply KeepsIn.of) | apply setCore_keeps | apply groupOp_keeps | apply Keeps.ite
    | apply KeepsOr.ok | apply KeepsOr.error | apply KeepsOr.ite | split | dsimp only

theorem execVsel_keeps (core : CoreId) (v : VecArgs) (s : State) : Mod.KeepsOut s.toMod (execVsel core v s) := by
  have kept := Mod.Keeps.refl s.toMod
  unfold execVsel
  apply Mod.KeepsOut.go
  with_reducible repeat' first
    | intro _ | assumption | (simp only [Keeps.mk_iff]; apply KeepsIn.of) | apply slotWrite_keeps | apply Keeps.ite | split | dsimp only

theorem execVtid_keeps (core : CoreId) (v : VecArgs) (s : State) : Mod.KeepsOut s.toMod (execVtid core v s) := by
  have kept := Mod.Keeps.refl s.toMod
  unfold execVtid
  apply Mod.KeepsOut.go
  with_reducible repeat' first
    | intro _ | assumption | (simp only [Keeps.mk_iff]; apply KeepsIn.of) | apply slotWrite_keeps | split | dsimp only

theorem execVmov_keeps (core : CoreId) (v : VecArgs) (s : State) : Mod.KeepsOut s.toMod (execVmov core v s) := by
  have kept := Mod.Keeps.refl s.toMod
  unfold execVmov
  apply Mod.KeepsOut.go
  with_reducible repeat' first
    | intro _ | assumption | (simp only [Keeps.mk_iff]; apply KeepsIn.of) | apply elementwise_keeps | split | dsimp only

theorem execVcvtf_keeps (core : CoreId) (v : VecArgs) (s : State) : Mod.KeepsOut s.toMod (execVcvtf core v s) := by
  have kept := Mod.Keeps.refl s.toMod
  unfold execVcvtf
  apply Mod.KeepsOut.go
  with_reducible repeat' first
    | intro _ | assumption | (simp only [Keeps.mk_iff]; apply KeepsIn.of) | apply elementwise_keeps | apply Keeps.ite | split | dsimp only

theorem execVcvti_keeps (core : CoreId) (v : VecArgs) (s : State) : Mod.KeepsOut s.toMod (execVcvti core v s) := by
  have kept := Mod.Keeps.refl s.toMod
  unfold execVcvti
  apply Mod.KeepsOut.go
  with_reducible repeat' first
    | intro _ | assumption | (simp only [Keeps.mk_iff]; apply KeepsIn.of) | apply elementwise_keeps | split | dsimp only

theorem execVpack_keeps (core : CoreId) (v : VecArgs) (s : State) : Mod.KeepsOut s.toMod (execVpack core v s) := by
  have kept := Mod.Keeps.refl s.toMod
  unfold execVpack
  apply Mod.KeepsOut.go
  with_reducible repeat' first
    | intro _ | assumption | (simp only [Keeps.mk_iff]; apply KeepsIn.of) | apply setCore_keeps | apply updCore_keeps | apply vector_keeps
    | apply overGroups_keeps | (refine KeepsOr.of_ok (by assumption) (overGroups_keeps _ _ _ ?_ ?_))
    | (refine KeepsOr.of_error (by assumption) (overGroups_keeps _ _ _ ?_ ?_)) | apply Keeps.ite | apply KeepsOr.ok | apply KeepsOr.error
    | apply KeepsOr.ite | split | dsimp only

theorem execVunpkl_keeps (core : CoreId) (v : VecArgs) (s : State) : Mod.KeepsOut s.toMod (execVunpkl core v s) := by
  have kept := Mod.Keeps.refl s.toMod
  unfold execVunpkl
  apply Mod.KeepsOut.go
  with_reducible repeat' first
    | intro _ | assumption | (simp only [Keeps.mk_iff]; apply KeepsIn.of) | apply elementwise_keeps | apply Keeps.ite | split | dsimp only

theorem execVunpkh_keeps (core : CoreId) (v : VecArgs) (s : State) : Mod.KeepsOut s.toMod (execVunpkh core v s) := by
  have kept := Mod.Keeps.refl s.toMod
  unfold execVunpkh
  apply Mod.KeepsOut.go
  with_reducible repeat' first
    | intro _ | assumption | (simp only [Keeps.mk_iff]; apply KeepsIn.of) | apply elementwise_keeps | apply Keeps.ite | split | dsimp only

theorem execVexp2_keeps (core : CoreId) (v : VecArgs) (s : State) : Mod.KeepsOut s.toMod (execVexp2 core v s) := by
  have kept := Mod.Keeps.refl s.toMod
  unfold execVexp2
  apply Mod.KeepsOut.go
  with_reducible repeat' first
    | intro _ | assumption | (simp only [Keeps.mk_iff]; apply KeepsIn.of) | apply funcOp_keeps | split | dsimp only

theorem execVlog2_keeps (core : CoreId) (v : VecArgs) (s : State) : Mod.KeepsOut s.toMod (execVlog2 core v s) := by
  have kept := Mod.Keeps.refl s.toMod
  unfold execVlog2
  apply Mod.KeepsOut.go
  with_reducible repeat' first
    | intro _ | assumption | (simp only [Keeps.mk_iff]; apply KeepsIn.of) | apply funcOp_keeps | split | dsimp only

theorem execVrcp_keeps (core : CoreId) (v : VecArgs) (s : State) : Mod.KeepsOut s.toMod (execVrcp core v s) := by
  have kept := Mod.Keeps.refl s.toMod
  unfold execVrcp
  apply Mod.KeepsOut.go
  with_reducible repeat' first
    | intro _ | assumption | (simp only [Keeps.mk_iff]; apply KeepsIn.of) | apply funcOp_keeps | split | dsimp only

theorem execVrsqrt_keeps (core : CoreId) (v : VecArgs) (s : State) : Mod.KeepsOut s.toMod (execVrsqrt core v s) := by
  have kept := Mod.Keeps.refl s.toMod
  unfold execVrsqrt
  apply Mod.KeepsOut.go
  with_reducible repeat' first
    | intro _ | assumption | (simp only [Keeps.mk_iff]; apply KeepsIn.of) | apply funcOp_keeps | split | dsimp only

theorem execVsqrt_keeps (core : CoreId) (v : VecArgs) (s : State) : Mod.KeepsOut s.toMod (execVsqrt core v s) := by
  have kept := Mod.Keeps.refl s.toMod
  unfold execVsqrt
  apply Mod.KeepsOut.go
  with_reducible repeat' first
    | intro _ | assumption | (simp only [Keeps.mk_iff]; apply KeepsIn.of) | apply funcOp_keeps | split | dsimp only

theorem execVsinpi_keeps (core : CoreId) (v : VecArgs) (s : State) : Mod.KeepsOut s.toMod (execVsinpi core v s) := by
  have kept := Mod.Keeps.refl s.toMod
  unfold execVsinpi
  apply Mod.KeepsOut.go
  with_reducible repeat' first
    | intro _ | assumption | (simp only [Keeps.mk_iff]; apply KeepsIn.of) | apply funcOp_keeps | split | dsimp only

theorem execVcospi_keeps (core : CoreId) (v : VecArgs) (s : State) : Mod.KeepsOut s.toMod (execVcospi core v s) := by
  have kept := Mod.Keeps.refl s.toMod
  unfold execVcospi
  apply Mod.KeepsOut.go
  with_reducible repeat' first
    | intro _ | assumption | (simp only [Keeps.mk_iff]; apply KeepsIn.of) | apply funcOp_keeps | split | dsimp only

theorem execVtanh_keeps (core : CoreId) (v : VecArgs) (s : State) : Mod.KeepsOut s.toMod (execVtanh core v s) := by
  have kept := Mod.Keeps.refl s.toMod
  unfold execVtanh
  apply Mod.KeepsOut.go
  with_reducible repeat' first
    | intro _ | assumption | (simp only [Keeps.mk_iff]; apply KeepsIn.of) | apply funcOp_keeps | split | dsimp only

theorem execVsigmoid_keeps (core : CoreId) (v : VecArgs) (s : State) : Mod.KeepsOut s.toMod (execVsigmoid core v s) := by
  have kept := Mod.Keeps.refl s.toMod
  unfold execVsigmoid
  apply Mod.KeepsOut.go
  with_reducible repeat' first
    | intro _ | assumption | (simp only [Keeps.mk_iff]; apply KeepsIn.of) | apply funcOp_keeps | split | dsimp only

theorem execVshfl_keeps (core : CoreId) (v : VecArgs) (s : State) : Mod.KeepsOut s.toMod (execVshfl core v s) := by
  have kept := Mod.Keeps.refl s.toMod
  unfold execVshfl
  apply Mod.KeepsOut.go
  with_reducible repeat' first
    | intro _ | assumption | (simp only [Keeps.mk_iff]; apply KeepsIn.of) | apply slotWrite_keeps | split | dsimp only

theorem execVred_keeps (core : CoreId) (v : VecArgs) (s : State) : Mod.KeepsOut s.toMod (execVred core v s) := by
  have kept := Mod.Keeps.refl s.toMod
  unfold execVred
  apply Mod.KeepsOut.go
  with_reducible repeat' first
    | intro _ | assumption | (simp only [Keeps.mk_iff]; apply KeepsIn.of) | apply slotWrite_keeps | split | dsimp only

theorem execVscan_keeps (core : CoreId) (v : VecArgs) (s : State) : Mod.KeepsOut s.toMod (execVscan core v s) := by
  have kept := Mod.Keeps.refl s.toMod
  unfold execVscan
  apply Mod.KeepsOut.go
  with_reducible repeat' first
    | intro _ | assumption | (simp only [Keeps.mk_iff]; apply KeepsIn.of) | apply slotWrite_keeps | split | dsimp only

theorem execVld_keeps (core : CoreId) (v : VecArgs) (s : State) : Mod.KeepsOut s.toMod (execVld core v s) := by
  have kept := Mod.Keeps.refl s.toMod
  unfold execVld
  apply Mod.KeepsOut.go
  with_reducible repeat' first
    | intro _ | assumption | (simp only [Keeps.mk_iff]; apply KeepsIn.of) | apply tileLoad_keeps | split | dsimp only

theorem execVst_keeps (core : CoreId) (v : VecArgs) (s : State) : Mod.KeepsOut s.toMod (execVst core v s) := by
  have kept := Mod.Keeps.refl s.toMod
  unfold execVst
  apply Mod.KeepsOut.go
  with_reducible repeat' first
    | intro _ | assumption | (simp only [Keeps.mk_iff]; apply KeepsIn.of) | apply tileStore_keeps | split | dsimp only

theorem execVgather_keeps (core : CoreId) (v : VecArgs) (s : State) : Mod.KeepsOut s.toMod (execVgather core v s) := by
  have kept := Mod.Keeps.refl s.toMod
  unfold execVgather
  apply Mod.KeepsOut.go
  with_reducible repeat' first
    | intro _ | assumption | (simp only [Keeps.mk_iff]; apply KeepsIn.of) | apply tileLoad_keeps | split | dsimp only

theorem execVscatter_keeps (core : CoreId) (v : VecArgs) (s : State) : Mod.KeepsOut s.toMod (execVscatter core v s) := by
  have kept := Mod.Keeps.refl s.toMod
  unfold execVscatter
  apply Mod.KeepsOut.go
  with_reducible repeat' first
    | intro _ | assumption | (simp only [Keeps.mk_iff]; apply KeepsIn.of) | apply tileStore_keeps | split | dsimp only

theorem execVatomAdd_keeps (core : CoreId) (v : VecArgs) (s : State) : Mod.KeepsOut s.toMod (execVatomAdd core v s) := by
  have kept := Mod.Keeps.refl s.toMod
  unfold execVatomAdd
  apply Mod.KeepsOut.go
  with_reducible repeat' first
    | assumption | (simp only [Keeps.mk_iff]; apply KeepsIn.of) | apply vatomCombine_keeps | dsimp only

theorem execVatomMin_keeps (core : CoreId) (v : VecArgs) (s : State) : Mod.KeepsOut s.toMod (execVatomMin core v s) := by
  have kept := Mod.Keeps.refl s.toMod
  unfold execVatomMin
  apply Mod.KeepsOut.go
  with_reducible repeat' first
    | assumption | (simp only [Keeps.mk_iff]; apply KeepsIn.of) | apply vatomCombine_keeps | dsimp only

theorem execVatomMax_keeps (core : CoreId) (v : VecArgs) (s : State) : Mod.KeepsOut s.toMod (execVatomMax core v s) := by
  have kept := Mod.Keeps.refl s.toMod
  unfold execVatomMax
  apply Mod.KeepsOut.go
  with_reducible repeat' first
    | assumption | (simp only [Keeps.mk_iff]; apply KeepsIn.of) | apply vatomCombine_keeps | dsimp only

theorem execVatomSwap_keeps (core : CoreId) (v : VecArgs) (s : State) : Mod.KeepsOut s.toMod (execVatomSwap core v s) := by
  have kept := Mod.Keeps.refl s.toMod
  unfold execVatomSwap
  apply Mod.KeepsOut.go
  with_reducible repeat' first
    | intro _ | assumption | (simp only [Keeps.mk_iff]; apply KeepsIn.of) | apply atomSingles_keeps | apply vatom_keeps | split | dsimp only

theorem execVatomCas_keeps (core : CoreId) (v : VecArgs) (s : State) : Mod.KeepsOut s.toMod (execVatomCas core v s) := by
  have kept := Mod.Keeps.refl s.toMod
  unfold execVatomCas
  apply Mod.KeepsOut.go
  with_reducible repeat' first
    | intro _ | assumption | (simp only [Keeps.mk_iff]; apply KeepsIn.of) | apply atomSingles_keeps | apply vatom_keeps | split | dsimp only

theorem execVpush_keeps (core : CoreId) (v : VecArgs) (s : State) : Mod.KeepsOut s.toMod (execVpush core v s) := by
  have kept := Mod.Keeps.refl s.toMod
  unfold execVpush
  apply Mod.KeepsOut.go
  with_reducible repeat' first
    | intro _ | assumption | (simp only [Keeps.mk_iff]; apply KeepsIn.of) | apply maskOp_keeps | apply Keeps.ite | split | dsimp only

theorem execVelse_keeps (core : CoreId) (v : VecArgs) (s : State) : Mod.KeepsOut s.toMod (execVelse core v s) := by
  have kept := Mod.Keeps.refl s.toMod
  unfold execVelse
  apply Mod.KeepsOut.go
  with_reducible repeat' first
    | intro _ | assumption | (simp only [Keeps.mk_iff]; apply KeepsIn.of) | apply maskOp_keeps | split | dsimp only

theorem execVpop_keeps (core : CoreId) (v : VecArgs) (s : State) : Mod.KeepsOut s.toMod (execVpop core v s) := by
  have kept := Mod.Keeps.refl s.toMod
  unfold execVpop
  apply Mod.KeepsOut.go
  with_reducible repeat' first
    | intro _ | assumption | (simp only [Keeps.mk_iff]; apply KeepsIn.of) | apply rest_keeps | apply maskOp_keeps | split | dsimp only

theorem execVcfg_keeps (core : CoreId) (v : VecArgs) (s : State) : Mod.KeepsOut s.toMod (execVcfg core v s) := by
  have kept := Mod.Keeps.refl s.toMod
  unfold execVcfg
  apply Mod.KeepsOut.go
  with_reducible repeat' first
    | intro _ | assumption | (simp only [Keeps.mk_iff]; apply KeepsIn.of) | apply engineOp_keeps | apply Keeps.ite | apply Keeps.foldl
    | apply KeepsOr.ok | apply KeepsOr.error | apply KeepsOr.ite | split | dsimp only

theorem execVabase_keeps (core : CoreId) (v : VecArgs) (s : State) : Mod.KeepsOut s.toMod (execVabase core v s) := by
  have kept := Mod.Keeps.refl s.toMod
  unfold execVabase
  apply Mod.KeepsOut.go
  with_reducible repeat' first
    | intro _ | assumption | (simp only [Keeps.mk_iff]; apply KeepsIn.of) | apply engineOp_keeps | apply KeepsOr.ok | apply KeepsOr.error
    | apply KeepsOr.ite | split | dsimp only

theorem execVlds_keeps (core : CoreId) (v : VecArgs) (s : State) : Mod.KeepsOut s.toMod (execVlds core v s) := by
  have kept := Mod.Keeps.refl s.toMod
  unfold execVlds
  apply Mod.KeepsOut.go
  with_reducible repeat' first
    | intro _ | assumption | (simp only [Keeps.mk_iff]; apply KeepsIn.of) | apply engineOp_keeps | apply Keeps.ite | apply KeepsOr.ok
    | apply KeepsOr.error | apply KeepsOr.ite | split | dsimp only

theorem execVany_keeps (core : CoreId) (v : VecArgs) (s : State) : Mod.KeepsOut s.toMod (execVany core v s) := by
  have kept := Mod.Keeps.refl s.toMod
  unfold execVany
  apply Mod.KeepsOut.go
  with_reducible repeat' first
    | intro _ | assumption | (simp only [Keeps.mk_iff]; apply KeepsIn.of) | apply setReg_keeps | apply engineOp_keeps | apply Keeps.ite
    | apply KeepsOr.ok | apply KeepsOr.error | apply KeepsOr.ite | split | dsimp only

theorem execVcount_keeps (core : CoreId) (v : VecArgs) (s : State) : Mod.KeepsOut s.toMod (execVcount core v s) := by
  have kept := Mod.Keeps.refl s.toMod
  unfold execVcount
  apply Mod.KeepsOut.go
  with_reducible repeat' first
    | intro _ | assumption | (simp only [Keeps.mk_iff]; apply KeepsIn.of) | apply setReg_keeps | apply engineOp_keeps | apply KeepsOr.ok
    | apply KeepsOr.error | apply KeepsOr.ite | split | dsimp only

theorem execCompress_keeps (core : CoreId) (v : VecArgs) (s : State) : Mod.KeepsOut s.toMod (execCompress core v s) := by
  have kept := Mod.Keeps.refl s.toMod
  unfold execCompress
  apply Mod.KeepsOut.go
  with_reducible repeat' first
    | assumption | (simp only [Keeps.mk_iff]; apply KeepsIn.of) | apply packOp_keeps | dsimp only

theorem execCompressIdx_keeps (core : CoreId) (v : VecArgs) (s : State) : Mod.KeepsOut s.toMod (execCompressIdx core v s) := by
  have kept := Mod.Keeps.refl s.toMod
  unfold execCompressIdx
  apply Mod.KeepsOut.go
  with_reducible repeat' first
    | assumption | (simp only [Keeps.mk_iff]; apply KeepsIn.of) | apply packOp_keeps | dsimp only

theorem execExpand_keeps (core : CoreId) (v : VecArgs) (s : State) : Mod.KeepsOut s.toMod (execExpand core v s) := by
  have kept := Mod.Keeps.refl s.toMod
  unfold execExpand
  apply Mod.KeepsOut.go
  with_reducible repeat' first
    | assumption | (simp only [Keeps.mk_iff]; apply KeepsIn.of) | apply packOp_keeps | dsimp only

theorem execVectorInstructionComplete_keeps (core : CoreId) (s : State) : Mod.KeepsOut s.toMod (execVectorInstructionComplete core s) := by
  have kept := Mod.Keeps.refl s.toMod
  unfold execVectorInstructionComplete
  apply Mod.KeepsOut.go
  with_reducible repeat' first
    | intro _ | assumption | (simp only [Keeps.mk_iff]; apply KeepsIn.of) | apply vecRetire_keeps | apply Keeps.ite | split | dsimp only

/-! ## Kernel -/

theorem execKernelLoad_keeps (p : PktRef) (s : State) : Mod.KeepsOut s.toMod (execKernelLoad p s) := by
  have kept := Mod.Keeps.refl s.toMod
  unfold execKernelLoad
  apply Mod.KeepsOut.go
  with_reducible repeat' first
    | intro _ | assumption | (simp only [Keeps.mk_iff]; apply KeepsIn.of) | apply updCluster_keeps | apply endCmd_keeps | apply command_keeps
    | apply loadKernel_keeps | apply Keeps.ite | split | dsimp only

theorem execKernelLaunch_keeps (p : PktRef) (s : State) : Mod.KeepsOut s.toMod (execKernelLaunch p s) := by
  have kept := Mod.Keeps.refl s.toMod
  unfold execKernelLaunch
  apply Mod.KeepsOut.go
  with_reducible repeat' first
    | intro _ | assumption | (simp only [Keeps.mk_iff]; apply KeepsIn.of) | apply endCmd_keeps | apply running_keeps | apply command_keeps
    | apply launchOn_keeps | apply Keeps.foldl | split | dsimp only

theorem execKernelPreempt_keeps (p : PktRef) (s : State) : Mod.KeepsOut s.toMod (execKernelPreempt p s) := by
  have kept := Mod.Keeps.refl s.toMod
  unfold execKernelPreempt
  apply Mod.KeepsOut.go
  with_reducible repeat' first
    | intro _ | assumption | (simp only [Keeps.mk_iff]; apply KeepsIn.of) | apply updCore_keeps | apply endCmd_keeps | apply running_keeps
    | apply command_keeps | apply releaseHold_keeps | apply preemptPoint_keeps | apply Keeps.ite | apply Keeps.foldl | split | dsimp only

theorem execTokenPost_keeps (p : PktRef) (s : State) : Mod.KeepsOut s.toMod (execTokenPost p s) := by
  have kept := Mod.Keeps.refl s.toMod
  unfold execTokenPost
  apply Mod.KeepsOut.go
  with_reducible repeat' first
    | intro _ | assumption | (simp only [Keeps.mk_iff]; apply KeepsIn.of) | apply endCmd_keeps | apply command_keeps | apply sendPost_keeps | split
    | dsimp only

theorem execMove_keeps (p : PktRef) (s : State) : Mod.KeepsOut s.toMod (execMove p s) := by
  have kept := Mod.Keeps.refl s.toMod
  unfold execMove
  apply Mod.KeepsOut.go
  with_reducible repeat' first
    | intro _ | assumption | (simp only [Keeps.mk_iff]; apply KeepsIn.of) | apply command_keeps | apply beginMove_keeps | split | dsimp only

theorem execFill_keeps (p : PktRef) (s : State) : Mod.KeepsOut s.toMod (execFill p s) := by
  have kept := Mod.Keeps.refl s.toMod
  unfold execFill
  apply Mod.KeepsOut.go
  with_reducible repeat' first
    | intro _ | assumption | (simp only [Keeps.mk_iff]; apply KeepsIn.of) | apply command_keeps | apply beginMove_keeps | split | dsimp only

theorem execMoveList_keeps (p : PktRef) (s : State) : Mod.KeepsOut s.toMod (execMoveList p s) := by
  have kept := Mod.Keeps.refl s.toMod
  unfold execMoveList
  apply Mod.KeepsOut.go
  with_reducible repeat' first
    | intro _ | assumption | (simp only [Keeps.mk_iff]; apply KeepsIn.of) | apply updFlight_keeps | apply running_keeps | apply command_keeps
    | apply listJob_keeps | apply cmdMoveFail_keeps | apply KeepsOr.ok | apply KeepsOr.error | apply KeepsOr.ite
    | (refine listJob_kept (by assumption) ?_) | split | dsimp only

/-! ## Preempt -/

theorem execPreemptStopped_keeps (core : CoreId) (prog : EngineProgress) (s : State) : Mod.KeepsOut s.toMod (execPreemptStopped core prog s) := by
  have kept := Mod.Keeps.refl s.toMod
  unfold execPreemptStopped
  apply Mod.KeepsOut.go
  with_reducible repeat' first
    | intro _ | assumption | (simp only [Keeps.mk_iff]; apply KeepsIn.of) | apply setCore_keeps | apply coreFault_keeps | apply preemptPoint_keeps
    | apply Keeps.ite | split | dsimp only

theorem execPreemptStopTimeout_keeps (core : CoreId) (s : State) : Mod.KeepsOut s.toMod (execPreemptStopTimeout core s) := by
  have kept := Mod.Keeps.refl s.toMod
  unfold execPreemptStopTimeout
  apply Mod.KeepsOut.go
  with_reducible repeat' first
    | intro _ | assumption | (simp only [Keeps.mk_iff]; apply KeepsIn.of) | apply setCore_keeps | apply record_keeps | apply report_keeps
    | apply launchCore_keeps | apply Keeps.ite | split | dsimp only

theorem execSaveDone_keeps (core : CoreId) (s : State) : Mod.KeepsOut s.toMod (execSaveDone core s) := by
  have kept := Mod.Keeps.refl s.toMod
  unfold execSaveDone
  apply Mod.KeepsOut.go
  with_reducible repeat' first
    | intro _ | assumption | (simp only [Keeps.mk_iff]; apply KeepsIn.of) | apply setCore_keeps | apply coreNext_keeps | apply preempted_keeps
    | (refine writeParts_keeps (by assumption) ?_) | apply contextFault_keeps | apply Keeps.ite | apply KeepsOr.ok | apply KeepsOr.error
    | apply KeepsOr.ite | split | dsimp only

theorem execRestoreDone_keeps (core : CoreId) (s : State) : Mod.KeepsOut s.toMod (execRestoreDone core s) := by
  have kept := Mod.Keeps.refl s.toMod
  unfold execRestoreDone
  apply Mod.KeepsOut.go
  with_reducible repeat' first
    | intro _ | assumption | (simp only [Keeps.mk_iff]; apply KeepsIn.of) | apply setCore_keeps | apply touchRead_keeps | apply coreFault_keeps
    | apply settleCore_keeps | apply contextFault_keeps | apply Keeps.ite | apply Keeps.foldl | apply KeepsOr.ok | apply KeepsOr.error
    | apply KeepsOr.ite | split | dsimp only

/-! ## Queue -/

theorem execCsqBellSq_keeps (q : QRef) (pi : BitVec 32) (s : State) : Mod.KeepsOut s.toMod (execCsqBellSq q pi s) := by
  have kept := Mod.Keeps.refl s.toMod
  unfold execCsqBellSq
  apply Mod.KeepsOut.go
  with_reducible repeat' first
    | assumption | (simp only [Keeps.mk_iff]; apply KeepsIn.of) | apply bellSq_keeps | dsimp only

theorem execCsqBellRq_keeps (q : QRef) (ci : BitVec 32) (s : State) : Mod.KeepsOut s.toMod (execCsqBellRq q ci s) := by
  have kept := Mod.Keeps.refl s.toMod
  unfold execCsqBellRq
  apply Mod.KeepsOut.go
  with_reducible repeat' first
    | assumption | (simp only [Keeps.mk_iff]; apply KeepsIn.of) | apply bellRq_keeps | dsimp only

theorem execPacketAccept_keeps (q : QRef) (host : Option (List Word)) (s : State) : Mod.KeepsOut s.toMod (execPacketAccept q host s) := by
  have kept := Mod.Keeps.refl s.toMod
  unfold execPacketAccept
  apply Mod.KeepsOut.go
  with_reducible repeat' first
    | intro _ | assumption | (simp only [Keeps.mk_iff]; apply KeepsIn.of) | apply queueError_keeps | apply fetchDevice_keeps | apply fetchHost_keeps
    | apply Keeps.ite | split | dsimp only

theorem execQueueNotify_keeps (q : QRef) (s : State) : Mod.KeepsOut s.toMod (execQueueNotify q s) := by
  have kept := Mod.Keeps.refl s.toMod
  unfold execQueueNotify
  apply Mod.KeepsOut.go
  with_reducible repeat' first
    | intro _ | assumption | (simp only [Keeps.mk_iff]; apply KeepsIn.of) | apply updQueue_keeps | (refine flushRead_keeps (by assumption) ?_)
    | apply flushRead_getD_keeps | (refine notify_keeps (by assumption) ?_) | apply notify_getD_keeps | apply issueNotify_keeps | apply Keeps.ite
    | split | dsimp only

theorem execHeldReplyWrite_keeps (q : QRef) (s : State) : Mod.KeepsOut s.toMod (execHeldReplyWrite q s) := by
  have kept := Mod.Keeps.refl s.toMod
  unfold execHeldReplyWrite
  apply Mod.KeepsOut.go
  with_reducible repeat' first
    | intro _ | assumption | (simp only [Keeps.mk_iff]; apply KeepsIn.of) | apply settleQueues_keeps | apply sendPending_keeps
    | apply writeHeld_keeps | apply Keeps.ite | split | dsimp only

theorem execQueueCreate_keeps (p : PktRef) (s : State) : Mod.KeepsOut s.toMod (execQueueCreate p s) := by
  have kept := Mod.Keeps.refl s.toMod
  unfold execQueueCreate
  apply Mod.KeepsOut.go
  with_reducible repeat' first
    | intro _ | assumption | (simp only [Keeps.mk_iff]; apply KeepsIn.of) | apply setQueue_keeps | apply endCmd_keeps | apply checked_keeps
    | apply command_keeps | split | dsimp only

theorem execQueueDisable_keeps (p : PktRef) (s : State) : Mod.KeepsOut s.toMod (execQueueDisable p s) := by
  have kept := Mod.Keeps.refl s.toMod
  unfold execQueueDisable
  apply Mod.KeepsOut.go
  with_reducible repeat' first
    | intro _ | assumption | (simp only [Keeps.mk_iff]; apply KeepsIn.of) | apply running_keeps | apply checked_keeps | apply command_keeps
    | apply startDisable_keeps | split | dsimp only

theorem execQueueEnable_keeps (p : PktRef) (s : State) : Mod.KeepsOut s.toMod (execQueueEnable p s) := by
  have kept := Mod.Keeps.refl s.toMod
  unfold execQueueEnable
  apply Mod.KeepsOut.go
  with_reducible repeat' first
    | intro _ | assumption | (simp only [Keeps.mk_iff]; apply KeepsIn.of) | apply setQueue_keeps | apply endCmd_keeps | apply running_keeps
    | apply checked_keeps | apply command_keeps | apply Keeps.ite | split | dsimp only

theorem execQueueDestroy_keeps (p : PktRef) (s : State) : Mod.KeepsOut s.toMod (execQueueDestroy p s) := by
  have kept := Mod.Keeps.refl s.toMod
  unfold execQueueDestroy
  apply Mod.KeepsOut.go
  with_reducible repeat' first
    | intro _ | assumption | (simp only [Keeps.mk_iff]; apply KeepsIn.of) | apply setQueue_keeps | apply endCmd_keeps | apply checked_keeps
    | apply command_keeps | split | dsimp only

theorem execFlushVisible_keeps (p : PktRef) (s : State) : Mod.KeepsOut s.toMod (execFlushVisible p s) := by
  have kept := Mod.Keeps.refl s.toMod
  unfold execFlushVisible
  apply Mod.KeepsOut.go
  with_reducible repeat' first
    | intro _ | assumption | (simp only [Keeps.mk_iff]; apply KeepsIn.of) | apply endCmd_keeps | apply noteWrites_keeps | apply command_keeps | split
    | dsimp only

/-! ## Fabric -/

theorem execFabPortEnable_keeps (port : PortId) (s : State) : Mod.KeepsOut s.toMod (execFabPortEnable port s) := by
  have kept := Mod.Keeps.refl s.toMod
  unfold execFabPortEnable
  apply Mod.KeepsOut.go
  with_reducible repeat' first
    | assumption | (simp only [Keeps.mk_iff]; apply KeepsIn.of) | apply portEnable_keeps | dsimp only

theorem execFabPortDisable_keeps (port : PortId) (s : State) : Mod.KeepsOut s.toMod (execFabPortDisable port s) := by
  have kept := Mod.Keeps.refl s.toMod
  unfold execFabPortDisable
  apply Mod.KeepsOut.go
  with_reducible repeat' first
    | assumption | (simp only [Keeps.mk_iff]; apply KeepsIn.of) | apply portDisable_keeps | dsimp only

theorem execFabPortReset_keeps (port : PortId) (s : State) : Mod.KeepsOut s.toMod (execFabPortReset port s) := by
  have kept := Mod.Keeps.refl s.toMod
  unfold execFabPortReset
  apply Mod.KeepsOut.go
  with_reducible repeat' first
    | assumption | (simp only [Keeps.mk_iff]; apply KeepsIn.of) | apply portReset_keeps | dsimp only

theorem execFabPortRetrain_keeps (port : PortId) (s : State) : Mod.KeepsOut s.toMod (execFabPortRetrain port s) := by
  have kept := Mod.Keeps.refl s.toMod
  unfold execFabPortRetrain
  apply Mod.KeepsOut.go
  with_reducible repeat' first
    | assumption | (simp only [Keeps.mk_iff]; apply KeepsIn.of) | apply startRetrain_keeps | dsimp only

theorem execProbePatternSeen_keeps (port : PortId) (s : State) : Mod.KeepsOut s.toMod (execProbePatternSeen port s) := by
  have kept := Mod.Keeps.refl s.toMod
  unfold execProbePatternSeen
  apply Mod.KeepsOut.go
  with_reducible repeat' first
    | intro _ | assumption | (simp only [Keeps.mk_iff]; apply KeepsIn.of) | apply portTo_keeps | apply portIn_keeps | split | dsimp only

theorem execCapabilityAgreed_keeps (port : PortId) (partnerMax offer : BitVec 2) (k1 : Bool) (s : State) : Mod.KeepsOut s.toMod (execCapabilityAgreed port partnerMax offer k1 s) := by
  have kept := Mod.Keeps.refl s.toMod
  unfold execCapabilityAgreed
  apply Mod.KeepsOut.go
  with_reducible repeat' first
    | intro _ | assumption | (simp only [Keeps.mk_iff]; apply KeepsIn.of) | apply setPort_keeps | apply portTo_keeps | apply portIn_keeps
    | apply Keeps.ite | split | dsimp only

theorem execEqualizeDone_keeps (port : PortId) (failing : BitVec 8) (s : State) : Mod.KeepsOut s.toMod (execEqualizeDone port failing s) := by
  have kept := Mod.Keeps.refl s.toMod
  unfold execEqualizeDone
  apply Mod.KeepsOut.go
  with_reducible repeat' first
    | intro _ | assumption | (simp only [Keeps.mk_iff]; apply KeepsIn.of) | apply setPort_keeps | apply portTo_keeps | apply sendProbe_keeps
    | apply portOff_keeps | apply portIn_keeps | split | dsimp only

theorem execAlignDone_keeps (port : PortId) (delay : BitVec 24) (s : State) : Mod.KeepsOut s.toMod (execAlignDone port delay s) := by
  have kept := Mod.Keeps.refl s.toMod
  unfold execAlignDone
  apply Mod.KeepsOut.go
  with_reducible repeat' first
    | intro _ | assumption | (simp only [Keeps.mk_iff]; apply KeepsIn.of) | apply portTo_keeps | apply portIn_keeps | apply setDelay_keeps | split
    | dsimp only

theorem execLinkMgmtDone_keeps (port : PortId) (partner : PortId) (idHash : BitVec 384) (s : State) : Mod.KeepsOut s.toMod (execLinkMgmtDone port partner idHash s) := by
  have kept := Mod.Keeps.refl s.toMod
  unfold execLinkMgmtDone
  apply Mod.KeepsOut.go
  with_reducible repeat' first
    | intro _ | assumption | (simp only [Keeps.mk_iff]; apply KeepsIn.of) | apply updPort_keeps | apply portTo_keeps | apply portIn_keeps
    | apply partnerReport_keeps | split | dsimp only

theorem execAuthRefused_keeps (port : PortId) (policy : Bool) (s : State) : Mod.KeepsOut s.toMod (execAuthRefused port policy s) := by
  have kept := Mod.Keeps.refl s.toMod
  unfold execAuthRefused
  apply Mod.KeepsOut.go
  with_reducible repeat' first
    | intro _ | assumption | (simp only [Keeps.mk_iff]; apply KeepsIn.of) | apply portIn_keeps | apply refusePartner_keeps | split | dsimp only

theorem execAuthBackoffExpiry_keeps (port : PortId) (s : State) : Mod.KeepsOut s.toMod (execAuthBackoffExpiry port s) := by
  have kept := Mod.Keeps.refl s.toMod
  unfold execAuthBackoffExpiry
  apply Mod.KeepsOut.go
  with_reducible repeat' first
    | intro _ | assumption | (simp only [Keeps.mk_iff]; apply KeepsIn.of) | apply portTo_keeps | apply portIn_keeps | apply partnerReport_keeps
    | split | dsimp only

theorem execPortResetDone_keeps (port : PortId) (s : State) : Mod.KeepsOut s.toMod (execPortResetDone port s) := by
  have kept := Mod.Keeps.refl s.toMod
  unfold execPortResetDone
  apply Mod.KeepsOut.go
  with_reducible repeat' first
    | assumption | (simp only [Keeps.mk_iff]; apply KeepsIn.of) | apply portResetDone_keeps | dsimp only

theorem execPortStateTimeout_keeps (port : PortId) (s : State) : Mod.KeepsOut s.toMod (execPortStateTimeout port s) := by
  have kept := Mod.Keeps.refl s.toMod
  unfold execPortStateTimeout
  apply Mod.KeepsOut.go
  with_reducible repeat' first
    | intro _ | assumption | (simp only [Keeps.mk_iff]; apply KeepsIn.of) | apply updPort_keeps | apply portTo_keeps | apply portLatch_keeps
    | apply portFault_keeps | apply portResetDone_keeps | apply Keeps.ite | split | dsimp only

theorem execProbeWindow_keeps (port : PortId) (s : State) : Mod.KeepsOut s.toMod (execProbeWindow port s) := by
  have kept := Mod.Keeps.refl s.toMod
  unfold execProbeWindow
  apply Mod.KeepsOut.go
  with_reducible repeat' first
    | intro _ | assumption | (simp only [Keeps.mk_iff]; apply KeepsIn.of) | apply updPort_keeps | apply portEvent_keeps | apply portIn_keeps
    | apply Keeps.ite | split | dsimp only

theorem execFecLockLoss_keeps (port : PortId) (s : State) : Mod.KeepsOut s.toMod (execFecLockLoss port s) := by
  have kept := Mod.Keeps.refl s.toMod
  unfold execFecLockLoss
  apply Mod.KeepsOut.go
  with_reducible repeat' first
    | assumption | (simp only [Keeps.mk_iff]; apply KeepsIn.of) | apply startRetrain_keeps | dsimp only

theorem execKeysInstalled_keeps (port : PortId) (s : State) : Mod.KeepsOut s.toMod (execKeysInstalled port s) := by
  have kept := Mod.Keeps.refl s.toMod
  unfold execKeysInstalled
  apply Mod.KeepsOut.go
  with_reducible repeat' first
    | intro _ | assumption | (simp only [Keeps.mk_iff]; apply KeepsIn.of) | apply updPort_keeps | apply portTo_keeps | apply portIn_keeps
    | apply refusePartner_keeps | apply sendHello_keeps | apply Keeps.ite | split | dsimp only

theorem execDataFlit_keeps (port : PortId) (f : Flit) (s : State) : Mod.KeepsOut s.toMod (execDataFlit port f s) := by
  have kept := Mod.Keeps.refl s.toMod
  unfold execDataFlit
  apply Mod.KeepsOut.go
  with_reducible repeat' first
    | intro _ | assumption | (simp only [Keeps.mk_iff]; apply KeepsIn.of) | apply receiveFlit_keeps | apply Keeps.ite | split | dsimp only

theorem execIdleFlit_keeps (port : PortId) (f : Flit) (s : State) : Mod.KeepsOut s.toMod (execIdleFlit port f s) := by
  have kept := Mod.Keeps.refl s.toMod
  unfold execIdleFlit
  apply Mod.KeepsOut.go
  with_reducible repeat' first
    | intro _ | assumption | (simp only [Keeps.mk_iff]; apply KeepsIn.of) | apply receiveFlit_keeps | apply Keeps.ite | split | dsimp only

theorem execNakFlit_keeps (port : PortId) (f : Flit) (s : State) : Mod.KeepsOut s.toMod (execNakFlit port f s) := by
  have kept := Mod.Keeps.refl s.toMod
  unfold execNakFlit
  apply Mod.KeepsOut.go
  with_reducible repeat' first
    | intro _ | assumption | (simp only [Keeps.mk_iff]; apply KeepsIn.of) | apply receiveFlit_keeps | apply Keeps.ite | split | dsimp only

theorem execLinkDown_keeps (port : PortId) (s : State) : Mod.KeepsOut s.toMod (execLinkDown port s) := by
  have kept := Mod.Keeps.refl s.toMod
  unfold execLinkDown
  apply Mod.KeepsOut.go
  with_reducible repeat' first
    | intro _ | assumption | (simp only [Keeps.mk_iff]; apply KeepsIn.of) | apply portReset_keeps | apply Keeps.ite | split | dsimp only

theorem execAckProgressTimeout_keeps (port : PortId) (s : State) : Mod.KeepsOut s.toMod (execAckProgressTimeout port s) := by
  have kept := Mod.Keeps.refl s.toMod
  unfold execAckProgressTimeout
  apply Mod.KeepsOut.go
  with_reducible repeat' first
    | intro _ | assumption | (simp only [Keeps.mk_iff]; apply KeepsIn.of) | apply resend_keeps | apply Keeps.ite | split | dsimp only

theorem execCreditToExpiry_keeps (port : PortId) (vc : Fin 6) (s : State) : Mod.KeepsOut s.toMod (execCreditToExpiry port vc s) := by
  have kept := Mod.Keeps.refl s.toMod
  unfold execCreditToExpiry
  apply Mod.KeepsOut.go
  with_reducible repeat' first
    | intro _ | assumption | (simp only [Keeps.mk_iff]; apply KeepsIn.of) | apply portFault_keeps | apply Keeps.ite | split | dsimp only

theorem execLinkPacket_keeps (port : PortId) (x : LinkBody) (s : State) : Mod.KeepsOut s.toMod (execLinkPacket port x s) := by
  have kept := Mod.Keeps.refl s.toMod
  unfold execLinkPacket
  apply Mod.KeepsOut.go
  with_reducible repeat' first
    | intro _ | assumption | (simp only [Keeps.mk_iff]; apply KeepsIn.of) | apply setPort_keeps | apply sendBare_keeps | apply checkPacket_keeps
    | apply checkClear_keeps | apply choosePfc_keeps | apply Keeps.ite | split | dsimp only

theorem execKeyEpochTimer_keeps (port : PortId) (s : State) : Mod.KeepsOut s.toMod (execKeyEpochTimer port s) := by
  have kept := Mod.Keeps.refl s.toMod
  unfold execKeyEpochTimer
  apply Mod.KeepsOut.go
  with_reducible repeat' first
    | intro _ | assumption | (simp only [Keeps.mk_iff]; apply KeepsIn.of) | apply updPort_keeps | apply Keeps.ite | split | dsimp only

theorem execPortEpochCheck_keeps (port : PortId) (corrected : List Nat) (uncorrectable : Nat) (s : State) : Mod.KeepsOut s.toMod (execPortEpochCheck port corrected uncorrectable s) := by
  have kept := Mod.Keeps.refl s.toMod
  unfold execPortEpochCheck
  apply Mod.KeepsOut.go
  with_reducible repeat' first
    | intro _ | assumption | (simp only [Keeps.mk_iff]; apply KeepsIn.of) | apply setPort_keeps | apply stepDown_keeps | apply laneErrors_keeps
    | apply Keeps.ite | apply Keeps.foldl | split | dsimp only

theorem execRetrainDone_keeps (port : PortId) (delay : BitVec 24) (s : State) : Mod.KeepsOut s.toMod (execRetrainDone port delay s) := by
  have kept := Mod.Keeps.refl s.toMod
  unfold execRetrainDone
  apply Mod.KeepsOut.go
  with_reducible repeat' first
    | intro _ | assumption | (simp only [Keeps.mk_iff]; apply KeepsIn.of) | apply setPort_keeps | apply portTo_keeps | apply sendProbe_keeps
    | apply sendFlits_keeps | apply portIn_keeps | apply setDelay_keeps | apply pumpPort_keeps | split | dsimp only

theorem execNeighbourSolicitation_keeps (port : PortId) (target : BitVec 128) (s : State) : Mod.KeepsOut s.toMod (execNeighbourSolicitation port target s) := by
  have kept := Mod.Keeps.refl s.toMod
  unfold execNeighbourSolicitation
  apply Mod.KeepsOut.go
  with_reducible repeat' first
    | intro _ | assumption | (simp only [Keeps.mk_iff]; apply KeepsIn.of) | apply emit_keeps | apply portMalformed_keeps | apply Keeps.ite | split
    | dsimp only

theorem execUdpDatagram_keeps (port : PortId) (d : Datagram) (s : State) : Mod.KeepsOut s.toMod (execUdpDatagram port d s) := by
  have kept := Mod.Keeps.refl s.toMod
  unfold execUdpDatagram
  apply Mod.KeepsOut.go
  with_reducible repeat' first
    | intro _ | assumption | (simp only [Keeps.mk_iff]; apply KeepsIn.of) | apply portMalformed_keeps | apply choosePfc_keeps | apply takeFlits_keeps
    | apply Keeps.ite | split | dsimp only

theorem execPfcFrame_keeps (port : PortId) (hold : Bool) (s : State) : Mod.KeepsOut s.toMod (execPfcFrame port hold s) := by
  have kept := Mod.Keeps.refl s.toMod
  unfold execPfcFrame
  apply Mod.KeepsOut.go
  with_reducible repeat' first
    | intro _ | assumption | (simp only [Keeps.mk_iff]; apply KeepsIn.of) | apply setPort_keeps | apply portMalformed_keeps | apply pumpPort_keeps
    | apply releaseFrames_keeps | apply Keeps.ite | split | dsimp only

/-! ## Beacon -/

theorem execBeaconTick_keeps (s : State) : Mod.KeepsOut s.toMod (execBeaconTick s) := by
  have kept := Mod.Keeps.refl s.toMod
  unfold execBeaconTick
  apply Mod.KeepsOut.go
  with_reducible repeat' first
    | intro _ | assumption | (simp only [Keeps.mk_iff]; apply KeepsIn.of) | apply pumpPort_keeps | apply updBeacon_keeps | apply selectUpstream_keeps
    | apply takeEvents_keeps | apply hearPorts_keeps | apply sendBeacons_keeps | apply masterStep_keeps | apply Keeps.foldl | split | dsimp only

theorem execBeaconFlit_keeps (port : PortId) (f : BeaconFlit) (ns : BitVec 10) (s : State) : Mod.KeepsOut s.toMod (execBeaconFlit port f ns s) := by
  have kept := Mod.Keeps.refl s.toMod
  unfold execBeaconFlit
  apply Mod.KeepsOut.go
  with_reducible repeat' first
    | intro _ | assumption | (simp only [Keeps.mk_iff]; apply KeepsIn.of) | apply updBeacon_keeps | apply Keeps.ite | split | dsimp only

theorem execBeaconFlitAbsence_keeps (s : State) : Mod.KeepsOut s.toMod (execBeaconFlitAbsence s) := by
  have kept := Mod.Keeps.refl s.toMod
  unfold execBeaconFlitAbsence
  apply Mod.KeepsOut.go
  with_reducible repeat' first
    | intro _ | assumption | (simp only [Keeps.mk_iff]; apply KeepsIn.of) | apply updBeacon_keeps | apply toHoldover_keeps | apply Keeps.ite | split
    | dsimp only

theorem execHoldoverTimeout_keeps (s : State) : Mod.KeepsOut s.toMod (execHoldoverTimeout s) := by
  have kept := Mod.Keeps.refl s.toMod
  unfold execHoldoverTimeout
  apply Mod.KeepsOut.go
  with_reducible repeat' first
    | intro _ | assumption | (simp only [Keeps.mk_iff]; apply KeepsIn.of) | apply toFree_keeps | apply Keeps.ite | split | dsimp only

theorem execPpsEdge_keeps (offset : Int) (tenMhz : Bool) (s : State) : Mod.KeepsOut s.toMod (execPpsEdge offset tenMhz s) := by
  have kept := Mod.Keeps.refl s.toMod
  unfold execPpsEdge
  apply Mod.KeepsOut.go
  with_reducible repeat' first
    | intro _ | assumption | (simp only [Keeps.mk_iff]; apply KeepsIn.of) | apply updBeacon_keeps | apply Keeps.ite | split | dsimp only

theorem execPtpSync_keeps (offset : Int) (s : State) : Mod.KeepsOut s.toMod (execPtpSync offset s) := by
  have kept := Mod.Keeps.refl s.toMod
  unfold execPtpSync
  apply Mod.KeepsOut.go
  with_reducible repeat' first
    | intro _ | assumption | (simp only [Keeps.mk_iff]; apply KeepsIn.of) | apply updBeacon_keeps | apply Keeps.ite | split | dsimp only

theorem execReferenceLoss_keeps (s : State) : Mod.KeepsOut s.toMod (execReferenceLoss s) := by
  have kept := Mod.Keeps.refl s.toMod
  unfold execReferenceLoss
  apply Mod.KeepsOut.go
  with_reducible repeat' first
    | intro _ | assumption | (simp only [Keeps.mk_iff]; apply KeepsIn.of) | apply updBeacon_keeps | split | dsimp only

theorem execBcnCtrlWrite_keeps (master : Bool) (source : BitVec 2) (s : State) : Mod.KeepsOut s.toMod (execBcnCtrlWrite master source s) := by
  have kept := Mod.Keeps.refl s.toMod
  unfold execBcnCtrlWrite
  apply Mod.KeepsOut.go
  with_reducible repeat' first
    | assumption | (simp only [Keeps.mk_iff]; apply KeepsIn.of) | apply beaconCtrl_keeps | dsimp only

theorem execMasterConflictClear_keeps (s : State) : Mod.KeepsOut s.toMod (execMasterConflictClear s) := by
  have kept := Mod.Keeps.refl s.toMod
  unfold execMasterConflictClear
  apply Mod.KeepsOut.go
  with_reducible repeat' first
    | assumption | (simp only [Keeps.mk_iff]; apply KeepsIn.of) | apply clearConflict_keeps | dsimp only

/-! ## Transport -/

theorem execTransportLookup_keeps (ed : EdId) (s : State) : Mod.KeepsOut s.toMod (execTransportLookup ed s) := by
  have kept := Mod.Keeps.refl s.toMod
  unfold execTransportLookup
  apply Mod.KeepsOut.go
  with_reducible repeat' first
    | intro _ | assumption | (simp only [Keeps.mk_iff]; apply KeepsIn.of) | apply routeOut_keeps | apply lookup_keeps | split | dsimp only

theorem execRouteWaitTimeout_keeps (ed : EdId) (s : State) : Mod.KeepsOut s.toMod (execRouteWaitTimeout ed s) := by
  have kept := Mod.Keeps.refl s.toMod
  unfold execRouteWaitTimeout
  apply Mod.KeepsOut.go
  with_reducible repeat' first
    | intro _ | assumption | (simp only [Keeps.mk_iff]; apply KeepsIn.of) | apply dropNoRoute_keeps | split | dsimp only

theorem execWritePacket_keeps (ed : EdId) (s : State) : Mod.KeepsOut s.toMod (execWritePacket ed s) := by
  have kept := Mod.Keeps.refl s.toMod
  unfold execWritePacket
  apply Mod.KeepsOut.go
  with_reducible repeat' first
    | intro _ | assumption | (simp only [Keeps.mk_iff]; apply KeepsIn.of) | (refine writePhys_keeps (by assumption) ?_) | apply serve_keeps
    | apply countArrival_keeps | apply refuseAddr_keeps | apply KeepsOr.ok | apply KeepsOr.error | apply KeepsOr.ite | split | dsimp only

theorem execReducePacket_keeps (ed : EdId) (s : State) : Mod.KeepsOut s.toMod (execReducePacket ed s) := by
  have kept := Mod.Keeps.refl s.toMod
  unfold execReducePacket
  apply Mod.KeepsOut.go
  with_reducible repeat' first
    | intro _ | assumption | (simp only [Keeps.mk_iff]; apply KeepsIn.of) | apply serve_keeps | apply countArrival_keeps | apply refuseAddr_keeps
    | (refine reduceLines_keeps (by assumption) ?_) | apply KeepsOr.ok | apply KeepsOr.error | apply KeepsOr.ite | split | dsimp only

theorem execSignalPacket_keeps (ed : EdId) (s : State) : Mod.KeepsOut s.toMod (execSignalPacket ed s) := by
  have kept := Mod.Keeps.refl s.toMod
  unfold execSignalPacket
  apply Mod.KeepsOut.go
  with_reducible repeat' first
    | intro _ | assumption | (simp only [Keeps.mk_iff]; apply KeepsIn.of) | apply serve_keeps | apply signal_keeps | apply KeepsOr.ok
    | apply KeepsOr.error | apply KeepsOr.ite | split | dsimp only

theorem execAckPacket_keeps (ed : EdId) (s : State) : Mod.KeepsOut s.toMod (execAckPacket ed s) := by
  have kept := Mod.Keeps.refl s.toMod
  unfold execAckPacket
  apply Mod.KeepsOut.go
  with_reducible repeat' first
    | intro _ | assumption | (simp only [Keeps.mk_iff]; apply KeepsIn.of) | apply setTxFlow_keeps | apply keeperPump_keeps | apply pumpEngine_keeps
    | (refine arrival_keeps (by assumption) ?_) | apply Keeps.ite | split | dsimp only

theorem execNackPacket_keeps (ed : EdId) (s : State) : Mod.KeepsOut s.toMod (execNackPacket ed s) := by
  have kept := Mod.Keeps.refl s.toMod
  unfold execNackPacket
  apply Mod.KeepsOut.go
  with_reducible repeat' first
    | intro _ | assumption | (simp only [Keeps.mk_iff]; apply KeepsIn.of) | apply setTxFlow_keeps | apply keeperPump_keeps | apply failPlan_keeps
    | (refine arrival_keeps (by assumption) ?_) | apply Keeps.ite | split | dsimp only

theorem execAckDelayTimer_keeps (src : BitVec 24) (srcAgent dstAgent : Fin 65) (s : State) : Mod.KeepsOut s.toMod (execAckDelayTimer src srcAgent dstAgent s) := by
  have kept := Mod.Keeps.refl s.toMod
  unfold execAckDelayTimer
  apply Mod.KeepsOut.go
  with_reducible repeat' first
    | intro _ | assumption | (simp only [Keeps.mk_iff]; apply KeepsIn.of) | apply sendAck_keeps | apply setRxFlow_keeps | apply Keeps.ite | split
    | dsimp only

theorem execResendTimer_keeps (agent : Fin 65) (dst : BitVec 24) (dstAgent : Fin 65) (seq : BitVec 32) (s : State) : Mod.KeepsOut s.toMod (execResendTimer agent dst dstAgent seq s) := by
  have kept := Mod.Keeps.refl s.toMod
  unfold execResendTimer
  apply Mod.KeepsOut.go
  with_reducible repeat' first
    | intro _ | assumption | (simp only [Keeps.mk_iff]; apply KeepsIn.of) | apply enter_keeps | apply touchRead_keeps | apply sourceFail_keeps
    | apply Keeps.ite | apply KeepsOr.ok | apply KeepsOr.error | apply KeepsOr.ite | split | dsimp only

theorem execXportToExpiry_keeps (agent : Fin 65) (dst : BitVec 24) (dstAgent : Fin 65) (seq : BitVec 32) (s : State) : Mod.KeepsOut s.toMod (execXportToExpiry agent dst dstAgent seq s) := by
  have kept := Mod.Keeps.refl s.toMod
  unfold execXportToExpiry
  apply Mod.KeepsOut.go
  with_reducible repeat' first
    | intro _ | assumption | (simp only [Keeps.mk_iff]; apply KeepsIn.of) | apply setTxFlow_keeps | apply endCmd_keeps | apply failPlan_keeps
    | apply Keeps.ite | apply Keeps.foldl | split | dsimp only

theorem execFlowStateExpiry_keeps (src : BitVec 24) (srcAgent dstAgent : Fin 65) (s : State) : Mod.KeepsOut s.toMod (execFlowStateExpiry src srcAgent dstAgent s) := by
  have kept := Mod.Keeps.refl s.toMod
  unfold execFlowStateExpiry
  apply Mod.KeepsOut.go
  with_reducible repeat' first
    | intro _ | assumption | (simp only [Keeps.mk_iff]; apply KeepsIn.of) | split | dsimp only

theorem execOriginationHoldoffEnd_keeps (s : State) : Mod.KeepsOut s.toMod (execOriginationHoldoffEnd s) := by
  have kept := Mod.Keeps.refl s.toMod
  unfold execOriginationHoldoffEnd
  apply Mod.KeepsOut.go
  with_reducible repeat' first
    | assumption | (simp only [Keeps.mk_iff]; apply KeepsIn.of) | dsimp only

theorem execPlanLoad_keeps (p : PktRef) (s : State) : Mod.KeepsOut s.toMod (execPlanLoad p s) := by
  have kept := Mod.Keeps.refl s.toMod
  unfold execPlanLoad
  apply Mod.KeepsOut.go
  with_reducible repeat' first
    | intro _ | assumption | (simp only [Keeps.mk_iff]; apply KeepsIn.of) | apply recordAccess_keeps | apply setEngine_keeps | apply touchRead_keeps
    | apply endCmd_keeps | apply command_keeps | apply Keeps.ite | apply KeepsOr.ok | apply KeepsOr.error | apply KeepsOr.ite | split | dsimp only

theorem execPlanStart_keeps (p : PktRef) (s : State) : Mod.KeepsOut s.toMod (execPlanStart p s) := by
  have kept := Mod.Keeps.refl s.toMod
  unfold execPlanStart
  apply Mod.KeepsOut.go
  with_reducible repeat' first
    | intro _ | assumption | (simp only [Keeps.mk_iff]; apply KeepsIn.of) | apply updEngine_keeps | apply running_keeps | apply command_keeps
    | apply startPlan_keeps | apply settlePlan_keeps | apply Keeps.ite | split | dsimp only

theorem execSend_keeps (e : EngineId) (s : State) : Mod.KeepsOut s.toMod (execSend e s) := by
  have kept := Mod.Keeps.refl s.toMod
  unfold execSend
  apply Mod.KeepsOut.go
  with_reducible repeat' first
    | assumption | (simp only [Keeps.mk_iff]; apply KeepsIn.of) | apply startTransfer_keeps | dsimp only

theorem execPlanReduceInto_keeps (e : EngineId) (s : State) : Mod.KeepsOut s.toMod (execPlanReduceInto e s) := by
  have kept := Mod.Keeps.refl s.toMod
  unfold execPlanReduceInto
  apply Mod.KeepsOut.go
  with_reducible repeat' first
    | assumption | (simp only [Keeps.mk_iff]; apply KeepsIn.of) | apply startTransfer_keeps | dsimp only

theorem execRecv_keeps (e : EngineId) (s : State) : Mod.KeepsOut s.toMod (execRecv e s) := by
  have kept := Mod.Keeps.refl s.toMod
  unfold execRecv
  apply Mod.KeepsOut.go
  with_reducible repeat' first
    | assumption | (simp only [Keeps.mk_iff]; apply KeepsIn.of) | apply startWait_keeps | dsimp only

theorem execWaitToken_keeps (e : EngineId) (s : State) : Mod.KeepsOut s.toMod (execWaitToken e s) := by
  have kept := Mod.Keeps.refl s.toMod
  unfold execWaitToken
  apply Mod.KeepsOut.go
  with_reducible repeat' first
    | assumption | (simp only [Keeps.mk_iff]; apply KeepsIn.of) | apply startWait_keeps | dsimp only

theorem execWaitBeacon_keeps (e : EngineId) (s : State) : Mod.KeepsOut s.toMod (execWaitBeacon e s) := by
  have kept := Mod.Keeps.refl s.toMod
  unfold execWaitBeacon
  apply Mod.KeepsOut.go
  with_reducible repeat' first
    | assumption | (simp only [Keeps.mk_iff]; apply KeepsIn.of) | apply startWait_keeps | dsimp only

theorem execPlanWaitMet_keeps (e : EngineId) (s : State) : Mod.KeepsOut s.toMod (execPlanWaitMet e s) := by
  have kept := Mod.Keeps.refl s.toMod
  unfold execPlanWaitMet
  apply Mod.KeepsOut.go
  with_reducible repeat' first
    | intro _ | assumption | (simp only [Keeps.mk_iff]; apply KeepsIn.of) | apply stepTake_keeps | apply Keeps.ite | split | dsimp only

theorem execPlanSignal_keeps (e : EngineId) (s : State) : Mod.KeepsOut s.toMod (execPlanSignal e s) := by
  have kept := Mod.Keeps.refl s.toMod
  unfold execPlanSignal
  apply Mod.KeepsOut.go
  with_reducible repeat' first
    | intro _ | assumption | (simp only [Keeps.mk_iff]; apply KeepsIn.of) | apply sendFlow_keeps | apply signal_keeps | apply stepDone_keeps
    | apply Keeps.ite | split | dsimp only

theorem execPlanLoop_keeps (e : EngineId) (s : State) : Mod.KeepsOut s.toMod (execPlanLoop e s) := by
  have kept := Mod.Keeps.refl s.toMod
  unfold execPlanLoop
  apply Mod.KeepsOut.go
  with_reducible repeat' first
    | intro _ | assumption | (simp only [Keeps.mk_iff]; apply KeepsIn.of) | apply setEngine_keeps | apply stepDone_keeps | apply Keeps.ite | split
    | dsimp only

theorem execTransferComplete_keeps (e : EngineId) (num : Nat) (s : State) : Mod.KeepsOut s.toMod (execTransferComplete e num s) := by
  have kept := Mod.Keeps.refl s.toMod
  unfold execTransferComplete
  apply Mod.KeepsOut.go
  with_reducible repeat' first
    | intro _ | assumption | (simp only [Keeps.mk_iff]; apply KeepsIn.of) | apply setEngine_keeps | apply settlePlan_keeps | apply pumpEngine_keeps
    | apply Keeps.ite | split | dsimp only

theorem execStepTimeout_keeps (e : EngineId) (step : Fin 256) (s : State) : Mod.KeepsOut s.toMod (execStepTimeout e step s) := by
  have kept := Mod.Keeps.refl s.toMod
  unfold execStepTimeout
  apply Mod.KeepsOut.go
  with_reducible repeat' first
    | intro _ | assumption | (simp only [Keeps.mk_iff]; apply KeepsIn.of) | apply failPlan_keeps | apply Keeps.ite | split | dsimp only

theorem execEdgCePost_keeps (e : EngineId) (counter : Fin 16) (incr : BitVec 16) (s : State) : Mod.KeepsOut s.toMod (execEdgCePost e counter incr s) := by
  have kept := Mod.Keeps.refl s.toMod
  unfold execEdgCePost
  apply Mod.KeepsOut.go
  with_reducible repeat' first
    | assumption | (simp only [Keeps.mk_iff]; apply KeepsIn.of) | apply enginePost_keeps | dsimp only

theorem execBook_keeps (p : PktRef) (s : State) : Mod.KeepsOut s.toMod (execBook p s) := by
  have kept := Mod.Keeps.refl s.toMod
  unfold execBook
  apply Mod.KeepsOut.go
  with_reducible repeat' first
    | intro _ | assumption | (simp only [Keeps.mk_iff]; apply KeepsIn.of) | apply updEd_keeps | apply updFlight_keeps | apply endCmd_keeps
    | apply running_keeps | apply command_keeps | apply KeepsOr.ok | apply KeepsOr.error | apply KeepsOr.ite | split | dsimp only

theorem execUnbook_keeps (p : PktRef) (s : State) : Mod.KeepsOut s.toMod (execUnbook p s) := by
  have kept := Mod.Keeps.refl s.toMod
  unfold execUnbook
  apply Mod.KeepsOut.go
  with_reducible repeat' first
    | intro _ | assumption | (simp only [Keeps.mk_iff]; apply KeepsIn.of) | apply endCmd_keeps | apply running_keeps | apply command_keeps
    | apply updBooking_keeps | split | dsimp only

theorem execFrameBoundary_keeps (s : State) : Mod.KeepsOut s.toMod (execFrameBoundary s) := by
  have kept := Mod.Keeps.refl s.toMod
  unfold execFrameBoundary
  apply Mod.KeepsOut.go
  with_reducible repeat' first
    | intro _ | assumption | (simp only [Keeps.mk_iff]; apply KeepsIn.of) | apply updBeacon_keeps | apply endBooking_keeps | apply updBooking_keeps
    | apply portCap_keeps | apply portFloors_keeps | apply portFrame_keeps | apply Keeps.ite | apply Keeps.foldl | split | dsimp only

/-! ## Regions -/

theorem execRegionSet_keeps (p : PktRef) (s : State) : Mod.KeepsOut s.toMod (execRegionSet p s) := by
  have kept := Mod.Keeps.refl s.toMod
  unfold execRegionSet
  apply Mod.KeepsOut.go
  with_reducible repeat' first
    | intro _ | assumption | (simp only [Keeps.mk_iff]; apply KeepsIn.of) | apply setRegion_keeps | apply endCmd_keeps | apply running_keeps
    | apply command_keeps | apply writeRegion_keeps | apply settleDrains_keeps | apply Keeps.ite | split | dsimp only

theorem execPreserveMark_keeps (p : PktRef) (s : State) : Mod.KeepsOut s.toMod (execPreserveMark p s) := by
  have kept := Mod.Keeps.refl s.toMod
  unfold execPreserveMark
  apply Mod.KeepsOut.go
  with_reducible repeat' first
    | intro _ | assumption | (simp only [Keeps.mk_iff]; apply KeepsIn.of) | apply setRegion_keeps | apply endCmd_keeps | apply command_keeps
    | apply Keeps.ite | split | dsimp only

theorem execMooringSet_keeps (p : PktRef) (s : State) : Mod.KeepsOut s.toMod (execMooringSet p s) := by
  have kept := Mod.Keeps.refl s.toMod
  unfold execMooringSet
  apply Mod.KeepsOut.go
  with_reducible repeat' first
    | intro _ | assumption | (simp only [Keeps.mk_iff]; apply KeepsIn.of) | apply setMooring_keeps | apply endCmd_keeps | apply command_keeps
    | apply Keeps.ite | split | dsimp only

theorem execMooringClear_keeps (p : PktRef) (s : State) : Mod.KeepsOut s.toMod (execMooringClear p s) := by
  have kept := Mod.Keeps.refl s.toMod
  unfold execMooringClear
  apply Mod.KeepsOut.go
  with_reducible repeat' first
    | intro _ | assumption | (simp only [Keeps.mk_iff]; apply KeepsIn.of) | apply setMooring_keeps | apply endCmd_keeps | apply running_keeps
    | apply command_keeps | apply settleDrains_keeps | apply Keeps.ite | split | dsimp only

theorem execMemoryCompletion_keeps (r : Requester) (tag : Nat) (s : State) : Mod.KeepsOut s.toMod (execMemoryCompletion r tag s) := by
  have kept := Mod.Keeps.refl s.toMod
  unfold execMemoryCompletion
  apply Mod.KeepsOut.go
  with_reducible repeat' first
    | intro _ | assumption | (simp only [Keeps.mk_iff]; apply KeepsIn.of) | apply emit_keeps | apply settleDrains_keeps | apply txnFail_keeps
    | apply tagFreed_keeps | apply Keeps.ite | split | dsimp only

theorem execStackLoss_keeps (stack : StackId) (s : State) : Mod.KeepsOut s.toMod (execStackLoss stack s) := by
  have kept := Mod.Keeps.refl s.toMod
  unfold execStackLoss
  apply Mod.KeepsOut.go
  with_reducible repeat' first
    | intro _ | assumption | (simp only [Keeps.mk_iff]; apply KeepsIn.of) | apply setCtl_keeps | apply recordStack_keeps | apply Keeps.ite | split
    | dsimp only

theorem execStackDeviceFault_keeps (stack : StackId) (s : State) : Mod.KeepsOut s.toMod (execStackDeviceFault stack s) := by
  have kept := Mod.Keeps.refl s.toMod
  unfold execStackDeviceFault
  apply Mod.KeepsOut.go
  with_reducible repeat' first
    | assumption | (simp only [Keeps.mk_iff]; apply KeepsIn.of) | apply report_keeps | apply recordStack_keeps | dsimp only

theorem execHotHomeSample_keeps (level : HotLevel) (avg others : BitVec 8) (s : State) : Mod.KeepsOut s.toMod (execHotHomeSample level avg others s) := by
  have kept := Mod.Keeps.refl s.toMod
  unfold execHotHomeSample
  apply Mod.KeepsOut.go
  with_reducible repeat' first
    | intro _ | assumption | (simp only [Keeps.mk_iff]; apply KeepsIn.of) | apply setSlice_keeps | apply Keeps.ite | split | dsimp only

/-! ## Coherence -/

theorem execReadMiss_keeps (agent : AgentId) (pa : PAddr) (s : State) : Mod.KeepsOut s.toMod (execReadMiss agent pa s) := by
  have kept := Mod.Keeps.refl s.toMod
  unfold execReadMiss
  apply Mod.KeepsOut.go
  with_reducible repeat' first
    | intro _ | assumption | (simp only [Keeps.mk_iff]; apply KeepsIn.of) | apply homeRequest_keeps | apply agentRequest_keeps | apply Keeps.ite
    | split | dsimp only

theorem execReadForOwnership_keeps (agent : AgentId) (pa : PAddr) (s : State) : Mod.KeepsOut s.toMod (execReadForOwnership agent pa s) := by
  have kept := Mod.Keeps.refl s.toMod
  unfold execReadForOwnership
  apply Mod.KeepsOut.go
  with_reducible repeat' first
    | assumption | (simp only [Keeps.mk_iff]; apply KeepsIn.of) | apply askOwnership_keeps | dsimp only

theorem execUpgrade_keeps (agent : AgentId) (pa : PAddr) (s : State) : Mod.KeepsOut s.toMod (execUpgrade agent pa s) := by
  have kept := Mod.Keeps.refl s.toMod
  unfold execUpgrade
  apply Mod.KeepsOut.go
  with_reducible repeat' first
    | assumption | (simp only [Keeps.mk_iff]; apply KeepsIn.of) | apply askOwnership_keeps | dsimp only

theorem execProcessorAmo_keeps (agent : AgentId) (pa : PAddr) (act : CoreAct) (wide : Bool) (value : Word) (s : State) : Mod.KeepsOut s.toMod (execProcessorAmo agent pa act wide value s) := by
  have kept := Mod.Keeps.refl s.toMod
  unfold execProcessorAmo
  apply Mod.KeepsOut.go
  with_reducible repeat' first
    | intro _ | assumption | (simp only [Keeps.mk_iff]; apply KeepsIn.of) | apply resume_keeps | apply coreAct_keeps | apply leaveWindow_keeps
    | apply Keeps.ite | split | dsimp only

theorem execCboZero_keeps (agent : AgentId) (pa : PAddr) (s : State) : Mod.KeepsOut s.toMod (execCboZero agent pa s) := by
  have kept := Mod.Keeps.refl s.toMod
  unfold execCboZero
  apply Mod.KeepsOut.go
  with_reducible repeat' first
    | assumption | (simp only [Keeps.mk_iff]; apply KeepsIn.of) | apply coreAct_keeps | dsimp only

theorem execCboClean_keeps (agent : AgentId) (pa : PAddr) (s : State) : Mod.KeepsOut s.toMod (execCboClean agent pa s) := by
  have kept := Mod.Keeps.refl s.toMod
  unfold execCboClean
  apply Mod.KeepsOut.go
  with_reducible repeat' first
    | assumption | (simp only [Keeps.mk_iff]; apply KeepsIn.of) | apply cbo_keeps | dsimp only

theorem execCboFlush_keeps (agent : AgentId) (pa : PAddr) (s : State) : Mod.KeepsOut s.toMod (execCboFlush agent pa s) := by
  have kept := Mod.Keeps.refl s.toMod
  unfold execCboFlush
  apply Mod.KeepsOut.go
  with_reducible repeat' first
    | assumption | (simp only [Keeps.mk_iff]; apply KeepsIn.of) | apply cbo_keeps | dsimp only

theorem execCboInval_keeps (agent : AgentId) (pa : PAddr) (s : State) : Mod.KeepsOut s.toMod (execCboInval agent pa s) := by
  have kept := Mod.Keeps.refl s.toMod
  unfold execCboInval
  apply Mod.KeepsOut.go
  with_reducible repeat' first
    | assumption | (simp only [Keeps.mk_iff]; apply KeepsIn.of) | apply cbo_keeps | dsimp only

theorem execLrWindowEnd_keeps (agent : AgentId) (s : State) : Mod.KeepsOut s.toMod (execLrWindowEnd agent s) := by
  have kept := Mod.Keeps.refl s.toMod
  unfold execLrWindowEnd
  apply Mod.KeepsOut.go
  with_reducible repeat' first
    | intro _ | assumption | (simp only [Keeps.mk_iff]; apply KeepsIn.of) | apply setPdCore_keeps | apply resume_keeps | split | dsimp only

theorem execSnoop_keeps (agent : AgentId) (pa : PAddr) (evicting : Bool) (s : State) : Mod.KeepsOut s.toMod (execSnoop agent pa evicting s) := by
  have kept := Mod.Keeps.refl s.toMod
  unfold execSnoop
  apply Mod.KeepsOut.go
  with_reducible repeat' first
    | intro _ | assumption | (simp only [Keeps.mk_iff]; apply KeepsIn.of) | apply setTxn_keeps | apply answerSnoop_keeps | apply Keeps.ite | split
    | dsimp only

theorem execSnoopAnswer_keeps (agent : AgentId) (pa : PAddr) (s : State) : Mod.KeepsOut s.toMod (execSnoopAnswer agent pa s) := by
  have kept := Mod.Keeps.refl s.toMod
  unfold execSnoopAnswer
  apply Mod.KeepsOut.go
  with_reducible repeat' first
    | intro _ | assumption | (simp only [Keeps.mk_iff]; apply KeepsIn.of) | apply setTxn_keeps | apply tryComplete_keeps | apply protocolError_keeps
    | apply Keeps.ite | split | dsimp only

theorem execWriteback_keeps (agent : AgentId) (pa : PAddr) (s : State) : Mod.KeepsOut s.toMod (execWriteback agent pa s) := by
  have kept := Mod.Keeps.refl s.toMod
  unfold execWriteback
  apply Mod.KeepsOut.go
  with_reducible repeat' first
    | intro _ | assumption | (simp only [Keeps.mk_iff]; apply KeepsIn.of) | apply dropReservation_keeps | apply protocolError_keeps
    | apply takeWriteback_keeps | apply Keeps.ite | split | dsimp only

theorem execCleanEviction_keeps (agent : AgentId) (pa : PAddr) (s : State) : Mod.KeepsOut s.toMod (execCleanEviction agent pa s) := by
  have kept := Mod.Keeps.refl s.toMod
  unfold execCleanEviction
  apply Mod.KeepsOut.go
  with_reducible repeat' first
    | intro _ | assumption | (simp only [Keeps.mk_iff]; apply KeepsIn.of) | apply dropReservation_keeps | apply Keeps.ite | split | dsimp only

theorem execEvictionAck_keeps (agent : AgentId) (pa : PAddr) (s : State) : Mod.KeepsOut s.toMod (execEvictionAck agent pa s) := by
  have kept := Mod.Keeps.refl s.toMod
  unfold execEvictionAck
  apply Mod.KeepsOut.go
  with_reducible repeat' first
    | intro _ | assumption | (simp only [Keeps.mk_iff]; apply KeepsIn.of) | apply Keeps.ite | split | dsimp only

theorem execSnoopTimeout_keeps (agent : AgentId) (pa : PAddr) (s : State) : Mod.KeepsOut s.toMod (execSnoopTimeout agent pa s) := by
  have kept := Mod.Keeps.refl s.toMod
  unfold execSnoopTimeout
  apply Mod.KeepsOut.go
  with_reducible repeat' first
    | intro _ | assumption | (simp only [Keeps.mk_iff]; apply KeepsIn.of) | apply protocolError_keeps | apply Keeps.ite | split | dsimp only

theorem execRequestUnservedTimeout_keeps (agent : AgentId) (pa : PAddr) (s : State) : Mod.KeepsOut s.toMod (execRequestUnservedTimeout agent pa s) := by
  have kept := Mod.Keeps.refl s.toMod
  unfold execRequestUnservedTimeout
  apply Mod.KeepsOut.go
  with_reducible repeat' first
    | intro _ | assumption | (simp only [Keeps.mk_iff]; apply KeepsIn.of) | apply protocolError_keeps | apply Keeps.ite | split | dsimp only

theorem execRegulatedRelease_keeps (ctl : Fin 96) (sector : SectorId) (content : Nat) (s : State) : Mod.KeepsOut s.toMod (execRegulatedRelease ctl sector content s) := by
  have kept := Mod.Keeps.refl s.toMod
  unfold execRegulatedRelease
  apply Mod.KeepsOut.go
  with_reducible repeat' first
    | assumption | (simp only [Keeps.mk_iff]; apply KeepsIn.of) | apply setBucket_keeps | apply resume_keeps | dsimp only

theorem execWayClean_keeps (md : MdId) (way : Fin 16) (s : State) : Mod.KeepsOut s.toMod (execWayClean md way s) := by
  have kept := Mod.Keeps.refl s.toMod
  unfold execWayClean
  apply Mod.KeepsOut.go
  with_reducible repeat' first
    | intro _ | assumption | (simp only [Keeps.mk_iff]; apply KeepsIn.of) | apply setSlice_keeps | apply setSliceLine_keeps | apply cleanLine_keeps
    | apply resume_keeps | apply Keeps.ite | apply Keeps.foldl | split | dsimp only

/-! ## Fences -/

theorem execDrainMsExpiry_keeps (q : QRef) (s : State) : Mod.KeepsOut s.toMod (execDrainMsExpiry q s) := by
  have kept := Mod.Keeps.refl s.toMod
  unfold execDrainMsExpiry
  apply Mod.KeepsOut.go
  with_reducible repeat' first
    | intro _ | assumption | (simp only [Keeps.mk_iff]; apply KeepsIn.of) | apply abortCmd_keeps | apply Keeps.ite | apply Keeps.foldl | split
    | dsimp only

/-! ## Sectors -/

theorem execSectorCreate_keeps (p : PktRef) (s : State) : Mod.KeepsOut s.toMod (execSectorCreate p s) := by
  have kept := Mod.Keeps.refl s.toMod
  unfold execSectorCreate
  apply Mod.KeepsOut.go
  with_reducible repeat' first
    | intro _ | assumption | (simp only [Keeps.mk_iff]; apply KeepsIn.of) | apply setSector_keeps | apply endCmd_keeps | apply running_keeps
    | apply command_keeps | apply createSector_keeps | apply Keeps.ite | split | dsimp only

theorem execSectorTeardown_keeps (p : PktRef) (s : State) : Mod.KeepsOut s.toMod (execSectorTeardown p s) := by
  have kept := Mod.Keeps.refl s.toMod
  unfold execSectorTeardown
  apply Mod.KeepsOut.go
  with_reducible repeat' first
    | intro _ | assumption | (simp only [Keeps.mk_iff]; apply KeepsIn.of) | apply setSector_keeps | apply dropKeys_keeps | apply sectorState_keeps
    | apply endCmd_keeps | apply running_keeps | apply command_keeps | apply startTeardown_keeps | split | dsimp only

theorem execScrubComplete_keeps (sector : SectorId) (s : State) : Mod.KeepsOut s.toMod (execScrubComplete sector s) := by
  have kept := Mod.Keeps.refl s.toMod
  unfold execScrubComplete
  apply Mod.KeepsOut.go
  with_reducible repeat' first
    | intro _ | assumption | (simp only [Keeps.mk_iff]; apply KeepsIn.of) | apply setSector_keeps | apply sectorState_keeps | apply endCmd_keeps
    | apply measureSector_keeps | apply createSector_keeps | apply releaseSector_keeps | apply Keeps.ite | apply Keeps.foldl | split | dsimp only

theorem execDeferredFillDone_keeps (n : Nat) (s : State) : Mod.KeepsOut s.toMod (execDeferredFillDone n s) := by
  have kept := Mod.Keeps.refl s.toMod
  unfold execDeferredFillDone
  apply Mod.KeepsOut.go
  with_reducible repeat' first
    | intro _ | assumption | (simp only [Keeps.mk_iff]; apply KeepsIn.of) | apply markChannel_keeps | split | dsimp only

theorem execSectorAssign_keeps (p : PktRef) (s : State) : Mod.KeepsOut s.toMod (execSectorAssign p s) := by
  have kept := Mod.Keeps.refl s.toMod
  unfold execSectorAssign
  apply Mod.KeepsOut.go
  with_reducible repeat' first
    | intro _ | assumption | (simp only [Keeps.mk_iff]; apply KeepsIn.of) | apply endCmd_keeps | apply running_keeps | apply command_keeps
    | apply assignAdd_keeps | apply assignRelease_keeps | apply Keeps.ite | split | dsimp only

theorem execModuleLocalInstant_keeps (p : PktRef) (s : State) : Mod.KeepsOut s.toMod (execModuleLocalInstant p s) := by
  have kept := Mod.Keeps.refl s.toMod
  unfold execModuleLocalInstant
  apply Mod.KeepsOut.go
  with_reducible repeat' first
    | intro _ | assumption | (simp only [Keeps.mk_iff]; apply KeepsIn.of) | apply endCmd_keeps | apply startTeardown_keeps | apply activate_keeps
    | apply assignNow_keeps | apply releaseClusters_keeps | apply phaseNow_keeps | apply Keeps.ite | split | dsimp only

theorem execSealedKeyInstall_keeps (p : PktRef) (tagOk : Bool) (s : State) : Mod.KeepsOut s.toMod (execSealedKeyInstall p tagOk s) := by
  have kept := Mod.Keeps.refl s.toMod
  unfold execSealedKeyInstall
  apply Mod.KeepsOut.go
  with_reducible repeat' first
    | intro _ | assumption | (simp only [Keeps.mk_iff]; apply KeepsIn.of) | apply recordAccess_keeps | apply touchRead_keeps | apply endCmd_keeps
    | apply command_keeps | apply Keeps.ite | apply KeepsOr.ok | apply KeepsOr.error | apply KeepsOr.ite | split | dsimp only

theorem execSealedLoad_keeps (p : PktRef) (s : State) : Mod.KeepsOut s.toMod (execSealedLoad p s) := by
  have kept := Mod.Keeps.refl s.toMod
  unfold execSealedLoad
  apply Mod.KeepsOut.go
  with_reducible repeat' first
    | intro _ | assumption | (simp only [Keeps.mk_iff]; apply KeepsIn.of) | apply updFlight_keeps | apply running_keeps | apply checked_keeps
    | apply command_keeps | split | dsimp only

theorem execSealedChunkDone_keeps (p : PktRef) (tagOk : Bool) (s : State) : Mod.KeepsOut s.toMod (execSealedChunkDone p tagOk s) := by
  have kept := Mod.Keeps.refl s.toMod
  unfold execSealedChunkDone
  apply Mod.KeepsOut.go
  with_reducible repeat' first
    | intro _ | assumption | (simp only [Keeps.mk_iff]; apply KeepsIn.of) | apply endCmd_keeps | apply chunkDone_keeps | split | dsimp only

theorem execSecSvnCommit_keeps (components : BitVec 4) (s : State) : Mod.KeepsOut s.toMod (execSecSvnCommit components s) := by
  have kept := Mod.Keeps.refl s.toMod
  unfold execSecSvnCommit
  apply Mod.KeepsOut.go
  with_reducible repeat' first
    | assumption | (simp only [Keeps.mk_iff]; apply KeepsIn.of) | apply svnCommit_keeps | dsimp only

theorem execSpdmMessage_keeps (path : SpdmPath) (req : SpdmReq) (s : State) : Mod.KeepsOut s.toMod (execSpdmMessage path req s) := by
  have kept := Mod.Keeps.refl s.toMod
  unfold execSpdmMessage
  apply Mod.KeepsOut.go
  with_reducible repeat' first
    | intro _ | assumption | (simp only [Keeps.mk_iff]; apply KeepsIn.of) | apply emit_keeps | apply openSession_keeps | apply Keeps.ite | split
    | dsimp only

theorem execSpdmHeartbeatTimeout_keeps (id : BitVec 32) (s : State) : Mod.KeepsOut s.toMod (execSpdmHeartbeatTimeout id s) := by
  have kept := Mod.Keeps.refl s.toMod
  unfold execSpdmHeartbeatTimeout
  apply Mod.KeepsOut.go
  with_reducible repeat' first
    | intro _ | assumption | (simp only [Keeps.mk_iff]; apply KeepsIn.of) | split | dsimp only

theorem execKprSessionBind_keeps (id : BitVec 32) (sector : SectorId) (s : State) : Mod.KeepsOut s.toMod (execKprSessionBind id sector s) := by
  have kept := Mod.Keeps.refl s.toMod
  unfold execKprSessionBind
  apply Mod.KeepsOut.go
  with_reducible repeat' first
    | assumption | (simp only [Keeps.mk_iff]; apply KeepsIn.of) | apply bindSession_keeps | dsimp only

/-! ## Host -/

theorem execBmeClear_keeps (port : Fin 9) (fn : Fin 17) (s : State) : Mod.KeepsOut s.toMod (execBmeClear port fn s) := by
  have kept := Mod.Keeps.refl s.toMod
  unfold execBmeClear
  apply Mod.KeepsOut.go
  with_reducible repeat' first
    | assumption | (simp only [Keeps.mk_iff]; apply KeepsIn.of) | apply bmeClear_keeps | dsimp only

theorem execBmeSet_keeps (port : Fin 9) (fn : Fin 17) (s : State) : Mod.KeepsOut s.toMod (execBmeSet port fn s) := by
  have kept := Mod.Keeps.refl s.toMod
  unfold execBmeSet
  apply Mod.KeepsOut.go
  with_reducible repeat' first
    | assumption | (simp only [Keeps.mk_iff]; apply KeepsIn.of) | apply bmeSet_keeps | dsimp only

theorem execMseClear_keeps (port : Fin 9) (fn : Fin 17) (s : State) : Mod.KeepsOut s.toMod (execMseClear port fn s) := by
  have kept := Mod.Keeps.refl s.toMod
  unfold execMseClear
  apply Mod.KeepsOut.go
  with_reducible repeat' first
    | assumption | (simp only [Keeps.mk_iff]; apply KeepsIn.of) | apply setFn_keeps | dsimp only

theorem execFunctionLevelReset_keeps (port : Fin 9) (fn : Fin 17) (s : State) : Mod.KeepsOut s.toMod (execFunctionLevelReset port fn s) := by
  have kept := Mod.Keeps.refl s.toMod
  unfold execFunctionLevelReset
  apply Mod.KeepsOut.go
  with_reducible repeat' first
    | intro _ | assumption | (simp only [Keeps.mk_iff]; apply KeepsIn.of) | apply setFn_keeps | apply resetSector_keeps | apply Keeps.ite | split
    | dsimp only

theorem execConventionalReset_keeps (port : Fin 9) (s : State) : Mod.KeepsOut s.toMod (execConventionalReset port s) := by
  have kept := Mod.Keeps.refl s.toMod
  unfold execConventionalReset
  apply Mod.KeepsOut.go
  with_reducible repeat' first
    | assumption | (simp only [Keeps.mk_iff]; apply KeepsIn.of) | apply conventional_keeps | dsimp only

theorem execSbiSrst_keeps (sector : SectorId) (s : State) : Mod.KeepsOut s.toMod (execSbiSrst sector s) := by
  have kept := Mod.Keeps.refl s.toMod
  unfold execSbiSrst
  apply Mod.KeepsOut.go
  with_reducible repeat' first
    | assumption | (simp only [Keeps.mk_iff]; apply KeepsIn.of) | apply restartPds_keeps | dsimp only

theorem execHostCoreRestart_keeps (sector : SectorId) (s : State) : Mod.KeepsOut s.toMod (execHostCoreRestart sector s) := by
  have kept := Mod.Keeps.refl s.toMod
  unfold execHostCoreRestart
  apply Mod.KeepsOut.go
  with_reducible repeat' first
    | assumption | (simp only [Keeps.mk_iff]; apply KeepsIn.of) | apply restartPds_keeps | dsimp only

theorem execHostSectorReset_keeps (sector : SectorId) (s : State) : Mod.KeepsOut s.toMod (execHostSectorReset sector s) := by
  have kept := Mod.Keeps.refl s.toMod
  unfold execHostSectorReset
  apply Mod.KeepsOut.go
  with_reducible repeat' first
    | assumption | (simp only [Keeps.mk_iff]; apply KeepsIn.of) | apply resetSector_keeps | dsimp only

theorem execFunctionResetDone_keeps (sector : SectorId) (s : State) : Mod.KeepsOut s.toMod (execFunctionResetDone sector s) := by
  have kept := Mod.Keeps.refl s.toMod
  unfold execFunctionResetDone
  apply Mod.KeepsOut.go
  with_reducible repeat' first
    | intro _ | assumption | (simp only [Keeps.mk_iff]; apply KeepsIn.of) | apply updQueue_keeps | apply setSector_keeps | apply setFn_keeps
    | apply scrubCluster_keeps | apply scrubEngine_keeps | apply sectorState_keeps | apply restartPds_keeps | apply restoreAdmin_keeps
    | apply Keeps.ite | apply Keeps.foldl | split | dsimp only

theorem execAdminEnable_keeps (sector : SectorId) (s : State) : Mod.KeepsOut s.toMod (execAdminEnable sector s) := by
  have kept := Mod.Keeps.refl s.toMod
  unfold execAdminEnable
  apply Mod.KeepsOut.go
  with_reducible repeat' first
    | assumption | (simp only [Keeps.mk_iff]; apply KeepsIn.of) | apply adminEnable_keeps | dsimp only

theorem execAdminDisable_keeps (sector : SectorId) (s : State) : Mod.KeepsOut s.toMod (execAdminDisable sector s) := by
  have kept := Mod.Keeps.refl s.toMod
  unfold execAdminDisable
  apply Mod.KeepsOut.go
  with_reducible repeat' first
    | assumption | (simp only [Keeps.mk_iff]; apply KeepsIn.of) | apply adminDisable_keeps | dsimp only

theorem execMsixUnmask_keeps (port : Fin 9) (fn : Fin 17) (vec : Fin 2048) (s : State) : Mod.KeepsOut s.toMod (execMsixUnmask port fn vec s) := by
  have kept := Mod.Keeps.refl s.toMod
  unfold execMsixUnmask
  apply Mod.KeepsOut.go
  with_reducible repeat' first
    | assumption | (simp only [Keeps.mk_iff]; apply KeepsIn.of) | apply unmask_keeps | dsimp only

theorem execPcieLinkStateEvent_keeps (p : PcieId) (l : LinkReport) (s : State) : Mod.KeepsOut s.toMod (execPcieLinkStateEvent p l s) := by
  have kept := Mod.Keeps.refl s.toMod
  unfold execPcieLinkStateEvent
  apply Mod.KeepsOut.go
  with_reducible repeat' first
    | assumption | (simp only [Keeps.mk_iff]; apply KeepsIn.of) | apply linkState_keeps | dsimp only

/-! ## Power -/

theorem execVote_keeps (s : State) : Mod.KeepsOut s.toMod (execVote s) := by
  have kept := Mod.Keeps.refl s.toMod
  unfold execVote
  apply Mod.KeepsOut.go
  with_reducible repeat' first
    | intro _ | assumption | (simp only [Keeps.mk_iff]; apply KeepsIn.of) | apply checkMember_keeps | apply mgmtArrival_keeps | apply takeVote_keeps
    | split | dsimp only

theorem execVoteEffective_keeps (s : State) : Mod.KeepsOut s.toMod (execVoteEffective s) := by
  have kept := Mod.Keeps.refl s.toMod
  unfold execVoteEffective
  apply Mod.KeepsOut.go
  with_reducible repeat' first
    | intro _ | assumption | (simp only [Keeps.mk_iff]; apply KeepsIn.of) | apply checkMember_keeps | apply effectVote_keeps | apply Keeps.foldl
    | split | dsimp only

theorem execIsophaseRise_keeps (s : State) : Mod.KeepsOut s.toMod (execIsophaseRise s) := by
  have kept := Mod.Keeps.refl s.toMod
  unfold execIsophaseRise
  apply Mod.KeepsOut.go
  with_reducible repeat' first
    | intro _ | assumption | (simp only [Keeps.mk_iff]; apply KeepsIn.of) | apply checkMember_keeps | apply Keeps.ite | split | dsimp only

theorem execRegAlert_keeps (line : Fin 16) (s : State) : Mod.KeepsOut s.toMod (execRegAlert line s) := by
  have kept := Mod.Keeps.refl s.toMod
  unfold execRegAlert
  apply Mod.KeepsOut.go
  with_reducible repeat' first
    | intro _ | assumption | (simp only [Keeps.mk_iff]; apply KeepsIn.of) | apply forceGroup_keeps | apply Keeps.ite | split | dsimp only

theorem execRegAlertRelease_keeps (line : Fin 16) (s : State) : Mod.KeepsOut s.toMod (execRegAlertRelease line s) := by
  have kept := Mod.Keeps.refl s.toMod
  unfold execRegAlertRelease
  apply Mod.KeepsOut.go
  with_reducible repeat' first
    | assumption | (simp only [Keeps.mk_iff]; apply KeepsIn.of) | dsimp only

theorem execAlertHoldoffEnd_keeps (line : Fin 16) (s : State) : Mod.KeepsOut s.toMod (execAlertHoldoffEnd line s) := by
  have kept := Mod.Keeps.refl s.toMod
  unfold execAlertHoldoffEnd
  apply Mod.KeepsOut.go
  with_reducible repeat' first
    | intro _ | assumption | (simp only [Keeps.mk_iff]; apply KeepsIn.of) | apply powerLog_keeps | apply Keeps.ite | split | dsimp only

theorem execDroop_keeps (site : Site) (s : State) : Mod.KeepsOut s.toMod (execDroop site s) := by
  have kept := Mod.Keeps.refl s.toMod
  unfold execDroop
  apply Mod.KeepsOut.go
  with_reducible repeat' first
    | intro _ | assumption | (simp only [Keeps.mk_iff]; apply KeepsIn.of) | apply updDie_keeps | apply Keeps.ite | split | dsimp only

theorem execDroopEnd_keeps (site : Site) (s : State) : Mod.KeepsOut s.toMod (execDroopEnd site s) := by
  have kept := Mod.Keeps.refl s.toMod
  unfold execDroopEnd
  apply Mod.KeepsOut.go
  with_reducible repeat' first
    | intro _ | assumption | (simp only [Keeps.mk_iff]; apply KeepsIn.of) | apply updDie_keeps | apply Keeps.ite | split | dsimp only

theorem execPowerTick_keeps (x : PowerSample) (s : State) : Mod.KeepsOut s.toMod (execPowerTick x s) := by
  have kept := Mod.Keeps.refl s.toMod
  unfold execPowerTick
  apply Mod.KeepsOut.go
  with_reducible repeat' first
    | intro _ | assumption | (simp only [Keeps.mk_iff]; apply KeepsIn.of) | apply checkMember_keeps | apply setLimit_keeps | apply tickAllow_keeps
    | apply tickSamples_keeps | apply tickPoints_keeps | apply Keeps.foldl | split | dsimp only

theorem execVoltageSettled_keeps (site : Site) (s : State) : Mod.KeepsOut s.toMod (execVoltageSettled site s) := by
  have kept := Mod.Keeps.refl s.toMod
  unfold execVoltageSettled
  apply Mod.KeepsOut.go
  with_reducible repeat' first
    | intro _ | assumption | (simp only [Keeps.mk_iff]; apply KeepsIn.of) | apply updDie_keeps | apply Keeps.ite | split | dsimp only

/-! ## Boot -/

theorem execPowerOnRequest_keeps (s : State) : Mod.KeepsOut s.toMod (execPowerOnRequest s) := by
  have kept := Mod.Keeps.refl s.toMod
  unfold execPowerOnRequest
  apply Mod.KeepsOut.go
  with_reducible repeat' first
    | assumption | (simp only [Keeps.mk_iff]; apply KeepsIn.of) | apply powerEvent_keeps | dsimp only

theorem execPowerOffRequest_keeps (s : State) : Mod.KeepsOut s.toMod (execPowerOffRequest s) := by
  have kept := Mod.Keeps.refl s.toMod
  unfold execPowerOffRequest
  apply Mod.KeepsOut.go
  with_reducible repeat' first
    | assumption | (simp only [Keeps.mk_iff]; apply KeepsIn.of) | apply powerEvent_keeps | dsimp only

theorem execPwrWarnAssert_keeps (s : State) : Mod.KeepsOut s.toMod (execPwrWarnAssert s) := by
  have kept := Mod.Keeps.refl s.toMod
  unfold execPwrWarnAssert
  apply Mod.KeepsOut.go
  with_reducible repeat' first
    | assumption | (simp only [Keeps.mk_iff]; apply KeepsIn.of) | apply powerEvent_keeps | dsimp only

theorem execPwrWarnRelease_keeps (s : State) : Mod.KeepsOut s.toMod (execPwrWarnRelease s) := by
  have kept := Mod.Keeps.refl s.toMod
  unfold execPwrWarnRelease
  apply Mod.KeepsOut.go
  with_reducible repeat' first
    | assumption | (simp only [Keeps.mk_iff]; apply KeepsIn.of) | apply powerEvent_keeps | dsimp only

theorem execHoldEntryDone_keeps (s : State) : Mod.KeepsOut s.toMod (execHoldEntryDone s) := by
  have kept := Mod.Keeps.refl s.toMod
  unfold execHoldEntryDone
  apply Mod.KeepsOut.go
  with_reducible repeat' first
    | intro _ | assumption | (simp only [Keeps.mk_iff]; apply KeepsIn.of) | apply powerTo_keeps | apply writeBackAll_keeps | apply emptySlices_keeps
    | apply refresh_keeps | apply runPending_keeps | apply Keeps.ite | split | dsimp only

theorem execResumeDone_keeps (s : State) : Mod.KeepsOut s.toMod (execResumeDone s) := by
  have kept := Mod.Keeps.refl s.toMod
  unfold execResumeDone
  apply Mod.KeepsOut.go
  with_reducible repeat' first
    | intro _ | assumption | (simp only [Keeps.mk_iff]; apply KeepsIn.of) | apply finishResume_keeps | apply runPending_keeps | apply Keeps.ite
    | split | dsimp only

theorem execRailsOff_keeps (s : State) : Mod.KeepsOut s.toMod (execRailsOff s) := by
  have kept := Mod.Keeps.refl s.toMod
  unfold execRailsOff
  apply Mod.KeepsOut.go
  with_reducible repeat' first
    | intro _ | assumption | (simp only [Keeps.mk_iff]; apply KeepsIn.of) | apply request_keeps | apply toStandby_keeps | apply settleStandby_keeps
    | apply Keeps.ite | split | dsimp only

theorem execRailGroupGood_keeps (line : Fin 16) (s : State) : Mod.KeepsOut s.toMod (execRailGroupGood line s) := by
  have kept := Mod.Keeps.refl s.toMod
  unfold execRailGroupGood
  apply Mod.KeepsOut.go
  with_reducible repeat' first
    | intro _ | assumption | (simp only [Keeps.mk_iff]; apply KeepsIn.of) | apply Keeps.ite | split | dsimp only

theorem execDiesOutOfReset_keeps (s : State) : Mod.KeepsOut s.toMod (execDiesOutOfReset s) := by
  have kept := Mod.Keeps.refl s.toMod
  unfold execDiesOutOfReset
  apply Mod.KeepsOut.go
  with_reducible repeat' first
    | intro _ | assumption | (simp only [Keeps.mk_iff]; apply KeepsIn.of) | apply powerTo_keeps | apply pauseStart_keeps | apply runPending_keeps
    | apply Keeps.ite | split | dsimp only

theorem execPoweringUpTimeout_keeps (s : State) : Mod.KeepsOut s.toMod (execPoweringUpTimeout s) := by
  have kept := Mod.Keeps.refl s.toMod
  unfold execPoweringUpTimeout
  apply Mod.KeepsOut.go
  with_reducible repeat' first
    | intro _ | assumption | (simp only [Keeps.mk_iff]; apply KeepsIn.of) | apply bootFail_keeps | apply runPending_keeps | apply toStandby_keeps
    | apply Keeps.ite | split | dsimp only

theorem execThermtrip_keeps (s : State) : Mod.KeepsOut s.toMod (execThermtrip s) := by
  have kept := Mod.Keeps.refl s.toMod
  unfold execThermtrip
  apply Mod.KeepsOut.go
  with_reducible repeat' first
    | assumption | (simp only [Keeps.mk_iff]; apply KeepsIn.of) | apply toStandby_keeps | dsimp only

theorem execUndervoltage_keeps (s : State) : Mod.KeepsOut s.toMod (execUndervoltage s) := by
  have kept := Mod.Keeps.refl s.toMod
  unfold execUndervoltage
  apply Mod.KeepsOut.go
  with_reducible repeat' first
    | assumption | (simp only [Keeps.mk_iff]; apply KeepsIn.of) | apply toStandby_keeps | dsimp only

theorem execInputReturn_keeps (s : State) : Mod.KeepsOut s.toMod (execInputReturn s) := by
  have kept := Mod.Keeps.refl s.toMod
  unfold execInputReturn
  apply Mod.KeepsOut.go
  with_reducible repeat' first
    | intro _ | assumption | (simp only [Keeps.mk_iff]; apply KeepsIn.of) | apply cold_keeps | apply Keeps.ite | split | dsimp only

theorem execModResetAssert_keeps (s : State) : Mod.KeepsOut s.toMod (execModResetAssert s) := by
  have kept := Mod.Keeps.refl s.toMod
  unfold execModResetAssert
  apply Mod.KeepsOut.go
  with_reducible repeat' first
    | intro _ | assumption | (simp only [Keeps.mk_iff]; apply KeepsIn.of) | apply replyFlush_keeps | apply Keeps.ite | split | dsimp only

theorem execModResetLong_keeps (s : State) : Mod.KeepsOut s.toMod (execModResetLong s) := by
  have kept := Mod.Keeps.refl s.toMod
  unfold execModResetLong
  apply Mod.KeepsOut.go
  with_reducible repeat' first
    | intro _ | assumption | (simp only [Keeps.mk_iff]; apply KeepsIn.of) | apply railsCut_keeps | apply Keeps.ite | split | dsimp only

theorem execModResetRelease_keeps (s : State) : Mod.KeepsOut s.toMod (execModResetRelease s) := by
  have kept := Mod.Keeps.refl s.toMod
  unfold execModResetRelease
  apply Mod.KeepsOut.go
  with_reducible repeat' first
    | intro _ | assumption | (simp only [Keeps.mk_iff]; apply KeepsIn.of) | apply beginCold_keeps | apply restartWarm_keeps | apply askRestart_keeps
    | apply Keeps.ite | split | dsimp only

theorem execMgmtPerst_keeps (s : State) : Mod.KeepsOut s.toMod (execMgmtPerst s) := by
  have kept := Mod.Keeps.refl s.toMod
  unfold execMgmtPerst
  apply Mod.KeepsOut.go
  with_reducible repeat' first
    | intro _ | assumption | (simp only [Keeps.mk_iff]; apply KeepsIn.of) | apply setFn_keeps | apply mqDisable_keeps | apply Keeps.ite | split
    | dsimp only

theorem execMgmtPerstRelease_keeps (s : State) : Mod.KeepsOut s.toMod (execMgmtPerstRelease s) := by
  have kept := Mod.Keeps.refl s.toMod
  unfold execMgmtPerstRelease
  apply Mod.KeepsOut.go
  with_reducible repeat' first
    | assumption | (simp only [Keeps.mk_iff]; apply KeepsIn.of) | apply setFn_keeps | apply writeHeld_keeps | dsimp only

theorem execKprBootCtrlWarm_keeps (s : State) : Mod.KeepsOut s.toMod (execKprBootCtrlWarm s) := by
  have kept := Mod.Keeps.refl s.toMod
  unfold execKprBootCtrlWarm
  apply Mod.KeepsOut.go
  with_reducible repeat' first
    | assumption | (simp only [Keeps.mk_iff]; apply KeepsIn.of) | apply askRestart_keeps | dsimp only

theorem execKprBootCtrlCold_keeps (s : State) : Mod.KeepsOut s.toMod (execKprBootCtrlCold s) := by
  have kept := Mod.Keeps.refl s.toMod
  unfold execKprBootCtrlCold
  apply Mod.KeepsOut.go
  with_reducible repeat' first
    | assumption | (simp only [Keeps.mk_iff]; apply KeepsIn.of) | apply askRestart_keeps | dsimp only

theorem execWarmRestart_keeps (s : State) : Mod.KeepsOut s.toMod (execWarmRestart s) := by
  have kept := Mod.Keeps.refl s.toMod
  unfold execWarmRestart
  apply Mod.KeepsOut.go
  with_reducible repeat' first
    | intro _ | assumption | (simp only [Keeps.mk_iff]; apply KeepsIn.of) | apply request_keeps | apply restartWarm_keeps | apply Keeps.ite | split
    | dsimp only

theorem execColdRestart_keeps (s : State) : Mod.KeepsOut s.toMod (execColdRestart s) := by
  have kept := Mod.Keeps.refl s.toMod
  unfold execColdRestart
  apply Mod.KeepsOut.go
  with_reducible repeat' first
    | intro _ | assumption | (simp only [Keeps.mk_iff]; apply KeepsIn.of) | apply request_keeps | apply beginCold_keeps | apply Keeps.ite | split
    | dsimp only

theorem execWarmRestartTimeout_keeps (s : State) : Mod.KeepsOut s.toMod (execWarmRestartTimeout s) := by
  have kept := Mod.Keeps.refl s.toMod
  unfold execWarmRestartTimeout
  apply Mod.KeepsOut.go
  with_reducible repeat' first
    | intro _ | assumption | (simp only [Keeps.mk_iff]; apply KeepsIn.of) | apply record_keeps | apply askRestart_keeps | apply Keeps.ite | split
    | dsimp only

theorem execDieToDieLaneFailure_keeps (edge : Fin 40) (back : Bool) (module : Fin 24) (lanes : List (Fin 66)) (s : State) : Mod.KeepsOut s.toMod (execDieToDieLaneFailure edge back module lanes s) := by
  have kept := Mod.Keeps.refl s.toMod
  unfold execDieToDieLaneFailure
  apply Mod.KeepsOut.go
  with_reducible repeat' first
    | intro _ | assumption | (simp only [Keeps.mk_iff]; apply KeepsIn.of) | apply lanesFail_keeps | apply Keeps.ite | split | dsimp only

theorem execBootPhaseComplete_keeps (r : BootReport) (s : State) : Mod.KeepsOut s.toMod (execBootPhaseComplete r s) := by
  have kept := Mod.Keeps.refl s.toMod
  unfold execBootPhaseComplete
  apply Mod.KeepsOut.go
  with_reducible repeat' first
    | intro _ | assumption | (simp only [Keeps.mk_iff]; apply KeepsIn.of) | apply running_keeps | apply phaseDone_keeps | apply bootKeeper_keeps
    | apply bootMesh_keeps | apply bootTests_keeps | apply bootMemory_keeps | apply bootFirmware_keeps | apply Keeps.ite | split | dsimp only

/-! ## Tender -/

theorem execFaultReport_keeps (d : Domain) (s : State) : Mod.KeepsOut s.toMod (execFaultReport d s) := by
  have kept := Mod.Keeps.refl s.toMod
  unfold execFaultReport
  apply Mod.KeepsOut.go
  with_reducible repeat' first
    | intro _ | assumption | (simp only [Keeps.mk_iff]; apply KeepsIn.of) | apply endCoherent_keeps | apply moduleFault_keeps | apply takeFault_keeps
    | apply detected_keeps | apply Keeps.ite | split | dsimp only

theorem execRecoveryDrainEnd_keeps (s : State) : Mod.KeepsOut s.toMod (execRecoveryDrainEnd s) := by
  have kept := Mod.Keeps.refl s.toMod
  unfold execRecoveryDrainEnd
  apply Mod.KeepsOut.go
  with_reducible repeat' first
    | intro _ | assumption | (simp only [Keeps.mk_iff]; apply KeepsIn.of) | apply answerUnits_keeps | apply bumpUnits_keeps
    | apply logIncrements_keeps | apply freeTags_keeps | apply Keeps.ite | split | dsimp only

theorem execRecoveryResetDone_keeps (s : State) : Mod.KeepsOut s.toMod (execRecoveryResetDone s) := by
  have kept := Mod.Keeps.refl s.toMod
  unfold execRecoveryResetDone
  apply Mod.KeepsOut.go
  with_reducible repeat' first
    | intro _ | assumption | (simp only [Keeps.mk_iff]; apply KeepsIn.of) | apply resetUnits_keeps | apply nextRecovery_keeps | apply Keeps.ite
    | split | dsimp only

theorem execCoherenceError_keeps (failing : Option MdId) (s : State) : Mod.KeepsOut s.toMod (execCoherenceError failing s) := by
  have kept := Mod.Keeps.refl s.toMod
  unfold execCoherenceError
  apply Mod.KeepsOut.go
  with_reducible repeat' first
    | intro _ | assumption | (simp only [Keeps.mk_iff]; apply KeepsIn.of) | apply endCoherent_keeps | apply moduleFault_keeps | apply Keeps.ite
    | split | dsimp only

theorem execCoreProgressWdt_keeps (core : CoreId) (s : State) : Mod.KeepsOut s.toMod (execCoreProgressWdt core s) := by
  have kept := Mod.Keeps.refl s.toMod
  unfold execCoreProgressWdt
  apply Mod.KeepsOut.go
  with_reducible repeat' first
    | intro _ | assumption | (simp only [Keeps.mk_iff]; apply KeepsIn.of) | apply running_keeps | apply coreStall_keeps | apply Keeps.ite | split
    | dsimp only

theorem execSeqHeartbeatWdt_keeps (cluster : ClusterId) (s : State) : Mod.KeepsOut s.toMod (execSeqHeartbeatWdt cluster s) := by
  have kept := Mod.Keeps.refl s.toMod
  unfold execSeqHeartbeatWdt
  apply Mod.KeepsOut.go
  with_reducible repeat' first
    | intro _ | assumption | (simp only [Keeps.mk_iff]; apply KeepsIn.of) | apply clusterHang_keeps | apply Keeps.ite | split | dsimp only

theorem execCmdWdt_keeps (p : PktRef) (s : State) : Mod.KeepsOut s.toMod (execCmdWdt p s) := by
  have kept := Mod.Keeps.refl s.toMod
  unfold execCmdWdt
  apply Mod.KeepsOut.go
  with_reducible repeat' first
    | intro _ | assumption | (simp only [Keeps.mk_iff]; apply KeepsIn.of) | apply clusterHang_keeps | apply Keeps.ite | split | dsimp only

theorem execTxnTimeout_keeps (r : Requester) (tag : Nat) (s : State) : Mod.KeepsOut s.toMod (execTxnTimeout r tag s) := by
  have kept := Mod.Keeps.refl s.toMod
  unfold execTxnTimeout
  apply Mod.KeepsOut.go
  with_reducible repeat' first
    | intro _ | assumption | (simp only [Keeps.mk_iff]; apply KeepsIn.of) | apply record_keeps | apply report_keeps | apply settleDrains_keeps
    | apply tellError_keeps | apply tagFreed_keeps | apply guestFault_keeps | apply upstreamTimeout_keeps | apply Keeps.ite | split | dsimp only

theorem execTenderHeartbeatWdt_keeps (s : State) : Mod.KeepsOut s.toMod (execTenderHeartbeatWdt s) := by
  have kept := Mod.Keeps.refl s.toMod
  unfold execTenderHeartbeatWdt
  apply Mod.KeepsOut.go
  with_reducible repeat' first
    | intro _ | assumption | (simp only [Keeps.mk_iff]; apply KeepsIn.of) | apply forceRestart_keeps | apply Keeps.ite | split | dsimp only

theorem execTndErrAck_keeps (site : Site) (count : BitVec 7) (s : State) : Mod.KeepsOut s.toMod (execTndErrAck site count s) := by
  have kept := Mod.Keeps.refl s.toMod
  unfold execTndErrAck
  apply Mod.KeepsOut.go
  with_reducible repeat' first
    | assumption | (simp only [Keeps.mk_iff]; apply KeepsIn.of) | apply ackErr_keeps | dsimp only

theorem execTndInjectArm_keeps (site : Site) (value : Word) (s : State) : Mod.KeepsOut s.toMod (execTndInjectArm site value s) := by
  have kept := Mod.Keeps.refl s.toMod
  unfold execTndInjectArm
  apply Mod.KeepsOut.go
  with_reducible repeat' first
    | assumption | (simp only [Keeps.mk_iff]; apply KeepsIn.of) | apply writeInject_keeps | dsimp only

theorem execInjectFire_keeps (site : Site) (s : State) : Mod.KeepsOut s.toMod (execInjectFire site s) := by
  have kept := Mod.Keeps.refl s.toMod
  unfold execInjectFire
  apply Mod.KeepsOut.go
  with_reducible repeat' first
    | intro _ | assumption | (simp only [Keeps.mk_iff]; apply KeepsIn.of) | apply fire_keeps | split | dsimp only

theorem execPatrolScrub_keeps (pa : PAddr) (s : State) : Mod.KeepsOut s.toMod (execPatrolScrub pa s) := by
  have kept := Mod.Keeps.refl s.toMod
  unfold execPatrolScrub
  apply Mod.KeepsOut.go
  with_reducible repeat' first
    | intro _ | assumption | (simp only [Keeps.mk_iff]; apply KeepsIn.of) | apply channelRead_keeps | apply Keeps.ite | split | dsimp only

/-! ## Packets -/

theorem execKeeperCommandServe_keeps (s : State) : Mod.KeepsOut s.toMod (execKeeperCommandServe s) := by
  have kept := Mod.Keeps.refl s.toMod
  unfold execKeeperCommandServe
  apply Mod.KeepsOut.go
  with_reducible repeat' first
    | intro _ | assumption | (simp only [Keeps.mk_iff]; apply KeepsIn.of) | apply updFlight_keeps | split | dsimp only

/-! ## Staging -/

theorem execStageBegin_keeps (p : PktRef) (s : State) : Mod.KeepsOut s.toMod (execStageBegin p s) := by
  have kept := Mod.Keeps.refl s.toMod
  unfold execStageBegin
  apply Mod.KeepsOut.go
  with_reducible repeat' first
    | intro _ | assumption | (simp only [Keeps.mk_iff]; apply KeepsIn.of) | apply setSet_keeps | apply endCmd_keeps | apply command_keeps
    | apply Keeps.ite | split | dsimp only

theorem execStageWrite_keeps (p : PktRef) (s : State) : Mod.KeepsOut s.toMod (execStageWrite p s) := by
  have kept := Mod.Keeps.refl s.toMod
  unfold execStageWrite
  apply Mod.KeepsOut.go
  with_reducible repeat' first
    | intro _ | assumption | (simp only [Keeps.mk_iff]; apply KeepsIn.of) | apply setSet_keeps | apply endCmd_keeps | apply setCommand_keeps
    | apply Keeps.ite | split | dsimp only

theorem execStageCheck_keeps (p : PktRef) (s : State) : Mod.KeepsOut s.toMod (execStageCheck p s) := by
  have kept := Mod.Keeps.refl s.toMod
  unfold execStageCheck
  apply Mod.KeepsOut.go
  with_reducible repeat' first
    | intro _ | assumption | (simp only [Keeps.mk_iff]; apply KeepsIn.of) | apply setSet_keeps | apply endCmd_keeps | apply checked_keeps
    | apply setCommand_keeps | apply Keeps.ite | split | dsimp only

theorem execApplyAt_keeps (p : PktRef) (s : State) : Mod.KeepsOut s.toMod (execApplyAt p s) := by
  have kept := Mod.Keeps.refl s.toMod
  unfold execApplyAt
  apply Mod.KeepsOut.go
  with_reducible repeat' first
    | intro _ | assumption | (simp only [Keeps.mk_iff]; apply KeepsIn.of) | apply setSet_keeps | apply endCmd_keeps | apply running_keeps
    | apply checked_keeps | apply setCommand_keeps | apply Keeps.ite | split | dsimp only

theorem execStageDiscard_keeps (p : PktRef) (s : State) : Mod.KeepsOut s.toMod (execStageDiscard p s) := by
  have kept := Mod.Keeps.refl s.toMod
  unfold execStageDiscard
  apply Mod.KeepsOut.go
  with_reducible repeat' first
    | intro _ | assumption | (simp only [Keeps.mk_iff]; apply KeepsIn.of) | apply endCmd_keeps | apply checked_keeps | apply emptySet_keeps
    | apply leaveSet_keeps | apply setCommand_keeps | apply Keeps.ite | split | dsimp only

theorem execStageFinalCheck_keeps (s : State) : Mod.KeepsOut s.toMod (execStageFinalCheck s) := by
  have kept := Mod.Keeps.refl s.toMod
  unfold execStageFinalCheck
  apply Mod.KeepsOut.go
  with_reducible repeat' first
    | intro _ | assumption | (simp only [Keeps.mk_iff]; apply KeepsIn.of) | apply finalCheck_keeps | apply Keeps.ite | split | dsimp only

theorem execStageApply_keeps (s : State) : Mod.KeepsOut s.toMod (execStageApply s) := by
  have kept := Mod.Keeps.refl s.toMod
  unfold execStageApply
  apply Mod.KeepsOut.go
  with_reducible repeat' first
    | intro _ | assumption | (simp only [Keeps.mk_iff]; apply KeepsIn.of) | apply applySet_keeps | apply Keeps.ite | apply Keeps.foldl | split
    | dsimp only

theorem execStageApplyDone_keeps (s : State) : Mod.KeepsOut s.toMod (execStageApplyDone s) := by
  have kept := Mod.Keeps.refl s.toMod
  unfold execStageApplyDone
  apply Mod.KeepsOut.go
  with_reducible repeat' first
    | intro _ | assumption | (simp only [Keeps.mk_iff]; apply KeepsIn.of) | apply applyDone_keeps | apply Keeps.ite | apply Keeps.foldl | split
    | dsimp only

/-! ## Commands -/

theorem execPhaseTable_keeps (p : PktRef) (s : State) : Mod.KeepsOut s.toMod (execPhaseTable p s) := by
  have kept := Mod.Keeps.refl s.toMod
  unfold execPhaseTable
  apply Mod.KeepsOut.go
  with_reducible repeat' first
    | intro _ | assumption | (simp only [Keeps.mk_iff]; apply KeepsIn.of) | apply setReg_keeps | apply endCmd_keeps | apply command_keeps
    | apply Keeps.foldl | split | dsimp only

theorem execPhaseSet_keeps (p : PktRef) (s : State) : Mod.KeepsOut s.toMod (execPhaseSet p s) := by
  have kept := Mod.Keeps.refl s.toMod
  unfold execPhaseSet
  apply Mod.KeepsOut.go
  with_reducible repeat' first
    | intro _ | assumption | (simp only [Keeps.mk_iff]; apply KeepsIn.of) | apply running_keeps | apply command_keeps | split | dsimp only

theorem execTestRun_keeps (p : PktRef) (s : State) : Mod.KeepsOut s.toMod (execTestRun p s) := by
  have kept := Mod.Keeps.refl s.toMod
  unfold execTestRun
  apply Mod.KeepsOut.go
  with_reducible repeat' first
    | intro _ | assumption | (simp only [Keeps.mk_iff]; apply KeepsIn.of) | apply scrubChannel_keeps | apply endCmd_keeps | apply running_keeps
    | apply command_keeps | apply Keeps.ite | split | dsimp only

theorem execTestDone_keeps (p : PktRef) (patterns : Nat) (fault : Option (BitVec 16)) (s : State) : Mod.KeepsOut s.toMod (execTestDone p patterns fault s) := by
  have kept := Mod.Keeps.refl s.toMod
  unfold execTestDone
  apply Mod.KeepsOut.go
  with_reducible repeat' first
    | intro _ | assumption | (simp only [Keeps.mk_iff]; apply KeepsIn.of) | apply record_keeps | apply endCmd_keeps | apply lanesFail_keeps
    | apply Keeps.ite | split | dsimp only

theorem execMapOut_keeps (p : PktRef) (s : State) : Mod.KeepsOut s.toMod (execMapOut p s) := by
  have kept := Mod.Keeps.refl s.toMod
  unfold execMapOut
  apply Mod.KeepsOut.go
  with_reducible repeat' first
    | intro _ | assumption | (simp only [Keeps.mk_iff]; apply KeepsIn.of) | apply updCluster_keeps | apply endCmd_keeps | apply checked_keeps
    | apply command_keeps | apply setPort_keeps | apply stepDown_keeps | apply repairLane_keeps | apply stageMapOut_keeps | apply Keeps.ite | split
    | dsimp only

theorem execNoticeArm_keeps (p : PktRef) (s : State) : Mod.KeepsOut s.toMod (execNoticeArm p s) := by
  have kept := Mod.Keeps.refl s.toMod
  unfold execNoticeArm
  apply Mod.KeepsOut.go
  with_reducible repeat' first
    | intro _ | assumption | (simp only [Keeps.mk_iff]; apply KeepsIn.of) | apply endCmd_keeps | apply command_keeps | apply setNotice_keeps
    | apply Keeps.ite | split | dsimp only

theorem execTelemetrySample_keeps (moved : List (SectorId × BitVec 32 × BitVec 32)) (s : State) : Mod.KeepsOut s.toMod (execTelemetrySample moved s) := by
  have kept := Mod.Keeps.refl s.toMod
  unfold execTelemetrySample
  apply Mod.KeepsOut.go
  with_reducible repeat' first
    | intro _ | assumption | (simp only [Keeps.mk_iff]; apply KeepsIn.of) | apply setNotice_keeps | apply Keeps.foldl | split | dsimp only

/-! ## Admission -/

theorem execPacketDispatch_keeps (p : PktRef) (s : State) : Mod.KeepsOut s.toMod (execPacketDispatch p s) := by
  have kept := Mod.Keeps.refl s.toMod
  unfold execPacketDispatch
  apply Mod.KeepsOut.go
  with_reducible repeat' first
    | intro _ | assumption | (simp only [Keeps.mk_iff]; apply KeepsIn.of) | apply turned_keeps | apply dispatch_keeps | apply Keeps.ite | split
    | dsimp only

/-! ## Mgmt -/

theorem execKprMqEnable_keeps (n : Fin 64) (s : State) : Mod.KeepsOut s.toMod (execKprMqEnable n s) := by
  have kept := Mod.Keeps.refl s.toMod
  unfold execKprMqEnable
  apply Mod.KeepsOut.go
  with_reducible repeat' first
    | assumption | (simp only [Keeps.mk_iff]; apply KeepsIn.of) | apply mqEnable_keeps | dsimp only

theorem execKprMqDisable_keeps (n : Fin 64) (s : State) : Mod.KeepsOut s.toMod (execKprMqDisable n s) := by
  have kept := Mod.Keeps.refl s.toMod
  unfold execKprMqDisable
  apply Mod.KeepsOut.go
  with_reducible repeat' first
    | assumption | (simp only [Keeps.mk_iff]; apply KeepsIn.of) | apply mqDisable_keeps | dsimp only

theorem execKprMqDestroy_keeps (n : Fin 64) (s : State) : Mod.KeepsOut s.toMod (execKprMqDestroy n s) := by
  have kept := Mod.Keeps.refl s.toMod
  unfold execKprMqDestroy
  apply Mod.KeepsOut.go
  with_reducible repeat' first
    | assumption | (simp only [Keeps.mk_iff]; apply KeepsIn.of) | apply mqDestroy_keeps | dsimp only

theorem execCommand_keeps (s : State) : Mod.KeepsOut s.toMod (execCommand s) := by
  have kept := Mod.Keeps.refl s.toMod
  unfold execCommand
  apply Mod.KeepsOut.go
  with_reducible repeat' first
    | intro _ | assumption | (simp only [Keeps.mk_iff]; apply KeepsIn.of) | apply inFlow_keeps | apply mgmtArrival_keeps | apply takeCommand_keeps
    | apply Keeps.ite | apply KeepsOr.ok | apply KeepsOr.error | apply KeepsOr.ite | split | dsimp only

theorem execReply_keeps (s : State) : Mod.KeepsOut s.toMod (execReply s) := by
  have kept := Mod.Keeps.refl s.toMod
  unfold execReply
  apply Mod.KeepsOut.go
  with_reducible repeat' first
    | intro _ | assumption | (simp only [Keeps.mk_iff]; apply KeepsIn.of) | apply inFlow_keeps | apply mgmtArrival_keeps | apply takeReply_keeps
    | apply KeepsOr.ok | apply KeepsOr.error | apply KeepsOr.ite | split | dsimp only

theorem execRemoteToExpiry_keeps (id : BitVec 32) (s : State) : Mod.KeepsOut s.toMod (execRemoteToExpiry id s) := by
  have kept := Mod.Keeps.refl s.toMod
  unfold execRemoteToExpiry
  apply Mod.KeepsOut.go
  with_reducible repeat' first
    | intro _ | assumption | (simp only [Keeps.mk_iff]; apply KeepsIn.of) | apply endCmd_keeps | split | dsimp only

theorem execHello_keeps (s : State) : Mod.KeepsOut s.toMod (execHello s) := by
  have kept := Mod.Keeps.refl s.toMod
  unfold execHello
  apply Mod.KeepsOut.go
  with_reducible repeat' first
    | intro _ | assumption | (simp only [Keeps.mk_iff]; apply KeepsIn.of) | apply updPort_keeps | apply refusePartner_keeps | apply mgmtArrival_keeps
    | apply Keeps.ite | split | dsimp only

theorem execFwErase_keeps (sector : Fin 1024) (s : State) : Mod.KeepsOut s.toMod (execFwErase sector s) := by
  have kept := Mod.Keeps.refl s.toMod
  unfold execFwErase
  apply Mod.KeepsOut.go
  with_reducible repeat' first
    | assumption | (simp only [Keeps.mk_iff]; apply KeepsIn.of) | apply eraseFlash_keeps | dsimp only

theorem execFlashWindowWrite_keeps (off : Fin 67108864) (data : List Byte) (s : State) : Mod.KeepsOut s.toMod (execFlashWindowWrite off data s) := by
  have kept := Mod.Keeps.refl s.toMod
  unfold execFlashWindowWrite
  apply Mod.KeepsOut.go
  with_reducible repeat' first
    | assumption | (simp only [Keeps.mk_iff]; apply KeepsIn.of) | apply writeFlash_keeps | dsimp only

theorem execFwVerify_keeps (s : State) : Mod.KeepsOut s.toMod (execFwVerify s) := by
  have kept := Mod.Keeps.refl s.toMod
  unfold execFwVerify
  apply Mod.KeepsOut.go
  with_reducible repeat' first
    | assumption | (simp only [Keeps.mk_iff]; apply KeepsIn.of) | apply verifySet_keeps | dsimp only

theorem execFwVerifyDone_keeps (images : List ImageReport) (level : BitVec 16) (s : State) : Mod.KeepsOut s.toMod (execFwVerifyDone images level s) := by
  have kept := Mod.Keeps.refl s.toMod
  unfold execFwVerifyDone
  apply Mod.KeepsOut.go
  with_reducible repeat' first
    | intro _ | assumption | (simp only [Keeps.mk_iff]; apply KeepsIn.of) | apply logEvent_keeps | apply Keeps.ite | apply Keeps.foldl | split
    | dsimp only

theorem execFwConfirm_keeps (s : State) : Mod.KeepsOut s.toMod (execFwConfirm s) := by
  have kept := Mod.Keeps.refl s.toMod
  unfold execFwConfirm
  apply Mod.KeepsOut.go
  with_reducible repeat' first
    | assumption | (simp only [Keeps.mk_iff]; apply KeepsIn.of) | apply confirmTrial_keeps | dsimp only

theorem execConfirmTimeout_keeps (s : State) : Mod.KeepsOut s.toMod (execConfirmTimeout s) := by
  have kept := Mod.Keeps.refl s.toMod
  unfold execConfirmTimeout
  apply Mod.KeepsOut.go
  with_reducible repeat' first
    | intro _ | assumption | (simp only [Keeps.mk_iff]; apply KeepsIn.of) | apply askRestart_keeps | apply Keeps.ite | split | dsimp only

theorem execPlatformActivate_keeps (s : State) : Mod.KeepsOut s.toMod (execPlatformActivate s) := by
  have kept := Mod.Keeps.refl s.toMod
  unfold execPlatformActivate
  apply Mod.KeepsOut.go
  with_reducible repeat' first
    | assumption | (simp only [Keeps.mk_iff]; apply KeepsIn.of) | apply platformActivate_keeps | dsimp only

theorem execSequencerActivateDone_keeps (s : State) : Mod.KeepsOut s.toMod (execSequencerActivateDone s) := by
  have kept := Mod.Keeps.refl s.toMod
  unfold execSequencerActivateDone
  apply Mod.KeepsOut.go
  with_reducible repeat' first
    | assumption | (simp only [Keeps.mk_iff]; apply KeepsIn.of) | dsimp only

theorem execEdgeActivateDone_keeps (s : State) : Mod.KeepsOut s.toMod (execEdgeActivateDone s) := by
  have kept := Mod.Keeps.refl s.toMod
  unfold execEdgeActivateDone
  apply Mod.KeepsOut.go
  with_reducible repeat' first
    | intro _ | assumption | (simp only [Keeps.mk_iff]; apply KeepsIn.of) | apply pumpEngine_keeps | apply Keeps.foldl | split | dsimp only

/-! ## Guest -/

theorem execExtest_keeps (s : State) : Mod.KeepsOut s.toMod (execExtest s) := by
  have kept := Mod.Keeps.refl s.toMod
  unfold execExtest
  apply Mod.KeepsOut.go
  with_reducible repeat' first
    | intro _ | assumption | (simp only [Keeps.mk_iff]; apply KeepsIn.of) | apply tapTo_keeps | apply tapShows_keeps | apply Keeps.ite | split
    | dsimp only

theorem execSamplePreload_keeps (pins preload : Nat) (s : State) : Mod.KeepsOut s.toMod (execSamplePreload pins preload s) := by
  have kept := Mod.Keeps.refl s.toMod
  unfold execSamplePreload
  apply Mod.KeepsOut.go
  with_reducible repeat' first
    | assumption | (simp only [Keeps.mk_iff]; apply KeepsIn.of) | apply tapTo_keeps | apply tapShows_keeps | dsimp only

theorem execIdcode_keeps (s : State) : Mod.KeepsOut s.toMod (execIdcode s) := by
  have kept := Mod.Keeps.refl s.toMod
  unfold execIdcode
  apply Mod.KeepsOut.go
  with_reducible repeat' first
    | assumption | (simp only [Keeps.mk_iff]; apply KeepsIn.of) | apply tapTo_keeps | apply tapShows_keeps | dsimp only

theorem execDieSelect_keeps (site : Site) (s : State) : Mod.KeepsOut s.toMod (execDieSelect site s) := by
  have kept := Mod.Keeps.refl s.toMod
  unfold execDieSelect
  apply Mod.KeepsOut.go
  with_reducible repeat' first
    | intro _ | assumption | (simp only [Keeps.mk_iff]; apply KeepsIn.of) | apply tapTo_keeps | apply Keeps.ite | split | dsimp only

theorem execWrapper_keeps (s : State) : Mod.KeepsOut s.toMod (execWrapper s) := by
  have kept := Mod.Keeps.refl s.toMod
  unfold execWrapper
  apply Mod.KeepsOut.go
  with_reducible repeat' first
    | intro _ | assumption | (simp only [Keeps.mk_iff]; apply KeepsIn.of) | apply tapTo_keeps | apply tapShows_keeps | apply Keeps.ite | split
    | dsimp only

theorem execBypass_keeps (s : State) : Mod.KeepsOut s.toMod (execBypass s) := by
  have kept := Mod.Keeps.refl s.toMod
  unfold execBypass
  apply Mod.KeepsOut.go
  with_reducible repeat' first
    | assumption | (simp only [Keeps.mk_iff]; apply KeepsIn.of) | apply tapTo_keeps | dsimp only

theorem execTrstNAssert_keeps (s : State) : Mod.KeepsOut s.toMod (execTrstNAssert s) := by
  have kept := Mod.Keeps.refl s.toMod
  unfold execTrstNAssert
  apply Mod.KeepsOut.go
  with_reducible repeat' first
    | assumption | (simp only [Keeps.mk_iff]; apply KeepsIn.of) | dsimp only

theorem execUnlock_keeps (token : ImageReport) (identity : BitVec 384) (nonce : Nat) (s : State) : Mod.KeepsOut s.toMod (execUnlock token identity nonce s) := by
  have kept := Mod.Keeps.refl s.toMod
  unfold execUnlock
  apply Mod.KeepsOut.go
  with_reducible repeat' first
    | intro _ | assumption | (simp only [Keeps.mk_iff]; apply KeepsIn.of) | apply measureKeeper_keeps | apply tapTo_keeps | apply tapShows_keeps
    | apply destroyAll_keeps | apply Keeps.ite | split | dsimp only

theorem execReadmit_keeps (s : State) : Mod.KeepsOut s.toMod (execReadmit s) := by
  have kept := Mod.Keeps.refl s.toMod
  unfold execReadmit
  apply Mod.KeepsOut.go
  with_reducible repeat' first
    | assumption | (simp only [Keeps.mk_iff]; apply KeepsIn.of) | apply readmit_keeps | dsimp only

theorem execGuestSidebandAnswer_keeps (edges : BitVec 4) (s : State) : Mod.KeepsOut s.toMod (execGuestSidebandAnswer edges s) := by
  have kept := Mod.Keeps.refl s.toMod
  unfold execGuestSidebandAnswer
  apply Mod.KeepsOut.go
  with_reducible repeat' first
    | intro _ | assumption | (simp only [Keeps.mk_iff]; apply KeepsIn.of) | apply guestIn_keeps | apply Keeps.ite | split | dsimp only

theorem execGuestSidebandTimeout_keeps (s : State) : Mod.KeepsOut s.toMod (execGuestSidebandTimeout s) := by
  have kept := Mod.Keeps.refl s.toMod
  unfold execGuestSidebandTimeout
  apply Mod.KeepsOut.go
  with_reducible repeat' first
    | intro _ | assumption | (simp only [Keeps.mk_iff]; apply KeepsIn.of) | apply guestRefuse_keeps | apply guestIn_keeps | apply Keeps.ite | split
    | dsimp only

theorem execGuestNegotiated_keeps (rate : BitVec 3) (protocol : BitVec 2) (coherent : Bool) (s : State) : Mod.KeepsOut s.toMod (execGuestNegotiated rate protocol coherent s) := by
  have kept := Mod.Keeps.refl s.toMod
  unfold execGuestNegotiated
  apply Mod.KeepsOut.go
  with_reducible repeat' first
    | intro _ | assumption | (simp only [Keeps.mk_iff]; apply KeepsIn.of) | apply guestRefuse_keeps | apply guestIn_keeps | apply Keeps.ite | split
    | dsimp only

theorem execGuestTrained_keeps (modules : Fin 73) (s : State) : Mod.KeepsOut s.toMod (execGuestTrained modules s) := by
  have kept := Mod.Keeps.refl s.toMod
  unfold execGuestTrained
  apply Mod.KeepsOut.go
  with_reducible repeat' first
    | intro _ | assumption | (simp only [Keeps.mk_iff]; apply KeepsIn.of) | apply guestRefuse_keeps | apply guestIn_keeps | apply Keeps.ite | split
    | dsimp only

theorem execGuestAttested_keeps (passed : Bool) (root meas : BitVec 384) (s : State) : Mod.KeepsOut s.toMod (execGuestAttested passed root meas s) := by
  have kept := Mod.Keeps.refl s.toMod
  unfold execGuestAttested
  apply Mod.KeepsOut.go
  with_reducible repeat' first
    | intro _ | assumption | (simp only [Keeps.mk_iff]; apply KeepsIn.of) | apply measure_keeps | apply guestRefuse_keeps | apply guestIn_keeps
    | apply Keeps.ite | split | dsimp only

theorem execGuestStateTimeout_keeps (s : State) : Mod.KeepsOut s.toMod (execGuestStateTimeout s) := by
  have kept := Mod.Keeps.refl s.toMod
  unfold execGuestStateTimeout
  apply Mod.KeepsOut.go
  with_reducible repeat' first
    | intro _ | assumption | (simp only [Keeps.mk_iff]; apply KeepsIn.of) | apply guestRefuse_keeps | apply Keeps.ite | split | dsimp only

theorem execGuestFault_keeps (s : State) : Mod.KeepsOut s.toMod (execGuestFault s) := by
  have kept := Mod.Keeps.refl s.toMod
  unfold execGuestFault
  apply Mod.KeepsOut.go
  with_reducible repeat' first
    | intro _ | assumption | (simp only [Keeps.mk_iff]; apply KeepsIn.of) | apply guestFault_keeps | apply Keeps.ite | split | dsimp only

theorem execGuestFenceDrained_keeps (s : State) : Mod.KeepsOut s.toMod (execGuestFenceDrained s) := by
  have kept := Mod.Keeps.refl s.toMod
  unfold execGuestFenceDrained
  apply Mod.KeepsOut.go
  with_reducible repeat' first
    | intro _ | assumption | (simp only [Keeps.mk_iff]; apply KeepsIn.of) | apply guestDetect_keeps | apply guestIn_keeps | split | dsimp only

theorem execGuestRead_keeps (tag : BitVec 12) (gen : BitVec 8) (sound : Bool) (beats : BitVec 4) (pa : PAddr) (s : State) : Mod.KeepsOut s.toMod (execGuestRead tag gen sound beats pa s) := by
  have kept := Mod.Keeps.refl s.toMod
  unfold execGuestRead
  apply Mod.KeepsOut.go
  with_reducible repeat' first
    | intro _ | assumption | (simp only [Keeps.mk_iff]; apply KeepsIn.of) | apply guestMessage_keeps | apply guestRequest_keeps | split | dsimp only

theorem execGuestWrite_keeps (tag : BitVec 12) (gen : BitVec 8) (sound : Bool) (pa : PAddr) (beats : List (BitVec 128 × List Byte)) (valid : Bool) (s : State) : Mod.KeepsOut s.toMod (execGuestWrite tag gen sound pa beats valid s) := by
  have kept := Mod.Keeps.refl s.toMod
  unfold execGuestWrite
  apply Mod.KeepsOut.go
  with_reducible repeat' first
    | intro _ | assumption | (simp only [Keeps.mk_iff]; apply KeepsIn.of) | apply guestMessage_keeps | apply guestRequest_keeps | split | dsimp only

theorem execGuestAtomic_keeps (tag : BitVec 12) (gen : BitVec 8) (sound : Bool) (aop : BitVec 4) (wide : Bool) (pa : PAddr) (v c : Word) (s : State) : Mod.KeepsOut s.toMod (execGuestAtomic tag gen sound aop wide pa v c s) := by
  have kept := Mod.Keeps.refl s.toMod
  unfold execGuestAtomic
  apply Mod.KeepsOut.go
  with_reducible repeat' first
    | intro _ | assumption | (simp only [Keeps.mk_iff]; apply KeepsIn.of) | apply guestMessage_keeps | apply guestRequest_keeps | apply Keeps.ite
    | split | dsimp only

theorem execGuestPost_keeps (tag : BitVec 12) (gen : BitVec 8) (sound : Bool) (target : BitVec 18) (incr : BitVec 16) (s : State) : Mod.KeepsOut s.toMod (execGuestPost tag gen sound target incr s) := by
  have kept := Mod.Keeps.refl s.toMod
  unfold execGuestPost
  apply Mod.KeepsOut.go
  with_reducible repeat' first
    | intro _ | assumption | (simp only [Keeps.mk_iff]; apply KeepsIn.of) | apply sendPost_keeps | apply guestMessage_keeps | split | dsimp only

/-! ## RegWrite -/

theorem execRegisterWrite_keeps (w : RegWriter) (site : Site) (off : BitVec 32) (size : Nat) (value : Word) (s : State) : Mod.KeepsOut s.toMod (execRegisterWrite w site off size value s) := by
  have kept := Mod.Keeps.refl s.toMod
  unfold execRegisterWrite
  apply Mod.KeepsOut.go
  with_reducible repeat' first
    | assumption | (simp only [Keeps.mk_iff]; apply KeepsIn.of) | apply writeBlock_keeps | dsimp only

/-! ## HostAccess -/

theorem execInboundEndpointRequest_keeps (port : Fin 9) (rid : BitVec 16) (t : BarTarget) (tag : BitVec 14) (n : Fin 4097) (write : Option (List Byte)) (s : State) : Mod.KeepsOut s.toMod (execInboundEndpointRequest port rid t tag n write s) := by
  have kept := Mod.Keeps.refl s.toMod
  unfold execInboundEndpointRequest
  apply Mod.KeepsOut.go
  with_reducible repeat' first
    | intro _ | assumption | (simp only [Keeps.mk_iff]; apply KeepsIn.of) | apply emit_keeps | apply inBar_keeps | apply Keeps.ite | split
    | dsimp only

theorem execConfigRequest_keeps (port : Fin 9) (fn : Fin 17) (tag : BitVec 14) (a : CfgAccess) (s : State) : Mod.KeepsOut s.toMod (execConfigRequest port fn tag a s) := by
  have kept := Mod.Keeps.refl s.toMod
  unfold execConfigRequest
  apply Mod.KeepsOut.go
  with_reducible repeat' first
    | intro _ | assumption | (simp only [Keeps.mk_iff]; apply KeepsIn.of) | apply emit_keeps | apply config_keeps | apply Keeps.ite | split
    | dsimp only

theorem execAtomicop_keeps (p : PcieId) (rid : BitVec 16) (addr : Word) (tag : BitVec 14) (op : PcieAtomic) (size : Nat) (v c : Word) (s : State) : Mod.KeepsOut s.toMod (execAtomicop p rid addr tag op size v c s) := by
  have kept := Mod.Keeps.refl s.toMod
  unfold execAtomicop
  apply Mod.KeepsOut.go
  with_reducible repeat' first
    | intro _ | assumption | (simp only [Keeps.mk_iff]; apply KeepsIn.of) | apply emit_keeps | apply atomicThrough_keeps | apply Keeps.ite | split
    | dsimp only

theorem execInboundAdapterRequest_keeps (p : PcieId) (rid : BitVec 16) (addr : Word) (tag : BitVec 14) (n : Fin 4097) (write : Option (List Byte)) (s : State) : Mod.KeepsOut s.toMod (execInboundAdapterRequest p rid addr tag n write s) := by
  have kept := Mod.Keeps.refl s.toMod
  unfold execInboundAdapterRequest
  apply Mod.KeepsOut.go
  with_reducible repeat' first
    | intro _ | assumption | (simp only [Keeps.mk_iff]; apply KeepsIn.of) | apply emit_keeps | apply throughMooring_keeps | apply translated_keeps
    | apply Keeps.ite | split | dsimp only

theorem execIotlbMissWalk_keeps (p : PcieId) (rid : BitVec 16) (page : BitVec 52) (result : Option (BitVec 44 × Bool)) (s : State) : Mod.KeepsOut s.toMod (execIotlbMissWalk p rid page result s) := by
  have kept := Mod.Keeps.refl s.toMod
  unfold execIotlbMissWalk
  apply Mod.KeepsOut.go
  with_reducible repeat' first
    | intro _ | assumption | (simp only [Keeps.mk_iff]; apply KeepsIn.of) | apply walked_keeps | apply Keeps.ite | apply Keeps.foldl | split
    | dsimp only

theorem execApertureRequest_keeps (r : Requester) (pa : PAddr) (n : Fin 4097) (write : Option (List Byte)) (s : State) : Mod.KeepsOut s.toMod (execApertureRequest r pa n write s) := by
  have kept := Mod.Keeps.refl s.toMod
  unfold execApertureRequest
  apply Mod.KeepsOut.go
  with_reducible repeat' first
    | intro _ | assumption | (simp only [Keeps.mk_iff]; apply KeepsIn.of) | apply recordAccess_keeps | apply tellError_keeps | apply leaveBy_keeps
    | apply Keeps.ite | apply KeepsOr.ok | apply KeepsOr.error | apply KeepsOr.ite | split | dsimp only

theorem execPcieCompletion_keeps (p : PcieId) (tag : BitVec 14) (success : Bool) (data : List Byte) (s : State) : Mod.KeepsOut s.toMod (execPcieCompletion p tag success data s) := by
  have kept := Mod.Keeps.refl s.toMod
  unfold execPcieCompletion
  apply Mod.KeepsOut.go
  with_reducible repeat' first
    | intro _ | assumption | (simp only [Keeps.mk_iff]; apply KeepsIn.of) | apply emit_keeps | apply recordAccess_keeps | apply settleDrains_keeps
    | apply tellError_keeps | apply sendWaiting_keeps | apply flushed_keeps | apply Keeps.ite | split | dsimp only

/-! ## MoveBlocks -/

theorem execMemRequest_keeps (r : Requester) (pa : PAddr) (n : Fin 4097) (write : Option (List Byte)) (s : State) : Mod.KeepsOut s.toMod (execMemRequest r pa n write s) := by
  have kept := Mod.Keeps.refl s.toMod
  unfold execMemRequest
  apply Mod.KeepsOut.go
  with_reducible repeat' first
    | intro _ | assumption | (simp only [Keeps.mk_iff]; apply KeepsIn.of) | apply noteBlock_keeps | apply request_keeps | apply blockRequest_keeps
    | apply Keeps.ite | split | dsimp only

theorem execMoveBlockDone_keeps (mover : MoveRef) (block : Nat) (s : State) : Mod.KeepsOut s.toMod (execMoveBlockDone mover block s) := by
  have kept := Mod.Keeps.refl s.toMod
  unfold execMoveBlockDone
  apply Mod.KeepsOut.go
  with_reducible repeat' first
    | intro _ | assumption | (simp only [Keeps.mk_iff]; apply KeepsIn.of) | apply coreBlock_keeps | apply cmdBlock_keeps | split | dsimp only

theorem execMoveComplete_keeps (mover : MoveRef) (s : State) : Mod.KeepsOut s.toMod (execMoveComplete mover s) := by
  have kept := Mod.Keeps.refl s.toMod
  unfold execMoveComplete
  apply Mod.KeepsOut.go
  with_reducible repeat' first
    | intro _ | assumption | (simp only [Keeps.mk_iff]; apply KeepsIn.of) | apply coreMoveDone_keeps | apply cmdMoveDone_keeps | split | dsimp only

/-! ## Requests -/

theorem execNoncachingRead_keeps (r : Requester) (pa : PAddr) (n : Fin 129) (s : State) : Mod.KeepsOut s.toMod (execNoncachingRead r pa n s) := by
  have kept := Mod.Keeps.refl s.toMod
  unfold execNoncachingRead
  apply Mod.KeepsOut.go
  with_reducible repeat' first
    | assumption | (simp only [Keeps.mk_iff]; apply KeepsIn.of) | apply ncRequest_keeps | dsimp only

theorem execFullLineWrite_keeps (r : Requester) (pa : PAddr) (data : List Byte) (hint : BitVec 16) (s : State) : Mod.KeepsOut s.toMod (execFullLineWrite r pa data hint s) := by
  have kept := Mod.Keeps.refl s.toMod
  unfold execFullLineWrite
  apply Mod.KeepsOut.go
  with_reducible repeat' first
    | intro _ | assumption | (simp only [Keeps.mk_iff]; apply KeepsIn.of) | apply ncRequest_keeps | apply Keeps.ite | split | dsimp only

theorem execPartialWrite_keeps (r : Requester) (pa : PAddr) (data : List Byte) (hint : BitVec 16) (s : State) : Mod.KeepsOut s.toMod (execPartialWrite r pa data hint s) := by
  have kept := Mod.Keeps.refl s.toMod
  unfold execPartialWrite
  apply Mod.KeepsOut.go
  with_reducible repeat' first
    | intro _ | assumption | (simp only [Keeps.mk_iff]; apply KeepsIn.of) | apply ncRequest_keeps | apply Keeps.ite | split | dsimp only

theorem execHomeAtomic_keeps (r : Requester) (op : AtomOp) (wide : Bool) (pa : PAddr) (v c : Word) (s : State) : Mod.KeepsOut s.toMod (execHomeAtomic r op wide pa v c s) := by
  have kept := Mod.Keeps.refl s.toMod
  unfold execHomeAtomic
  apply Mod.KeepsOut.go
  with_reducible repeat' first
    | intro _ | assumption | (simp only [Keeps.mk_iff]; apply KeepsIn.of) | apply ncRequest_keeps | apply Keeps.ite | split | dsimp only

theorem execReduceInto_keeps (r : Requester) (op : RedOp) (wide : Bool) (pa : PAddr) (data : List Byte) (s : State) : Mod.KeepsOut s.toMod (execReduceInto r op wide pa data s) := by
  have kept := Mod.Keeps.refl s.toMod
  unfold execReduceInto
  apply Mod.KeepsOut.go
  with_reducible repeat' first
    | intro _ | assumption | (simp only [Keeps.mk_iff]; apply KeepsIn.of) | apply ncRequest_keeps | apply Keeps.ite | split | dsimp only

theorem execBurstBeat_keeps (r : Requester) (burst : Nat) (pa : PAddr) (enables : BitVec 128) (data : List Byte) (s : State) : Mod.KeepsOut s.toMod (execBurstBeat r burst pa enables data s) := by
  have kept := Mod.Keeps.refl s.toMod
  unfold execBurstBeat
  apply Mod.KeepsOut.go
  with_reducible repeat' first
    | intro _ | assumption | (simp only [Keeps.mk_iff]; apply KeepsIn.of) | (refine beatAt_keeps (by assumption) ?_) | apply sendBeat_keeps
    | apply Keeps.ite | apply KeepsOr.ok | apply KeepsOr.error | apply KeepsOr.ite | split | dsimp only

theorem execBurstEndMarker_keeps (r : Requester) (burst : Nat) (valid : Bool) (s : State) : Mod.KeepsOut s.toMod (execBurstEndMarker r burst valid s) := by
  have kept := Mod.Keeps.refl s.toMod
  unfold execBurstEndMarker
  apply Mod.KeepsOut.go
  with_reducible repeat' first
    | intro _ | assumption | (simp only [Keeps.mk_iff]; apply KeepsIn.of) | apply settleDrains_keeps | apply sendBeat_keeps | apply Keeps.ite
    | apply Keeps.foldl | split | dsimp only

theorem execBurstDiscard_keeps (r : Requester) (burst : Nat) (s : State) : Mod.KeepsOut s.toMod (execBurstDiscard r burst s) := by
  have kept := Mod.Keeps.refl s.toMod
  unfold execBurstDiscard
  apply Mod.KeepsOut.go
  with_reducible repeat' first
    | intro _ | assumption | (simp only [Keeps.mk_iff]; apply KeepsIn.of) | apply record_keeps | apply settleDrains_keeps | split | dsimp only

end Sys2Proof.Machine
end

