-- ==== Sys2Proof/Laws/KernelWord.lean ====
section
/-!
SUPPORT. Words made of fields: what `pack` puts at a place, `bits` reads there.
-/
namespace Sys2Proof.Machine
open Sys2Proof

/-- A bit of a word made of fields is set where a field has it set. -/
theorem pack_getLsbD (fs : List (Nat × Nat × Nat)) (i : Nat) (hi : i < 64) :
    (pack fs).getLsbD i = fs.any (fun f => decide (f.1 ≤ i) && decide (i - f.1 < f.2.1) && f.2.2.testBit (i - f.1)) := by
  induction fs with
  | nil => simp [pack]
  | cons f rest ih =>
    obtain ⟨lo, width, v⟩ := f
    simp only [pack, BitVec.getLsbD_or, ih, List.any_cons, BitVec.getLsbD_ofNat, Nat.testBit_shiftLeft, Nat.testBit_mod_two_pow, hi, decide_true,
      Bool.true_and, Bool.and_assoc]

/-- A bit of a field is the word's bit above the field's lowest. -/
theorem bits_testBit (w : Word) (hi lo i : Nat) : (bits w hi lo).testBit i = (decide (i < hi + 1 - lo) && w.getLsbD (lo + i)) := by
  simp [bits, Nat.testBit_mod_two_pow, Nat.testBit_shiftRight, BitVec.getLsbD]

/-- A field that lies outside a range of bits is not seen there. -/
theorem bits_pack_skip {lo width v hi l : Nat} {rest : List (Nat × Nat × Nat)} (h : lo + width ≤ l ∨ hi < lo) :
    bits (pack ((lo, width, v) :: rest)) hi l = bits (pack rest) hi l := by
  refine Nat.eq_of_testBit_eq fun i => ?_
  simp only [bits_testBit, pack, BitVec.getLsbD_or, BitVec.getLsbD_ofNat, Nat.testBit_shiftLeft, Nat.testBit_mod_two_pow]
  rcases h with h | h
  · have : ¬ (l + i - lo < width) := by omega
    simp [this]
  · by_cases hi' : i < hi + 1 - l
    · have : ¬ (lo ≤ l + i) := by omega
      simp [this]
    · simp [hi']

/-- A field reads back where no other field lies over it. -/
theorem bits_pack_field {lo width v hi : Nat} {rest : List (Nat × Nat × Nat)} (h : hi + 1 = lo + width) (top : lo + width ≤ 64)
    (apart : bits (pack rest) hi lo = 0) : bits (pack ((lo, width, v) :: rest)) hi lo = v % 2 ^ width := by
  refine Nat.eq_of_testBit_eq fun i => ?_
  have other : (bits (pack rest) hi lo).testBit i = false := by simp [apart]
  rw [bits_testBit] at other
  simp only [bits_testBit, pack, BitVec.getLsbD_or, BitVec.getLsbD_ofNat, Nat.testBit_shiftLeft, Nat.testBit_mod_two_pow]
  by_cases hi' : i < width
  · have h1 : i < hi + 1 - lo := by omega
    have h2 : lo + i < 64 := by omega
    rw [decide_eq_true h1, Bool.true_and] at other
    rw [other]
    simp [h1, h2, hi']
  · have h1 : ¬ i < hi + 1 - lo := by omega
    simp [h1, hi']

/-- Nothing stands in a word without fields. -/
theorem bits_pack_nil (hi lo : Nat) : bits (pack []) hi lo = 0 := by simp [pack, bits]

/-- A slice of a word is its bits. -/
theorem extract_bits (w : Word) (lo n hi : Nat) (h : n = hi + 1 - lo) : w.extractLsb' lo n = BitVec.ofNat n (bits w hi lo) := by
  apply BitVec.eq_of_toNat_eq
  simp [bits, ← h]

/-- A bit of a word is its field of one bit. -/
theorem bit_bits (w : Word) (i : Nat) : bit w i = decide (bits w i i = 1) := by
  simp [bit, bits, BitVec.getLsbD, Nat.testBit_eq_decide_div_mod_eq, Nat.shiftRight_eq_div_pow]

end Sys2Proof.Machine
end

