-- ==== Sys2Proof/Laws/Memory.lean ====
section
/-!
SUPPORT. Storages and memory: a write reads back at its place, leaves every other place, and keeps the canonical form.
-/
namespace Sys2Proof.Machine
open Sys2Proof

/-! ## Storages of bytes -/

@[simp] theorem Mem.write_fill (m : Mem) (a : Nat) (b : Byte) : (m.write a b).fill = m.fill := by
  unfold Mem.write; split <;> rfl

/-- A byte reads as it was last written, every other as before. -/
@[simp] theorem Mem.read_write (m : Mem) (a c : Nat) (b : Byte) : (m.write a b).read c = if c = a then b else m.read c := by
  have g : ∀ d : Byte, Table.find (Table.set d m.cells a b) c = if c = a then (if b = d then none else some b) else Table.find m.cells c := by
    intro d
    unfold Table.set
    by_cases h : b = d <;> by_cases k : c = a <;> simp [h, k, Table.find_erase]
  unfold Mem.write Mem.read
  cases m.fill with
  | zero => rw [g]; by_cases h : b = 0 <;> by_cases k : c = a <;> simp only [h, k, if_true, if_false]
  | undef e => by_cases k : c = a <;> simp [k]

/-- A write keeps the canonical form. -/
theorem Mem.wf_write (m : Mem) (a : Nat) (b : Byte) (h : m.wf = true) : (m.write a b).wf = true := by
  unfold Mem.write Mem.wf at *
  cases hf : m.fill with
  | zero => simp only [hf] at h ⊢; exact Table.wf_set _ _ _ _ h
  | undef e => simp only [hf] at h ⊢; exact Table.rising_put _ _ _ h

theorem Mem.wf_writeN (m : Mem) (a : Nat) (l : List Byte) (h : m.wf = true) : (m.writeN a l).wf = true := by
  induction l generalizing m a with
  | nil => exact h
  | cons b l ih => exact ih _ _ (m.wf_write a b h)

theorem Mem.wf_writeNum (m : Mem) (a n v : Nat) (h : m.wf = true) : (m.writeNum a n v).wf = true := m.wf_writeN a _ h

/-- Bytes before the first written one read as before. -/
theorem Mem.read_writeN_lt (m : Mem) (a c : Nat) (l : List Byte) (h : c < a) : (m.writeN a l).read c = m.read c := by
  induction l generalizing m a with
  | nil => rfl
  | cons b l ih => rw [Mem.writeN, ih _ _ (by omega), Mem.read_write, if_neg (by omega)]

/-- A run of bytes reads back, and every byte outside it as before. -/
theorem Mem.read_writeN (m : Mem) (a c : Nat) (l : List Byte) :
    (m.writeN a l).read c = if a ≤ c ∧ c < a + l.length then l.getD (c - a) 0 else m.read c := by
  induction l generalizing m a with
  | nil => rw [Mem.writeN, List.length_nil, if_neg (by omega)]
  | cons b l ih =>
    rw [Mem.writeN, ih, Mem.read_write]
    by_cases h : c = a
    · subst h
      rw [if_neg (by omega), if_pos rfl, if_pos (by simp), Nat.sub_self]
      rfl
    · by_cases k : a ≤ c ∧ c < a + (l.length + 1)
      · obtain ⟨n, rfl⟩ : ∃ n, c = a + 1 + n := ⟨c - (a + 1), by omega⟩
        simp only [List.length_cons]
        rw [if_pos (by omega), if_pos (by omega), show a + 1 + n - (a + 1) = n by omega, show a + 1 + n - a = n + 1 by omega]
        rfl
      · simp only [List.length_cons]
        rw [if_neg (by omega), if_neg h, if_neg (by omega)]

/-! ## Storages of words -/

@[simp] theorem WMem.read_write (m : WMem) (a c : Nat) (b : Half) : (m.write a b).read c = if c = a then b else m.read c := by
  have g : ∀ d : Half, Table.find (Table.set d m.words a b) c = if c = a then (if b = d then none else some b) else Table.find m.words c := by
    intro d
    unfold Table.set
    by_cases h : b = d <;> by_cases k : c = a <;> simp [h, k, Table.find_erase]
  unfold WMem.write WMem.read
  cases m.fill with
  | zero => rw [g]; by_cases h : b = 0 <;> by_cases k : c = a <;> simp only [h, k, if_true, if_false]
  | undef e => by_cases k : c = a <;> simp [k]

/-! ## Cells of the memory pool -/

/-- A cell that is not written is found as before. -/
theorem find_putCells_other (d : List Host.Cell) (l : List Host.Cell) (c : Nat) (h : ∀ p ∈ l, p.1 ≠ c) :
    Table.find (putCells d l) c = Table.find d c := by
  induction l generalizing d with
  | nil => rfl
  | cons p l ih =>
    obtain ⟨k, b⟩ := p
    have hk : c ≠ k := fun e => h (k, b) (by simp) e.symm
    rw [putCells, ih _ (fun p hp => h p (by simp [hp]))]
    unfold Table.set
    split
    · split <;> simp [Table.find_erase, hk]
    · simp [hk]

/-- A cell of a channel, written once, is found with its byte. -/
theorem find_putCells (d : List Host.Cell) (l : List Host.Cell) (c : Nat) (b : Byte) (h : (l.map (·.1)).Nodup) (hm : (c, b) ∈ l)
    (hc : lineChan (c / 128) < 2600) : Table.find (putCells d l) c = some b := by
  induction l generalizing d with
  | nil => simp at hm
  | cons p l ih =>
    obtain ⟨k, v⟩ := p
    simp only [List.map_cons, List.nodup_cons] at h
    rcases List.mem_cons.mp hm with e | hm
    · obtain ⟨rfl, rfl⟩ := Prod.mk.inj e
      rw [putCells, find_putCells_other _ _ _ (fun p hp he => h.1 (List.mem_map.mpr ⟨p, hp, he⟩)), if_neg (by omega)]
      simp
    · exact ih _ h.2 hm

/-- The bytes of other keys go; a cell that no line's other key lies at is found as before. -/
theorem find_dropOtherKeys (d : List Host.Cell) (line c : Nat)
    (h : lineChan (c / 128) = lineChan line → lineOff (c / 128) = lineOff line → lineKey (c / 128) = lineKey line) :
    Table.find (dropOtherKeys d line) c = Table.find d c := by
  induction d with
  | nil => rfl
  | cons p d ih =>
    obtain ⟨k, b⟩ := p
    unfold dropOtherKeys at ih ⊢
    by_cases e : k = c
    · subst e
      rw [List.filter_cons, if_pos]
      · simp [Table.find]
      · by_cases h1 : lineChan (k / 128) = lineChan line <;> by_cases h2 : lineOff (k / 128) = lineOff line <;> simp_all
    · rw [List.filter_cons]
      split
      · simp only [Table.find, e, if_false]; exact ih
      · simp only [Table.find, e, if_false]; exact ih

theorem mem_linesOf (cells : List Nat) (l : Nat) : l ∈ linesOf cells ↔ ∃ c ∈ cells, c / 128 = l := by
  unfold linesOf
  rw [List.mem_eraseDups]
  simp

/-- A physical write is all of it or none (R171). -/
theorem Mod.writePhys_ok (m n : Mod) (sector : Option SectorId) (pa : Nat) (bs : List Byte) (h : m.writePhys sector pa bs = .ok n) :
    ∃ cells, m.decodeN sector pa bs.length = .ok cells ∧
      n = ((m.chargeAll sector 0 cells).writeHinted cells bs 0).noteBlock sector pa bs.length := by
  unfold Mod.writePhys at h
  split at h
  · cases h
  · next cells hd => exact ⟨cells, hd, by cases h; rfl⟩

end Sys2Proof.Machine
end

