-- ==== Sys2Proof/Laws/State.lean ====
section
/-!
SUPPORT. What each named update of the module leaves: one lemma per field and per unit, so that no proof unfolds an update.
-/
namespace Sys2Proof.Machine
open Sys2Proof
variable (m : Mod)

/-! ## setCore -/
@[simp] theorem Mod.setCore_part (i : Nat) (c : TCore) : (m.setCore i c).part = m.part := rfl
@[simp] theorem Mod.setCore_regs (i : Nat) (c : TCore) : (m.setCore i c).regs = m.regs := rfl
@[simp] theorem Mod.setCore_clusters (i : Nat) (c : TCore) : (m.setCore i c).clusters = m.clusters := rfl
@[simp] theorem Mod.setCore_posts (i : Nat) (c : TCore) : (m.setCore i c).posts = m.posts := rfl
@[simp] theorem Mod.setCore_dram (i : Nat) (c : TCore) : (m.setCore i c).dram = m.dram := rfl
@[simp] theorem Mod.setCore_poison (i : Nat) (c : TCore) : (m.setCore i c).poison = m.poison := rfl
@[simp] theorem Mod.setCore_regions (i : Nat) (c : TCore) : (m.setCore i c).regions = m.regions := rfl
@[simp] theorem Mod.setCore_moorings (i : Nat) (c : TCore) : (m.setCore i c).moorings = m.moorings := rfl
@[simp] theorem Mod.setCore_controllers (i : Nat) (c : TCore) : (m.setCore i c).controllers = m.controllers := rfl
@[simp] theorem Mod.setCore_hdm (i : Nat) (c : TCore) : (m.setCore i c).hdm = m.hdm := rfl
@[simp] theorem Mod.setCore_caches (i : Nat) (c : TCore) : (m.setCore i c).caches = m.caches := rfl
@[simp] theorem Mod.setCore_evictions (i : Nat) (c : TCore) : (m.setCore i c).evictions = m.evictions := rfl
@[simp] theorem Mod.setCore_slices (i : Nat) (c : TCore) : (m.setCore i c).slices = m.slices := rfl
@[simp] theorem Mod.setCore_pdCores (i : Nat) (c : TCore) : (m.setCore i c).pdCores = m.pdCores := rfl
@[simp] theorem Mod.setCore_sectors (i : Nat) (c : TCore) : (m.setCore i c).sectors = m.sectors := rfl
@[simp] theorem Mod.setCore_fns (i : Nat) (c : TCore) : (m.setCore i c).fns = m.fns := rfl
@[simp] theorem Mod.setCore_queues (i : Nat) (c : TCore) : (m.setCore i c).queues = m.queues := rfl
@[simp] theorem Mod.setCore_mqs (i : Nat) (c : TCore) : (m.setCore i c).mqs = m.mqs := rfl
@[simp] theorem Mod.setCore_mqPath (i : Nat) (c : TCore) : (m.setCore i c).mqPath = m.mqPath := rfl
@[simp] theorem Mod.setCore_mqSector (i : Nat) (c : TCore) : (m.setCore i c).mqSector = m.mqSector := rfl
@[simp] theorem Mod.setCore_mqTurn (i : Nat) (c : TCore) : (m.setCore i c).mqTurn = m.mqTurn := rfl
@[simp] theorem Mod.setCore_ports (i : Nat) (c : TCore) : (m.setCore i c).ports = m.ports := rfl
@[simp] theorem Mod.setCore_eds (i : Nat) (c : TCore) : (m.setCore i c).eds = m.eds := rfl
@[simp] theorem Mod.setCore_engines (i : Nat) (c : TCore) : (m.setCore i c).engines = m.engines := rfl
@[simp] theorem Mod.setCore_groupRoute (i : Nat) (c : TCore) : (m.setCore i c).groupRoute = m.groupRoute := rfl
@[simp] theorem Mod.setCore_memberRoute (i : Nat) (c : TCore) : (m.setCore i c).memberRoute = m.memberRoute := rfl
@[simp] theorem Mod.setCore_inbox (i : Nat) (c : TCore) : (m.setCore i c).inbox = m.inbox := rfl
@[simp] theorem Mod.setCore_routeWait (i : Nat) (c : TCore) : (m.setCore i c).routeWait = m.routeWait := rfl
@[simp] theorem Mod.setCore_arrived (i : Nat) (c : TCore) : (m.setCore i c).arrived = m.arrived := rfl
@[simp] theorem Mod.setCore_txFlows (i : Nat) (c : TCore) : (m.setCore i c).txFlows = m.txFlows := rfl
@[simp] theorem Mod.setCore_rxFlows (i : Nat) (c : TCore) : (m.setCore i c).rxFlows = m.rxFlows := rfl
@[simp] theorem Mod.setCore_holdoff (i : Nat) (c : TCore) : (m.setCore i c).holdoff = m.holdoff := rfl
@[simp] theorem Mod.setCore_tender (i : Nat) (c : TCore) : (m.setCore i c).tender = m.tender := rfl
@[simp] theorem Mod.setCore_injections (i : Nat) (c : TCore) : (m.setCore i c).injections = m.injections := rfl
@[simp] theorem Mod.setCore_dieGens (i : Nat) (c : TCore) : (m.setCore i c).dieGens = m.dieGens := rfl
@[simp] theorem Mod.setCore_remotes (i : Nat) (c : TCore) : (m.setCore i c).remotes = m.remotes := rfl
@[simp] theorem Mod.setCore_nextCmd (i : Nat) (c : TCore) : (m.setCore i c).nextCmd = m.nextCmd := rfl
@[simp] theorem Mod.setCore_txns (i : Nat) (c : TCore) : (m.setCore i c).txns = m.txns := rfl
@[simp] theorem Mod.setCore_tagWait (i : Nat) (c : TCore) : (m.setCore i c).tagWait = m.tagWait := rfl
@[simp] theorem Mod.setCore_aia (i : Nat) (c : TCore) : (m.setCore i c).aia = m.aia := rfl
@[simp] theorem Mod.setCore_zeros (i : Nat) (c : TCore) : (m.setCore i c).zeros = m.zeros := rfl
@[simp] theorem Mod.setCore_buckets (i : Nat) (c : TCore) : (m.setCore i c).buckets = m.buckets := rfl
@[simp] theorem Mod.setCore_ctlHot (i : Nat) (c : TCore) : (m.setCore i c).ctlHot = m.ctlHot := rfl
@[simp] theorem Mod.setCore_rtrHot (i : Nat) (c : TCore) : (m.setCore i c).rtrHot = m.rtrHot := rfl
@[simp] theorem Mod.setCore_cohError (i : Nat) (c : TCore) : (m.setCore i c).cohError = m.cohError := rfl
@[simp] theorem Mod.setCore_bursts (i : Nat) (c : TCore) : (m.setCore i c).bursts = m.bursts := rfl
@[simp] theorem Mod.setCore_keeperQueue (i : Nat) (c : TCore) : (m.setCore i c).keeperQueue = m.keeperQueue := rfl
@[simp] theorem Mod.setCore_keeperTurn (i : Nat) (c : TCore) : (m.setCore i c).keeperTurn = m.keeperTurn := rfl
@[simp] theorem Mod.setCore_keySlots (i : Nat) (c : TCore) : (m.setCore i c).keySlots = m.keySlots := rfl
@[simp] theorem Mod.setCore_models (i : Nat) (c : TCore) : (m.setCore i c).models = m.models := rfl
@[simp] theorem Mod.setCore_sessions (i : Nat) (c : TCore) : (m.setCore i c).sessions = m.sessions := rfl
@[simp] theorem Mod.setCore_scrubLast (i : Nat) (c : TCore) : (m.setCore i c).scrubLast = m.scrubLast := rfl
@[simp] theorem Mod.setCore_fills (i : Nat) (c : TCore) : (m.setCore i c).fills = m.fills := rfl
@[simp] theorem Mod.setCore_unlocked (i : Nat) (c : TCore) : (m.setCore i c).unlocked = m.unlocked := rfl
@[simp] theorem Mod.setCore_bootImage (i : Nat) (c : TCore) : (m.setCore i c).bootImage = m.bootImage := rfl
@[simp] theorem Mod.setCore_rootIndex (i : Nat) (c : TCore) : (m.setCore i c).rootIndex = m.rootIndex := rfl
@[simp] theorem Mod.setCore_starts (i : Nat) (c : TCore) : (m.setCore i c).starts = m.starts := rfl
@[simp] theorem Mod.setCore_svnFused (i : Nat) (c : TCore) : (m.setCore i c).svnFused = m.svnFused := rfl
@[simp] theorem Mod.setCore_svnRunning (i : Nat) (c : TCore) : (m.setCore i c).svnRunning = m.svnRunning := rfl
@[simp] theorem Mod.setCore_measurements (i : Nat) (c : TCore) : (m.setCore i c).measurements = m.measurements := rfl
@[simp] theorem Mod.setCore_dies (i : Nat) (c : TCore) : (m.setCore i c).dies = m.dies := rfl
@[simp] theorem Mod.setCore_harbourUp (i : Nat) (c : TCore) : (m.setCore i c).harbourUp = m.harbourUp := rfl
@[simp] theorem Mod.setCore_computeUp (i : Nat) (c : TCore) : (m.setCore i c).computeUp = m.computeUp := rfl
@[simp] theorem Mod.setCore_edgeLost (i : Nat) (c : TCore) : (m.setCore i c).edgeLost = m.edgeLost := rfl
@[simp] theorem Mod.setCore_fw (i : Nat) (c : TCore) : (m.setCore i c).fw = m.fw := rfl
@[simp] theorem Mod.setCore_power (i : Nat) (c : TCore) : (m.setCore i c).power = m.power := rfl
@[simp] theorem Mod.setCore_boot (i : Nat) (c : TCore) : (m.setCore i c).boot = m.boot := rfl
@[simp] theorem Mod.setCore_patrol (i : Nat) (c : TCore) : (m.setCore i c).patrol = m.patrol := rfl
@[simp] theorem Mod.setCore_lanes (i : Nat) (c : TCore) : (m.setCore i c).lanes = m.lanes := rfl
@[simp] theorem Mod.setCore_levels (i : Nat) (c : TCore) : (m.setCore i c).levels = m.levels := rfl
@[simp] theorem Mod.setCore_notices (i : Nat) (c : TCore) : (m.setCore i c).notices = m.notices := rfl
@[simp] theorem Mod.setCore_incoming (i : Nat) (c : TCore) : (m.setCore i c).incoming = m.incoming := rfl
@[simp] theorem Mod.setCore_remoteQ (i : Nat) (c : TCore) : (m.setCore i c).remoteQ = m.remoteQ := rfl
@[simp] theorem Mod.setCore_nextIncoming (i : Nat) (c : TCore) : (m.setCore i c).nextIncoming = m.nextIncoming := rfl
@[simp] theorem Mod.setCore_tap (i : Nat) (c : TCore) : (m.setCore i c).tap = m.tap := rfl
@[simp] theorem Mod.setCore_guest (i : Nat) (c : TCore) : (m.setCore i c).guest = m.guest := rfl
@[simp] theorem Mod.setCore_pcie (i : Nat) (c : TCore) : (m.setCore i c).pcie = m.pcie := rfl
@[simp] theorem Mod.setCore_iotlb (i : Nat) (c : TCore) : (m.setCore i c).iotlb = m.iotlb := rfl
@[simp] theorem Mod.setCore_adapterWait (i : Nat) (c : TCore) : (m.setCore i c).adapterWait = m.adapterWait := rfl
@[simp] theorem Mod.setCore_upstream (i : Nat) (c : TCore) : (m.setCore i c).upstream = m.upstream := rfl
@[simp] theorem Mod.setCore_linkLevels (i : Nat) (c : TCore) : (m.setCore i c).linkLevels = m.linkLevels := rfl
@[simp] theorem Mod.setCore_beacon (i : Nat) (c : TCore) : (m.setCore i c).beacon = m.beacon := rfl
@[simp] theorem Mod.setCore_sets (i : Nat) (c : TCore) : (m.setCore i c).sets = m.sets := rfl
@[simp] theorem Mod.setCore_errs (i : Nat) (c : TCore) : (m.setCore i c).errs = m.errs := rfl
@[simp] theorem Mod.setCore_events (i : Nat) (c : TCore) : (m.setCore i c).events = m.events := rfl
@[simp] theorem Mod.setCore_nextSeq (i : Nat) (c : TCore) : (m.setCore i c).nextSeq = m.nextSeq := rfl
@[simp] theorem Mod.setCore_overwritten (i : Nat) (c : TCore) : (m.setCore i c).overwritten = m.overwritten := rfl
@[simp] theorem Mod.setCore_keyEpochs (i : Nat) (c : TCore) : (m.setCore i c).keyEpochs = m.keyEpochs := rfl
@[simp] theorem Mod.setCore_reports (i : Nat) (c : TCore) : (m.setCore i c).reports = m.reports := rfl
@[simp] theorem Mod.setCore_out (i : Nat) (c : TCore) : (m.setCore i c).out = m.out := rfl
@[simp] theorem Mod.setCore_free (i : Nat) (c : TCore) : (m.setCore i c).free = m.free := rfl
@[simp] theorem Mod.setCore_core_at (i : Nat) (c : TCore) (j : Nat) : (m.setCore i c).core j = if j = i then c else m.core j := by
  simp [Mod.setCore, Mod.core]
@[simp] theorem Mod.setCore_cluster_at (i : Nat) (c : TCore) (n : Nat) : (m.setCore i c).cluster n = m.cluster n := rfl
@[simp] theorem Mod.setCore_queue_at (i : Nat) (c : TCore) (p : QRef) : (m.setCore i c).queue p = m.queue p := rfl
@[simp] theorem Mod.setCore_set_at (i : Nat) (c : TCore) (n : Nat) : Mod.set (m.setCore i c) n = Mod.set m n := rfl
@[simp] theorem Mod.setCore_region_at (i : Nat) (c : TCore) (n : Nat) : (m.setCore i c).region n = m.region n := rfl
@[simp] theorem Mod.setCore_mooring_at (i : Nat) (c : TCore) (n : Nat) : (m.setCore i c).mooring n = m.mooring n := rfl
@[simp] theorem Mod.setCore_ctl_at (i : Nat) (c : TCore) (n : Nat) : (m.setCore i c).ctl n = m.ctl n := rfl
@[simp] theorem Mod.setCore_err_at (i : Nat) (c : TCore) (n : Nat) : (m.setCore i c).err n = m.err n := rfl
@[simp] theorem Mod.setCore_slice_at (i : Nat) (c : TCore) (n : Nat) : (m.setCore i c).slice n = m.slice n := rfl
@[simp] theorem Mod.setCore_pdCore_at (i : Nat) (c : TCore) (n : Nat) : (m.setCore i c).pdCore n = m.pdCore n := rfl
@[simp] theorem Mod.setCore_reg_at (i : Nat) (c : TCore) (k l : Nat) (e : Word) : (m.setCore i c).reg k l e = m.reg k l e := rfl
@[simp] theorem Mod.setCore_sector_at (i : Nat) (c : TCore) (n : Nat) : (m.setCore i c).sector n = m.sector n := rfl
@[simp] theorem Mod.setCore_fn_at (i : Nat) (c : TCore) (k l : Nat) : (m.setCore i c).fn k l = m.fn k l := rfl
@[simp] theorem Mod.setCore_port_at (i : Nat) (c : TCore) (n : Nat) : (m.setCore i c).port n = m.port n := rfl
@[simp] theorem Mod.setCore_engine_at (i : Nat) (c : TCore) (n : Nat) : (m.setCore i c).engine n = m.engine n := rfl
@[simp] theorem Mod.setCore_die_at (i : Nat) (c : TCore) (n : Nat) : (m.setCore i c).die n = m.die n := rfl
@[simp] theorem Mod.setCore_pciePort_at (i : Nat) (c : TCore) (n : Nat) : (m.setCore i c).pciePort n = m.pciePort n := rfl
@[simp] theorem Mod.setCore_bt_at (i : Nat) (c : TCore)  : (m.setCore i c).bt = m.bt := rfl

/-! ## setCluster -/
@[simp] theorem Mod.setCluster_part (i : Nat) (c : Cluster) : (m.setCluster i c).part = m.part := rfl
@[simp] theorem Mod.setCluster_regs (i : Nat) (c : Cluster) : (m.setCluster i c).regs = m.regs := rfl
@[simp] theorem Mod.setCluster_cores (i : Nat) (c : Cluster) : (m.setCluster i c).cores = m.cores := rfl
@[simp] theorem Mod.setCluster_posts (i : Nat) (c : Cluster) : (m.setCluster i c).posts = m.posts := rfl
@[simp] theorem Mod.setCluster_dram (i : Nat) (c : Cluster) : (m.setCluster i c).dram = m.dram := rfl
@[simp] theorem Mod.setCluster_poison (i : Nat) (c : Cluster) : (m.setCluster i c).poison = m.poison := rfl
@[simp] theorem Mod.setCluster_regions (i : Nat) (c : Cluster) : (m.setCluster i c).regions = m.regions := rfl
@[simp] theorem Mod.setCluster_moorings (i : Nat) (c : Cluster) : (m.setCluster i c).moorings = m.moorings := rfl
@[simp] theorem Mod.setCluster_controllers (i : Nat) (c : Cluster) : (m.setCluster i c).controllers = m.controllers := rfl
@[simp] theorem Mod.setCluster_hdm (i : Nat) (c : Cluster) : (m.setCluster i c).hdm = m.hdm := rfl
@[simp] theorem Mod.setCluster_caches (i : Nat) (c : Cluster) : (m.setCluster i c).caches = m.caches := rfl
@[simp] theorem Mod.setCluster_evictions (i : Nat) (c : Cluster) : (m.setCluster i c).evictions = m.evictions := rfl
@[simp] theorem Mod.setCluster_slices (i : Nat) (c : Cluster) : (m.setCluster i c).slices = m.slices := rfl
@[simp] theorem Mod.setCluster_pdCores (i : Nat) (c : Cluster) : (m.setCluster i c).pdCores = m.pdCores := rfl
@[simp] theorem Mod.setCluster_sectors (i : Nat) (c : Cluster) : (m.setCluster i c).sectors = m.sectors := rfl
@[simp] theorem Mod.setCluster_fns (i : Nat) (c : Cluster) : (m.setCluster i c).fns = m.fns := rfl
@[simp] theorem Mod.setCluster_queues (i : Nat) (c : Cluster) : (m.setCluster i c).queues = m.queues := rfl
@[simp] theorem Mod.setCluster_mqs (i : Nat) (c : Cluster) : (m.setCluster i c).mqs = m.mqs := rfl
@[simp] theorem Mod.setCluster_mqPath (i : Nat) (c : Cluster) : (m.setCluster i c).mqPath = m.mqPath := rfl
@[simp] theorem Mod.setCluster_mqSector (i : Nat) (c : Cluster) : (m.setCluster i c).mqSector = m.mqSector := rfl
@[simp] theorem Mod.setCluster_mqTurn (i : Nat) (c : Cluster) : (m.setCluster i c).mqTurn = m.mqTurn := rfl
@[simp] theorem Mod.setCluster_ports (i : Nat) (c : Cluster) : (m.setCluster i c).ports = m.ports := rfl
@[simp] theorem Mod.setCluster_eds (i : Nat) (c : Cluster) : (m.setCluster i c).eds = m.eds := rfl
@[simp] theorem Mod.setCluster_engines (i : Nat) (c : Cluster) : (m.setCluster i c).engines = m.engines := rfl
@[simp] theorem Mod.setCluster_groupRoute (i : Nat) (c : Cluster) : (m.setCluster i c).groupRoute = m.groupRoute := rfl
@[simp] theorem Mod.setCluster_memberRoute (i : Nat) (c : Cluster) : (m.setCluster i c).memberRoute = m.memberRoute := rfl
@[simp] theorem Mod.setCluster_inbox (i : Nat) (c : Cluster) : (m.setCluster i c).inbox = m.inbox := rfl
@[simp] theorem Mod.setCluster_routeWait (i : Nat) (c : Cluster) : (m.setCluster i c).routeWait = m.routeWait := rfl
@[simp] theorem Mod.setCluster_arrived (i : Nat) (c : Cluster) : (m.setCluster i c).arrived = m.arrived := rfl
@[simp] theorem Mod.setCluster_txFlows (i : Nat) (c : Cluster) : (m.setCluster i c).txFlows = m.txFlows := rfl
@[simp] theorem Mod.setCluster_rxFlows (i : Nat) (c : Cluster) : (m.setCluster i c).rxFlows = m.rxFlows := rfl
@[simp] theorem Mod.setCluster_holdoff (i : Nat) (c : Cluster) : (m.setCluster i c).holdoff = m.holdoff := rfl
@[simp] theorem Mod.setCluster_tender (i : Nat) (c : Cluster) : (m.setCluster i c).tender = m.tender := rfl
@[simp] theorem Mod.setCluster_injections (i : Nat) (c : Cluster) : (m.setCluster i c).injections = m.injections := rfl
@[simp] theorem Mod.setCluster_dieGens (i : Nat) (c : Cluster) : (m.setCluster i c).dieGens = m.dieGens := rfl
@[simp] theorem Mod.setCluster_remotes (i : Nat) (c : Cluster) : (m.setCluster i c).remotes = m.remotes := rfl
@[simp] theorem Mod.setCluster_nextCmd (i : Nat) (c : Cluster) : (m.setCluster i c).nextCmd = m.nextCmd := rfl
@[simp] theorem Mod.setCluster_txns (i : Nat) (c : Cluster) : (m.setCluster i c).txns = m.txns := rfl
@[simp] theorem Mod.setCluster_tagWait (i : Nat) (c : Cluster) : (m.setCluster i c).tagWait = m.tagWait := rfl
@[simp] theorem Mod.setCluster_aia (i : Nat) (c : Cluster) : (m.setCluster i c).aia = m.aia := rfl
@[simp] theorem Mod.setCluster_zeros (i : Nat) (c : Cluster) : (m.setCluster i c).zeros = m.zeros := rfl
@[simp] theorem Mod.setCluster_buckets (i : Nat) (c : Cluster) : (m.setCluster i c).buckets = m.buckets := rfl
@[simp] theorem Mod.setCluster_ctlHot (i : Nat) (c : Cluster) : (m.setCluster i c).ctlHot = m.ctlHot := rfl
@[simp] theorem Mod.setCluster_rtrHot (i : Nat) (c : Cluster) : (m.setCluster i c).rtrHot = m.rtrHot := rfl
@[simp] theorem Mod.setCluster_cohError (i : Nat) (c : Cluster) : (m.setCluster i c).cohError = m.cohError := rfl
@[simp] theorem Mod.setCluster_bursts (i : Nat) (c : Cluster) : (m.setCluster i c).bursts = m.bursts := rfl
@[simp] theorem Mod.setCluster_keeperQueue (i : Nat) (c : Cluster) : (m.setCluster i c).keeperQueue = m.keeperQueue := rfl
@[simp] theorem Mod.setCluster_keeperTurn (i : Nat) (c : Cluster) : (m.setCluster i c).keeperTurn = m.keeperTurn := rfl
@[simp] theorem Mod.setCluster_keySlots (i : Nat) (c : Cluster) : (m.setCluster i c).keySlots = m.keySlots := rfl
@[simp] theorem Mod.setCluster_models (i : Nat) (c : Cluster) : (m.setCluster i c).models = m.models := rfl
@[simp] theorem Mod.setCluster_sessions (i : Nat) (c : Cluster) : (m.setCluster i c).sessions = m.sessions := rfl
@[simp] theorem Mod.setCluster_scrubLast (i : Nat) (c : Cluster) : (m.setCluster i c).scrubLast = m.scrubLast := rfl
@[simp] theorem Mod.setCluster_fills (i : Nat) (c : Cluster) : (m.setCluster i c).fills = m.fills := rfl
@[simp] theorem Mod.setCluster_unlocked (i : Nat) (c : Cluster) : (m.setCluster i c).unlocked = m.unlocked := rfl
@[simp] theorem Mod.setCluster_bootImage (i : Nat) (c : Cluster) : (m.setCluster i c).bootImage = m.bootImage := rfl
@[simp] theorem Mod.setCluster_rootIndex (i : Nat) (c : Cluster) : (m.setCluster i c).rootIndex = m.rootIndex := rfl
@[simp] theorem Mod.setCluster_starts (i : Nat) (c : Cluster) : (m.setCluster i c).starts = m.starts := rfl
@[simp] theorem Mod.setCluster_svnFused (i : Nat) (c : Cluster) : (m.setCluster i c).svnFused = m.svnFused := rfl
@[simp] theorem Mod.setCluster_svnRunning (i : Nat) (c : Cluster) : (m.setCluster i c).svnRunning = m.svnRunning := rfl
@[simp] theorem Mod.setCluster_measurements (i : Nat) (c : Cluster) : (m.setCluster i c).measurements = m.measurements := rfl
@[simp] theorem Mod.setCluster_dies (i : Nat) (c : Cluster) : (m.setCluster i c).dies = m.dies := rfl
@[simp] theorem Mod.setCluster_harbourUp (i : Nat) (c : Cluster) : (m.setCluster i c).harbourUp = m.harbourUp := rfl
@[simp] theorem Mod.setCluster_computeUp (i : Nat) (c : Cluster) : (m.setCluster i c).computeUp = m.computeUp := rfl
@[simp] theorem Mod.setCluster_edgeLost (i : Nat) (c : Cluster) : (m.setCluster i c).edgeLost = m.edgeLost := rfl
@[simp] theorem Mod.setCluster_fw (i : Nat) (c : Cluster) : (m.setCluster i c).fw = m.fw := rfl
@[simp] theorem Mod.setCluster_power (i : Nat) (c : Cluster) : (m.setCluster i c).power = m.power := rfl
@[simp] theorem Mod.setCluster_boot (i : Nat) (c : Cluster) : (m.setCluster i c).boot = m.boot := rfl
@[simp] theorem Mod.setCluster_patrol (i : Nat) (c : Cluster) : (m.setCluster i c).patrol = m.patrol := rfl
@[simp] theorem Mod.setCluster_lanes (i : Nat) (c : Cluster) : (m.setCluster i c).lanes = m.lanes := rfl
@[simp] theorem Mod.setCluster_levels (i : Nat) (c : Cluster) : (m.setCluster i c).levels = m.levels := rfl
@[simp] theorem Mod.setCluster_notices (i : Nat) (c : Cluster) : (m.setCluster i c).notices = m.notices := rfl
@[simp] theorem Mod.setCluster_incoming (i : Nat) (c : Cluster) : (m.setCluster i c).incoming = m.incoming := rfl
@[simp] theorem Mod.setCluster_remoteQ (i : Nat) (c : Cluster) : (m.setCluster i c).remoteQ = m.remoteQ := rfl
@[simp] theorem Mod.setCluster_nextIncoming (i : Nat) (c : Cluster) : (m.setCluster i c).nextIncoming = m.nextIncoming := rfl
@[simp] theorem Mod.setCluster_tap (i : Nat) (c : Cluster) : (m.setCluster i c).tap = m.tap := rfl
@[simp] theorem Mod.setCluster_guest (i : Nat) (c : Cluster) : (m.setCluster i c).guest = m.guest := rfl
@[simp] theorem Mod.setCluster_pcie (i : Nat) (c : Cluster) : (m.setCluster i c).pcie = m.pcie := rfl
@[simp] theorem Mod.setCluster_iotlb (i : Nat) (c : Cluster) : (m.setCluster i c).iotlb = m.iotlb := rfl
@[simp] theorem Mod.setCluster_adapterWait (i : Nat) (c : Cluster) : (m.setCluster i c).adapterWait = m.adapterWait := rfl
@[simp] theorem Mod.setCluster_upstream (i : Nat) (c : Cluster) : (m.setCluster i c).upstream = m.upstream := rfl
@[simp] theorem Mod.setCluster_linkLevels (i : Nat) (c : Cluster) : (m.setCluster i c).linkLevels = m.linkLevels := rfl
@[simp] theorem Mod.setCluster_beacon (i : Nat) (c : Cluster) : (m.setCluster i c).beacon = m.beacon := rfl
@[simp] theorem Mod.setCluster_sets (i : Nat) (c : Cluster) : (m.setCluster i c).sets = m.sets := rfl
@[simp] theorem Mod.setCluster_errs (i : Nat) (c : Cluster) : (m.setCluster i c).errs = m.errs := rfl
@[simp] theorem Mod.setCluster_events (i : Nat) (c : Cluster) : (m.setCluster i c).events = m.events := rfl
@[simp] theorem Mod.setCluster_nextSeq (i : Nat) (c : Cluster) : (m.setCluster i c).nextSeq = m.nextSeq := rfl
@[simp] theorem Mod.setCluster_overwritten (i : Nat) (c : Cluster) : (m.setCluster i c).overwritten = m.overwritten := rfl
@[simp] theorem Mod.setCluster_keyEpochs (i : Nat) (c : Cluster) : (m.setCluster i c).keyEpochs = m.keyEpochs := rfl
@[simp] theorem Mod.setCluster_reports (i : Nat) (c : Cluster) : (m.setCluster i c).reports = m.reports := rfl
@[simp] theorem Mod.setCluster_out (i : Nat) (c : Cluster) : (m.setCluster i c).out = m.out := rfl
@[simp] theorem Mod.setCluster_free (i : Nat) (c : Cluster) : (m.setCluster i c).free = m.free := rfl
@[simp] theorem Mod.setCluster_core_at (i : Nat) (c : Cluster) (n : Nat) : (m.setCluster i c).core n = m.core n := rfl
@[simp] theorem Mod.setCluster_cluster_at (i : Nat) (c : Cluster) (j : Nat) : (m.setCluster i c).cluster j = if j = i then c else m.cluster j := by
  simp [Mod.setCluster, Mod.cluster]
@[simp] theorem Mod.setCluster_queue_at (i : Nat) (c : Cluster) (p : QRef) : (m.setCluster i c).queue p = m.queue p := rfl
@[simp] theorem Mod.setCluster_set_at (i : Nat) (c : Cluster) (n : Nat) : Mod.set (m.setCluster i c) n = Mod.set m n := rfl
@[simp] theorem Mod.setCluster_region_at (i : Nat) (c : Cluster) (n : Nat) : (m.setCluster i c).region n = m.region n := rfl
@[simp] theorem Mod.setCluster_mooring_at (i : Nat) (c : Cluster) (n : Nat) : (m.setCluster i c).mooring n = m.mooring n := rfl
@[simp] theorem Mod.setCluster_ctl_at (i : Nat) (c : Cluster) (n : Nat) : (m.setCluster i c).ctl n = m.ctl n := rfl
@[simp] theorem Mod.setCluster_err_at (i : Nat) (c : Cluster) (n : Nat) : (m.setCluster i c).err n = m.err n := rfl
@[simp] theorem Mod.setCluster_slice_at (i : Nat) (c : Cluster) (n : Nat) : (m.setCluster i c).slice n = m.slice n := rfl
@[simp] theorem Mod.setCluster_pdCore_at (i : Nat) (c : Cluster) (n : Nat) : (m.setCluster i c).pdCore n = m.pdCore n := rfl
@[simp] theorem Mod.setCluster_reg_at (i : Nat) (c : Cluster) (k l : Nat) (e : Word) : (m.setCluster i c).reg k l e = m.reg k l e := rfl
@[simp] theorem Mod.setCluster_sector_at (i : Nat) (c : Cluster) (n : Nat) : (m.setCluster i c).sector n = m.sector n := rfl
@[simp] theorem Mod.setCluster_fn_at (i : Nat) (c : Cluster) (k l : Nat) : (m.setCluster i c).fn k l = m.fn k l := rfl
@[simp] theorem Mod.setCluster_port_at (i : Nat) (c : Cluster) (n : Nat) : (m.setCluster i c).port n = m.port n := rfl
@[simp] theorem Mod.setCluster_engine_at (i : Nat) (c : Cluster) (n : Nat) : (m.setCluster i c).engine n = m.engine n := rfl
@[simp] theorem Mod.setCluster_die_at (i : Nat) (c : Cluster) (n : Nat) : (m.setCluster i c).die n = m.die n := rfl
@[simp] theorem Mod.setCluster_pciePort_at (i : Nat) (c : Cluster) (n : Nat) : (m.setCluster i c).pciePort n = m.pciePort n := rfl
@[simp] theorem Mod.setCluster_bt_at (i : Nat) (c : Cluster)  : (m.setCluster i c).bt = m.bt := rfl

/-! ## setSet -/
@[simp] theorem Mod.setSet_part (i : Nat) (c : StagedSet) : (m.setSet i c).part = m.part := rfl
@[simp] theorem Mod.setSet_regs (i : Nat) (c : StagedSet) : (m.setSet i c).regs = m.regs := rfl
@[simp] theorem Mod.setSet_cores (i : Nat) (c : StagedSet) : (m.setSet i c).cores = m.cores := rfl
@[simp] theorem Mod.setSet_clusters (i : Nat) (c : StagedSet) : (m.setSet i c).clusters = m.clusters := rfl
@[simp] theorem Mod.setSet_posts (i : Nat) (c : StagedSet) : (m.setSet i c).posts = m.posts := rfl
@[simp] theorem Mod.setSet_dram (i : Nat) (c : StagedSet) : (m.setSet i c).dram = m.dram := rfl
@[simp] theorem Mod.setSet_poison (i : Nat) (c : StagedSet) : (m.setSet i c).poison = m.poison := rfl
@[simp] theorem Mod.setSet_regions (i : Nat) (c : StagedSet) : (m.setSet i c).regions = m.regions := rfl
@[simp] theorem Mod.setSet_moorings (i : Nat) (c : StagedSet) : (m.setSet i c).moorings = m.moorings := rfl
@[simp] theorem Mod.setSet_controllers (i : Nat) (c : StagedSet) : (m.setSet i c).controllers = m.controllers := rfl
@[simp] theorem Mod.setSet_hdm (i : Nat) (c : StagedSet) : (m.setSet i c).hdm = m.hdm := rfl
@[simp] theorem Mod.setSet_caches (i : Nat) (c : StagedSet) : (m.setSet i c).caches = m.caches := rfl
@[simp] theorem Mod.setSet_evictions (i : Nat) (c : StagedSet) : (m.setSet i c).evictions = m.evictions := rfl
@[simp] theorem Mod.setSet_slices (i : Nat) (c : StagedSet) : (m.setSet i c).slices = m.slices := rfl
@[simp] theorem Mod.setSet_pdCores (i : Nat) (c : StagedSet) : (m.setSet i c).pdCores = m.pdCores := rfl
@[simp] theorem Mod.setSet_sectors (i : Nat) (c : StagedSet) : (m.setSet i c).sectors = m.sectors := rfl
@[simp] theorem Mod.setSet_fns (i : Nat) (c : StagedSet) : (m.setSet i c).fns = m.fns := rfl
@[simp] theorem Mod.setSet_queues (i : Nat) (c : StagedSet) : (m.setSet i c).queues = m.queues := rfl
@[simp] theorem Mod.setSet_mqs (i : Nat) (c : StagedSet) : (m.setSet i c).mqs = m.mqs := rfl
@[simp] theorem Mod.setSet_mqPath (i : Nat) (c : StagedSet) : (m.setSet i c).mqPath = m.mqPath := rfl
@[simp] theorem Mod.setSet_mqSector (i : Nat) (c : StagedSet) : (m.setSet i c).mqSector = m.mqSector := rfl
@[simp] theorem Mod.setSet_mqTurn (i : Nat) (c : StagedSet) : (m.setSet i c).mqTurn = m.mqTurn := rfl
@[simp] theorem Mod.setSet_ports (i : Nat) (c : StagedSet) : (m.setSet i c).ports = m.ports := rfl
@[simp] theorem Mod.setSet_eds (i : Nat) (c : StagedSet) : (m.setSet i c).eds = m.eds := rfl
@[simp] theorem Mod.setSet_engines (i : Nat) (c : StagedSet) : (m.setSet i c).engines = m.engines := rfl
@[simp] theorem Mod.setSet_groupRoute (i : Nat) (c : StagedSet) : (m.setSet i c).groupRoute = m.groupRoute := rfl
@[simp] theorem Mod.setSet_memberRoute (i : Nat) (c : StagedSet) : (m.setSet i c).memberRoute = m.memberRoute := rfl
@[simp] theorem Mod.setSet_inbox (i : Nat) (c : StagedSet) : (m.setSet i c).inbox = m.inbox := rfl
@[simp] theorem Mod.setSet_routeWait (i : Nat) (c : StagedSet) : (m.setSet i c).routeWait = m.routeWait := rfl
@[simp] theorem Mod.setSet_arrived (i : Nat) (c : StagedSet) : (m.setSet i c).arrived = m.arrived := rfl
@[simp] theorem Mod.setSet_txFlows (i : Nat) (c : StagedSet) : (m.setSet i c).txFlows = m.txFlows := rfl
@[simp] theorem Mod.setSet_rxFlows (i : Nat) (c : StagedSet) : (m.setSet i c).rxFlows = m.rxFlows := rfl
@[simp] theorem Mod.setSet_holdoff (i : Nat) (c : StagedSet) : (m.setSet i c).holdoff = m.holdoff := rfl
@[simp] theorem Mod.setSet_tender (i : Nat) (c : StagedSet) : (m.setSet i c).tender = m.tender := rfl
@[simp] theorem Mod.setSet_injections (i : Nat) (c : StagedSet) : (m.setSet i c).injections = m.injections := rfl
@[simp] theorem Mod.setSet_dieGens (i : Nat) (c : StagedSet) : (m.setSet i c).dieGens = m.dieGens := rfl
@[simp] theorem Mod.setSet_remotes (i : Nat) (c : StagedSet) : (m.setSet i c).remotes = m.remotes := rfl
@[simp] theorem Mod.setSet_nextCmd (i : Nat) (c : StagedSet) : (m.setSet i c).nextCmd = m.nextCmd := rfl
@[simp] theorem Mod.setSet_txns (i : Nat) (c : StagedSet) : (m.setSet i c).txns = m.txns := rfl
@[simp] theorem Mod.setSet_tagWait (i : Nat) (c : StagedSet) : (m.setSet i c).tagWait = m.tagWait := rfl
@[simp] theorem Mod.setSet_aia (i : Nat) (c : StagedSet) : (m.setSet i c).aia = m.aia := rfl
@[simp] theorem Mod.setSet_zeros (i : Nat) (c : StagedSet) : (m.setSet i c).zeros = m.zeros := rfl
@[simp] theorem Mod.setSet_buckets (i : Nat) (c : StagedSet) : (m.setSet i c).buckets = m.buckets := rfl
@[simp] theorem Mod.setSet_ctlHot (i : Nat) (c : StagedSet) : (m.setSet i c).ctlHot = m.ctlHot := rfl
@[simp] theorem Mod.setSet_rtrHot (i : Nat) (c : StagedSet) : (m.setSet i c).rtrHot = m.rtrHot := rfl
@[simp] theorem Mod.setSet_cohError (i : Nat) (c : StagedSet) : (m.setSet i c).cohError = m.cohError := rfl
@[simp] theorem Mod.setSet_bursts (i : Nat) (c : StagedSet) : (m.setSet i c).bursts = m.bursts := rfl
@[simp] theorem Mod.setSet_keeperQueue (i : Nat) (c : StagedSet) : (m.setSet i c).keeperQueue = m.keeperQueue := rfl
@[simp] theorem Mod.setSet_keeperTurn (i : Nat) (c : StagedSet) : (m.setSet i c).keeperTurn = m.keeperTurn := rfl
@[simp] theorem Mod.setSet_keySlots (i : Nat) (c : StagedSet) : (m.setSet i c).keySlots = m.keySlots := rfl
@[simp] theorem Mod.setSet_models (i : Nat) (c : StagedSet) : (m.setSet i c).models = m.models := rfl
@[simp] theorem Mod.setSet_sessions (i : Nat) (c : StagedSet) : (m.setSet i c).sessions = m.sessions := rfl
@[simp] theorem Mod.setSet_scrubLast (i : Nat) (c : StagedSet) : (m.setSet i c).scrubLast = m.scrubLast := rfl
@[simp] theorem Mod.setSet_fills (i : Nat) (c : StagedSet) : (m.setSet i c).fills = m.fills := rfl
@[simp] theorem Mod.setSet_unlocked (i : Nat) (c : StagedSet) : (m.setSet i c).unlocked = m.unlocked := rfl
@[simp] theorem Mod.setSet_bootImage (i : Nat) (c : StagedSet) : (m.setSet i c).bootImage = m.bootImage := rfl
@[simp] theorem Mod.setSet_rootIndex (i : Nat) (c : StagedSet) : (m.setSet i c).rootIndex = m.rootIndex := rfl
@[simp] theorem Mod.setSet_starts (i : Nat) (c : StagedSet) : (m.setSet i c).starts = m.starts := rfl
@[simp] theorem Mod.setSet_svnFused (i : Nat) (c : StagedSet) : (m.setSet i c).svnFused = m.svnFused := rfl
@[simp] theorem Mod.setSet_svnRunning (i : Nat) (c : StagedSet) : (m.setSet i c).svnRunning = m.svnRunning := rfl
@[simp] theorem Mod.setSet_measurements (i : Nat) (c : StagedSet) : (m.setSet i c).measurements = m.measurements := rfl
@[simp] theorem Mod.setSet_dies (i : Nat) (c : StagedSet) : (m.setSet i c).dies = m.dies := rfl
@[simp] theorem Mod.setSet_harbourUp (i : Nat) (c : StagedSet) : (m.setSet i c).harbourUp = m.harbourUp := rfl
@[simp] theorem Mod.setSet_computeUp (i : Nat) (c : StagedSet) : (m.setSet i c).computeUp = m.computeUp := rfl
@[simp] theorem Mod.setSet_edgeLost (i : Nat) (c : StagedSet) : (m.setSet i c).edgeLost = m.edgeLost := rfl
@[simp] theorem Mod.setSet_fw (i : Nat) (c : StagedSet) : (m.setSet i c).fw = m.fw := rfl
@[simp] theorem Mod.setSet_power (i : Nat) (c : StagedSet) : (m.setSet i c).power = m.power := rfl
@[simp] theorem Mod.setSet_boot (i : Nat) (c : StagedSet) : (m.setSet i c).boot = m.boot := rfl
@[simp] theorem Mod.setSet_patrol (i : Nat) (c : StagedSet) : (m.setSet i c).patrol = m.patrol := rfl
@[simp] theorem Mod.setSet_lanes (i : Nat) (c : StagedSet) : (m.setSet i c).lanes = m.lanes := rfl
@[simp] theorem Mod.setSet_levels (i : Nat) (c : StagedSet) : (m.setSet i c).levels = m.levels := rfl
@[simp] theorem Mod.setSet_notices (i : Nat) (c : StagedSet) : (m.setSet i c).notices = m.notices := rfl
@[simp] theorem Mod.setSet_incoming (i : Nat) (c : StagedSet) : (m.setSet i c).incoming = m.incoming := rfl
@[simp] theorem Mod.setSet_remoteQ (i : Nat) (c : StagedSet) : (m.setSet i c).remoteQ = m.remoteQ := rfl
@[simp] theorem Mod.setSet_nextIncoming (i : Nat) (c : StagedSet) : (m.setSet i c).nextIncoming = m.nextIncoming := rfl
@[simp] theorem Mod.setSet_tap (i : Nat) (c : StagedSet) : (m.setSet i c).tap = m.tap := rfl
@[simp] theorem Mod.setSet_guest (i : Nat) (c : StagedSet) : (m.setSet i c).guest = m.guest := rfl
@[simp] theorem Mod.setSet_pcie (i : Nat) (c : StagedSet) : (m.setSet i c).pcie = m.pcie := rfl
@[simp] theorem Mod.setSet_iotlb (i : Nat) (c : StagedSet) : (m.setSet i c).iotlb = m.iotlb := rfl
@[simp] theorem Mod.setSet_adapterWait (i : Nat) (c : StagedSet) : (m.setSet i c).adapterWait = m.adapterWait := rfl
@[simp] theorem Mod.setSet_upstream (i : Nat) (c : StagedSet) : (m.setSet i c).upstream = m.upstream := rfl
@[simp] theorem Mod.setSet_linkLevels (i : Nat) (c : StagedSet) : (m.setSet i c).linkLevels = m.linkLevels := rfl
@[simp] theorem Mod.setSet_beacon (i : Nat) (c : StagedSet) : (m.setSet i c).beacon = m.beacon := rfl
@[simp] theorem Mod.setSet_errs (i : Nat) (c : StagedSet) : (m.setSet i c).errs = m.errs := rfl
@[simp] theorem Mod.setSet_events (i : Nat) (c : StagedSet) : (m.setSet i c).events = m.events := rfl
@[simp] theorem Mod.setSet_nextSeq (i : Nat) (c : StagedSet) : (m.setSet i c).nextSeq = m.nextSeq := rfl
@[simp] theorem Mod.setSet_overwritten (i : Nat) (c : StagedSet) : (m.setSet i c).overwritten = m.overwritten := rfl
@[simp] theorem Mod.setSet_keyEpochs (i : Nat) (c : StagedSet) : (m.setSet i c).keyEpochs = m.keyEpochs := rfl
@[simp] theorem Mod.setSet_reports (i : Nat) (c : StagedSet) : (m.setSet i c).reports = m.reports := rfl
@[simp] theorem Mod.setSet_out (i : Nat) (c : StagedSet) : (m.setSet i c).out = m.out := rfl
@[simp] theorem Mod.setSet_free (i : Nat) (c : StagedSet) : (m.setSet i c).free = m.free := rfl
@[simp] theorem Mod.setSet_core_at (i : Nat) (c : StagedSet) (n : Nat) : (m.setSet i c).core n = m.core n := rfl
@[simp] theorem Mod.setSet_cluster_at (i : Nat) (c : StagedSet) (n : Nat) : (m.setSet i c).cluster n = m.cluster n := rfl
@[simp] theorem Mod.setSet_queue_at (i : Nat) (c : StagedSet) (p : QRef) : (m.setSet i c).queue p = m.queue p := rfl
@[simp] theorem Mod.setSet_set_at (i : Nat) (c : StagedSet) (j : Nat) : Mod.set (m.setSet i c) j = if j = i then c else Mod.set m j := by
  simp [Mod.setSet, Mod.set]
@[simp] theorem Mod.setSet_region_at (i : Nat) (c : StagedSet) (n : Nat) : (m.setSet i c).region n = m.region n := rfl
@[simp] theorem Mod.setSet_mooring_at (i : Nat) (c : StagedSet) (n : Nat) : (m.setSet i c).mooring n = m.mooring n := rfl
@[simp] theorem Mod.setSet_ctl_at (i : Nat) (c : StagedSet) (n : Nat) : (m.setSet i c).ctl n = m.ctl n := rfl
@[simp] theorem Mod.setSet_err_at (i : Nat) (c : StagedSet) (n : Nat) : (m.setSet i c).err n = m.err n := rfl
@[simp] theorem Mod.setSet_slice_at (i : Nat) (c : StagedSet) (n : Nat) : (m.setSet i c).slice n = m.slice n := rfl
@[simp] theorem Mod.setSet_pdCore_at (i : Nat) (c : StagedSet) (n : Nat) : (m.setSet i c).pdCore n = m.pdCore n := rfl
@[simp] theorem Mod.setSet_reg_at (i : Nat) (c : StagedSet) (k l : Nat) (e : Word) : (m.setSet i c).reg k l e = m.reg k l e := rfl
@[simp] theorem Mod.setSet_sector_at (i : Nat) (c : StagedSet) (n : Nat) : (m.setSet i c).sector n = m.sector n := rfl
@[simp] theorem Mod.setSet_fn_at (i : Nat) (c : StagedSet) (k l : Nat) : (m.setSet i c).fn k l = m.fn k l := rfl
@[simp] theorem Mod.setSet_port_at (i : Nat) (c : StagedSet) (n : Nat) : (m.setSet i c).port n = m.port n := rfl
@[simp] theorem Mod.setSet_engine_at (i : Nat) (c : StagedSet) (n : Nat) : (m.setSet i c).engine n = m.engine n := rfl
@[simp] theorem Mod.setSet_die_at (i : Nat) (c : StagedSet) (n : Nat) : (m.setSet i c).die n = m.die n := rfl
@[simp] theorem Mod.setSet_pciePort_at (i : Nat) (c : StagedSet) (n : Nat) : (m.setSet i c).pciePort n = m.pciePort n := rfl
@[simp] theorem Mod.setSet_bt_at (i : Nat) (c : StagedSet)  : (m.setSet i c).bt = m.bt := rfl

/-! ## setRegion -/
@[simp] theorem Mod.setRegion_part (i : Nat) (c : Region) : (m.setRegion i c).part = m.part := rfl
@[simp] theorem Mod.setRegion_regs (i : Nat) (c : Region) : (m.setRegion i c).regs = m.regs := rfl
@[simp] theorem Mod.setRegion_cores (i : Nat) (c : Region) : (m.setRegion i c).cores = m.cores := rfl
@[simp] theorem Mod.setRegion_clusters (i : Nat) (c : Region) : (m.setRegion i c).clusters = m.clusters := rfl
@[simp] theorem Mod.setRegion_posts (i : Nat) (c : Region) : (m.setRegion i c).posts = m.posts := rfl
@[simp] theorem Mod.setRegion_dram (i : Nat) (c : Region) : (m.setRegion i c).dram = m.dram := rfl
@[simp] theorem Mod.setRegion_poison (i : Nat) (c : Region) : (m.setRegion i c).poison = m.poison := rfl
@[simp] theorem Mod.setRegion_moorings (i : Nat) (c : Region) : (m.setRegion i c).moorings = m.moorings := rfl
@[simp] theorem Mod.setRegion_controllers (i : Nat) (c : Region) : (m.setRegion i c).controllers = m.controllers := rfl
@[simp] theorem Mod.setRegion_hdm (i : Nat) (c : Region) : (m.setRegion i c).hdm = m.hdm := rfl
@[simp] theorem Mod.setRegion_caches (i : Nat) (c : Region) : (m.setRegion i c).caches = m.caches := rfl
@[simp] theorem Mod.setRegion_evictions (i : Nat) (c : Region) : (m.setRegion i c).evictions = m.evictions := rfl
@[simp] theorem Mod.setRegion_slices (i : Nat) (c : Region) : (m.setRegion i c).slices = m.slices := rfl
@[simp] theorem Mod.setRegion_pdCores (i : Nat) (c : Region) : (m.setRegion i c).pdCores = m.pdCores := rfl
@[simp] theorem Mod.setRegion_sectors (i : Nat) (c : Region) : (m.setRegion i c).sectors = m.sectors := rfl
@[simp] theorem Mod.setRegion_fns (i : Nat) (c : Region) : (m.setRegion i c).fns = m.fns := rfl
@[simp] theorem Mod.setRegion_queues (i : Nat) (c : Region) : (m.setRegion i c).queues = m.queues := rfl
@[simp] theorem Mod.setRegion_mqs (i : Nat) (c : Region) : (m.setRegion i c).mqs = m.mqs := rfl
@[simp] theorem Mod.setRegion_mqPath (i : Nat) (c : Region) : (m.setRegion i c).mqPath = m.mqPath := rfl
@[simp] theorem Mod.setRegion_mqSector (i : Nat) (c : Region) : (m.setRegion i c).mqSector = m.mqSector := rfl
@[simp] theorem Mod.setRegion_mqTurn (i : Nat) (c : Region) : (m.setRegion i c).mqTurn = m.mqTurn := rfl
@[simp] theorem Mod.setRegion_ports (i : Nat) (c : Region) : (m.setRegion i c).ports = m.ports := rfl
@[simp] theorem Mod.setRegion_eds (i : Nat) (c : Region) : (m.setRegion i c).eds = m.eds := rfl
@[simp] theorem Mod.setRegion_engines (i : Nat) (c : Region) : (m.setRegion i c).engines = m.engines := rfl
@[simp] theorem Mod.setRegion_groupRoute (i : Nat) (c : Region) : (m.setRegion i c).groupRoute = m.groupRoute := rfl
@[simp] theorem Mod.setRegion_memberRoute (i : Nat) (c : Region) : (m.setRegion i c).memberRoute = m.memberRoute := rfl
@[simp] theorem Mod.setRegion_inbox (i : Nat) (c : Region) : (m.setRegion i c).inbox = m.inbox := rfl
@[simp] theorem Mod.setRegion_routeWait (i : Nat) (c : Region) : (m.setRegion i c).routeWait = m.routeWait := rfl
@[simp] theorem Mod.setRegion_arrived (i : Nat) (c : Region) : (m.setRegion i c).arrived = m.arrived := rfl
@[simp] theorem Mod.setRegion_txFlows (i : Nat) (c : Region) : (m.setRegion i c).txFlows = m.txFlows := rfl
@[simp] theorem Mod.setRegion_rxFlows (i : Nat) (c : Region) : (m.setRegion i c).rxFlows = m.rxFlows := rfl
@[simp] theorem Mod.setRegion_holdoff (i : Nat) (c : Region) : (m.setRegion i c).holdoff = m.holdoff := rfl
@[simp] theorem Mod.setRegion_tender (i : Nat) (c : Region) : (m.setRegion i c).tender = m.tender := rfl
@[simp] theorem Mod.setRegion_injections (i : Nat) (c : Region) : (m.setRegion i c).injections = m.injections := rfl
@[simp] theorem Mod.setRegion_dieGens (i : Nat) (c : Region) : (m.setRegion i c).dieGens = m.dieGens := rfl
@[simp] theorem Mod.setRegion_remotes (i : Nat) (c : Region) : (m.setRegion i c).remotes = m.remotes := rfl
@[simp] theorem Mod.setRegion_nextCmd (i : Nat) (c : Region) : (m.setRegion i c).nextCmd = m.nextCmd := rfl
@[simp] theorem Mod.setRegion_txns (i : Nat) (c : Region) : (m.setRegion i c).txns = m.txns := rfl
@[simp] theorem Mod.setRegion_tagWait (i : Nat) (c : Region) : (m.setRegion i c).tagWait = m.tagWait := rfl
@[simp] theorem Mod.setRegion_aia (i : Nat) (c : Region) : (m.setRegion i c).aia = m.aia := rfl
@[simp] theorem Mod.setRegion_zeros (i : Nat) (c : Region) : (m.setRegion i c).zeros = m.zeros := rfl
@[simp] theorem Mod.setRegion_buckets (i : Nat) (c : Region) : (m.setRegion i c).buckets = m.buckets := rfl
@[simp] theorem Mod.setRegion_ctlHot (i : Nat) (c : Region) : (m.setRegion i c).ctlHot = m.ctlHot := rfl
@[simp] theorem Mod.setRegion_rtrHot (i : Nat) (c : Region) : (m.setRegion i c).rtrHot = m.rtrHot := rfl
@[simp] theorem Mod.setRegion_cohError (i : Nat) (c : Region) : (m.setRegion i c).cohError = m.cohError := rfl
@[simp] theorem Mod.setRegion_bursts (i : Nat) (c : Region) : (m.setRegion i c).bursts = m.bursts := rfl
@[simp] theorem Mod.setRegion_keeperQueue (i : Nat) (c : Region) : (m.setRegion i c).keeperQueue = m.keeperQueue := rfl
@[simp] theorem Mod.setRegion_keeperTurn (i : Nat) (c : Region) : (m.setRegion i c).keeperTurn = m.keeperTurn := rfl
@[simp] theorem Mod.setRegion_keySlots (i : Nat) (c : Region) : (m.setRegion i c).keySlots = m.keySlots := rfl
@[simp] theorem Mod.setRegion_models (i : Nat) (c : Region) : (m.setRegion i c).models = m.models := rfl
@[simp] theorem Mod.setRegion_sessions (i : Nat) (c : Region) : (m.setRegion i c).sessions = m.sessions := rfl
@[simp] theorem Mod.setRegion_scrubLast (i : Nat) (c : Region) : (m.setRegion i c).scrubLast = m.scrubLast := rfl
@[simp] theorem Mod.setRegion_fills (i : Nat) (c : Region) : (m.setRegion i c).fills = m.fills := rfl
@[simp] theorem Mod.setRegion_unlocked (i : Nat) (c : Region) : (m.setRegion i c).unlocked = m.unlocked := rfl
@[simp] theorem Mod.setRegion_bootImage (i : Nat) (c : Region) : (m.setRegion i c).bootImage = m.bootImage := rfl
@[simp] theorem Mod.setRegion_rootIndex (i : Nat) (c : Region) : (m.setRegion i c).rootIndex = m.rootIndex := rfl
@[simp] theorem Mod.setRegion_starts (i : Nat) (c : Region) : (m.setRegion i c).starts = m.starts := rfl
@[simp] theorem Mod.setRegion_svnFused (i : Nat) (c : Region) : (m.setRegion i c).svnFused = m.svnFused := rfl
@[simp] theorem Mod.setRegion_svnRunning (i : Nat) (c : Region) : (m.setRegion i c).svnRunning = m.svnRunning := rfl
@[simp] theorem Mod.setRegion_measurements (i : Nat) (c : Region) : (m.setRegion i c).measurements = m.measurements := rfl
@[simp] theorem Mod.setRegion_dies (i : Nat) (c : Region) : (m.setRegion i c).dies = m.dies := rfl
@[simp] theorem Mod.setRegion_harbourUp (i : Nat) (c : Region) : (m.setRegion i c).harbourUp = m.harbourUp := rfl
@[simp] theorem Mod.setRegion_computeUp (i : Nat) (c : Region) : (m.setRegion i c).computeUp = m.computeUp := rfl
@[simp] theorem Mod.setRegion_edgeLost (i : Nat) (c : Region) : (m.setRegion i c).edgeLost = m.edgeLost := rfl
@[simp] theorem Mod.setRegion_fw (i : Nat) (c : Region) : (m.setRegion i c).fw = m.fw := rfl
@[simp] theorem Mod.setRegion_power (i : Nat) (c : Region) : (m.setRegion i c).power = m.power := rfl
@[simp] theorem Mod.setRegion_boot (i : Nat) (c : Region) : (m.setRegion i c).boot = m.boot := rfl
@[simp] theorem Mod.setRegion_patrol (i : Nat) (c : Region) : (m.setRegion i c).patrol = m.patrol := rfl
@[simp] theorem Mod.setRegion_lanes (i : Nat) (c : Region) : (m.setRegion i c).lanes = m.lanes := rfl
@[simp] theorem Mod.setRegion_levels (i : Nat) (c : Region) : (m.setRegion i c).levels = m.levels := rfl
@[simp] theorem Mod.setRegion_notices (i : Nat) (c : Region) : (m.setRegion i c).notices = m.notices := rfl
@[simp] theorem Mod.setRegion_incoming (i : Nat) (c : Region) : (m.setRegion i c).incoming = m.incoming := rfl
@[simp] theorem Mod.setRegion_remoteQ (i : Nat) (c : Region) : (m.setRegion i c).remoteQ = m.remoteQ := rfl
@[simp] theorem Mod.setRegion_nextIncoming (i : Nat) (c : Region) : (m.setRegion i c).nextIncoming = m.nextIncoming := rfl
@[simp] theorem Mod.setRegion_tap (i : Nat) (c : Region) : (m.setRegion i c).tap = m.tap := rfl
@[simp] theorem Mod.setRegion_guest (i : Nat) (c : Region) : (m.setRegion i c).guest = m.guest := rfl
@[simp] theorem Mod.setRegion_pcie (i : Nat) (c : Region) : (m.setRegion i c).pcie = m.pcie := rfl
@[simp] theorem Mod.setRegion_iotlb (i : Nat) (c : Region) : (m.setRegion i c).iotlb = m.iotlb := rfl
@[simp] theorem Mod.setRegion_adapterWait (i : Nat) (c : Region) : (m.setRegion i c).adapterWait = m.adapterWait := rfl
@[simp] theorem Mod.setRegion_upstream (i : Nat) (c : Region) : (m.setRegion i c).upstream = m.upstream := rfl
@[simp] theorem Mod.setRegion_linkLevels (i : Nat) (c : Region) : (m.setRegion i c).linkLevels = m.linkLevels := rfl
@[simp] theorem Mod.setRegion_beacon (i : Nat) (c : Region) : (m.setRegion i c).beacon = m.beacon := rfl
@[simp] theorem Mod.setRegion_sets (i : Nat) (c : Region) : (m.setRegion i c).sets = m.sets := rfl
@[simp] theorem Mod.setRegion_errs (i : Nat) (c : Region) : (m.setRegion i c).errs = m.errs := rfl
@[simp] theorem Mod.setRegion_events (i : Nat) (c : Region) : (m.setRegion i c).events = m.events := rfl
@[simp] theorem Mod.setRegion_nextSeq (i : Nat) (c : Region) : (m.setRegion i c).nextSeq = m.nextSeq := rfl
@[simp] theorem Mod.setRegion_overwritten (i : Nat) (c : Region) : (m.setRegion i c).overwritten = m.overwritten := rfl
@[simp] theorem Mod.setRegion_keyEpochs (i : Nat) (c : Region) : (m.setRegion i c).keyEpochs = m.keyEpochs := rfl
@[simp] theorem Mod.setRegion_reports (i : Nat) (c : Region) : (m.setRegion i c).reports = m.reports := rfl
@[simp] theorem Mod.setRegion_out (i : Nat) (c : Region) : (m.setRegion i c).out = m.out := rfl
@[simp] theorem Mod.setRegion_free (i : Nat) (c : Region) : (m.setRegion i c).free = m.free := rfl
@[simp] theorem Mod.setRegion_core_at (i : Nat) (c : Region) (n : Nat) : (m.setRegion i c).core n = m.core n := rfl
@[simp] theorem Mod.setRegion_cluster_at (i : Nat) (c : Region) (n : Nat) : (m.setRegion i c).cluster n = m.cluster n := rfl
@[simp] theorem Mod.setRegion_queue_at (i : Nat) (c : Region) (p : QRef) : (m.setRegion i c).queue p = m.queue p := rfl
@[simp] theorem Mod.setRegion_set_at (i : Nat) (c : Region) (n : Nat) : Mod.set (m.setRegion i c) n = Mod.set m n := rfl
@[simp] theorem Mod.setRegion_region_at (i : Nat) (c : Region) (j : Nat) : (m.setRegion i c).region j = if j = i then c else m.region j := by
  simp [Mod.setRegion, Mod.region]
@[simp] theorem Mod.setRegion_mooring_at (i : Nat) (c : Region) (n : Nat) : (m.setRegion i c).mooring n = m.mooring n := rfl
@[simp] theorem Mod.setRegion_ctl_at (i : Nat) (c : Region) (n : Nat) : (m.setRegion i c).ctl n = m.ctl n := rfl
@[simp] theorem Mod.setRegion_err_at (i : Nat) (c : Region) (n : Nat) : (m.setRegion i c).err n = m.err n := rfl
@[simp] theorem Mod.setRegion_slice_at (i : Nat) (c : Region) (n : Nat) : (m.setRegion i c).slice n = m.slice n := rfl
@[simp] theorem Mod.setRegion_pdCore_at (i : Nat) (c : Region) (n : Nat) : (m.setRegion i c).pdCore n = m.pdCore n := rfl
@[simp] theorem Mod.setRegion_reg_at (i : Nat) (c : Region) (k l : Nat) (e : Word) : (m.setRegion i c).reg k l e = m.reg k l e := rfl
@[simp] theorem Mod.setRegion_sector_at (i : Nat) (c : Region) (n : Nat) : (m.setRegion i c).sector n = m.sector n := rfl
@[simp] theorem Mod.setRegion_fn_at (i : Nat) (c : Region) (k l : Nat) : (m.setRegion i c).fn k l = m.fn k l := rfl
@[simp] theorem Mod.setRegion_port_at (i : Nat) (c : Region) (n : Nat) : (m.setRegion i c).port n = m.port n := rfl
@[simp] theorem Mod.setRegion_engine_at (i : Nat) (c : Region) (n : Nat) : (m.setRegion i c).engine n = m.engine n := rfl
@[simp] theorem Mod.setRegion_die_at (i : Nat) (c : Region) (n : Nat) : (m.setRegion i c).die n = m.die n := rfl
@[simp] theorem Mod.setRegion_pciePort_at (i : Nat) (c : Region) (n : Nat) : (m.setRegion i c).pciePort n = m.pciePort n := rfl
@[simp] theorem Mod.setRegion_bt_at (i : Nat) (c : Region)  : (m.setRegion i c).bt = m.bt := rfl

/-! ## setMooring -/
@[simp] theorem Mod.setMooring_part (i : Nat) (c : Mooring) : (m.setMooring i c).part = m.part := rfl
@[simp] theorem Mod.setMooring_regs (i : Nat) (c : Mooring) : (m.setMooring i c).regs = m.regs := rfl
@[simp] theorem Mod.setMooring_cores (i : Nat) (c : Mooring) : (m.setMooring i c).cores = m.cores := rfl
@[simp] theorem Mod.setMooring_clusters (i : Nat) (c : Mooring) : (m.setMooring i c).clusters = m.clusters := rfl
@[simp] theorem Mod.setMooring_posts (i : Nat) (c : Mooring) : (m.setMooring i c).posts = m.posts := rfl
@[simp] theorem Mod.setMooring_dram (i : Nat) (c : Mooring) : (m.setMooring i c).dram = m.dram := rfl
@[simp] theorem Mod.setMooring_poison (i : Nat) (c : Mooring) : (m.setMooring i c).poison = m.poison := rfl
@[simp] theorem Mod.setMooring_regions (i : Nat) (c : Mooring) : (m.setMooring i c).regions = m.regions := rfl
@[simp] theorem Mod.setMooring_controllers (i : Nat) (c : Mooring) : (m.setMooring i c).controllers = m.controllers := rfl
@[simp] theorem Mod.setMooring_hdm (i : Nat) (c : Mooring) : (m.setMooring i c).hdm = m.hdm := rfl
@[simp] theorem Mod.setMooring_caches (i : Nat) (c : Mooring) : (m.setMooring i c).caches = m.caches := rfl
@[simp] theorem Mod.setMooring_evictions (i : Nat) (c : Mooring) : (m.setMooring i c).evictions = m.evictions := rfl
@[simp] theorem Mod.setMooring_slices (i : Nat) (c : Mooring) : (m.setMooring i c).slices = m.slices := rfl
@[simp] theorem Mod.setMooring_pdCores (i : Nat) (c : Mooring) : (m.setMooring i c).pdCores = m.pdCores := rfl
@[simp] theorem Mod.setMooring_sectors (i : Nat) (c : Mooring) : (m.setMooring i c).sectors = m.sectors := rfl
@[simp] theorem Mod.setMooring_fns (i : Nat) (c : Mooring) : (m.setMooring i c).fns = m.fns := rfl
@[simp] theorem Mod.setMooring_queues (i : Nat) (c : Mooring) : (m.setMooring i c).queues = m.queues := rfl
@[simp] theorem Mod.setMooring_mqs (i : Nat) (c : Mooring) : (m.setMooring i c).mqs = m.mqs := rfl
@[simp] theorem Mod.setMooring_mqPath (i : Nat) (c : Mooring) : (m.setMooring i c).mqPath = m.mqPath := rfl
@[simp] theorem Mod.setMooring_mqSector (i : Nat) (c : Mooring) : (m.setMooring i c).mqSector = m.mqSector := rfl
@[simp] theorem Mod.setMooring_mqTurn (i : Nat) (c : Mooring) : (m.setMooring i c).mqTurn = m.mqTurn := rfl
@[simp] theorem Mod.setMooring_ports (i : Nat) (c : Mooring) : (m.setMooring i c).ports = m.ports := rfl
@[simp] theorem Mod.setMooring_eds (i : Nat) (c : Mooring) : (m.setMooring i c).eds = m.eds := rfl
@[simp] theorem Mod.setMooring_engines (i : Nat) (c : Mooring) : (m.setMooring i c).engines = m.engines := rfl
@[simp] theorem Mod.setMooring_groupRoute (i : Nat) (c : Mooring) : (m.setMooring i c).groupRoute = m.groupRoute := rfl
@[simp] theorem Mod.setMooring_memberRoute (i : Nat) (c : Mooring) : (m.setMooring i c).memberRoute = m.memberRoute := rfl
@[simp] theorem Mod.setMooring_inbox (i : Nat) (c : Mooring) : (m.setMooring i c).inbox = m.inbox := rfl
@[simp] theorem Mod.setMooring_routeWait (i : Nat) (c : Mooring) : (m.setMooring i c).routeWait = m.routeWait := rfl
@[simp] theorem Mod.setMooring_arrived (i : Nat) (c : Mooring) : (m.setMooring i c).arrived = m.arrived := rfl
@[simp] theorem Mod.setMooring_txFlows (i : Nat) (c : Mooring) : (m.setMooring i c).txFlows = m.txFlows := rfl
@[simp] theorem Mod.setMooring_rxFlows (i : Nat) (c : Mooring) : (m.setMooring i c).rxFlows = m.rxFlows := rfl
@[simp] theorem Mod.setMooring_holdoff (i : Nat) (c : Mooring) : (m.setMooring i c).holdoff = m.holdoff := rfl
@[simp] theorem Mod.setMooring_tender (i : Nat) (c : Mooring) : (m.setMooring i c).tender = m.tender := rfl
@[simp] theorem Mod.setMooring_injections (i : Nat) (c : Mooring) : (m.setMooring i c).injections = m.injections := rfl
@[simp] theorem Mod.setMooring_dieGens (i : Nat) (c : Mooring) : (m.setMooring i c).dieGens = m.dieGens := rfl
@[simp] theorem Mod.setMooring_remotes (i : Nat) (c : Mooring) : (m.setMooring i c).remotes = m.remotes := rfl
@[simp] theorem Mod.setMooring_nextCmd (i : Nat) (c : Mooring) : (m.setMooring i c).nextCmd = m.nextCmd := rfl
@[simp] theorem Mod.setMooring_txns (i : Nat) (c : Mooring) : (m.setMooring i c).txns = m.txns := rfl
@[simp] theorem Mod.setMooring_tagWait (i : Nat) (c : Mooring) : (m.setMooring i c).tagWait = m.tagWait := rfl
@[simp] theorem Mod.setMooring_aia (i : Nat) (c : Mooring) : (m.setMooring i c).aia = m.aia := rfl
@[simp] theorem Mod.setMooring_zeros (i : Nat) (c : Mooring) : (m.setMooring i c).zeros = m.zeros := rfl
@[simp] theorem Mod.setMooring_buckets (i : Nat) (c : Mooring) : (m.setMooring i c).buckets = m.buckets := rfl
@[simp] theorem Mod.setMooring_ctlHot (i : Nat) (c : Mooring) : (m.setMooring i c).ctlHot = m.ctlHot := rfl
@[simp] theorem Mod.setMooring_rtrHot (i : Nat) (c : Mooring) : (m.setMooring i c).rtrHot = m.rtrHot := rfl
@[simp] theorem Mod.setMooring_cohError (i : Nat) (c : Mooring) : (m.setMooring i c).cohError = m.cohError := rfl
@[simp] theorem Mod.setMooring_bursts (i : Nat) (c : Mooring) : (m.setMooring i c).bursts = m.bursts := rfl
@[simp] theorem Mod.setMooring_keeperQueue (i : Nat) (c : Mooring) : (m.setMooring i c).keeperQueue = m.keeperQueue := rfl
@[simp] theorem Mod.setMooring_keeperTurn (i : Nat) (c : Mooring) : (m.setMooring i c).keeperTurn = m.keeperTurn := rfl
@[simp] theorem Mod.setMooring_keySlots (i : Nat) (c : Mooring) : (m.setMooring i c).keySlots = m.keySlots := rfl
@[simp] theorem Mod.setMooring_models (i : Nat) (c : Mooring) : (m.setMooring i c).models = m.models := rfl
@[simp] theorem Mod.setMooring_sessions (i : Nat) (c : Mooring) : (m.setMooring i c).sessions = m.sessions := rfl
@[simp] theorem Mod.setMooring_scrubLast (i : Nat) (c : Mooring) : (m.setMooring i c).scrubLast = m.scrubLast := rfl
@[simp] theorem Mod.setMooring_fills (i : Nat) (c : Mooring) : (m.setMooring i c).fills = m.fills := rfl
@[simp] theorem Mod.setMooring_unlocked (i : Nat) (c : Mooring) : (m.setMooring i c).unlocked = m.unlocked := rfl
@[simp] theorem Mod.setMooring_bootImage (i : Nat) (c : Mooring) : (m.setMooring i c).bootImage = m.bootImage := rfl
@[simp] theorem Mod.setMooring_rootIndex (i : Nat) (c : Mooring) : (m.setMooring i c).rootIndex = m.rootIndex := rfl
@[simp] theorem Mod.setMooring_starts (i : Nat) (c : Mooring) : (m.setMooring i c).starts = m.starts := rfl
@[simp] theorem Mod.setMooring_svnFused (i : Nat) (c : Mooring) : (m.setMooring i c).svnFused = m.svnFused := rfl
@[simp] theorem Mod.setMooring_svnRunning (i : Nat) (c : Mooring) : (m.setMooring i c).svnRunning = m.svnRunning := rfl
@[simp] theorem Mod.setMooring_measurements (i : Nat) (c : Mooring) : (m.setMooring i c).measurements = m.measurements := rfl
@[simp] theorem Mod.setMooring_dies (i : Nat) (c : Mooring) : (m.setMooring i c).dies = m.dies := rfl
@[simp] theorem Mod.setMooring_harbourUp (i : Nat) (c : Mooring) : (m.setMooring i c).harbourUp = m.harbourUp := rfl
@[simp] theorem Mod.setMooring_computeUp (i : Nat) (c : Mooring) : (m.setMooring i c).computeUp = m.computeUp := rfl
@[simp] theorem Mod.setMooring_edgeLost (i : Nat) (c : Mooring) : (m.setMooring i c).edgeLost = m.edgeLost := rfl
@[simp] theorem Mod.setMooring_fw (i : Nat) (c : Mooring) : (m.setMooring i c).fw = m.fw := rfl
@[simp] theorem Mod.setMooring_power (i : Nat) (c : Mooring) : (m.setMooring i c).power = m.power := rfl
@[simp] theorem Mod.setMooring_boot (i : Nat) (c : Mooring) : (m.setMooring i c).boot = m.boot := rfl
@[simp] theorem Mod.setMooring_patrol (i : Nat) (c : Mooring) : (m.setMooring i c).patrol = m.patrol := rfl
@[simp] theorem Mod.setMooring_lanes (i : Nat) (c : Mooring) : (m.setMooring i c).lanes = m.lanes := rfl
@[simp] theorem Mod.setMooring_levels (i : Nat) (c : Mooring) : (m.setMooring i c).levels = m.levels := rfl
@[simp] theorem Mod.setMooring_notices (i : Nat) (c : Mooring) : (m.setMooring i c).notices = m.notices := rfl
@[simp] theorem Mod.setMooring_incoming (i : Nat) (c : Mooring) : (m.setMooring i c).incoming = m.incoming := rfl
@[simp] theorem Mod.setMooring_remoteQ (i : Nat) (c : Mooring) : (m.setMooring i c).remoteQ = m.remoteQ := rfl
@[simp] theorem Mod.setMooring_nextIncoming (i : Nat) (c : Mooring) : (m.setMooring i c).nextIncoming = m.nextIncoming := rfl
@[simp] theorem Mod.setMooring_tap (i : Nat) (c : Mooring) : (m.setMooring i c).tap = m.tap := rfl
@[simp] theorem Mod.setMooring_guest (i : Nat) (c : Mooring) : (m.setMooring i c).guest = m.guest := rfl
@[simp] theorem Mod.setMooring_pcie (i : Nat) (c : Mooring) : (m.setMooring i c).pcie = m.pcie := rfl
@[simp] theorem Mod.setMooring_iotlb (i : Nat) (c : Mooring) : (m.setMooring i c).iotlb = m.iotlb := rfl
@[simp] theorem Mod.setMooring_adapterWait (i : Nat) (c : Mooring) : (m.setMooring i c).adapterWait = m.adapterWait := rfl
@[simp] theorem Mod.setMooring_upstream (i : Nat) (c : Mooring) : (m.setMooring i c).upstream = m.upstream := rfl
@[simp] theorem Mod.setMooring_linkLevels (i : Nat) (c : Mooring) : (m.setMooring i c).linkLevels = m.linkLevels := rfl
@[simp] theorem Mod.setMooring_beacon (i : Nat) (c : Mooring) : (m.setMooring i c).beacon = m.beacon := rfl
@[simp] theorem Mod.setMooring_sets (i : Nat) (c : Mooring) : (m.setMooring i c).sets = m.sets := rfl
@[simp] theorem Mod.setMooring_errs (i : Nat) (c : Mooring) : (m.setMooring i c).errs = m.errs := rfl
@[simp] theorem Mod.setMooring_events (i : Nat) (c : Mooring) : (m.setMooring i c).events = m.events := rfl
@[simp] theorem Mod.setMooring_nextSeq (i : Nat) (c : Mooring) : (m.setMooring i c).nextSeq = m.nextSeq := rfl
@[simp] theorem Mod.setMooring_overwritten (i : Nat) (c : Mooring) : (m.setMooring i c).overwritten = m.overwritten := rfl
@[simp] theorem Mod.setMooring_keyEpochs (i : Nat) (c : Mooring) : (m.setMooring i c).keyEpochs = m.keyEpochs := rfl
@[simp] theorem Mod.setMooring_reports (i : Nat) (c : Mooring) : (m.setMooring i c).reports = m.reports := rfl
@[simp] theorem Mod.setMooring_out (i : Nat) (c : Mooring) : (m.setMooring i c).out = m.out := rfl
@[simp] theorem Mod.setMooring_free (i : Nat) (c : Mooring) : (m.setMooring i c).free = m.free := rfl
@[simp] theorem Mod.setMooring_core_at (i : Nat) (c : Mooring) (n : Nat) : (m.setMooring i c).core n = m.core n := rfl
@[simp] theorem Mod.setMooring_cluster_at (i : Nat) (c : Mooring) (n : Nat) : (m.setMooring i c).cluster n = m.cluster n := rfl
@[simp] theorem Mod.setMooring_queue_at (i : Nat) (c : Mooring) (p : QRef) : (m.setMooring i c).queue p = m.queue p := rfl
@[simp] theorem Mod.setMooring_set_at (i : Nat) (c : Mooring) (n : Nat) : Mod.set (m.setMooring i c) n = Mod.set m n := rfl
@[simp] theorem Mod.setMooring_region_at (i : Nat) (c : Mooring) (n : Nat) : (m.setMooring i c).region n = m.region n := rfl
@[simp] theorem Mod.setMooring_mooring_at (i : Nat) (c : Mooring) (j : Nat) : (m.setMooring i c).mooring j = if j = i then c else m.mooring j := by
  simp [Mod.setMooring, Mod.mooring]
@[simp] theorem Mod.setMooring_ctl_at (i : Nat) (c : Mooring) (n : Nat) : (m.setMooring i c).ctl n = m.ctl n := rfl
@[simp] theorem Mod.setMooring_err_at (i : Nat) (c : Mooring) (n : Nat) : (m.setMooring i c).err n = m.err n := rfl
@[simp] theorem Mod.setMooring_slice_at (i : Nat) (c : Mooring) (n : Nat) : (m.setMooring i c).slice n = m.slice n := rfl
@[simp] theorem Mod.setMooring_pdCore_at (i : Nat) (c : Mooring) (n : Nat) : (m.setMooring i c).pdCore n = m.pdCore n := rfl
@[simp] theorem Mod.setMooring_reg_at (i : Nat) (c : Mooring) (k l : Nat) (e : Word) : (m.setMooring i c).reg k l e = m.reg k l e := rfl
@[simp] theorem Mod.setMooring_sector_at (i : Nat) (c : Mooring) (n : Nat) : (m.setMooring i c).sector n = m.sector n := rfl
@[simp] theorem Mod.setMooring_fn_at (i : Nat) (c : Mooring) (k l : Nat) : (m.setMooring i c).fn k l = m.fn k l := rfl
@[simp] theorem Mod.setMooring_port_at (i : Nat) (c : Mooring) (n : Nat) : (m.setMooring i c).port n = m.port n := rfl
@[simp] theorem Mod.setMooring_engine_at (i : Nat) (c : Mooring) (n : Nat) : (m.setMooring i c).engine n = m.engine n := rfl
@[simp] theorem Mod.setMooring_die_at (i : Nat) (c : Mooring) (n : Nat) : (m.setMooring i c).die n = m.die n := rfl
@[simp] theorem Mod.setMooring_pciePort_at (i : Nat) (c : Mooring) (n : Nat) : (m.setMooring i c).pciePort n = m.pciePort n := rfl
@[simp] theorem Mod.setMooring_bt_at (i : Nat) (c : Mooring)  : (m.setMooring i c).bt = m.bt := rfl

/-! ## setCtl -/
@[simp] theorem Mod.setCtl_part (i : Nat) (c : Controller) : (m.setCtl i c).part = m.part := rfl
@[simp] theorem Mod.setCtl_regs (i : Nat) (c : Controller) : (m.setCtl i c).regs = m.regs := rfl
@[simp] theorem Mod.setCtl_cores (i : Nat) (c : Controller) : (m.setCtl i c).cores = m.cores := rfl
@[simp] theorem Mod.setCtl_clusters (i : Nat) (c : Controller) : (m.setCtl i c).clusters = m.clusters := rfl
@[simp] theorem Mod.setCtl_posts (i : Nat) (c : Controller) : (m.setCtl i c).posts = m.posts := rfl
@[simp] theorem Mod.setCtl_dram (i : Nat) (c : Controller) : (m.setCtl i c).dram = m.dram := rfl
@[simp] theorem Mod.setCtl_poison (i : Nat) (c : Controller) : (m.setCtl i c).poison = m.poison := rfl
@[simp] theorem Mod.setCtl_regions (i : Nat) (c : Controller) : (m.setCtl i c).regions = m.regions := rfl
@[simp] theorem Mod.setCtl_moorings (i : Nat) (c : Controller) : (m.setCtl i c).moorings = m.moorings := rfl
@[simp] theorem Mod.setCtl_hdm (i : Nat) (c : Controller) : (m.setCtl i c).hdm = m.hdm := rfl
@[simp] theorem Mod.setCtl_caches (i : Nat) (c : Controller) : (m.setCtl i c).caches = m.caches := rfl
@[simp] theorem Mod.setCtl_evictions (i : Nat) (c : Controller) : (m.setCtl i c).evictions = m.evictions := rfl
@[simp] theorem Mod.setCtl_slices (i : Nat) (c : Controller) : (m.setCtl i c).slices = m.slices := rfl
@[simp] theorem Mod.setCtl_pdCores (i : Nat) (c : Controller) : (m.setCtl i c).pdCores = m.pdCores := rfl
@[simp] theorem Mod.setCtl_sectors (i : Nat) (c : Controller) : (m.setCtl i c).sectors = m.sectors := rfl
@[simp] theorem Mod.setCtl_fns (i : Nat) (c : Controller) : (m.setCtl i c).fns = m.fns := rfl
@[simp] theorem Mod.setCtl_queues (i : Nat) (c : Controller) : (m.setCtl i c).queues = m.queues := rfl
@[simp] theorem Mod.setCtl_mqs (i : Nat) (c : Controller) : (m.setCtl i c).mqs = m.mqs := rfl
@[simp] theorem Mod.setCtl_mqPath (i : Nat) (c : Controller) : (m.setCtl i c).mqPath = m.mqPath := rfl
@[simp] theorem Mod.setCtl_mqSector (i : Nat) (c : Controller) : (m.setCtl i c).mqSector = m.mqSector := rfl
@[simp] theorem Mod.setCtl_mqTurn (i : Nat) (c : Controller) : (m.setCtl i c).mqTurn = m.mqTurn := rfl
@[simp] theorem Mod.setCtl_ports (i : Nat) (c : Controller) : (m.setCtl i c).ports = m.ports := rfl
@[simp] theorem Mod.setCtl_eds (i : Nat) (c : Controller) : (m.setCtl i c).eds = m.eds := rfl
@[simp] theorem Mod.setCtl_engines (i : Nat) (c : Controller) : (m.setCtl i c).engines = m.engines := rfl
@[simp] theorem Mod.setCtl_groupRoute (i : Nat) (c : Controller) : (m.setCtl i c).groupRoute = m.groupRoute := rfl
@[simp] theorem Mod.setCtl_memberRoute (i : Nat) (c : Controller) : (m.setCtl i c).memberRoute = m.memberRoute := rfl
@[simp] theorem Mod.setCtl_inbox (i : Nat) (c : Controller) : (m.setCtl i c).inbox = m.inbox := rfl
@[simp] theorem Mod.setCtl_routeWait (i : Nat) (c : Controller) : (m.setCtl i c).routeWait = m.routeWait := rfl
@[simp] theorem Mod.setCtl_arrived (i : Nat) (c : Controller) : (m.setCtl i c).arrived = m.arrived := rfl
@[simp] theorem Mod.setCtl_txFlows (i : Nat) (c : Controller) : (m.setCtl i c).txFlows = m.txFlows := rfl
@[simp] theorem Mod.setCtl_rxFlows (i : Nat) (c : Controller) : (m.setCtl i c).rxFlows = m.rxFlows := rfl
@[simp] theorem Mod.setCtl_holdoff (i : Nat) (c : Controller) : (m.setCtl i c).holdoff = m.holdoff := rfl
@[simp] theorem Mod.setCtl_tender (i : Nat) (c : Controller) : (m.setCtl i c).tender = m.tender := rfl
@[simp] theorem Mod.setCtl_injections (i : Nat) (c : Controller) : (m.setCtl i c).injections = m.injections := rfl
@[simp] theorem Mod.setCtl_dieGens (i : Nat) (c : Controller) : (m.setCtl i c).dieGens = m.dieGens := rfl
@[simp] theorem Mod.setCtl_remotes (i : Nat) (c : Controller) : (m.setCtl i c).remotes = m.remotes := rfl
@[simp] theorem Mod.setCtl_nextCmd (i : Nat) (c : Controller) : (m.setCtl i c).nextCmd = m.nextCmd := rfl
@[simp] theorem Mod.setCtl_txns (i : Nat) (c : Controller) : (m.setCtl i c).txns = m.txns := rfl
@[simp] theorem Mod.setCtl_tagWait (i : Nat) (c : Controller) : (m.setCtl i c).tagWait = m.tagWait := rfl
@[simp] theorem Mod.setCtl_aia (i : Nat) (c : Controller) : (m.setCtl i c).aia = m.aia := rfl
@[simp] theorem Mod.setCtl_zeros (i : Nat) (c : Controller) : (m.setCtl i c).zeros = m.zeros := rfl
@[simp] theorem Mod.setCtl_buckets (i : Nat) (c : Controller) : (m.setCtl i c).buckets = m.buckets := rfl
@[simp] theorem Mod.setCtl_ctlHot (i : Nat) (c : Controller) : (m.setCtl i c).ctlHot = m.ctlHot := rfl
@[simp] theorem Mod.setCtl_rtrHot (i : Nat) (c : Controller) : (m.setCtl i c).rtrHot = m.rtrHot := rfl
@[simp] theorem Mod.setCtl_cohError (i : Nat) (c : Controller) : (m.setCtl i c).cohError = m.cohError := rfl
@[simp] theorem Mod.setCtl_bursts (i : Nat) (c : Controller) : (m.setCtl i c).bursts = m.bursts := rfl
@[simp] theorem Mod.setCtl_keeperQueue (i : Nat) (c : Controller) : (m.setCtl i c).keeperQueue = m.keeperQueue := rfl
@[simp] theorem Mod.setCtl_keeperTurn (i : Nat) (c : Controller) : (m.setCtl i c).keeperTurn = m.keeperTurn := rfl
@[simp] theorem Mod.setCtl_keySlots (i : Nat) (c : Controller) : (m.setCtl i c).keySlots = m.keySlots := rfl
@[simp] theorem Mod.setCtl_models (i : Nat) (c : Controller) : (m.setCtl i c).models = m.models := rfl
@[simp] theorem Mod.setCtl_sessions (i : Nat) (c : Controller) : (m.setCtl i c).sessions = m.sessions := rfl
@[simp] theorem Mod.setCtl_scrubLast (i : Nat) (c : Controller) : (m.setCtl i c).scrubLast = m.scrubLast := rfl
@[simp] theorem Mod.setCtl_fills (i : Nat) (c : Controller) : (m.setCtl i c).fills = m.fills := rfl
@[simp] theorem Mod.setCtl_unlocked (i : Nat) (c : Controller) : (m.setCtl i c).unlocked = m.unlocked := rfl
@[simp] theorem Mod.setCtl_bootImage (i : Nat) (c : Controller) : (m.setCtl i c).bootImage = m.bootImage := rfl
@[simp] theorem Mod.setCtl_rootIndex (i : Nat) (c : Controller) : (m.setCtl i c).rootIndex = m.rootIndex := rfl
@[simp] theorem Mod.setCtl_starts (i : Nat) (c : Controller) : (m.setCtl i c).starts = m.starts := rfl
@[simp] theorem Mod.setCtl_svnFused (i : Nat) (c : Controller) : (m.setCtl i c).svnFused = m.svnFused := rfl
@[simp] theorem Mod.setCtl_svnRunning (i : Nat) (c : Controller) : (m.setCtl i c).svnRunning = m.svnRunning := rfl
@[simp] theorem Mod.setCtl_measurements (i : Nat) (c : Controller) : (m.setCtl i c).measurements = m.measurements := rfl
@[simp] theorem Mod.setCtl_dies (i : Nat) (c : Controller) : (m.setCtl i c).dies = m.dies := rfl
@[simp] theorem Mod.setCtl_harbourUp (i : Nat) (c : Controller) : (m.setCtl i c).harbourUp = m.harbourUp := rfl
@[simp] theorem Mod.setCtl_computeUp (i : Nat) (c : Controller) : (m.setCtl i c).computeUp = m.computeUp := rfl
@[simp] theorem Mod.setCtl_edgeLost (i : Nat) (c : Controller) : (m.setCtl i c).edgeLost = m.edgeLost := rfl
@[simp] theorem Mod.setCtl_fw (i : Nat) (c : Controller) : (m.setCtl i c).fw = m.fw := rfl
@[simp] theorem Mod.setCtl_power (i : Nat) (c : Controller) : (m.setCtl i c).power = m.power := rfl
@[simp] theorem Mod.setCtl_boot (i : Nat) (c : Controller) : (m.setCtl i c).boot = m.boot := rfl
@[simp] theorem Mod.setCtl_patrol (i : Nat) (c : Controller) : (m.setCtl i c).patrol = m.patrol := rfl
@[simp] theorem Mod.setCtl_lanes (i : Nat) (c : Controller) : (m.setCtl i c).lanes = m.lanes := rfl
@[simp] theorem Mod.setCtl_levels (i : Nat) (c : Controller) : (m.setCtl i c).levels = m.levels := rfl
@[simp] theorem Mod.setCtl_notices (i : Nat) (c : Controller) : (m.setCtl i c).notices = m.notices := rfl
@[simp] theorem Mod.setCtl_incoming (i : Nat) (c : Controller) : (m.setCtl i c).incoming = m.incoming := rfl
@[simp] theorem Mod.setCtl_remoteQ (i : Nat) (c : Controller) : (m.setCtl i c).remoteQ = m.remoteQ := rfl
@[simp] theorem Mod.setCtl_nextIncoming (i : Nat) (c : Controller) : (m.setCtl i c).nextIncoming = m.nextIncoming := rfl
@[simp] theorem Mod.setCtl_tap (i : Nat) (c : Controller) : (m.setCtl i c).tap = m.tap := rfl
@[simp] theorem Mod.setCtl_guest (i : Nat) (c : Controller) : (m.setCtl i c).guest = m.guest := rfl
@[simp] theorem Mod.setCtl_pcie (i : Nat) (c : Controller) : (m.setCtl i c).pcie = m.pcie := rfl
@[simp] theorem Mod.setCtl_iotlb (i : Nat) (c : Controller) : (m.setCtl i c).iotlb = m.iotlb := rfl
@[simp] theorem Mod.setCtl_adapterWait (i : Nat) (c : Controller) : (m.setCtl i c).adapterWait = m.adapterWait := rfl
@[simp] theorem Mod.setCtl_upstream (i : Nat) (c : Controller) : (m.setCtl i c).upstream = m.upstream := rfl
@[simp] theorem Mod.setCtl_linkLevels (i : Nat) (c : Controller) : (m.setCtl i c).linkLevels = m.linkLevels := rfl
@[simp] theorem Mod.setCtl_beacon (i : Nat) (c : Controller) : (m.setCtl i c).beacon = m.beacon := rfl
@[simp] theorem Mod.setCtl_sets (i : Nat) (c : Controller) : (m.setCtl i c).sets = m.sets := rfl
@[simp] theorem Mod.setCtl_errs (i : Nat) (c : Controller) : (m.setCtl i c).errs = m.errs := rfl
@[simp] theorem Mod.setCtl_events (i : Nat) (c : Controller) : (m.setCtl i c).events = m.events := rfl
@[simp] theorem Mod.setCtl_nextSeq (i : Nat) (c : Controller) : (m.setCtl i c).nextSeq = m.nextSeq := rfl
@[simp] theorem Mod.setCtl_overwritten (i : Nat) (c : Controller) : (m.setCtl i c).overwritten = m.overwritten := rfl
@[simp] theorem Mod.setCtl_keyEpochs (i : Nat) (c : Controller) : (m.setCtl i c).keyEpochs = m.keyEpochs := rfl
@[simp] theorem Mod.setCtl_reports (i : Nat) (c : Controller) : (m.setCtl i c).reports = m.reports := rfl
@[simp] theorem Mod.setCtl_out (i : Nat) (c : Controller) : (m.setCtl i c).out = m.out := rfl
@[simp] theorem Mod.setCtl_free (i : Nat) (c : Controller) : (m.setCtl i c).free = m.free := rfl
@[simp] theorem Mod.setCtl_core_at (i : Nat) (c : Controller) (n : Nat) : (m.setCtl i c).core n = m.core n := rfl
@[simp] theorem Mod.setCtl_cluster_at (i : Nat) (c : Controller) (n : Nat) : (m.setCtl i c).cluster n = m.cluster n := rfl
@[simp] theorem Mod.setCtl_queue_at (i : Nat) (c : Controller) (p : QRef) : (m.setCtl i c).queue p = m.queue p := rfl
@[simp] theorem Mod.setCtl_set_at (i : Nat) (c : Controller) (n : Nat) : Mod.set (m.setCtl i c) n = Mod.set m n := rfl
@[simp] theorem Mod.setCtl_region_at (i : Nat) (c : Controller) (n : Nat) : (m.setCtl i c).region n = m.region n := rfl
@[simp] theorem Mod.setCtl_mooring_at (i : Nat) (c : Controller) (n : Nat) : (m.setCtl i c).mooring n = m.mooring n := rfl
@[simp] theorem Mod.setCtl_ctl_at (i : Nat) (c : Controller) (j : Nat) : (m.setCtl i c).ctl j = if j = i then c else m.ctl j := by
  simp [Mod.setCtl, Mod.ctl]
@[simp] theorem Mod.setCtl_err_at (i : Nat) (c : Controller) (n : Nat) : (m.setCtl i c).err n = m.err n := rfl
@[simp] theorem Mod.setCtl_slice_at (i : Nat) (c : Controller) (n : Nat) : (m.setCtl i c).slice n = m.slice n := rfl
@[simp] theorem Mod.setCtl_pdCore_at (i : Nat) (c : Controller) (n : Nat) : (m.setCtl i c).pdCore n = m.pdCore n := rfl
@[simp] theorem Mod.setCtl_reg_at (i : Nat) (c : Controller) (k l : Nat) (e : Word) : (m.setCtl i c).reg k l e = m.reg k l e := rfl
@[simp] theorem Mod.setCtl_sector_at (i : Nat) (c : Controller) (n : Nat) : (m.setCtl i c).sector n = m.sector n := rfl
@[simp] theorem Mod.setCtl_fn_at (i : Nat) (c : Controller) (k l : Nat) : (m.setCtl i c).fn k l = m.fn k l := rfl
@[simp] theorem Mod.setCtl_port_at (i : Nat) (c : Controller) (n : Nat) : (m.setCtl i c).port n = m.port n := rfl
@[simp] theorem Mod.setCtl_engine_at (i : Nat) (c : Controller) (n : Nat) : (m.setCtl i c).engine n = m.engine n := rfl
@[simp] theorem Mod.setCtl_die_at (i : Nat) (c : Controller) (n : Nat) : (m.setCtl i c).die n = m.die n := rfl
@[simp] theorem Mod.setCtl_pciePort_at (i : Nat) (c : Controller) (n : Nat) : (m.setCtl i c).pciePort n = m.pciePort n := rfl
@[simp] theorem Mod.setCtl_bt_at (i : Nat) (c : Controller)  : (m.setCtl i c).bt = m.bt := rfl

/-! ## setErr -/
@[simp] theorem Mod.setErr_part (i : Nat) (c : ErrRing) : (m.setErr i c).part = m.part := rfl
@[simp] theorem Mod.setErr_regs (i : Nat) (c : ErrRing) : (m.setErr i c).regs = m.regs := rfl
@[simp] theorem Mod.setErr_cores (i : Nat) (c : ErrRing) : (m.setErr i c).cores = m.cores := rfl
@[simp] theorem Mod.setErr_clusters (i : Nat) (c : ErrRing) : (m.setErr i c).clusters = m.clusters := rfl
@[simp] theorem Mod.setErr_posts (i : Nat) (c : ErrRing) : (m.setErr i c).posts = m.posts := rfl
@[simp] theorem Mod.setErr_dram (i : Nat) (c : ErrRing) : (m.setErr i c).dram = m.dram := rfl
@[simp] theorem Mod.setErr_poison (i : Nat) (c : ErrRing) : (m.setErr i c).poison = m.poison := rfl
@[simp] theorem Mod.setErr_regions (i : Nat) (c : ErrRing) : (m.setErr i c).regions = m.regions := rfl
@[simp] theorem Mod.setErr_moorings (i : Nat) (c : ErrRing) : (m.setErr i c).moorings = m.moorings := rfl
@[simp] theorem Mod.setErr_controllers (i : Nat) (c : ErrRing) : (m.setErr i c).controllers = m.controllers := rfl
@[simp] theorem Mod.setErr_hdm (i : Nat) (c : ErrRing) : (m.setErr i c).hdm = m.hdm := rfl
@[simp] theorem Mod.setErr_caches (i : Nat) (c : ErrRing) : (m.setErr i c).caches = m.caches := rfl
@[simp] theorem Mod.setErr_evictions (i : Nat) (c : ErrRing) : (m.setErr i c).evictions = m.evictions := rfl
@[simp] theorem Mod.setErr_slices (i : Nat) (c : ErrRing) : (m.setErr i c).slices = m.slices := rfl
@[simp] theorem Mod.setErr_pdCores (i : Nat) (c : ErrRing) : (m.setErr i c).pdCores = m.pdCores := rfl
@[simp] theorem Mod.setErr_sectors (i : Nat) (c : ErrRing) : (m.setErr i c).sectors = m.sectors := rfl
@[simp] theorem Mod.setErr_fns (i : Nat) (c : ErrRing) : (m.setErr i c).fns = m.fns := rfl
@[simp] theorem Mod.setErr_queues (i : Nat) (c : ErrRing) : (m.setErr i c).queues = m.queues := rfl
@[simp] theorem Mod.setErr_mqs (i : Nat) (c : ErrRing) : (m.setErr i c).mqs = m.mqs := rfl
@[simp] theorem Mod.setErr_mqPath (i : Nat) (c : ErrRing) : (m.setErr i c).mqPath = m.mqPath := rfl
@[simp] theorem Mod.setErr_mqSector (i : Nat) (c : ErrRing) : (m.setErr i c).mqSector = m.mqSector := rfl
@[simp] theorem Mod.setErr_mqTurn (i : Nat) (c : ErrRing) : (m.setErr i c).mqTurn = m.mqTurn := rfl
@[simp] theorem Mod.setErr_ports (i : Nat) (c : ErrRing) : (m.setErr i c).ports = m.ports := rfl
@[simp] theorem Mod.setErr_eds (i : Nat) (c : ErrRing) : (m.setErr i c).eds = m.eds := rfl
@[simp] theorem Mod.setErr_engines (i : Nat) (c : ErrRing) : (m.setErr i c).engines = m.engines := rfl
@[simp] theorem Mod.setErr_groupRoute (i : Nat) (c : ErrRing) : (m.setErr i c).groupRoute = m.groupRoute := rfl
@[simp] theorem Mod.setErr_memberRoute (i : Nat) (c : ErrRing) : (m.setErr i c).memberRoute = m.memberRoute := rfl
@[simp] theorem Mod.setErr_inbox (i : Nat) (c : ErrRing) : (m.setErr i c).inbox = m.inbox := rfl
@[simp] theorem Mod.setErr_routeWait (i : Nat) (c : ErrRing) : (m.setErr i c).routeWait = m.routeWait := rfl
@[simp] theorem Mod.setErr_arrived (i : Nat) (c : ErrRing) : (m.setErr i c).arrived = m.arrived := rfl
@[simp] theorem Mod.setErr_txFlows (i : Nat) (c : ErrRing) : (m.setErr i c).txFlows = m.txFlows := rfl
@[simp] theorem Mod.setErr_rxFlows (i : Nat) (c : ErrRing) : (m.setErr i c).rxFlows = m.rxFlows := rfl
@[simp] theorem Mod.setErr_holdoff (i : Nat) (c : ErrRing) : (m.setErr i c).holdoff = m.holdoff := rfl
@[simp] theorem Mod.setErr_tender (i : Nat) (c : ErrRing) : (m.setErr i c).tender = m.tender := rfl
@[simp] theorem Mod.setErr_injections (i : Nat) (c : ErrRing) : (m.setErr i c).injections = m.injections := rfl
@[simp] theorem Mod.setErr_dieGens (i : Nat) (c : ErrRing) : (m.setErr i c).dieGens = m.dieGens := rfl
@[simp] theorem Mod.setErr_remotes (i : Nat) (c : ErrRing) : (m.setErr i c).remotes = m.remotes := rfl
@[simp] theorem Mod.setErr_nextCmd (i : Nat) (c : ErrRing) : (m.setErr i c).nextCmd = m.nextCmd := rfl
@[simp] theorem Mod.setErr_txns (i : Nat) (c : ErrRing) : (m.setErr i c).txns = m.txns := rfl
@[simp] theorem Mod.setErr_tagWait (i : Nat) (c : ErrRing) : (m.setErr i c).tagWait = m.tagWait := rfl
@[simp] theorem Mod.setErr_aia (i : Nat) (c : ErrRing) : (m.setErr i c).aia = m.aia := rfl
@[simp] theorem Mod.setErr_zeros (i : Nat) (c : ErrRing) : (m.setErr i c).zeros = m.zeros := rfl
@[simp] theorem Mod.setErr_buckets (i : Nat) (c : ErrRing) : (m.setErr i c).buckets = m.buckets := rfl
@[simp] theorem Mod.setErr_ctlHot (i : Nat) (c : ErrRing) : (m.setErr i c).ctlHot = m.ctlHot := rfl
@[simp] theorem Mod.setErr_rtrHot (i : Nat) (c : ErrRing) : (m.setErr i c).rtrHot = m.rtrHot := rfl
@[simp] theorem Mod.setErr_cohError (i : Nat) (c : ErrRing) : (m.setErr i c).cohError = m.cohError := rfl
@[simp] theorem Mod.setErr_bursts (i : Nat) (c : ErrRing) : (m.setErr i c).bursts = m.bursts := rfl
@[simp] theorem Mod.setErr_keeperQueue (i : Nat) (c : ErrRing) : (m.setErr i c).keeperQueue = m.keeperQueue := rfl
@[simp] theorem Mod.setErr_keeperTurn (i : Nat) (c : ErrRing) : (m.setErr i c).keeperTurn = m.keeperTurn := rfl
@[simp] theorem Mod.setErr_keySlots (i : Nat) (c : ErrRing) : (m.setErr i c).keySlots = m.keySlots := rfl
@[simp] theorem Mod.setErr_models (i : Nat) (c : ErrRing) : (m.setErr i c).models = m.models := rfl
@[simp] theorem Mod.setErr_sessions (i : Nat) (c : ErrRing) : (m.setErr i c).sessions = m.sessions := rfl
@[simp] theorem Mod.setErr_scrubLast (i : Nat) (c : ErrRing) : (m.setErr i c).scrubLast = m.scrubLast := rfl
@[simp] theorem Mod.setErr_fills (i : Nat) (c : ErrRing) : (m.setErr i c).fills = m.fills := rfl
@[simp] theorem Mod.setErr_unlocked (i : Nat) (c : ErrRing) : (m.setErr i c).unlocked = m.unlocked := rfl
@[simp] theorem Mod.setErr_bootImage (i : Nat) (c : ErrRing) : (m.setErr i c).bootImage = m.bootImage := rfl
@[simp] theorem Mod.setErr_rootIndex (i : Nat) (c : ErrRing) : (m.setErr i c).rootIndex = m.rootIndex := rfl
@[simp] theorem Mod.setErr_starts (i : Nat) (c : ErrRing) : (m.setErr i c).starts = m.starts := rfl
@[simp] theorem Mod.setErr_svnFused (i : Nat) (c : ErrRing) : (m.setErr i c).svnFused = m.svnFused := rfl
@[simp] theorem Mod.setErr_svnRunning (i : Nat) (c : ErrRing) : (m.setErr i c).svnRunning = m.svnRunning := rfl
@[simp] theorem Mod.setErr_measurements (i : Nat) (c : ErrRing) : (m.setErr i c).measurements = m.measurements := rfl
@[simp] theorem Mod.setErr_dies (i : Nat) (c : ErrRing) : (m.setErr i c).dies = m.dies := rfl
@[simp] theorem Mod.setErr_harbourUp (i : Nat) (c : ErrRing) : (m.setErr i c).harbourUp = m.harbourUp := rfl
@[simp] theorem Mod.setErr_computeUp (i : Nat) (c : ErrRing) : (m.setErr i c).computeUp = m.computeUp := rfl
@[simp] theorem Mod.setErr_edgeLost (i : Nat) (c : ErrRing) : (m.setErr i c).edgeLost = m.edgeLost := rfl
@[simp] theorem Mod.setErr_fw (i : Nat) (c : ErrRing) : (m.setErr i c).fw = m.fw := rfl
@[simp] theorem Mod.setErr_power (i : Nat) (c : ErrRing) : (m.setErr i c).power = m.power := rfl
@[simp] theorem Mod.setErr_boot (i : Nat) (c : ErrRing) : (m.setErr i c).boot = m.boot := rfl
@[simp] theorem Mod.setErr_patrol (i : Nat) (c : ErrRing) : (m.setErr i c).patrol = m.patrol := rfl
@[simp] theorem Mod.setErr_lanes (i : Nat) (c : ErrRing) : (m.setErr i c).lanes = m.lanes := rfl
@[simp] theorem Mod.setErr_levels (i : Nat) (c : ErrRing) : (m.setErr i c).levels = m.levels := rfl
@[simp] theorem Mod.setErr_notices (i : Nat) (c : ErrRing) : (m.setErr i c).notices = m.notices := rfl
@[simp] theorem Mod.setErr_incoming (i : Nat) (c : ErrRing) : (m.setErr i c).incoming = m.incoming := rfl
@[simp] theorem Mod.setErr_remoteQ (i : Nat) (c : ErrRing) : (m.setErr i c).remoteQ = m.remoteQ := rfl
@[simp] theorem Mod.setErr_nextIncoming (i : Nat) (c : ErrRing) : (m.setErr i c).nextIncoming = m.nextIncoming := rfl
@[simp] theorem Mod.setErr_tap (i : Nat) (c : ErrRing) : (m.setErr i c).tap = m.tap := rfl
@[simp] theorem Mod.setErr_guest (i : Nat) (c : ErrRing) : (m.setErr i c).guest = m.guest := rfl
@[simp] theorem Mod.setErr_pcie (i : Nat) (c : ErrRing) : (m.setErr i c).pcie = m.pcie := rfl
@[simp] theorem Mod.setErr_iotlb (i : Nat) (c : ErrRing) : (m.setErr i c).iotlb = m.iotlb := rfl
@[simp] theorem Mod.setErr_adapterWait (i : Nat) (c : ErrRing) : (m.setErr i c).adapterWait = m.adapterWait := rfl
@[simp] theorem Mod.setErr_upstream (i : Nat) (c : ErrRing) : (m.setErr i c).upstream = m.upstream := rfl
@[simp] theorem Mod.setErr_linkLevels (i : Nat) (c : ErrRing) : (m.setErr i c).linkLevels = m.linkLevels := rfl
@[simp] theorem Mod.setErr_beacon (i : Nat) (c : ErrRing) : (m.setErr i c).beacon = m.beacon := rfl
@[simp] theorem Mod.setErr_sets (i : Nat) (c : ErrRing) : (m.setErr i c).sets = m.sets := rfl
@[simp] theorem Mod.setErr_events (i : Nat) (c : ErrRing) : (m.setErr i c).events = m.events := rfl
@[simp] theorem Mod.setErr_nextSeq (i : Nat) (c : ErrRing) : (m.setErr i c).nextSeq = m.nextSeq := rfl
@[simp] theorem Mod.setErr_overwritten (i : Nat) (c : ErrRing) : (m.setErr i c).overwritten = m.overwritten := rfl
@[simp] theorem Mod.setErr_keyEpochs (i : Nat) (c : ErrRing) : (m.setErr i c).keyEpochs = m.keyEpochs := rfl
@[simp] theorem Mod.setErr_reports (i : Nat) (c : ErrRing) : (m.setErr i c).reports = m.reports := rfl
@[simp] theorem Mod.setErr_out (i : Nat) (c : ErrRing) : (m.setErr i c).out = m.out := rfl
@[simp] theorem Mod.setErr_free (i : Nat) (c : ErrRing) : (m.setErr i c).free = m.free := rfl
@[simp] theorem Mod.setErr_core_at (i : Nat) (c : ErrRing) (n : Nat) : (m.setErr i c).core n = m.core n := rfl
@[simp] theorem Mod.setErr_cluster_at (i : Nat) (c : ErrRing) (n : Nat) : (m.setErr i c).cluster n = m.cluster n := rfl
@[simp] theorem Mod.setErr_queue_at (i : Nat) (c : ErrRing) (p : QRef) : (m.setErr i c).queue p = m.queue p := rfl
@[simp] theorem Mod.setErr_set_at (i : Nat) (c : ErrRing) (n : Nat) : Mod.set (m.setErr i c) n = Mod.set m n := rfl
@[simp] theorem Mod.setErr_region_at (i : Nat) (c : ErrRing) (n : Nat) : (m.setErr i c).region n = m.region n := rfl
@[simp] theorem Mod.setErr_mooring_at (i : Nat) (c : ErrRing) (n : Nat) : (m.setErr i c).mooring n = m.mooring n := rfl
@[simp] theorem Mod.setErr_ctl_at (i : Nat) (c : ErrRing) (n : Nat) : (m.setErr i c).ctl n = m.ctl n := rfl
@[simp] theorem Mod.setErr_err_at (i : Nat) (c : ErrRing) (j : Nat) : (m.setErr i c).err j = if j = i then c else m.err j := by
  simp [Mod.setErr, Mod.err]
@[simp] theorem Mod.setErr_slice_at (i : Nat) (c : ErrRing) (n : Nat) : (m.setErr i c).slice n = m.slice n := rfl
@[simp] theorem Mod.setErr_pdCore_at (i : Nat) (c : ErrRing) (n : Nat) : (m.setErr i c).pdCore n = m.pdCore n := rfl
@[simp] theorem Mod.setErr_reg_at (i : Nat) (c : ErrRing) (k l : Nat) (e : Word) : (m.setErr i c).reg k l e = m.reg k l e := rfl
@[simp] theorem Mod.setErr_sector_at (i : Nat) (c : ErrRing) (n : Nat) : (m.setErr i c).sector n = m.sector n := rfl
@[simp] theorem Mod.setErr_fn_at (i : Nat) (c : ErrRing) (k l : Nat) : (m.setErr i c).fn k l = m.fn k l := rfl
@[simp] theorem Mod.setErr_port_at (i : Nat) (c : ErrRing) (n : Nat) : (m.setErr i c).port n = m.port n := rfl
@[simp] theorem Mod.setErr_engine_at (i : Nat) (c : ErrRing) (n : Nat) : (m.setErr i c).engine n = m.engine n := rfl
@[simp] theorem Mod.setErr_die_at (i : Nat) (c : ErrRing) (n : Nat) : (m.setErr i c).die n = m.die n := rfl
@[simp] theorem Mod.setErr_pciePort_at (i : Nat) (c : ErrRing) (n : Nat) : (m.setErr i c).pciePort n = m.pciePort n := rfl
@[simp] theorem Mod.setErr_bt_at (i : Nat) (c : ErrRing)  : (m.setErr i c).bt = m.bt := rfl

/-! ## setSlice -/
@[simp] theorem Mod.setSlice_part (i : Nat) (c : Slice) : (m.setSlice i c).part = m.part := rfl
@[simp] theorem Mod.setSlice_regs (i : Nat) (c : Slice) : (m.setSlice i c).regs = m.regs := rfl
@[simp] theorem Mod.setSlice_cores (i : Nat) (c : Slice) : (m.setSlice i c).cores = m.cores := rfl
@[simp] theorem Mod.setSlice_clusters (i : Nat) (c : Slice) : (m.setSlice i c).clusters = m.clusters := rfl
@[simp] theorem Mod.setSlice_posts (i : Nat) (c : Slice) : (m.setSlice i c).posts = m.posts := rfl
@[simp] theorem Mod.setSlice_dram (i : Nat) (c : Slice) : (m.setSlice i c).dram = m.dram := rfl
@[simp] theorem Mod.setSlice_poison (i : Nat) (c : Slice) : (m.setSlice i c).poison = m.poison := rfl
@[simp] theorem Mod.setSlice_regions (i : Nat) (c : Slice) : (m.setSlice i c).regions = m.regions := rfl
@[simp] theorem Mod.setSlice_moorings (i : Nat) (c : Slice) : (m.setSlice i c).moorings = m.moorings := rfl
@[simp] theorem Mod.setSlice_controllers (i : Nat) (c : Slice) : (m.setSlice i c).controllers = m.controllers := rfl
@[simp] theorem Mod.setSlice_hdm (i : Nat) (c : Slice) : (m.setSlice i c).hdm = m.hdm := rfl
@[simp] theorem Mod.setSlice_caches (i : Nat) (c : Slice) : (m.setSlice i c).caches = m.caches := rfl
@[simp] theorem Mod.setSlice_evictions (i : Nat) (c : Slice) : (m.setSlice i c).evictions = m.evictions := rfl
@[simp] theorem Mod.setSlice_pdCores (i : Nat) (c : Slice) : (m.setSlice i c).pdCores = m.pdCores := rfl
@[simp] theorem Mod.setSlice_sectors (i : Nat) (c : Slice) : (m.setSlice i c).sectors = m.sectors := rfl
@[simp] theorem Mod.setSlice_fns (i : Nat) (c : Slice) : (m.setSlice i c).fns = m.fns := rfl
@[simp] theorem Mod.setSlice_queues (i : Nat) (c : Slice) : (m.setSlice i c).queues = m.queues := rfl
@[simp] theorem Mod.setSlice_mqs (i : Nat) (c : Slice) : (m.setSlice i c).mqs = m.mqs := rfl
@[simp] theorem Mod.setSlice_mqPath (i : Nat) (c : Slice) : (m.setSlice i c).mqPath = m.mqPath := rfl
@[simp] theorem Mod.setSlice_mqSector (i : Nat) (c : Slice) : (m.setSlice i c).mqSector = m.mqSector := rfl
@[simp] theorem Mod.setSlice_mqTurn (i : Nat) (c : Slice) : (m.setSlice i c).mqTurn = m.mqTurn := rfl
@[simp] theorem Mod.setSlice_ports (i : Nat) (c : Slice) : (m.setSlice i c).ports = m.ports := rfl
@[simp] theorem Mod.setSlice_eds (i : Nat) (c : Slice) : (m.setSlice i c).eds = m.eds := rfl
@[simp] theorem Mod.setSlice_engines (i : Nat) (c : Slice) : (m.setSlice i c).engines = m.engines := rfl
@[simp] theorem Mod.setSlice_groupRoute (i : Nat) (c : Slice) : (m.setSlice i c).groupRoute = m.groupRoute := rfl
@[simp] theorem Mod.setSlice_memberRoute (i : Nat) (c : Slice) : (m.setSlice i c).memberRoute = m.memberRoute := rfl
@[simp] theorem Mod.setSlice_inbox (i : Nat) (c : Slice) : (m.setSlice i c).inbox = m.inbox := rfl
@[simp] theorem Mod.setSlice_routeWait (i : Nat) (c : Slice) : (m.setSlice i c).routeWait = m.routeWait := rfl
@[simp] theorem Mod.setSlice_arrived (i : Nat) (c : Slice) : (m.setSlice i c).arrived = m.arrived := rfl
@[simp] theorem Mod.setSlice_txFlows (i : Nat) (c : Slice) : (m.setSlice i c).txFlows = m.txFlows := rfl
@[simp] theorem Mod.setSlice_rxFlows (i : Nat) (c : Slice) : (m.setSlice i c).rxFlows = m.rxFlows := rfl
@[simp] theorem Mod.setSlice_holdoff (i : Nat) (c : Slice) : (m.setSlice i c).holdoff = m.holdoff := rfl
@[simp] theorem Mod.setSlice_tender (i : Nat) (c : Slice) : (m.setSlice i c).tender = m.tender := rfl
@[simp] theorem Mod.setSlice_injections (i : Nat) (c : Slice) : (m.setSlice i c).injections = m.injections := rfl
@[simp] theorem Mod.setSlice_dieGens (i : Nat) (c : Slice) : (m.setSlice i c).dieGens = m.dieGens := rfl
@[simp] theorem Mod.setSlice_remotes (i : Nat) (c : Slice) : (m.setSlice i c).remotes = m.remotes := rfl
@[simp] theorem Mod.setSlice_nextCmd (i : Nat) (c : Slice) : (m.setSlice i c).nextCmd = m.nextCmd := rfl
@[simp] theorem Mod.setSlice_txns (i : Nat) (c : Slice) : (m.setSlice i c).txns = m.txns := rfl
@[simp] theorem Mod.setSlice_tagWait (i : Nat) (c : Slice) : (m.setSlice i c).tagWait = m.tagWait := rfl
@[simp] theorem Mod.setSlice_aia (i : Nat) (c : Slice) : (m.setSlice i c).aia = m.aia := rfl
@[simp] theorem Mod.setSlice_zeros (i : Nat) (c : Slice) : (m.setSlice i c).zeros = m.zeros := rfl
@[simp] theorem Mod.setSlice_buckets (i : Nat) (c : Slice) : (m.setSlice i c).buckets = m.buckets := rfl
@[simp] theorem Mod.setSlice_ctlHot (i : Nat) (c : Slice) : (m.setSlice i c).ctlHot = m.ctlHot := rfl
@[simp] theorem Mod.setSlice_rtrHot (i : Nat) (c : Slice) : (m.setSlice i c).rtrHot = m.rtrHot := rfl
@[simp] theorem Mod.setSlice_cohError (i : Nat) (c : Slice) : (m.setSlice i c).cohError = m.cohError := rfl
@[simp] theorem Mod.setSlice_bursts (i : Nat) (c : Slice) : (m.setSlice i c).bursts = m.bursts := rfl
@[simp] theorem Mod.setSlice_keeperQueue (i : Nat) (c : Slice) : (m.setSlice i c).keeperQueue = m.keeperQueue := rfl
@[simp] theorem Mod.setSlice_keeperTurn (i : Nat) (c : Slice) : (m.setSlice i c).keeperTurn = m.keeperTurn := rfl
@[simp] theorem Mod.setSlice_keySlots (i : Nat) (c : Slice) : (m.setSlice i c).keySlots = m.keySlots := rfl
@[simp] theorem Mod.setSlice_models (i : Nat) (c : Slice) : (m.setSlice i c).models = m.models := rfl
@[simp] theorem Mod.setSlice_sessions (i : Nat) (c : Slice) : (m.setSlice i c).sessions = m.sessions := rfl
@[simp] theorem Mod.setSlice_scrubLast (i : Nat) (c : Slice) : (m.setSlice i c).scrubLast = m.scrubLast := rfl
@[simp] theorem Mod.setSlice_fills (i : Nat) (c : Slice) : (m.setSlice i c).fills = m.fills := rfl
@[simp] theorem Mod.setSlice_unlocked (i : Nat) (c : Slice) : (m.setSlice i c).unlocked = m.unlocked := rfl
@[simp] theorem Mod.setSlice_bootImage (i : Nat) (c : Slice) : (m.setSlice i c).bootImage = m.bootImage := rfl
@[simp] theorem Mod.setSlice_rootIndex (i : Nat) (c : Slice) : (m.setSlice i c).rootIndex = m.rootIndex := rfl
@[simp] theorem Mod.setSlice_starts (i : Nat) (c : Slice) : (m.setSlice i c).starts = m.starts := rfl
@[simp] theorem Mod.setSlice_svnFused (i : Nat) (c : Slice) : (m.setSlice i c).svnFused = m.svnFused := rfl
@[simp] theorem Mod.setSlice_svnRunning (i : Nat) (c : Slice) : (m.setSlice i c).svnRunning = m.svnRunning := rfl
@[simp] theorem Mod.setSlice_measurements (i : Nat) (c : Slice) : (m.setSlice i c).measurements = m.measurements := rfl
@[simp] theorem Mod.setSlice_dies (i : Nat) (c : Slice) : (m.setSlice i c).dies = m.dies := rfl
@[simp] theorem Mod.setSlice_harbourUp (i : Nat) (c : Slice) : (m.setSlice i c).harbourUp = m.harbourUp := rfl
@[simp] theorem Mod.setSlice_computeUp (i : Nat) (c : Slice) : (m.setSlice i c).computeUp = m.computeUp := rfl
@[simp] theorem Mod.setSlice_edgeLost (i : Nat) (c : Slice) : (m.setSlice i c).edgeLost = m.edgeLost := rfl
@[simp] theorem Mod.setSlice_fw (i : Nat) (c : Slice) : (m.setSlice i c).fw = m.fw := rfl
@[simp] theorem Mod.setSlice_power (i : Nat) (c : Slice) : (m.setSlice i c).power = m.power := rfl
@[simp] theorem Mod.setSlice_boot (i : Nat) (c : Slice) : (m.setSlice i c).boot = m.boot := rfl
@[simp] theorem Mod.setSlice_patrol (i : Nat) (c : Slice) : (m.setSlice i c).patrol = m.patrol := rfl
@[simp] theorem Mod.setSlice_lanes (i : Nat) (c : Slice) : (m.setSlice i c).lanes = m.lanes := rfl
@[simp] theorem Mod.setSlice_levels (i : Nat) (c : Slice) : (m.setSlice i c).levels = m.levels := rfl
@[simp] theorem Mod.setSlice_notices (i : Nat) (c : Slice) : (m.setSlice i c).notices = m.notices := rfl
@[simp] theorem Mod.setSlice_incoming (i : Nat) (c : Slice) : (m.setSlice i c).incoming = m.incoming := rfl
@[simp] theorem Mod.setSlice_remoteQ (i : Nat) (c : Slice) : (m.setSlice i c).remoteQ = m.remoteQ := rfl
@[simp] theorem Mod.setSlice_nextIncoming (i : Nat) (c : Slice) : (m.setSlice i c).nextIncoming = m.nextIncoming := rfl
@[simp] theorem Mod.setSlice_tap (i : Nat) (c : Slice) : (m.setSlice i c).tap = m.tap := rfl
@[simp] theorem Mod.setSlice_guest (i : Nat) (c : Slice) : (m.setSlice i c).guest = m.guest := rfl
@[simp] theorem Mod.setSlice_pcie (i : Nat) (c : Slice) : (m.setSlice i c).pcie = m.pcie := rfl
@[simp] theorem Mod.setSlice_iotlb (i : Nat) (c : Slice) : (m.setSlice i c).iotlb = m.iotlb := rfl
@[simp] theorem Mod.setSlice_adapterWait (i : Nat) (c : Slice) : (m.setSlice i c).adapterWait = m.adapterWait := rfl
@[simp] theorem Mod.setSlice_upstream (i : Nat) (c : Slice) : (m.setSlice i c).upstream = m.upstream := rfl
@[simp] theorem Mod.setSlice_linkLevels (i : Nat) (c : Slice) : (m.setSlice i c).linkLevels = m.linkLevels := rfl
@[simp] theorem Mod.setSlice_beacon (i : Nat) (c : Slice) : (m.setSlice i c).beacon = m.beacon := rfl
@[simp] theorem Mod.setSlice_sets (i : Nat) (c : Slice) : (m.setSlice i c).sets = m.sets := rfl
@[simp] theorem Mod.setSlice_errs (i : Nat) (c : Slice) : (m.setSlice i c).errs = m.errs := rfl
@[simp] theorem Mod.setSlice_events (i : Nat) (c : Slice) : (m.setSlice i c).events = m.events := rfl
@[simp] theorem Mod.setSlice_nextSeq (i : Nat) (c : Slice) : (m.setSlice i c).nextSeq = m.nextSeq := rfl
@[simp] theorem Mod.setSlice_overwritten (i : Nat) (c : Slice) : (m.setSlice i c).overwritten = m.overwritten := rfl
@[simp] theorem Mod.setSlice_keyEpochs (i : Nat) (c : Slice) : (m.setSlice i c).keyEpochs = m.keyEpochs := rfl
@[simp] theorem Mod.setSlice_reports (i : Nat) (c : Slice) : (m.setSlice i c).reports = m.reports := rfl
@[simp] theorem Mod.setSlice_out (i : Nat) (c : Slice) : (m.setSlice i c).out = m.out := rfl
@[simp] theorem Mod.setSlice_free (i : Nat) (c : Slice) : (m.setSlice i c).free = m.free := rfl
@[simp] theorem Mod.setSlice_core_at (i : Nat) (c : Slice) (n : Nat) : (m.setSlice i c).core n = m.core n := rfl
@[simp] theorem Mod.setSlice_cluster_at (i : Nat) (c : Slice) (n : Nat) : (m.setSlice i c).cluster n = m.cluster n := rfl
@[simp] theorem Mod.setSlice_queue_at (i : Nat) (c : Slice) (p : QRef) : (m.setSlice i c).queue p = m.queue p := rfl
@[simp] theorem Mod.setSlice_set_at (i : Nat) (c : Slice) (n : Nat) : Mod.set (m.setSlice i c) n = Mod.set m n := rfl
@[simp] theorem Mod.setSlice_region_at (i : Nat) (c : Slice) (n : Nat) : (m.setSlice i c).region n = m.region n := rfl
@[simp] theorem Mod.setSlice_mooring_at (i : Nat) (c : Slice) (n : Nat) : (m.setSlice i c).mooring n = m.mooring n := rfl
@[simp] theorem Mod.setSlice_ctl_at (i : Nat) (c : Slice) (n : Nat) : (m.setSlice i c).ctl n = m.ctl n := rfl
@[simp] theorem Mod.setSlice_err_at (i : Nat) (c : Slice) (n : Nat) : (m.setSlice i c).err n = m.err n := rfl
@[simp] theorem Mod.setSlice_slice_at (i : Nat) (c : Slice) (j : Nat) : (m.setSlice i c).slice j = if j = i then c else m.slice j := by
  simp [Mod.setSlice, Mod.slice]
@[simp] theorem Mod.setSlice_pdCore_at (i : Nat) (c : Slice) (n : Nat) : (m.setSlice i c).pdCore n = m.pdCore n := rfl
@[simp] theorem Mod.setSlice_reg_at (i : Nat) (c : Slice) (k l : Nat) (e : Word) : (m.setSlice i c).reg k l e = m.reg k l e := rfl
@[simp] theorem Mod.setSlice_sector_at (i : Nat) (c : Slice) (n : Nat) : (m.setSlice i c).sector n = m.sector n := rfl
@[simp] theorem Mod.setSlice_fn_at (i : Nat) (c : Slice) (k l : Nat) : (m.setSlice i c).fn k l = m.fn k l := rfl
@[simp] theorem Mod.setSlice_port_at (i : Nat) (c : Slice) (n : Nat) : (m.setSlice i c).port n = m.port n := rfl
@[simp] theorem Mod.setSlice_engine_at (i : Nat) (c : Slice) (n : Nat) : (m.setSlice i c).engine n = m.engine n := rfl
@[simp] theorem Mod.setSlice_die_at (i : Nat) (c : Slice) (n : Nat) : (m.setSlice i c).die n = m.die n := rfl
@[simp] theorem Mod.setSlice_pciePort_at (i : Nat) (c : Slice) (n : Nat) : (m.setSlice i c).pciePort n = m.pciePort n := rfl
@[simp] theorem Mod.setSlice_bt_at (i : Nat) (c : Slice)  : (m.setSlice i c).bt = m.bt := rfl

/-! ## setPdCore -/
@[simp] theorem Mod.setPdCore_part (i : Nat) (c : PdCore) : (m.setPdCore i c).part = m.part := rfl
@[simp] theorem Mod.setPdCore_regs (i : Nat) (c : PdCore) : (m.setPdCore i c).regs = m.regs := rfl
@[simp] theorem Mod.setPdCore_cores (i : Nat) (c : PdCore) : (m.setPdCore i c).cores = m.cores := rfl
@[simp] theorem Mod.setPdCore_clusters (i : Nat) (c : PdCore) : (m.setPdCore i c).clusters = m.clusters := rfl
@[simp] theorem Mod.setPdCore_posts (i : Nat) (c : PdCore) : (m.setPdCore i c).posts = m.posts := rfl
@[simp] theorem Mod.setPdCore_dram (i : Nat) (c : PdCore) : (m.setPdCore i c).dram = m.dram := rfl
@[simp] theorem Mod.setPdCore_poison (i : Nat) (c : PdCore) : (m.setPdCore i c).poison = m.poison := rfl
@[simp] theorem Mod.setPdCore_regions (i : Nat) (c : PdCore) : (m.setPdCore i c).regions = m.regions := rfl
@[simp] theorem Mod.setPdCore_moorings (i : Nat) (c : PdCore) : (m.setPdCore i c).moorings = m.moorings := rfl
@[simp] theorem Mod.setPdCore_controllers (i : Nat) (c : PdCore) : (m.setPdCore i c).controllers = m.controllers := rfl
@[simp] theorem Mod.setPdCore_hdm (i : Nat) (c : PdCore) : (m.setPdCore i c).hdm = m.hdm := rfl
@[simp] theorem Mod.setPdCore_caches (i : Nat) (c : PdCore) : (m.setPdCore i c).caches = m.caches := rfl
@[simp] theorem Mod.setPdCore_evictions (i : Nat) (c : PdCore) : (m.setPdCore i c).evictions = m.evictions := rfl
@[simp] theorem Mod.setPdCore_slices (i : Nat) (c : PdCore) : (m.setPdCore i c).slices = m.slices := rfl
@[simp] theorem Mod.setPdCore_sectors (i : Nat) (c : PdCore) : (m.setPdCore i c).sectors = m.sectors := rfl
@[simp] theorem Mod.setPdCore_fns (i : Nat) (c : PdCore) : (m.setPdCore i c).fns = m.fns := rfl
@[simp] theorem Mod.setPdCore_queues (i : Nat) (c : PdCore) : (m.setPdCore i c).queues = m.queues := rfl
@[simp] theorem Mod.setPdCore_mqs (i : Nat) (c : PdCore) : (m.setPdCore i c).mqs = m.mqs := rfl
@[simp] theorem Mod.setPdCore_mqPath (i : Nat) (c : PdCore) : (m.setPdCore i c).mqPath = m.mqPath := rfl
@[simp] theorem Mod.setPdCore_mqSector (i : Nat) (c : PdCore) : (m.setPdCore i c).mqSector = m.mqSector := rfl
@[simp] theorem Mod.setPdCore_mqTurn (i : Nat) (c : PdCore) : (m.setPdCore i c).mqTurn = m.mqTurn := rfl
@[simp] theorem Mod.setPdCore_ports (i : Nat) (c : PdCore) : (m.setPdCore i c).ports = m.ports := rfl
@[simp] theorem Mod.setPdCore_eds (i : Nat) (c : PdCore) : (m.setPdCore i c).eds = m.eds := rfl
@[simp] theorem Mod.setPdCore_engines (i : Nat) (c : PdCore) : (m.setPdCore i c).engines = m.engines := rfl
@[simp] theorem Mod.setPdCore_groupRoute (i : Nat) (c : PdCore) : (m.setPdCore i c).groupRoute = m.groupRoute := rfl
@[simp] theorem Mod.setPdCore_memberRoute (i : Nat) (c : PdCore) : (m.setPdCore i c).memberRoute = m.memberRoute := rfl
@[simp] theorem Mod.setPdCore_inbox (i : Nat) (c : PdCore) : (m.setPdCore i c).inbox = m.inbox := rfl
@[simp] theorem Mod.setPdCore_routeWait (i : Nat) (c : PdCore) : (m.setPdCore i c).routeWait = m.routeWait := rfl
@[simp] theorem Mod.setPdCore_arrived (i : Nat) (c : PdCore) : (m.setPdCore i c).arrived = m.arrived := rfl
@[simp] theorem Mod.setPdCore_txFlows (i : Nat) (c : PdCore) : (m.setPdCore i c).txFlows = m.txFlows := rfl
@[simp] theorem Mod.setPdCore_rxFlows (i : Nat) (c : PdCore) : (m.setPdCore i c).rxFlows = m.rxFlows := rfl
@[simp] theorem Mod.setPdCore_holdoff (i : Nat) (c : PdCore) : (m.setPdCore i c).holdoff = m.holdoff := rfl
@[simp] theorem Mod.setPdCore_tender (i : Nat) (c : PdCore) : (m.setPdCore i c).tender = m.tender := rfl
@[simp] theorem Mod.setPdCore_injections (i : Nat) (c : PdCore) : (m.setPdCore i c).injections = m.injections := rfl
@[simp] theorem Mod.setPdCore_dieGens (i : Nat) (c : PdCore) : (m.setPdCore i c).dieGens = m.dieGens := rfl
@[simp] theorem Mod.setPdCore_remotes (i : Nat) (c : PdCore) : (m.setPdCore i c).remotes = m.remotes := rfl
@[simp] theorem Mod.setPdCore_nextCmd (i : Nat) (c : PdCore) : (m.setPdCore i c).nextCmd = m.nextCmd := rfl
@[simp] theorem Mod.setPdCore_txns (i : Nat) (c : PdCore) : (m.setPdCore i c).txns = m.txns := rfl
@[simp] theorem Mod.setPdCore_tagWait (i : Nat) (c : PdCore) : (m.setPdCore i c).tagWait = m.tagWait := rfl
@[simp] theorem Mod.setPdCore_aia (i : Nat) (c : PdCore) : (m.setPdCore i c).aia = m.aia := rfl
@[simp] theorem Mod.setPdCore_zeros (i : Nat) (c : PdCore) : (m.setPdCore i c).zeros = m.zeros := rfl
@[simp] theorem Mod.setPdCore_buckets (i : Nat) (c : PdCore) : (m.setPdCore i c).buckets = m.buckets := rfl
@[simp] theorem Mod.setPdCore_ctlHot (i : Nat) (c : PdCore) : (m.setPdCore i c).ctlHot = m.ctlHot := rfl
@[simp] theorem Mod.setPdCore_rtrHot (i : Nat) (c : PdCore) : (m.setPdCore i c).rtrHot = m.rtrHot := rfl
@[simp] theorem Mod.setPdCore_cohError (i : Nat) (c : PdCore) : (m.setPdCore i c).cohError = m.cohError := rfl
@[simp] theorem Mod.setPdCore_bursts (i : Nat) (c : PdCore) : (m.setPdCore i c).bursts = m.bursts := rfl
@[simp] theorem Mod.setPdCore_keeperQueue (i : Nat) (c : PdCore) : (m.setPdCore i c).keeperQueue = m.keeperQueue := rfl
@[simp] theorem Mod.setPdCore_keeperTurn (i : Nat) (c : PdCore) : (m.setPdCore i c).keeperTurn = m.keeperTurn := rfl
@[simp] theorem Mod.setPdCore_keySlots (i : Nat) (c : PdCore) : (m.setPdCore i c).keySlots = m.keySlots := rfl
@[simp] theorem Mod.setPdCore_models (i : Nat) (c : PdCore) : (m.setPdCore i c).models = m.models := rfl
@[simp] theorem Mod.setPdCore_sessions (i : Nat) (c : PdCore) : (m.setPdCore i c).sessions = m.sessions := rfl
@[simp] theorem Mod.setPdCore_scrubLast (i : Nat) (c : PdCore) : (m.setPdCore i c).scrubLast = m.scrubLast := rfl
@[simp] theorem Mod.setPdCore_fills (i : Nat) (c : PdCore) : (m.setPdCore i c).fills = m.fills := rfl
@[simp] theorem Mod.setPdCore_unlocked (i : Nat) (c : PdCore) : (m.setPdCore i c).unlocked = m.unlocked := rfl
@[simp] theorem Mod.setPdCore_bootImage (i : Nat) (c : PdCore) : (m.setPdCore i c).bootImage = m.bootImage := rfl
@[simp] theorem Mod.setPdCore_rootIndex (i : Nat) (c : PdCore) : (m.setPdCore i c).rootIndex = m.rootIndex := rfl
@[simp] theorem Mod.setPdCore_starts (i : Nat) (c : PdCore) : (m.setPdCore i c).starts = m.starts := rfl
@[simp] theorem Mod.setPdCore_svnFused (i : Nat) (c : PdCore) : (m.setPdCore i c).svnFused = m.svnFused := rfl
@[simp] theorem Mod.setPdCore_svnRunning (i : Nat) (c : PdCore) : (m.setPdCore i c).svnRunning = m.svnRunning := rfl
@[simp] theorem Mod.setPdCore_measurements (i : Nat) (c : PdCore) : (m.setPdCore i c).measurements = m.measurements := rfl
@[simp] theorem Mod.setPdCore_dies (i : Nat) (c : PdCore) : (m.setPdCore i c).dies = m.dies := rfl
@[simp] theorem Mod.setPdCore_harbourUp (i : Nat) (c : PdCore) : (m.setPdCore i c).harbourUp = m.harbourUp := rfl
@[simp] theorem Mod.setPdCore_computeUp (i : Nat) (c : PdCore) : (m.setPdCore i c).computeUp = m.computeUp := rfl
@[simp] theorem Mod.setPdCore_edgeLost (i : Nat) (c : PdCore) : (m.setPdCore i c).edgeLost = m.edgeLost := rfl
@[simp] theorem Mod.setPdCore_fw (i : Nat) (c : PdCore) : (m.setPdCore i c).fw = m.fw := rfl
@[simp] theorem Mod.setPdCore_power (i : Nat) (c : PdCore) : (m.setPdCore i c).power = m.power := rfl
@[simp] theorem Mod.setPdCore_boot (i : Nat) (c : PdCore) : (m.setPdCore i c).boot = m.boot := rfl
@[simp] theorem Mod.setPdCore_patrol (i : Nat) (c : PdCore) : (m.setPdCore i c).patrol = m.patrol := rfl
@[simp] theorem Mod.setPdCore_lanes (i : Nat) (c : PdCore) : (m.setPdCore i c).lanes = m.lanes := rfl
@[simp] theorem Mod.setPdCore_levels (i : Nat) (c : PdCore) : (m.setPdCore i c).levels = m.levels := rfl
@[simp] theorem Mod.setPdCore_notices (i : Nat) (c : PdCore) : (m.setPdCore i c).notices = m.notices := rfl
@[simp] theorem Mod.setPdCore_incoming (i : Nat) (c : PdCore) : (m.setPdCore i c).incoming = m.incoming := rfl
@[simp] theorem Mod.setPdCore_remoteQ (i : Nat) (c : PdCore) : (m.setPdCore i c).remoteQ = m.remoteQ := rfl
@[simp] theorem Mod.setPdCore_nextIncoming (i : Nat) (c : PdCore) : (m.setPdCore i c).nextIncoming = m.nextIncoming := rfl
@[simp] theorem Mod.setPdCore_tap (i : Nat) (c : PdCore) : (m.setPdCore i c).tap = m.tap := rfl
@[simp] theorem Mod.setPdCore_guest (i : Nat) (c : PdCore) : (m.setPdCore i c).guest = m.guest := rfl
@[simp] theorem Mod.setPdCore_pcie (i : Nat) (c : PdCore) : (m.setPdCore i c).pcie = m.pcie := rfl
@[simp] theorem Mod.setPdCore_iotlb (i : Nat) (c : PdCore) : (m.setPdCore i c).iotlb = m.iotlb := rfl
@[simp] theorem Mod.setPdCore_adapterWait (i : Nat) (c : PdCore) : (m.setPdCore i c).adapterWait = m.adapterWait := rfl
@[simp] theorem Mod.setPdCore_upstream (i : Nat) (c : PdCore) : (m.setPdCore i c).upstream = m.upstream := rfl
@[simp] theorem Mod.setPdCore_linkLevels (i : Nat) (c : PdCore) : (m.setPdCore i c).linkLevels = m.linkLevels := rfl
@[simp] theorem Mod.setPdCore_beacon (i : Nat) (c : PdCore) : (m.setPdCore i c).beacon = m.beacon := rfl
@[simp] theorem Mod.setPdCore_sets (i : Nat) (c : PdCore) : (m.setPdCore i c).sets = m.sets := rfl
@[simp] theorem Mod.setPdCore_errs (i : Nat) (c : PdCore) : (m.setPdCore i c).errs = m.errs := rfl
@[simp] theorem Mod.setPdCore_events (i : Nat) (c : PdCore) : (m.setPdCore i c).events = m.events := rfl
@[simp] theorem Mod.setPdCore_nextSeq (i : Nat) (c : PdCore) : (m.setPdCore i c).nextSeq = m.nextSeq := rfl
@[simp] theorem Mod.setPdCore_overwritten (i : Nat) (c : PdCore) : (m.setPdCore i c).overwritten = m.overwritten := rfl
@[simp] theorem Mod.setPdCore_keyEpochs (i : Nat) (c : PdCore) : (m.setPdCore i c).keyEpochs = m.keyEpochs := rfl
@[simp] theorem Mod.setPdCore_reports (i : Nat) (c : PdCore) : (m.setPdCore i c).reports = m.reports := rfl
@[simp] theorem Mod.setPdCore_out (i : Nat) (c : PdCore) : (m.setPdCore i c).out = m.out := rfl
@[simp] theorem Mod.setPdCore_free (i : Nat) (c : PdCore) : (m.setPdCore i c).free = m.free := rfl
@[simp] theorem Mod.setPdCore_core_at (i : Nat) (c : PdCore) (n : Nat) : (m.setPdCore i c).core n = m.core n := rfl
@[simp] theorem Mod.setPdCore_cluster_at (i : Nat) (c : PdCore) (n : Nat) : (m.setPdCore i c).cluster n = m.cluster n := rfl
@[simp] theorem Mod.setPdCore_queue_at (i : Nat) (c : PdCore) (p : QRef) : (m.setPdCore i c).queue p = m.queue p := rfl
@[simp] theorem Mod.setPdCore_set_at (i : Nat) (c : PdCore) (n : Nat) : Mod.set (m.setPdCore i c) n = Mod.set m n := rfl
@[simp] theorem Mod.setPdCore_region_at (i : Nat) (c : PdCore) (n : Nat) : (m.setPdCore i c).region n = m.region n := rfl
@[simp] theorem Mod.setPdCore_mooring_at (i : Nat) (c : PdCore) (n : Nat) : (m.setPdCore i c).mooring n = m.mooring n := rfl
@[simp] theorem Mod.setPdCore_ctl_at (i : Nat) (c : PdCore) (n : Nat) : (m.setPdCore i c).ctl n = m.ctl n := rfl
@[simp] theorem Mod.setPdCore_err_at (i : Nat) (c : PdCore) (n : Nat) : (m.setPdCore i c).err n = m.err n := rfl
@[simp] theorem Mod.setPdCore_slice_at (i : Nat) (c : PdCore) (n : Nat) : (m.setPdCore i c).slice n = m.slice n := rfl
@[simp] theorem Mod.setPdCore_pdCore_at (i : Nat) (c : PdCore) (j : Nat) : (m.setPdCore i c).pdCore j = if j = i then c else m.pdCore j := by
  simp [Mod.setPdCore, Mod.pdCore]
@[simp] theorem Mod.setPdCore_reg_at (i : Nat) (c : PdCore) (k l : Nat) (e : Word) : (m.setPdCore i c).reg k l e = m.reg k l e := rfl
@[simp] theorem Mod.setPdCore_sector_at (i : Nat) (c : PdCore) (n : Nat) : (m.setPdCore i c).sector n = m.sector n := rfl
@[simp] theorem Mod.setPdCore_fn_at (i : Nat) (c : PdCore) (k l : Nat) : (m.setPdCore i c).fn k l = m.fn k l := rfl
@[simp] theorem Mod.setPdCore_port_at (i : Nat) (c : PdCore) (n : Nat) : (m.setPdCore i c).port n = m.port n := rfl
@[simp] theorem Mod.setPdCore_engine_at (i : Nat) (c : PdCore) (n : Nat) : (m.setPdCore i c).engine n = m.engine n := rfl
@[simp] theorem Mod.setPdCore_die_at (i : Nat) (c : PdCore) (n : Nat) : (m.setPdCore i c).die n = m.die n := rfl
@[simp] theorem Mod.setPdCore_pciePort_at (i : Nat) (c : PdCore) (n : Nat) : (m.setPdCore i c).pciePort n = m.pciePort n := rfl
@[simp] theorem Mod.setPdCore_bt_at (i : Nat) (c : PdCore)  : (m.setPdCore i c).bt = m.bt := rfl

/-! ## setReg -/
@[simp] theorem Mod.setReg_part (i j : Nat) (d c : Word) : (m.setReg i j d c).part = m.part := rfl
@[simp] theorem Mod.setReg_cores (i j : Nat) (d c : Word) : (m.setReg i j d c).cores = m.cores := rfl
@[simp] theorem Mod.setReg_clusters (i j : Nat) (d c : Word) : (m.setReg i j d c).clusters = m.clusters := rfl
@[simp] theorem Mod.setReg_posts (i j : Nat) (d c : Word) : (m.setReg i j d c).posts = m.posts := rfl
@[simp] theorem Mod.setReg_dram (i j : Nat) (d c : Word) : (m.setReg i j d c).dram = m.dram := rfl
@[simp] theorem Mod.setReg_poison (i j : Nat) (d c : Word) : (m.setReg i j d c).poison = m.poison := rfl
@[simp] theorem Mod.setReg_regions (i j : Nat) (d c : Word) : (m.setReg i j d c).regions = m.regions := rfl
@[simp] theorem Mod.setReg_moorings (i j : Nat) (d c : Word) : (m.setReg i j d c).moorings = m.moorings := rfl
@[simp] theorem Mod.setReg_controllers (i j : Nat) (d c : Word) : (m.setReg i j d c).controllers = m.controllers := rfl
@[simp] theorem Mod.setReg_hdm (i j : Nat) (d c : Word) : (m.setReg i j d c).hdm = m.hdm := rfl
@[simp] theorem Mod.setReg_caches (i j : Nat) (d c : Word) : (m.setReg i j d c).caches = m.caches := rfl
@[simp] theorem Mod.setReg_evictions (i j : Nat) (d c : Word) : (m.setReg i j d c).evictions = m.evictions := rfl
@[simp] theorem Mod.setReg_slices (i j : Nat) (d c : Word) : (m.setReg i j d c).slices = m.slices := rfl
@[simp] theorem Mod.setReg_pdCores (i j : Nat) (d c : Word) : (m.setReg i j d c).pdCores = m.pdCores := rfl
@[simp] theorem Mod.setReg_sectors (i j : Nat) (d c : Word) : (m.setReg i j d c).sectors = m.sectors := rfl
@[simp] theorem Mod.setReg_fns (i j : Nat) (d c : Word) : (m.setReg i j d c).fns = m.fns := rfl
@[simp] theorem Mod.setReg_queues (i j : Nat) (d c : Word) : (m.setReg i j d c).queues = m.queues := rfl
@[simp] theorem Mod.setReg_mqs (i j : Nat) (d c : Word) : (m.setReg i j d c).mqs = m.mqs := rfl
@[simp] theorem Mod.setReg_mqPath (i j : Nat) (d c : Word) : (m.setReg i j d c).mqPath = m.mqPath := rfl
@[simp] theorem Mod.setReg_mqSector (i j : Nat) (d c : Word) : (m.setReg i j d c).mqSector = m.mqSector := rfl
@[simp] theorem Mod.setReg_mqTurn (i j : Nat) (d c : Word) : (m.setReg i j d c).mqTurn = m.mqTurn := rfl
@[simp] theorem Mod.setReg_ports (i j : Nat) (d c : Word) : (m.setReg i j d c).ports = m.ports := rfl
@[simp] theorem Mod.setReg_eds (i j : Nat) (d c : Word) : (m.setReg i j d c).eds = m.eds := rfl
@[simp] theorem Mod.setReg_engines (i j : Nat) (d c : Word) : (m.setReg i j d c).engines = m.engines := rfl
@[simp] theorem Mod.setReg_groupRoute (i j : Nat) (d c : Word) : (m.setReg i j d c).groupRoute = m.groupRoute := rfl
@[simp] theorem Mod.setReg_memberRoute (i j : Nat) (d c : Word) : (m.setReg i j d c).memberRoute = m.memberRoute := rfl
@[simp] theorem Mod.setReg_inbox (i j : Nat) (d c : Word) : (m.setReg i j d c).inbox = m.inbox := rfl
@[simp] theorem Mod.setReg_routeWait (i j : Nat) (d c : Word) : (m.setReg i j d c).routeWait = m.routeWait := rfl
@[simp] theorem Mod.setReg_arrived (i j : Nat) (d c : Word) : (m.setReg i j d c).arrived = m.arrived := rfl
@[simp] theorem Mod.setReg_txFlows (i j : Nat) (d c : Word) : (m.setReg i j d c).txFlows = m.txFlows := rfl
@[simp] theorem Mod.setReg_rxFlows (i j : Nat) (d c : Word) : (m.setReg i j d c).rxFlows = m.rxFlows := rfl
@[simp] theorem Mod.setReg_holdoff (i j : Nat) (d c : Word) : (m.setReg i j d c).holdoff = m.holdoff := rfl
@[simp] theorem Mod.setReg_tender (i j : Nat) (d c : Word) : (m.setReg i j d c).tender = m.tender := rfl
@[simp] theorem Mod.setReg_injections (i j : Nat) (d c : Word) : (m.setReg i j d c).injections = m.injections := rfl
@[simp] theorem Mod.setReg_dieGens (i j : Nat) (d c : Word) : (m.setReg i j d c).dieGens = m.dieGens := rfl
@[simp] theorem Mod.setReg_remotes (i j : Nat) (d c : Word) : (m.setReg i j d c).remotes = m.remotes := rfl
@[simp] theorem Mod.setReg_nextCmd (i j : Nat) (d c : Word) : (m.setReg i j d c).nextCmd = m.nextCmd := rfl
@[simp] theorem Mod.setReg_txns (i j : Nat) (d c : Word) : (m.setReg i j d c).txns = m.txns := rfl
@[simp] theorem Mod.setReg_tagWait (i j : Nat) (d c : Word) : (m.setReg i j d c).tagWait = m.tagWait := rfl
@[simp] theorem Mod.setReg_aia (i j : Nat) (d c : Word) : (m.setReg i j d c).aia = m.aia := rfl
@[simp] theorem Mod.setReg_zeros (i j : Nat) (d c : Word) : (m.setReg i j d c).zeros = m.zeros := rfl
@[simp] theorem Mod.setReg_buckets (i j : Nat) (d c : Word) : (m.setReg i j d c).buckets = m.buckets := rfl
@[simp] theorem Mod.setReg_ctlHot (i j : Nat) (d c : Word) : (m.setReg i j d c).ctlHot = m.ctlHot := rfl
@[simp] theorem Mod.setReg_rtrHot (i j : Nat) (d c : Word) : (m.setReg i j d c).rtrHot = m.rtrHot := rfl
@[simp] theorem Mod.setReg_cohError (i j : Nat) (d c : Word) : (m.setReg i j d c).cohError = m.cohError := rfl
@[simp] theorem Mod.setReg_bursts (i j : Nat) (d c : Word) : (m.setReg i j d c).bursts = m.bursts := rfl
@[simp] theorem Mod.setReg_keeperQueue (i j : Nat) (d c : Word) : (m.setReg i j d c).keeperQueue = m.keeperQueue := rfl
@[simp] theorem Mod.setReg_keeperTurn (i j : Nat) (d c : Word) : (m.setReg i j d c).keeperTurn = m.keeperTurn := rfl
@[simp] theorem Mod.setReg_keySlots (i j : Nat) (d c : Word) : (m.setReg i j d c).keySlots = m.keySlots := rfl
@[simp] theorem Mod.setReg_models (i j : Nat) (d c : Word) : (m.setReg i j d c).models = m.models := rfl
@[simp] theorem Mod.setReg_sessions (i j : Nat) (d c : Word) : (m.setReg i j d c).sessions = m.sessions := rfl
@[simp] theorem Mod.setReg_scrubLast (i j : Nat) (d c : Word) : (m.setReg i j d c).scrubLast = m.scrubLast := rfl
@[simp] theorem Mod.setReg_fills (i j : Nat) (d c : Word) : (m.setReg i j d c).fills = m.fills := rfl
@[simp] theorem Mod.setReg_unlocked (i j : Nat) (d c : Word) : (m.setReg i j d c).unlocked = m.unlocked := rfl
@[simp] theorem Mod.setReg_bootImage (i j : Nat) (d c : Word) : (m.setReg i j d c).bootImage = m.bootImage := rfl
@[simp] theorem Mod.setReg_rootIndex (i j : Nat) (d c : Word) : (m.setReg i j d c).rootIndex = m.rootIndex := rfl
@[simp] theorem Mod.setReg_starts (i j : Nat) (d c : Word) : (m.setReg i j d c).starts = m.starts := rfl
@[simp] theorem Mod.setReg_svnFused (i j : Nat) (d c : Word) : (m.setReg i j d c).svnFused = m.svnFused := rfl
@[simp] theorem Mod.setReg_svnRunning (i j : Nat) (d c : Word) : (m.setReg i j d c).svnRunning = m.svnRunning := rfl
@[simp] theorem Mod.setReg_measurements (i j : Nat) (d c : Word) : (m.setReg i j d c).measurements = m.measurements := rfl
@[simp] theorem Mod.setReg_dies (i j : Nat) (d c : Word) : (m.setReg i j d c).dies = m.dies := rfl
@[simp] theorem Mod.setReg_harbourUp (i j : Nat) (d c : Word) : (m.setReg i j d c).harbourUp = m.harbourUp := rfl
@[simp] theorem Mod.setReg_computeUp (i j : Nat) (d c : Word) : (m.setReg i j d c).computeUp = m.computeUp := rfl
@[simp] theorem Mod.setReg_edgeLost (i j : Nat) (d c : Word) : (m.setReg i j d c).edgeLost = m.edgeLost := rfl
@[simp] theorem Mod.setReg_fw (i j : Nat) (d c : Word) : (m.setReg i j d c).fw = m.fw := rfl
@[simp] theorem Mod.setReg_power (i j : Nat) (d c : Word) : (m.setReg i j d c).power = m.power := rfl
@[simp] theorem Mod.setReg_boot (i j : Nat) (d c : Word) : (m.setReg i j d c).boot = m.boot := rfl
@[simp] theorem Mod.setReg_patrol (i j : Nat) (d c : Word) : (m.setReg i j d c).patrol = m.patrol := rfl
@[simp] theorem Mod.setReg_lanes (i j : Nat) (d c : Word) : (m.setReg i j d c).lanes = m.lanes := rfl
@[simp] theorem Mod.setReg_levels (i j : Nat) (d c : Word) : (m.setReg i j d c).levels = m.levels := rfl
@[simp] theorem Mod.setReg_notices (i j : Nat) (d c : Word) : (m.setReg i j d c).notices = m.notices := rfl
@[simp] theorem Mod.setReg_incoming (i j : Nat) (d c : Word) : (m.setReg i j d c).incoming = m.incoming := rfl
@[simp] theorem Mod.setReg_remoteQ (i j : Nat) (d c : Word) : (m.setReg i j d c).remoteQ = m.remoteQ := rfl
@[simp] theorem Mod.setReg_nextIncoming (i j : Nat) (d c : Word) : (m.setReg i j d c).nextIncoming = m.nextIncoming := rfl
@[simp] theorem Mod.setReg_tap (i j : Nat) (d c : Word) : (m.setReg i j d c).tap = m.tap := rfl
@[simp] theorem Mod.setReg_guest (i j : Nat) (d c : Word) : (m.setReg i j d c).guest = m.guest := rfl
@[simp] theorem Mod.setReg_pcie (i j : Nat) (d c : Word) : (m.setReg i j d c).pcie = m.pcie := rfl
@[simp] theorem Mod.setReg_iotlb (i j : Nat) (d c : Word) : (m.setReg i j d c).iotlb = m.iotlb := rfl
@[simp] theorem Mod.setReg_adapterWait (i j : Nat) (d c : Word) : (m.setReg i j d c).adapterWait = m.adapterWait := rfl
@[simp] theorem Mod.setReg_upstream (i j : Nat) (d c : Word) : (m.setReg i j d c).upstream = m.upstream := rfl
@[simp] theorem Mod.setReg_linkLevels (i j : Nat) (d c : Word) : (m.setReg i j d c).linkLevels = m.linkLevels := rfl
@[simp] theorem Mod.setReg_beacon (i j : Nat) (d c : Word) : (m.setReg i j d c).beacon = m.beacon := rfl
@[simp] theorem Mod.setReg_sets (i j : Nat) (d c : Word) : (m.setReg i j d c).sets = m.sets := rfl
@[simp] theorem Mod.setReg_errs (i j : Nat) (d c : Word) : (m.setReg i j d c).errs = m.errs := rfl
@[simp] theorem Mod.setReg_events (i j : Nat) (d c : Word) : (m.setReg i j d c).events = m.events := rfl
@[simp] theorem Mod.setReg_nextSeq (i j : Nat) (d c : Word) : (m.setReg i j d c).nextSeq = m.nextSeq := rfl
@[simp] theorem Mod.setReg_overwritten (i j : Nat) (d c : Word) : (m.setReg i j d c).overwritten = m.overwritten := rfl
@[simp] theorem Mod.setReg_keyEpochs (i j : Nat) (d c : Word) : (m.setReg i j d c).keyEpochs = m.keyEpochs := rfl
@[simp] theorem Mod.setReg_reports (i j : Nat) (d c : Word) : (m.setReg i j d c).reports = m.reports := rfl
@[simp] theorem Mod.setReg_out (i j : Nat) (d c : Word) : (m.setReg i j d c).out = m.out := rfl
@[simp] theorem Mod.setReg_free (i j : Nat) (d c : Word) : (m.setReg i j d c).free = m.free := rfl
@[simp] theorem Mod.setReg_core_at (i j : Nat) (d c : Word) (n : Nat) : (m.setReg i j d c).core n = m.core n := rfl
@[simp] theorem Mod.setReg_cluster_at (i j : Nat) (d c : Word) (n : Nat) : (m.setReg i j d c).cluster n = m.cluster n := rfl
@[simp] theorem Mod.setReg_queue_at (i j : Nat) (d c : Word) (p : QRef) : (m.setReg i j d c).queue p = m.queue p := rfl
@[simp] theorem Mod.setReg_set_at (i j : Nat) (d c : Word) (n : Nat) : Mod.set (m.setReg i j d c) n = Mod.set m n := rfl
@[simp] theorem Mod.setReg_region_at (i j : Nat) (d c : Word) (n : Nat) : (m.setReg i j d c).region n = m.region n := rfl
@[simp] theorem Mod.setReg_mooring_at (i j : Nat) (d c : Word) (n : Nat) : (m.setReg i j d c).mooring n = m.mooring n := rfl
@[simp] theorem Mod.setReg_ctl_at (i j : Nat) (d c : Word) (n : Nat) : (m.setReg i j d c).ctl n = m.ctl n := rfl
@[simp] theorem Mod.setReg_err_at (i j : Nat) (d c : Word) (n : Nat) : (m.setReg i j d c).err n = m.err n := rfl
@[simp] theorem Mod.setReg_slice_at (i j : Nat) (d c : Word) (n : Nat) : (m.setReg i j d c).slice n = m.slice n := rfl
@[simp] theorem Mod.setReg_pdCore_at (i j : Nat) (d c : Word) (n : Nat) : (m.setReg i j d c).pdCore n = m.pdCore n := rfl
@[simp] theorem Mod.setReg_reg (i j : Nat) (d c : Word) : (m.setReg i j d c).reg i j d = c := by
  unfold Mod.setReg Mod.reg
  split
  · simp [*, Table.find_erase]
  · simp
theorem Mod.setReg_reg_other (i j k l : Nat) (d c e : Word) (h : k * 2 ^ 32 + l ≠ i * 2 ^ 32 + j) : (m.setReg i j d c).reg k l e = m.reg k l e := by
  unfold Mod.setReg Mod.reg
  split
  · rw [Table.find_erase, if_neg h]
  · rw [Table.find_put, if_neg h]
@[simp] theorem Mod.setReg_sector_at (i j : Nat) (d c : Word) (n : Nat) : (m.setReg i j d c).sector n = m.sector n := rfl
@[simp] theorem Mod.setReg_fn_at (i j : Nat) (d c : Word) (k l : Nat) : (m.setReg i j d c).fn k l = m.fn k l := rfl
@[simp] theorem Mod.setReg_port_at (i j : Nat) (d c : Word) (n : Nat) : (m.setReg i j d c).port n = m.port n := rfl
@[simp] theorem Mod.setReg_engine_at (i j : Nat) (d c : Word) (n : Nat) : (m.setReg i j d c).engine n = m.engine n := rfl
@[simp] theorem Mod.setReg_die_at (i j : Nat) (d c : Word) (n : Nat) : (m.setReg i j d c).die n = m.die n := rfl
@[simp] theorem Mod.setReg_pciePort_at (i j : Nat) (d c : Word) (n : Nat) : (m.setReg i j d c).pciePort n = m.pciePort n := rfl
@[simp] theorem Mod.setReg_bt_at (i j : Nat) (d c : Word)  : (m.setReg i j d c).bt = m.bt := rfl

/-! ## setSector -/
@[simp] theorem Mod.setSector_part (i : Nat) (c : Sector) : (m.setSector i c).part = m.part := rfl
@[simp] theorem Mod.setSector_regs (i : Nat) (c : Sector) : (m.setSector i c).regs = m.regs := rfl
@[simp] theorem Mod.setSector_cores (i : Nat) (c : Sector) : (m.setSector i c).cores = m.cores := rfl
@[simp] theorem Mod.setSector_clusters (i : Nat) (c : Sector) : (m.setSector i c).clusters = m.clusters := rfl
@[simp] theorem Mod.setSector_posts (i : Nat) (c : Sector) : (m.setSector i c).posts = m.posts := rfl
@[simp] theorem Mod.setSector_dram (i : Nat) (c : Sector) : (m.setSector i c).dram = m.dram := rfl
@[simp] theorem Mod.setSector_poison (i : Nat) (c : Sector) : (m.setSector i c).poison = m.poison := rfl
@[simp] theorem Mod.setSector_regions (i : Nat) (c : Sector) : (m.setSector i c).regions = m.regions := rfl
@[simp] theorem Mod.setSector_moorings (i : Nat) (c : Sector) : (m.setSector i c).moorings = m.moorings := rfl
@[simp] theorem Mod.setSector_controllers (i : Nat) (c : Sector) : (m.setSector i c).controllers = m.controllers := rfl
@[simp] theorem Mod.setSector_hdm (i : Nat) (c : Sector) : (m.setSector i c).hdm = m.hdm := rfl
@[simp] theorem Mod.setSector_caches (i : Nat) (c : Sector) : (m.setSector i c).caches = m.caches := rfl
@[simp] theorem Mod.setSector_evictions (i : Nat) (c : Sector) : (m.setSector i c).evictions = m.evictions := rfl
@[simp] theorem Mod.setSector_slices (i : Nat) (c : Sector) : (m.setSector i c).slices = m.slices := rfl
@[simp] theorem Mod.setSector_pdCores (i : Nat) (c : Sector) : (m.setSector i c).pdCores = m.pdCores := rfl
@[simp] theorem Mod.setSector_fns (i : Nat) (c : Sector) : (m.setSector i c).fns = m.fns := rfl
@[simp] theorem Mod.setSector_queues (i : Nat) (c : Sector) : (m.setSector i c).queues = m.queues := rfl
@[simp] theorem Mod.setSector_mqs (i : Nat) (c : Sector) : (m.setSector i c).mqs = m.mqs := rfl
@[simp] theorem Mod.setSector_mqPath (i : Nat) (c : Sector) : (m.setSector i c).mqPath = m.mqPath := rfl
@[simp] theorem Mod.setSector_mqSector (i : Nat) (c : Sector) : (m.setSector i c).mqSector = m.mqSector := rfl
@[simp] theorem Mod.setSector_mqTurn (i : Nat) (c : Sector) : (m.setSector i c).mqTurn = m.mqTurn := rfl
@[simp] theorem Mod.setSector_ports (i : Nat) (c : Sector) : (m.setSector i c).ports = m.ports := rfl
@[simp] theorem Mod.setSector_eds (i : Nat) (c : Sector) : (m.setSector i c).eds = m.eds := rfl
@[simp] theorem Mod.setSector_engines (i : Nat) (c : Sector) : (m.setSector i c).engines = m.engines := rfl
@[simp] theorem Mod.setSector_groupRoute (i : Nat) (c : Sector) : (m.setSector i c).groupRoute = m.groupRoute := rfl
@[simp] theorem Mod.setSector_memberRoute (i : Nat) (c : Sector) : (m.setSector i c).memberRoute = m.memberRoute := rfl
@[simp] theorem Mod.setSector_inbox (i : Nat) (c : Sector) : (m.setSector i c).inbox = m.inbox := rfl
@[simp] theorem Mod.setSector_routeWait (i : Nat) (c : Sector) : (m.setSector i c).routeWait = m.routeWait := rfl
@[simp] theorem Mod.setSector_arrived (i : Nat) (c : Sector) : (m.setSector i c).arrived = m.arrived := rfl
@[simp] theorem Mod.setSector_txFlows (i : Nat) (c : Sector) : (m.setSector i c).txFlows = m.txFlows := rfl
@[simp] theorem Mod.setSector_rxFlows (i : Nat) (c : Sector) : (m.setSector i c).rxFlows = m.rxFlows := rfl
@[simp] theorem Mod.setSector_holdoff (i : Nat) (c : Sector) : (m.setSector i c).holdoff = m.holdoff := rfl
@[simp] theorem Mod.setSector_tender (i : Nat) (c : Sector) : (m.setSector i c).tender = m.tender := rfl
@[simp] theorem Mod.setSector_injections (i : Nat) (c : Sector) : (m.setSector i c).injections = m.injections := rfl
@[simp] theorem Mod.setSector_dieGens (i : Nat) (c : Sector) : (m.setSector i c).dieGens = m.dieGens := rfl
@[simp] theorem Mod.setSector_remotes (i : Nat) (c : Sector) : (m.setSector i c).remotes = m.remotes := rfl
@[simp] theorem Mod.setSector_nextCmd (i : Nat) (c : Sector) : (m.setSector i c).nextCmd = m.nextCmd := rfl
@[simp] theorem Mod.setSector_txns (i : Nat) (c : Sector) : (m.setSector i c).txns = m.txns := rfl
@[simp] theorem Mod.setSector_tagWait (i : Nat) (c : Sector) : (m.setSector i c).tagWait = m.tagWait := rfl
@[simp] theorem Mod.setSector_aia (i : Nat) (c : Sector) : (m.setSector i c).aia = m.aia := rfl
@[simp] theorem Mod.setSector_zeros (i : Nat) (c : Sector) : (m.setSector i c).zeros = m.zeros := rfl
@[simp] theorem Mod.setSector_buckets (i : Nat) (c : Sector) : (m.setSector i c).buckets = m.buckets := rfl
@[simp] theorem Mod.setSector_ctlHot (i : Nat) (c : Sector) : (m.setSector i c).ctlHot = m.ctlHot := rfl
@[simp] theorem Mod.setSector_rtrHot (i : Nat) (c : Sector) : (m.setSector i c).rtrHot = m.rtrHot := rfl
@[simp] theorem Mod.setSector_cohError (i : Nat) (c : Sector) : (m.setSector i c).cohError = m.cohError := rfl
@[simp] theorem Mod.setSector_bursts (i : Nat) (c : Sector) : (m.setSector i c).bursts = m.bursts := rfl
@[simp] theorem Mod.setSector_keeperQueue (i : Nat) (c : Sector) : (m.setSector i c).keeperQueue = m.keeperQueue := rfl
@[simp] theorem Mod.setSector_keeperTurn (i : Nat) (c : Sector) : (m.setSector i c).keeperTurn = m.keeperTurn := rfl
@[simp] theorem Mod.setSector_keySlots (i : Nat) (c : Sector) : (m.setSector i c).keySlots = m.keySlots := rfl
@[simp] theorem Mod.setSector_models (i : Nat) (c : Sector) : (m.setSector i c).models = m.models := rfl
@[simp] theorem Mod.setSector_sessions (i : Nat) (c : Sector) : (m.setSector i c).sessions = m.sessions := rfl
@[simp] theorem Mod.setSector_scrubLast (i : Nat) (c : Sector) : (m.setSector i c).scrubLast = m.scrubLast := rfl
@[simp] theorem Mod.setSector_fills (i : Nat) (c : Sector) : (m.setSector i c).fills = m.fills := rfl
@[simp] theorem Mod.setSector_unlocked (i : Nat) (c : Sector) : (m.setSector i c).unlocked = m.unlocked := rfl
@[simp] theorem Mod.setSector_bootImage (i : Nat) (c : Sector) : (m.setSector i c).bootImage = m.bootImage := rfl
@[simp] theorem Mod.setSector_rootIndex (i : Nat) (c : Sector) : (m.setSector i c).rootIndex = m.rootIndex := rfl
@[simp] theorem Mod.setSector_starts (i : Nat) (c : Sector) : (m.setSector i c).starts = m.starts := rfl
@[simp] theorem Mod.setSector_svnFused (i : Nat) (c : Sector) : (m.setSector i c).svnFused = m.svnFused := rfl
@[simp] theorem Mod.setSector_svnRunning (i : Nat) (c : Sector) : (m.setSector i c).svnRunning = m.svnRunning := rfl
@[simp] theorem Mod.setSector_measurements (i : Nat) (c : Sector) : (m.setSector i c).measurements = m.measurements := rfl
@[simp] theorem Mod.setSector_dies (i : Nat) (c : Sector) : (m.setSector i c).dies = m.dies := rfl
@[simp] theorem Mod.setSector_harbourUp (i : Nat) (c : Sector) : (m.setSector i c).harbourUp = m.harbourUp := rfl
@[simp] theorem Mod.setSector_computeUp (i : Nat) (c : Sector) : (m.setSector i c).computeUp = m.computeUp := rfl
@[simp] theorem Mod.setSector_edgeLost (i : Nat) (c : Sector) : (m.setSector i c).edgeLost = m.edgeLost := rfl
@[simp] theorem Mod.setSector_fw (i : Nat) (c : Sector) : (m.setSector i c).fw = m.fw := rfl
@[simp] theorem Mod.setSector_power (i : Nat) (c : Sector) : (m.setSector i c).power = m.power := rfl
@[simp] theorem Mod.setSector_boot (i : Nat) (c : Sector) : (m.setSector i c).boot = m.boot := rfl
@[simp] theorem Mod.setSector_patrol (i : Nat) (c : Sector) : (m.setSector i c).patrol = m.patrol := rfl
@[simp] theorem Mod.setSector_lanes (i : Nat) (c : Sector) : (m.setSector i c).lanes = m.lanes := rfl
@[simp] theorem Mod.setSector_levels (i : Nat) (c : Sector) : (m.setSector i c).levels = m.levels := rfl
@[simp] theorem Mod.setSector_notices (i : Nat) (c : Sector) : (m.setSector i c).notices = m.notices := rfl
@[simp] theorem Mod.setSector_incoming (i : Nat) (c : Sector) : (m.setSector i c).incoming = m.incoming := rfl
@[simp] theorem Mod.setSector_remoteQ (i : Nat) (c : Sector) : (m.setSector i c).remoteQ = m.remoteQ := rfl
@[simp] theorem Mod.setSector_nextIncoming (i : Nat) (c : Sector) : (m.setSector i c).nextIncoming = m.nextIncoming := rfl
@[simp] theorem Mod.setSector_tap (i : Nat) (c : Sector) : (m.setSector i c).tap = m.tap := rfl
@[simp] theorem Mod.setSector_guest (i : Nat) (c : Sector) : (m.setSector i c).guest = m.guest := rfl
@[simp] theorem Mod.setSector_pcie (i : Nat) (c : Sector) : (m.setSector i c).pcie = m.pcie := rfl
@[simp] theorem Mod.setSector_iotlb (i : Nat) (c : Sector) : (m.setSector i c).iotlb = m.iotlb := rfl
@[simp] theorem Mod.setSector_adapterWait (i : Nat) (c : Sector) : (m.setSector i c).adapterWait = m.adapterWait := rfl
@[simp] theorem Mod.setSector_upstream (i : Nat) (c : Sector) : (m.setSector i c).upstream = m.upstream := rfl
@[simp] theorem Mod.setSector_linkLevels (i : Nat) (c : Sector) : (m.setSector i c).linkLevels = m.linkLevels := rfl
@[simp] theorem Mod.setSector_beacon (i : Nat) (c : Sector) : (m.setSector i c).beacon = m.beacon := rfl
@[simp] theorem Mod.setSector_sets (i : Nat) (c : Sector) : (m.setSector i c).sets = m.sets := rfl
@[simp] theorem Mod.setSector_errs (i : Nat) (c : Sector) : (m.setSector i c).errs = m.errs := rfl
@[simp] theorem Mod.setSector_events (i : Nat) (c : Sector) : (m.setSector i c).events = m.events := rfl
@[simp] theorem Mod.setSector_nextSeq (i : Nat) (c : Sector) : (m.setSector i c).nextSeq = m.nextSeq := rfl
@[simp] theorem Mod.setSector_overwritten (i : Nat) (c : Sector) : (m.setSector i c).overwritten = m.overwritten := rfl
@[simp] theorem Mod.setSector_keyEpochs (i : Nat) (c : Sector) : (m.setSector i c).keyEpochs = m.keyEpochs := rfl
@[simp] theorem Mod.setSector_reports (i : Nat) (c : Sector) : (m.setSector i c).reports = m.reports := rfl
@[simp] theorem Mod.setSector_out (i : Nat) (c : Sector) : (m.setSector i c).out = m.out := rfl
@[simp] theorem Mod.setSector_free (i : Nat) (c : Sector) : (m.setSector i c).free = m.free := rfl
@[simp] theorem Mod.setSector_core_at (i : Nat) (c : Sector) (n : Nat) : (m.setSector i c).core n = m.core n := rfl
@[simp] theorem Mod.setSector_cluster_at (i : Nat) (c : Sector) (n : Nat) : (m.setSector i c).cluster n = m.cluster n := rfl
@[simp] theorem Mod.setSector_queue_at (i : Nat) (c : Sector) (p : QRef) : (m.setSector i c).queue p = m.queue p := rfl
@[simp] theorem Mod.setSector_set_at (i : Nat) (c : Sector) (n : Nat) : Mod.set (m.setSector i c) n = Mod.set m n := rfl
@[simp] theorem Mod.setSector_region_at (i : Nat) (c : Sector) (n : Nat) : (m.setSector i c).region n = m.region n := rfl
@[simp] theorem Mod.setSector_mooring_at (i : Nat) (c : Sector) (n : Nat) : (m.setSector i c).mooring n = m.mooring n := rfl
@[simp] theorem Mod.setSector_ctl_at (i : Nat) (c : Sector) (n : Nat) : (m.setSector i c).ctl n = m.ctl n := rfl
@[simp] theorem Mod.setSector_err_at (i : Nat) (c : Sector) (n : Nat) : (m.setSector i c).err n = m.err n := rfl
@[simp] theorem Mod.setSector_slice_at (i : Nat) (c : Sector) (n : Nat) : (m.setSector i c).slice n = m.slice n := rfl
@[simp] theorem Mod.setSector_pdCore_at (i : Nat) (c : Sector) (n : Nat) : (m.setSector i c).pdCore n = m.pdCore n := rfl
@[simp] theorem Mod.setSector_reg_at (i : Nat) (c : Sector) (k l : Nat) (e : Word) : (m.setSector i c).reg k l e = m.reg k l e := rfl
@[simp] theorem Mod.setSector_sector_at (i : Nat) (c : Sector) (j : Nat) : (m.setSector i c).sector j = if j = i then c else m.sector j := by
  simp [Mod.setSector, Mod.sector]
@[simp] theorem Mod.setSector_fn_at (i : Nat) (c : Sector) (k l : Nat) : (m.setSector i c).fn k l = m.fn k l := rfl
@[simp] theorem Mod.setSector_port_at (i : Nat) (c : Sector) (n : Nat) : (m.setSector i c).port n = m.port n := rfl
@[simp] theorem Mod.setSector_engine_at (i : Nat) (c : Sector) (n : Nat) : (m.setSector i c).engine n = m.engine n := rfl
@[simp] theorem Mod.setSector_die_at (i : Nat) (c : Sector) (n : Nat) : (m.setSector i c).die n = m.die n := rfl
@[simp] theorem Mod.setSector_pciePort_at (i : Nat) (c : Sector) (n : Nat) : (m.setSector i c).pciePort n = m.pciePort n := rfl
@[simp] theorem Mod.setSector_bt_at (i : Nat) (c : Sector)  : (m.setSector i c).bt = m.bt := rfl

/-! ## setFn -/
@[simp] theorem Mod.setFn_part (i j : Nat) (c : Fn) : (m.setFn i j c).part = m.part := rfl
@[simp] theorem Mod.setFn_regs (i j : Nat) (c : Fn) : (m.setFn i j c).regs = m.regs := rfl
@[simp] theorem Mod.setFn_cores (i j : Nat) (c : Fn) : (m.setFn i j c).cores = m.cores := rfl
@[simp] theorem Mod.setFn_clusters (i j : Nat) (c : Fn) : (m.setFn i j c).clusters = m.clusters := rfl
@[simp] theorem Mod.setFn_posts (i j : Nat) (c : Fn) : (m.setFn i j c).posts = m.posts := rfl
@[simp] theorem Mod.setFn_dram (i j : Nat) (c : Fn) : (m.setFn i j c).dram = m.dram := rfl
@[simp] theorem Mod.setFn_poison (i j : Nat) (c : Fn) : (m.setFn i j c).poison = m.poison := rfl
@[simp] theorem Mod.setFn_regions (i j : Nat) (c : Fn) : (m.setFn i j c).regions = m.regions := rfl
@[simp] theorem Mod.setFn_moorings (i j : Nat) (c : Fn) : (m.setFn i j c).moorings = m.moorings := rfl
@[simp] theorem Mod.setFn_controllers (i j : Nat) (c : Fn) : (m.setFn i j c).controllers = m.controllers := rfl
@[simp] theorem Mod.setFn_hdm (i j : Nat) (c : Fn) : (m.setFn i j c).hdm = m.hdm := rfl
@[simp] theorem Mod.setFn_caches (i j : Nat) (c : Fn) : (m.setFn i j c).caches = m.caches := rfl
@[simp] theorem Mod.setFn_evictions (i j : Nat) (c : Fn) : (m.setFn i j c).evictions = m.evictions := rfl
@[simp] theorem Mod.setFn_slices (i j : Nat) (c : Fn) : (m.setFn i j c).slices = m.slices := rfl
@[simp] theorem Mod.setFn_pdCores (i j : Nat) (c : Fn) : (m.setFn i j c).pdCores = m.pdCores := rfl
@[simp] theorem Mod.setFn_sectors (i j : Nat) (c : Fn) : (m.setFn i j c).sectors = m.sectors := rfl
@[simp] theorem Mod.setFn_queues (i j : Nat) (c : Fn) : (m.setFn i j c).queues = m.queues := rfl
@[simp] theorem Mod.setFn_mqs (i j : Nat) (c : Fn) : (m.setFn i j c).mqs = m.mqs := rfl
@[simp] theorem Mod.setFn_mqPath (i j : Nat) (c : Fn) : (m.setFn i j c).mqPath = m.mqPath := rfl
@[simp] theorem Mod.setFn_mqSector (i j : Nat) (c : Fn) : (m.setFn i j c).mqSector = m.mqSector := rfl
@[simp] theorem Mod.setFn_mqTurn (i j : Nat) (c : Fn) : (m.setFn i j c).mqTurn = m.mqTurn := rfl
@[simp] theorem Mod.setFn_ports (i j : Nat) (c : Fn) : (m.setFn i j c).ports = m.ports := rfl
@[simp] theorem Mod.setFn_eds (i j : Nat) (c : Fn) : (m.setFn i j c).eds = m.eds := rfl
@[simp] theorem Mod.setFn_engines (i j : Nat) (c : Fn) : (m.setFn i j c).engines = m.engines := rfl
@[simp] theorem Mod.setFn_groupRoute (i j : Nat) (c : Fn) : (m.setFn i j c).groupRoute = m.groupRoute := rfl
@[simp] theorem Mod.setFn_memberRoute (i j : Nat) (c : Fn) : (m.setFn i j c).memberRoute = m.memberRoute := rfl
@[simp] theorem Mod.setFn_inbox (i j : Nat) (c : Fn) : (m.setFn i j c).inbox = m.inbox := rfl
@[simp] theorem Mod.setFn_routeWait (i j : Nat) (c : Fn) : (m.setFn i j c).routeWait = m.routeWait := rfl
@[simp] theorem Mod.setFn_arrived (i j : Nat) (c : Fn) : (m.setFn i j c).arrived = m.arrived := rfl
@[simp] theorem Mod.setFn_txFlows (i j : Nat) (c : Fn) : (m.setFn i j c).txFlows = m.txFlows := rfl
@[simp] theorem Mod.setFn_rxFlows (i j : Nat) (c : Fn) : (m.setFn i j c).rxFlows = m.rxFlows := rfl
@[simp] theorem Mod.setFn_holdoff (i j : Nat) (c : Fn) : (m.setFn i j c).holdoff = m.holdoff := rfl
@[simp] theorem Mod.setFn_tender (i j : Nat) (c : Fn) : (m.setFn i j c).tender = m.tender := rfl
@[simp] theorem Mod.setFn_injections (i j : Nat) (c : Fn) : (m.setFn i j c).injections = m.injections := rfl
@[simp] theorem Mod.setFn_dieGens (i j : Nat) (c : Fn) : (m.setFn i j c).dieGens = m.dieGens := rfl
@[simp] theorem Mod.setFn_remotes (i j : Nat) (c : Fn) : (m.setFn i j c).remotes = m.remotes := rfl
@[simp] theorem Mod.setFn_nextCmd (i j : Nat) (c : Fn) : (m.setFn i j c).nextCmd = m.nextCmd := rfl
@[simp] theorem Mod.setFn_txns (i j : Nat) (c : Fn) : (m.setFn i j c).txns = m.txns := rfl
@[simp] theorem Mod.setFn_tagWait (i j : Nat) (c : Fn) : (m.setFn i j c).tagWait = m.tagWait := rfl
@[simp] theorem Mod.setFn_aia (i j : Nat) (c : Fn) : (m.setFn i j c).aia = m.aia := rfl
@[simp] theorem Mod.setFn_zeros (i j : Nat) (c : Fn) : (m.setFn i j c).zeros = m.zeros := rfl
@[simp] theorem Mod.setFn_buckets (i j : Nat) (c : Fn) : (m.setFn i j c).buckets = m.buckets := rfl
@[simp] theorem Mod.setFn_ctlHot (i j : Nat) (c : Fn) : (m.setFn i j c).ctlHot = m.ctlHot := rfl
@[simp] theorem Mod.setFn_rtrHot (i j : Nat) (c : Fn) : (m.setFn i j c).rtrHot = m.rtrHot := rfl
@[simp] theorem Mod.setFn_cohError (i j : Nat) (c : Fn) : (m.setFn i j c).cohError = m.cohError := rfl
@[simp] theorem Mod.setFn_bursts (i j : Nat) (c : Fn) : (m.setFn i j c).bursts = m.bursts := rfl
@[simp] theorem Mod.setFn_keeperQueue (i j : Nat) (c : Fn) : (m.setFn i j c).keeperQueue = m.keeperQueue := rfl
@[simp] theorem Mod.setFn_keeperTurn (i j : Nat) (c : Fn) : (m.setFn i j c).keeperTurn = m.keeperTurn := rfl
@[simp] theorem Mod.setFn_keySlots (i j : Nat) (c : Fn) : (m.setFn i j c).keySlots = m.keySlots := rfl
@[simp] theorem Mod.setFn_models (i j : Nat) (c : Fn) : (m.setFn i j c).models = m.models := rfl
@[simp] theorem Mod.setFn_sessions (i j : Nat) (c : Fn) : (m.setFn i j c).sessions = m.sessions := rfl
@[simp] theorem Mod.setFn_scrubLast (i j : Nat) (c : Fn) : (m.setFn i j c).scrubLast = m.scrubLast := rfl
@[simp] theorem Mod.setFn_fills (i j : Nat) (c : Fn) : (m.setFn i j c).fills = m.fills := rfl
@[simp] theorem Mod.setFn_unlocked (i j : Nat) (c : Fn) : (m.setFn i j c).unlocked = m.unlocked := rfl
@[simp] theorem Mod.setFn_bootImage (i j : Nat) (c : Fn) : (m.setFn i j c).bootImage = m.bootImage := rfl
@[simp] theorem Mod.setFn_rootIndex (i j : Nat) (c : Fn) : (m.setFn i j c).rootIndex = m.rootIndex := rfl
@[simp] theorem Mod.setFn_starts (i j : Nat) (c : Fn) : (m.setFn i j c).starts = m.starts := rfl
@[simp] theorem Mod.setFn_svnFused (i j : Nat) (c : Fn) : (m.setFn i j c).svnFused = m.svnFused := rfl
@[simp] theorem Mod.setFn_svnRunning (i j : Nat) (c : Fn) : (m.setFn i j c).svnRunning = m.svnRunning := rfl
@[simp] theorem Mod.setFn_measurements (i j : Nat) (c : Fn) : (m.setFn i j c).measurements = m.measurements := rfl
@[simp] theorem Mod.setFn_dies (i j : Nat) (c : Fn) : (m.setFn i j c).dies = m.dies := rfl
@[simp] theorem Mod.setFn_harbourUp (i j : Nat) (c : Fn) : (m.setFn i j c).harbourUp = m.harbourUp := rfl
@[simp] theorem Mod.setFn_computeUp (i j : Nat) (c : Fn) : (m.setFn i j c).computeUp = m.computeUp := rfl
@[simp] theorem Mod.setFn_edgeLost (i j : Nat) (c : Fn) : (m.setFn i j c).edgeLost = m.edgeLost := rfl
@[simp] theorem Mod.setFn_fw (i j : Nat) (c : Fn) : (m.setFn i j c).fw = m.fw := rfl
@[simp] theorem Mod.setFn_power (i j : Nat) (c : Fn) : (m.setFn i j c).power = m.power := rfl
@[simp] theorem Mod.setFn_boot (i j : Nat) (c : Fn) : (m.setFn i j c).boot = m.boot := rfl
@[simp] theorem Mod.setFn_patrol (i j : Nat) (c : Fn) : (m.setFn i j c).patrol = m.patrol := rfl
@[simp] theorem Mod.setFn_lanes (i j : Nat) (c : Fn) : (m.setFn i j c).lanes = m.lanes := rfl
@[simp] theorem Mod.setFn_levels (i j : Nat) (c : Fn) : (m.setFn i j c).levels = m.levels := rfl
@[simp] theorem Mod.setFn_notices (i j : Nat) (c : Fn) : (m.setFn i j c).notices = m.notices := rfl
@[simp] theorem Mod.setFn_incoming (i j : Nat) (c : Fn) : (m.setFn i j c).incoming = m.incoming := rfl
@[simp] theorem Mod.setFn_remoteQ (i j : Nat) (c : Fn) : (m.setFn i j c).remoteQ = m.remoteQ := rfl
@[simp] theorem Mod.setFn_nextIncoming (i j : Nat) (c : Fn) : (m.setFn i j c).nextIncoming = m.nextIncoming := rfl
@[simp] theorem Mod.setFn_tap (i j : Nat) (c : Fn) : (m.setFn i j c).tap = m.tap := rfl
@[simp] theorem Mod.setFn_guest (i j : Nat) (c : Fn) : (m.setFn i j c).guest = m.guest := rfl
@[simp] theorem Mod.setFn_pcie (i j : Nat) (c : Fn) : (m.setFn i j c).pcie = m.pcie := rfl
@[simp] theorem Mod.setFn_iotlb (i j : Nat) (c : Fn) : (m.setFn i j c).iotlb = m.iotlb := rfl
@[simp] theorem Mod.setFn_adapterWait (i j : Nat) (c : Fn) : (m.setFn i j c).adapterWait = m.adapterWait := rfl
@[simp] theorem Mod.setFn_upstream (i j : Nat) (c : Fn) : (m.setFn i j c).upstream = m.upstream := rfl
@[simp] theorem Mod.setFn_linkLevels (i j : Nat) (c : Fn) : (m.setFn i j c).linkLevels = m.linkLevels := rfl
@[simp] theorem Mod.setFn_beacon (i j : Nat) (c : Fn) : (m.setFn i j c).beacon = m.beacon := rfl
@[simp] theorem Mod.setFn_sets (i j : Nat) (c : Fn) : (m.setFn i j c).sets = m.sets := rfl
@[simp] theorem Mod.setFn_errs (i j : Nat) (c : Fn) : (m.setFn i j c).errs = m.errs := rfl
@[simp] theorem Mod.setFn_events (i j : Nat) (c : Fn) : (m.setFn i j c).events = m.events := rfl
@[simp] theorem Mod.setFn_nextSeq (i j : Nat) (c : Fn) : (m.setFn i j c).nextSeq = m.nextSeq := rfl
@[simp] theorem Mod.setFn_overwritten (i j : Nat) (c : Fn) : (m.setFn i j c).overwritten = m.overwritten := rfl
@[simp] theorem Mod.setFn_keyEpochs (i j : Nat) (c : Fn) : (m.setFn i j c).keyEpochs = m.keyEpochs := rfl
@[simp] theorem Mod.setFn_reports (i j : Nat) (c : Fn) : (m.setFn i j c).reports = m.reports := rfl
@[simp] theorem Mod.setFn_out (i j : Nat) (c : Fn) : (m.setFn i j c).out = m.out := rfl
@[simp] theorem Mod.setFn_free (i j : Nat) (c : Fn) : (m.setFn i j c).free = m.free := rfl
@[simp] theorem Mod.setFn_core_at (i j : Nat) (c : Fn) (n : Nat) : (m.setFn i j c).core n = m.core n := rfl
@[simp] theorem Mod.setFn_cluster_at (i j : Nat) (c : Fn) (n : Nat) : (m.setFn i j c).cluster n = m.cluster n := rfl
@[simp] theorem Mod.setFn_queue_at (i j : Nat) (c : Fn) (p : QRef) : (m.setFn i j c).queue p = m.queue p := rfl
@[simp] theorem Mod.setFn_set_at (i j : Nat) (c : Fn) (n : Nat) : Mod.set (m.setFn i j c) n = Mod.set m n := rfl
@[simp] theorem Mod.setFn_region_at (i j : Nat) (c : Fn) (n : Nat) : (m.setFn i j c).region n = m.region n := rfl
@[simp] theorem Mod.setFn_mooring_at (i j : Nat) (c : Fn) (n : Nat) : (m.setFn i j c).mooring n = m.mooring n := rfl
@[simp] theorem Mod.setFn_ctl_at (i j : Nat) (c : Fn) (n : Nat) : (m.setFn i j c).ctl n = m.ctl n := rfl
@[simp] theorem Mod.setFn_err_at (i j : Nat) (c : Fn) (n : Nat) : (m.setFn i j c).err n = m.err n := rfl
@[simp] theorem Mod.setFn_slice_at (i j : Nat) (c : Fn) (n : Nat) : (m.setFn i j c).slice n = m.slice n := rfl
@[simp] theorem Mod.setFn_pdCore_at (i j : Nat) (c : Fn) (n : Nat) : (m.setFn i j c).pdCore n = m.pdCore n := rfl
@[simp] theorem Mod.setFn_reg_at (i j : Nat) (c : Fn) (k l : Nat) (e : Word) : (m.setFn i j c).reg k l e = m.reg k l e := rfl
@[simp] theorem Mod.setFn_sector_at (i j : Nat) (c : Fn) (n : Nat) : (m.setFn i j c).sector n = m.sector n := rfl
@[simp] theorem Mod.setFn_fn_at (i j k l : Nat) (c : Fn) : (m.setFn i j c).fn k l = if k * 32 + l = i * 32 + j then c else m.fn k l := by
  simp [Mod.setFn, Mod.fn]
@[simp] theorem Mod.setFn_port_at (i j : Nat) (c : Fn) (n : Nat) : (m.setFn i j c).port n = m.port n := rfl
@[simp] theorem Mod.setFn_engine_at (i j : Nat) (c : Fn) (n : Nat) : (m.setFn i j c).engine n = m.engine n := rfl
@[simp] theorem Mod.setFn_die_at (i j : Nat) (c : Fn) (n : Nat) : (m.setFn i j c).die n = m.die n := rfl
@[simp] theorem Mod.setFn_pciePort_at (i j : Nat) (c : Fn) (n : Nat) : (m.setFn i j c).pciePort n = m.pciePort n := rfl
@[simp] theorem Mod.setFn_bt_at (i j : Nat) (c : Fn)  : (m.setFn i j c).bt = m.bt := rfl

/-! ## setPort -/
@[simp] theorem Mod.setPort_part (i : Nat) (c : Port) : (m.setPort i c).part = m.part := rfl
@[simp] theorem Mod.setPort_regs (i : Nat) (c : Port) : (m.setPort i c).regs = m.regs := rfl
@[simp] theorem Mod.setPort_cores (i : Nat) (c : Port) : (m.setPort i c).cores = m.cores := rfl
@[simp] theorem Mod.setPort_clusters (i : Nat) (c : Port) : (m.setPort i c).clusters = m.clusters := rfl
@[simp] theorem Mod.setPort_posts (i : Nat) (c : Port) : (m.setPort i c).posts = m.posts := rfl
@[simp] theorem Mod.setPort_dram (i : Nat) (c : Port) : (m.setPort i c).dram = m.dram := rfl
@[simp] theorem Mod.setPort_poison (i : Nat) (c : Port) : (m.setPort i c).poison = m.poison := rfl
@[simp] theorem Mod.setPort_regions (i : Nat) (c : Port) : (m.setPort i c).regions = m.regions := rfl
@[simp] theorem Mod.setPort_moorings (i : Nat) (c : Port) : (m.setPort i c).moorings = m.moorings := rfl
@[simp] theorem Mod.setPort_controllers (i : Nat) (c : Port) : (m.setPort i c).controllers = m.controllers := rfl
@[simp] theorem Mod.setPort_hdm (i : Nat) (c : Port) : (m.setPort i c).hdm = m.hdm := rfl
@[simp] theorem Mod.setPort_caches (i : Nat) (c : Port) : (m.setPort i c).caches = m.caches := rfl
@[simp] theorem Mod.setPort_evictions (i : Nat) (c : Port) : (m.setPort i c).evictions = m.evictions := rfl
@[simp] theorem Mod.setPort_slices (i : Nat) (c : Port) : (m.setPort i c).slices = m.slices := rfl
@[simp] theorem Mod.setPort_pdCores (i : Nat) (c : Port) : (m.setPort i c).pdCores = m.pdCores := rfl
@[simp] theorem Mod.setPort_sectors (i : Nat) (c : Port) : (m.setPort i c).sectors = m.sectors := rfl
@[simp] theorem Mod.setPort_fns (i : Nat) (c : Port) : (m.setPort i c).fns = m.fns := rfl
@[simp] theorem Mod.setPort_queues (i : Nat) (c : Port) : (m.setPort i c).queues = m.queues := rfl
@[simp] theorem Mod.setPort_mqs (i : Nat) (c : Port) : (m.setPort i c).mqs = m.mqs := rfl
@[simp] theorem Mod.setPort_mqPath (i : Nat) (c : Port) : (m.setPort i c).mqPath = m.mqPath := rfl
@[simp] theorem Mod.setPort_mqSector (i : Nat) (c : Port) : (m.setPort i c).mqSector = m.mqSector := rfl
@[simp] theorem Mod.setPort_mqTurn (i : Nat) (c : Port) : (m.setPort i c).mqTurn = m.mqTurn := rfl
@[simp] theorem Mod.setPort_eds (i : Nat) (c : Port) : (m.setPort i c).eds = m.eds := rfl
@[simp] theorem Mod.setPort_engines (i : Nat) (c : Port) : (m.setPort i c).engines = m.engines := rfl
@[simp] theorem Mod.setPort_groupRoute (i : Nat) (c : Port) : (m.setPort i c).groupRoute = m.groupRoute := rfl
@[simp] theorem Mod.setPort_memberRoute (i : Nat) (c : Port) : (m.setPort i c).memberRoute = m.memberRoute := rfl
@[simp] theorem Mod.setPort_inbox (i : Nat) (c : Port) : (m.setPort i c).inbox = m.inbox := rfl
@[simp] theorem Mod.setPort_routeWait (i : Nat) (c : Port) : (m.setPort i c).routeWait = m.routeWait := rfl
@[simp] theorem Mod.setPort_arrived (i : Nat) (c : Port) : (m.setPort i c).arrived = m.arrived := rfl
@[simp] theorem Mod.setPort_txFlows (i : Nat) (c : Port) : (m.setPort i c).txFlows = m.txFlows := rfl
@[simp] theorem Mod.setPort_rxFlows (i : Nat) (c : Port) : (m.setPort i c).rxFlows = m.rxFlows := rfl
@[simp] theorem Mod.setPort_holdoff (i : Nat) (c : Port) : (m.setPort i c).holdoff = m.holdoff := rfl
@[simp] theorem Mod.setPort_tender (i : Nat) (c : Port) : (m.setPort i c).tender = m.tender := rfl
@[simp] theorem Mod.setPort_injections (i : Nat) (c : Port) : (m.setPort i c).injections = m.injections := rfl
@[simp] theorem Mod.setPort_dieGens (i : Nat) (c : Port) : (m.setPort i c).dieGens = m.dieGens := rfl
@[simp] theorem Mod.setPort_remotes (i : Nat) (c : Port) : (m.setPort i c).remotes = m.remotes := rfl
@[simp] theorem Mod.setPort_nextCmd (i : Nat) (c : Port) : (m.setPort i c).nextCmd = m.nextCmd := rfl
@[simp] theorem Mod.setPort_txns (i : Nat) (c : Port) : (m.setPort i c).txns = m.txns := rfl
@[simp] theorem Mod.setPort_tagWait (i : Nat) (c : Port) : (m.setPort i c).tagWait = m.tagWait := rfl
@[simp] theorem Mod.setPort_aia (i : Nat) (c : Port) : (m.setPort i c).aia = m.aia := rfl
@[simp] theorem Mod.setPort_zeros (i : Nat) (c : Port) : (m.setPort i c).zeros = m.zeros := rfl
@[simp] theorem Mod.setPort_buckets (i : Nat) (c : Port) : (m.setPort i c).buckets = m.buckets := rfl
@[simp] theorem Mod.setPort_ctlHot (i : Nat) (c : Port) : (m.setPort i c).ctlHot = m.ctlHot := rfl
@[simp] theorem Mod.setPort_rtrHot (i : Nat) (c : Port) : (m.setPort i c).rtrHot = m.rtrHot := rfl
@[simp] theorem Mod.setPort_cohError (i : Nat) (c : Port) : (m.setPort i c).cohError = m.cohError := rfl
@[simp] theorem Mod.setPort_bursts (i : Nat) (c : Port) : (m.setPort i c).bursts = m.bursts := rfl
@[simp] theorem Mod.setPort_keeperQueue (i : Nat) (c : Port) : (m.setPort i c).keeperQueue = m.keeperQueue := rfl
@[simp] theorem Mod.setPort_keeperTurn (i : Nat) (c : Port) : (m.setPort i c).keeperTurn = m.keeperTurn := rfl
@[simp] theorem Mod.setPort_keySlots (i : Nat) (c : Port) : (m.setPort i c).keySlots = m.keySlots := rfl
@[simp] theorem Mod.setPort_models (i : Nat) (c : Port) : (m.setPort i c).models = m.models := rfl
@[simp] theorem Mod.setPort_sessions (i : Nat) (c : Port) : (m.setPort i c).sessions = m.sessions := rfl
@[simp] theorem Mod.setPort_scrubLast (i : Nat) (c : Port) : (m.setPort i c).scrubLast = m.scrubLast := rfl
@[simp] theorem Mod.setPort_fills (i : Nat) (c : Port) : (m.setPort i c).fills = m.fills := rfl
@[simp] theorem Mod.setPort_unlocked (i : Nat) (c : Port) : (m.setPort i c).unlocked = m.unlocked := rfl
@[simp] theorem Mod.setPort_bootImage (i : Nat) (c : Port) : (m.setPort i c).bootImage = m.bootImage := rfl
@[simp] theorem Mod.setPort_rootIndex (i : Nat) (c : Port) : (m.setPort i c).rootIndex = m.rootIndex := rfl
@[simp] theorem Mod.setPort_starts (i : Nat) (c : Port) : (m.setPort i c).starts = m.starts := rfl
@[simp] theorem Mod.setPort_svnFused (i : Nat) (c : Port) : (m.setPort i c).svnFused = m.svnFused := rfl
@[simp] theorem Mod.setPort_svnRunning (i : Nat) (c : Port) : (m.setPort i c).svnRunning = m.svnRunning := rfl
@[simp] theorem Mod.setPort_measurements (i : Nat) (c : Port) : (m.setPort i c).measurements = m.measurements := rfl
@[simp] theorem Mod.setPort_dies (i : Nat) (c : Port) : (m.setPort i c).dies = m.dies := rfl
@[simp] theorem Mod.setPort_harbourUp (i : Nat) (c : Port) : (m.setPort i c).harbourUp = m.harbourUp := rfl
@[simp] theorem Mod.setPort_computeUp (i : Nat) (c : Port) : (m.setPort i c).computeUp = m.computeUp := rfl
@[simp] theorem Mod.setPort_edgeLost (i : Nat) (c : Port) : (m.setPort i c).edgeLost = m.edgeLost := rfl
@[simp] theorem Mod.setPort_fw (i : Nat) (c : Port) : (m.setPort i c).fw = m.fw := rfl
@[simp] theorem Mod.setPort_power (i : Nat) (c : Port) : (m.setPort i c).power = m.power := rfl
@[simp] theorem Mod.setPort_boot (i : Nat) (c : Port) : (m.setPort i c).boot = m.boot := rfl
@[simp] theorem Mod.setPort_patrol (i : Nat) (c : Port) : (m.setPort i c).patrol = m.patrol := rfl
@[simp] theorem Mod.setPort_lanes (i : Nat) (c : Port) : (m.setPort i c).lanes = m.lanes := rfl
@[simp] theorem Mod.setPort_levels (i : Nat) (c : Port) : (m.setPort i c).levels = m.levels := rfl
@[simp] theorem Mod.setPort_notices (i : Nat) (c : Port) : (m.setPort i c).notices = m.notices := rfl
@[simp] theorem Mod.setPort_incoming (i : Nat) (c : Port) : (m.setPort i c).incoming = m.incoming := rfl
@[simp] theorem Mod.setPort_remoteQ (i : Nat) (c : Port) : (m.setPort i c).remoteQ = m.remoteQ := rfl
@[simp] theorem Mod.setPort_nextIncoming (i : Nat) (c : Port) : (m.setPort i c).nextIncoming = m.nextIncoming := rfl
@[simp] theorem Mod.setPort_tap (i : Nat) (c : Port) : (m.setPort i c).tap = m.tap := rfl
@[simp] theorem Mod.setPort_guest (i : Nat) (c : Port) : (m.setPort i c).guest = m.guest := rfl
@[simp] theorem Mod.setPort_pcie (i : Nat) (c : Port) : (m.setPort i c).pcie = m.pcie := rfl
@[simp] theorem Mod.setPort_iotlb (i : Nat) (c : Port) : (m.setPort i c).iotlb = m.iotlb := rfl
@[simp] theorem Mod.setPort_adapterWait (i : Nat) (c : Port) : (m.setPort i c).adapterWait = m.adapterWait := rfl
@[simp] theorem Mod.setPort_upstream (i : Nat) (c : Port) : (m.setPort i c).upstream = m.upstream := rfl
@[simp] theorem Mod.setPort_linkLevels (i : Nat) (c : Port) : (m.setPort i c).linkLevels = m.linkLevels := rfl
@[simp] theorem Mod.setPort_beacon (i : Nat) (c : Port) : (m.setPort i c).beacon = m.beacon := rfl
@[simp] theorem Mod.setPort_sets (i : Nat) (c : Port) : (m.setPort i c).sets = m.sets := rfl
@[simp] theorem Mod.setPort_errs (i : Nat) (c : Port) : (m.setPort i c).errs = m.errs := rfl
@[simp] theorem Mod.setPort_events (i : Nat) (c : Port) : (m.setPort i c).events = m.events := rfl
@[simp] theorem Mod.setPort_nextSeq (i : Nat) (c : Port) : (m.setPort i c).nextSeq = m.nextSeq := rfl
@[simp] theorem Mod.setPort_overwritten (i : Nat) (c : Port) : (m.setPort i c).overwritten = m.overwritten := rfl
@[simp] theorem Mod.setPort_keyEpochs (i : Nat) (c : Port) : (m.setPort i c).keyEpochs = m.keyEpochs := rfl
@[simp] theorem Mod.setPort_reports (i : Nat) (c : Port) : (m.setPort i c).reports = m.reports := rfl
@[simp] theorem Mod.setPort_out (i : Nat) (c : Port) : (m.setPort i c).out = m.out := rfl
@[simp] theorem Mod.setPort_free (i : Nat) (c : Port) : (m.setPort i c).free = m.free := rfl
@[simp] theorem Mod.setPort_core_at (i : Nat) (c : Port) (n : Nat) : (m.setPort i c).core n = m.core n := rfl
@[simp] theorem Mod.setPort_cluster_at (i : Nat) (c : Port) (n : Nat) : (m.setPort i c).cluster n = m.cluster n := rfl
@[simp] theorem Mod.setPort_queue_at (i : Nat) (c : Port) (p : QRef) : (m.setPort i c).queue p = m.queue p := rfl
@[simp] theorem Mod.setPort_set_at (i : Nat) (c : Port) (n : Nat) : Mod.set (m.setPort i c) n = Mod.set m n := rfl
@[simp] theorem Mod.setPort_region_at (i : Nat) (c : Port) (n : Nat) : (m.setPort i c).region n = m.region n := rfl
@[simp] theorem Mod.setPort_mooring_at (i : Nat) (c : Port) (n : Nat) : (m.setPort i c).mooring n = m.mooring n := rfl
@[simp] theorem Mod.setPort_ctl_at (i : Nat) (c : Port) (n : Nat) : (m.setPort i c).ctl n = m.ctl n := rfl
@[simp] theorem Mod.setPort_err_at (i : Nat) (c : Port) (n : Nat) : (m.setPort i c).err n = m.err n := rfl
@[simp] theorem Mod.setPort_slice_at (i : Nat) (c : Port) (n : Nat) : (m.setPort i c).slice n = m.slice n := rfl
@[simp] theorem Mod.setPort_pdCore_at (i : Nat) (c : Port) (n : Nat) : (m.setPort i c).pdCore n = m.pdCore n := rfl
@[simp] theorem Mod.setPort_reg_at (i : Nat) (c : Port) (k l : Nat) (e : Word) : (m.setPort i c).reg k l e = m.reg k l e := rfl
@[simp] theorem Mod.setPort_sector_at (i : Nat) (c : Port) (n : Nat) : (m.setPort i c).sector n = m.sector n := rfl
@[simp] theorem Mod.setPort_fn_at (i : Nat) (c : Port) (k l : Nat) : (m.setPort i c).fn k l = m.fn k l := rfl
@[simp] theorem Mod.setPort_port_at (i : Nat) (c : Port) (j : Nat) : (m.setPort i c).port j = if j = i then c else m.port j := by
  simp [Mod.setPort, Mod.port]
@[simp] theorem Mod.setPort_engine_at (i : Nat) (c : Port) (n : Nat) : (m.setPort i c).engine n = m.engine n := rfl
@[simp] theorem Mod.setPort_die_at (i : Nat) (c : Port) (n : Nat) : (m.setPort i c).die n = m.die n := rfl
@[simp] theorem Mod.setPort_pciePort_at (i : Nat) (c : Port) (n : Nat) : (m.setPort i c).pciePort n = m.pciePort n := rfl
@[simp] theorem Mod.setPort_bt_at (i : Nat) (c : Port)  : (m.setPort i c).bt = m.bt := rfl

/-! ## setEngine -/
@[simp] theorem Mod.setEngine_part (i : Nat) (c : Engine) : (m.setEngine i c).part = m.part := rfl
@[simp] theorem Mod.setEngine_regs (i : Nat) (c : Engine) : (m.setEngine i c).regs = m.regs := rfl
@[simp] theorem Mod.setEngine_cores (i : Nat) (c : Engine) : (m.setEngine i c).cores = m.cores := rfl
@[simp] theorem Mod.setEngine_clusters (i : Nat) (c : Engine) : (m.setEngine i c).clusters = m.clusters := rfl
@[simp] theorem Mod.setEngine_posts (i : Nat) (c : Engine) : (m.setEngine i c).posts = m.posts := rfl
@[simp] theorem Mod.setEngine_dram (i : Nat) (c : Engine) : (m.setEngine i c).dram = m.dram := rfl
@[simp] theorem Mod.setEngine_poison (i : Nat) (c : Engine) : (m.setEngine i c).poison = m.poison := rfl
@[simp] theorem Mod.setEngine_regions (i : Nat) (c : Engine) : (m.setEngine i c).regions = m.regions := rfl
@[simp] theorem Mod.setEngine_moorings (i : Nat) (c : Engine) : (m.setEngine i c).moorings = m.moorings := rfl
@[simp] theorem Mod.setEngine_controllers (i : Nat) (c : Engine) : (m.setEngine i c).controllers = m.controllers := rfl
@[simp] theorem Mod.setEngine_hdm (i : Nat) (c : Engine) : (m.setEngine i c).hdm = m.hdm := rfl
@[simp] theorem Mod.setEngine_caches (i : Nat) (c : Engine) : (m.setEngine i c).caches = m.caches := rfl
@[simp] theorem Mod.setEngine_evictions (i : Nat) (c : Engine) : (m.setEngine i c).evictions = m.evictions := rfl
@[simp] theorem Mod.setEngine_slices (i : Nat) (c : Engine) : (m.setEngine i c).slices = m.slices := rfl
@[simp] theorem Mod.setEngine_pdCores (i : Nat) (c : Engine) : (m.setEngine i c).pdCores = m.pdCores := rfl
@[simp] theorem Mod.setEngine_sectors (i : Nat) (c : Engine) : (m.setEngine i c).sectors = m.sectors := rfl
@[simp] theorem Mod.setEngine_fns (i : Nat) (c : Engine) : (m.setEngine i c).fns = m.fns := rfl
@[simp] theorem Mod.setEngine_queues (i : Nat) (c : Engine) : (m.setEngine i c).queues = m.queues := rfl
@[simp] theorem Mod.setEngine_mqs (i : Nat) (c : Engine) : (m.setEngine i c).mqs = m.mqs := rfl
@[simp] theorem Mod.setEngine_mqPath (i : Nat) (c : Engine) : (m.setEngine i c).mqPath = m.mqPath := rfl
@[simp] theorem Mod.setEngine_mqSector (i : Nat) (c : Engine) : (m.setEngine i c).mqSector = m.mqSector := rfl
@[simp] theorem Mod.setEngine_mqTurn (i : Nat) (c : Engine) : (m.setEngine i c).mqTurn = m.mqTurn := rfl
@[simp] theorem Mod.setEngine_ports (i : Nat) (c : Engine) : (m.setEngine i c).ports = m.ports := rfl
@[simp] theorem Mod.setEngine_eds (i : Nat) (c : Engine) : (m.setEngine i c).eds = m.eds := rfl
@[simp] theorem Mod.setEngine_groupRoute (i : Nat) (c : Engine) : (m.setEngine i c).groupRoute = m.groupRoute := rfl
@[simp] theorem Mod.setEngine_memberRoute (i : Nat) (c : Engine) : (m.setEngine i c).memberRoute = m.memberRoute := rfl
@[simp] theorem Mod.setEngine_inbox (i : Nat) (c : Engine) : (m.setEngine i c).inbox = m.inbox := rfl
@[simp] theorem Mod.setEngine_routeWait (i : Nat) (c : Engine) : (m.setEngine i c).routeWait = m.routeWait := rfl
@[simp] theorem Mod.setEngine_arrived (i : Nat) (c : Engine) : (m.setEngine i c).arrived = m.arrived := rfl
@[simp] theorem Mod.setEngine_txFlows (i : Nat) (c : Engine) : (m.setEngine i c).txFlows = m.txFlows := rfl
@[simp] theorem Mod.setEngine_rxFlows (i : Nat) (c : Engine) : (m.setEngine i c).rxFlows = m.rxFlows := rfl
@[simp] theorem Mod.setEngine_holdoff (i : Nat) (c : Engine) : (m.setEngine i c).holdoff = m.holdoff := rfl
@[simp] theorem Mod.setEngine_tender (i : Nat) (c : Engine) : (m.setEngine i c).tender = m.tender := rfl
@[simp] theorem Mod.setEngine_injections (i : Nat) (c : Engine) : (m.setEngine i c).injections = m.injections := rfl
@[simp] theorem Mod.setEngine_dieGens (i : Nat) (c : Engine) : (m.setEngine i c).dieGens = m.dieGens := rfl
@[simp] theorem Mod.setEngine_remotes (i : Nat) (c : Engine) : (m.setEngine i c).remotes = m.remotes := rfl
@[simp] theorem Mod.setEngine_nextCmd (i : Nat) (c : Engine) : (m.setEngine i c).nextCmd = m.nextCmd := rfl
@[simp] theorem Mod.setEngine_txns (i : Nat) (c : Engine) : (m.setEngine i c).txns = m.txns := rfl
@[simp] theorem Mod.setEngine_tagWait (i : Nat) (c : Engine) : (m.setEngine i c).tagWait = m.tagWait := rfl
@[simp] theorem Mod.setEngine_aia (i : Nat) (c : Engine) : (m.setEngine i c).aia = m.aia := rfl
@[simp] theorem Mod.setEngine_zeros (i : Nat) (c : Engine) : (m.setEngine i c).zeros = m.zeros := rfl
@[simp] theorem Mod.setEngine_buckets (i : Nat) (c : Engine) : (m.setEngine i c).buckets = m.buckets := rfl
@[simp] theorem Mod.setEngine_ctlHot (i : Nat) (c : Engine) : (m.setEngine i c).ctlHot = m.ctlHot := rfl
@[simp] theorem Mod.setEngine_rtrHot (i : Nat) (c : Engine) : (m.setEngine i c).rtrHot = m.rtrHot := rfl
@[simp] theorem Mod.setEngine_cohError (i : Nat) (c : Engine) : (m.setEngine i c).cohError = m.cohError := rfl
@[simp] theorem Mod.setEngine_bursts (i : Nat) (c : Engine) : (m.setEngine i c).bursts = m.bursts := rfl
@[simp] theorem Mod.setEngine_keeperQueue (i : Nat) (c : Engine) : (m.setEngine i c).keeperQueue = m.keeperQueue := rfl
@[simp] theorem Mod.setEngine_keeperTurn (i : Nat) (c : Engine) : (m.setEngine i c).keeperTurn = m.keeperTurn := rfl
@[simp] theorem Mod.setEngine_keySlots (i : Nat) (c : Engine) : (m.setEngine i c).keySlots = m.keySlots := rfl
@[simp] theorem Mod.setEngine_models (i : Nat) (c : Engine) : (m.setEngine i c).models = m.models := rfl
@[simp] theorem Mod.setEngine_sessions (i : Nat) (c : Engine) : (m.setEngine i c).sessions = m.sessions := rfl
@[simp] theorem Mod.setEngine_scrubLast (i : Nat) (c : Engine) : (m.setEngine i c).scrubLast = m.scrubLast := rfl
@[simp] theorem Mod.setEngine_fills (i : Nat) (c : Engine) : (m.setEngine i c).fills = m.fills := rfl
@[simp] theorem Mod.setEngine_unlocked (i : Nat) (c : Engine) : (m.setEngine i c).unlocked = m.unlocked := rfl
@[simp] theorem Mod.setEngine_bootImage (i : Nat) (c : Engine) : (m.setEngine i c).bootImage = m.bootImage := rfl
@[simp] theorem Mod.setEngine_rootIndex (i : Nat) (c : Engine) : (m.setEngine i c).rootIndex = m.rootIndex := rfl
@[simp] theorem Mod.setEngine_starts (i : Nat) (c : Engine) : (m.setEngine i c).starts = m.starts := rfl
@[simp] theorem Mod.setEngine_svnFused (i : Nat) (c : Engine) : (m.setEngine i c).svnFused = m.svnFused := rfl
@[simp] theorem Mod.setEngine_svnRunning (i : Nat) (c : Engine) : (m.setEngine i c).svnRunning = m.svnRunning := rfl
@[simp] theorem Mod.setEngine_measurements (i : Nat) (c : Engine) : (m.setEngine i c).measurements = m.measurements := rfl
@[simp] theorem Mod.setEngine_dies (i : Nat) (c : Engine) : (m.setEngine i c).dies = m.dies := rfl
@[simp] theorem Mod.setEngine_harbourUp (i : Nat) (c : Engine) : (m.setEngine i c).harbourUp = m.harbourUp := rfl
@[simp] theorem Mod.setEngine_computeUp (i : Nat) (c : Engine) : (m.setEngine i c).computeUp = m.computeUp := rfl
@[simp] theorem Mod.setEngine_edgeLost (i : Nat) (c : Engine) : (m.setEngine i c).edgeLost = m.edgeLost := rfl
@[simp] theorem Mod.setEngine_fw (i : Nat) (c : Engine) : (m.setEngine i c).fw = m.fw := rfl
@[simp] theorem Mod.setEngine_power (i : Nat) (c : Engine) : (m.setEngine i c).power = m.power := rfl
@[simp] theorem Mod.setEngine_boot (i : Nat) (c : Engine) : (m.setEngine i c).boot = m.boot := rfl
@[simp] theorem Mod.setEngine_patrol (i : Nat) (c : Engine) : (m.setEngine i c).patrol = m.patrol := rfl
@[simp] theorem Mod.setEngine_lanes (i : Nat) (c : Engine) : (m.setEngine i c).lanes = m.lanes := rfl
@[simp] theorem Mod.setEngine_levels (i : Nat) (c : Engine) : (m.setEngine i c).levels = m.levels := rfl
@[simp] theorem Mod.setEngine_notices (i : Nat) (c : Engine) : (m.setEngine i c).notices = m.notices := rfl
@[simp] theorem Mod.setEngine_incoming (i : Nat) (c : Engine) : (m.setEngine i c).incoming = m.incoming := rfl
@[simp] theorem Mod.setEngine_remoteQ (i : Nat) (c : Engine) : (m.setEngine i c).remoteQ = m.remoteQ := rfl
@[simp] theorem Mod.setEngine_nextIncoming (i : Nat) (c : Engine) : (m.setEngine i c).nextIncoming = m.nextIncoming := rfl
@[simp] theorem Mod.setEngine_tap (i : Nat) (c : Engine) : (m.setEngine i c).tap = m.tap := rfl
@[simp] theorem Mod.setEngine_guest (i : Nat) (c : Engine) : (m.setEngine i c).guest = m.guest := rfl
@[simp] theorem Mod.setEngine_pcie (i : Nat) (c : Engine) : (m.setEngine i c).pcie = m.pcie := rfl
@[simp] theorem Mod.setEngine_iotlb (i : Nat) (c : Engine) : (m.setEngine i c).iotlb = m.iotlb := rfl
@[simp] theorem Mod.setEngine_adapterWait (i : Nat) (c : Engine) : (m.setEngine i c).adapterWait = m.adapterWait := rfl
@[simp] theorem Mod.setEngine_upstream (i : Nat) (c : Engine) : (m.setEngine i c).upstream = m.upstream := rfl
@[simp] theorem Mod.setEngine_linkLevels (i : Nat) (c : Engine) : (m.setEngine i c).linkLevels = m.linkLevels := rfl
@[simp] theorem Mod.setEngine_beacon (i : Nat) (c : Engine) : (m.setEngine i c).beacon = m.beacon := rfl
@[simp] theorem Mod.setEngine_sets (i : Nat) (c : Engine) : (m.setEngine i c).sets = m.sets := rfl
@[simp] theorem Mod.setEngine_errs (i : Nat) (c : Engine) : (m.setEngine i c).errs = m.errs := rfl
@[simp] theorem Mod.setEngine_events (i : Nat) (c : Engine) : (m.setEngine i c).events = m.events := rfl
@[simp] theorem Mod.setEngine_nextSeq (i : Nat) (c : Engine) : (m.setEngine i c).nextSeq = m.nextSeq := rfl
@[simp] theorem Mod.setEngine_overwritten (i : Nat) (c : Engine) : (m.setEngine i c).overwritten = m.overwritten := rfl
@[simp] theorem Mod.setEngine_keyEpochs (i : Nat) (c : Engine) : (m.setEngine i c).keyEpochs = m.keyEpochs := rfl
@[simp] theorem Mod.setEngine_reports (i : Nat) (c : Engine) : (m.setEngine i c).reports = m.reports := rfl
@[simp] theorem Mod.setEngine_out (i : Nat) (c : Engine) : (m.setEngine i c).out = m.out := rfl
@[simp] theorem Mod.setEngine_free (i : Nat) (c : Engine) : (m.setEngine i c).free = m.free := rfl
@[simp] theorem Mod.setEngine_core_at (i : Nat) (c : Engine) (n : Nat) : (m.setEngine i c).core n = m.core n := rfl
@[simp] theorem Mod.setEngine_cluster_at (i : Nat) (c : Engine) (n : Nat) : (m.setEngine i c).cluster n = m.cluster n := rfl
@[simp] theorem Mod.setEngine_queue_at (i : Nat) (c : Engine) (p : QRef) : (m.setEngine i c).queue p = m.queue p := rfl
@[simp] theorem Mod.setEngine_set_at (i : Nat) (c : Engine) (n : Nat) : Mod.set (m.setEngine i c) n = Mod.set m n := rfl
@[simp] theorem Mod.setEngine_region_at (i : Nat) (c : Engine) (n : Nat) : (m.setEngine i c).region n = m.region n := rfl
@[simp] theorem Mod.setEngine_mooring_at (i : Nat) (c : Engine) (n : Nat) : (m.setEngine i c).mooring n = m.mooring n := rfl
@[simp] theorem Mod.setEngine_ctl_at (i : Nat) (c : Engine) (n : Nat) : (m.setEngine i c).ctl n = m.ctl n := rfl
@[simp] theorem Mod.setEngine_err_at (i : Nat) (c : Engine) (n : Nat) : (m.setEngine i c).err n = m.err n := rfl
@[simp] theorem Mod.setEngine_slice_at (i : Nat) (c : Engine) (n : Nat) : (m.setEngine i c).slice n = m.slice n := rfl
@[simp] theorem Mod.setEngine_pdCore_at (i : Nat) (c : Engine) (n : Nat) : (m.setEngine i c).pdCore n = m.pdCore n := rfl
@[simp] theorem Mod.setEngine_reg_at (i : Nat) (c : Engine) (k l : Nat) (e : Word) : (m.setEngine i c).reg k l e = m.reg k l e := rfl
@[simp] theorem Mod.setEngine_sector_at (i : Nat) (c : Engine) (n : Nat) : (m.setEngine i c).sector n = m.sector n := rfl
@[simp] theorem Mod.setEngine_fn_at (i : Nat) (c : Engine) (k l : Nat) : (m.setEngine i c).fn k l = m.fn k l := rfl
@[simp] theorem Mod.setEngine_port_at (i : Nat) (c : Engine) (n : Nat) : (m.setEngine i c).port n = m.port n := rfl
@[simp] theorem Mod.setEngine_engine_at (i : Nat) (c : Engine) (j : Nat) : (m.setEngine i c).engine j = if j = i then c else m.engine j := by
  simp [Mod.setEngine, Mod.engine]
@[simp] theorem Mod.setEngine_die_at (i : Nat) (c : Engine) (n : Nat) : (m.setEngine i c).die n = m.die n := rfl
@[simp] theorem Mod.setEngine_pciePort_at (i : Nat) (c : Engine) (n : Nat) : (m.setEngine i c).pciePort n = m.pciePort n := rfl
@[simp] theorem Mod.setEngine_bt_at (i : Nat) (c : Engine)  : (m.setEngine i c).bt = m.bt := rfl

/-! ## updDie -/
@[simp] theorem Mod.updDie_part (i : Nat) (c : Die → Die) : (m.updDie i c).part = m.part := rfl
@[simp] theorem Mod.updDie_regs (i : Nat) (c : Die → Die) : (m.updDie i c).regs = m.regs := rfl
@[simp] theorem Mod.updDie_cores (i : Nat) (c : Die → Die) : (m.updDie i c).cores = m.cores := rfl
@[simp] theorem Mod.updDie_clusters (i : Nat) (c : Die → Die) : (m.updDie i c).clusters = m.clusters := rfl
@[simp] theorem Mod.updDie_posts (i : Nat) (c : Die → Die) : (m.updDie i c).posts = m.posts := rfl
@[simp] theorem Mod.updDie_dram (i : Nat) (c : Die → Die) : (m.updDie i c).dram = m.dram := rfl
@[simp] theorem Mod.updDie_poison (i : Nat) (c : Die → Die) : (m.updDie i c).poison = m.poison := rfl
@[simp] theorem Mod.updDie_regions (i : Nat) (c : Die → Die) : (m.updDie i c).regions = m.regions := rfl
@[simp] theorem Mod.updDie_moorings (i : Nat) (c : Die → Die) : (m.updDie i c).moorings = m.moorings := rfl
@[simp] theorem Mod.updDie_controllers (i : Nat) (c : Die → Die) : (m.updDie i c).controllers = m.controllers := rfl
@[simp] theorem Mod.updDie_hdm (i : Nat) (c : Die → Die) : (m.updDie i c).hdm = m.hdm := rfl
@[simp] theorem Mod.updDie_caches (i : Nat) (c : Die → Die) : (m.updDie i c).caches = m.caches := rfl
@[simp] theorem Mod.updDie_evictions (i : Nat) (c : Die → Die) : (m.updDie i c).evictions = m.evictions := rfl
@[simp] theorem Mod.updDie_slices (i : Nat) (c : Die → Die) : (m.updDie i c).slices = m.slices := rfl
@[simp] theorem Mod.updDie_pdCores (i : Nat) (c : Die → Die) : (m.updDie i c).pdCores = m.pdCores := rfl
@[simp] theorem Mod.updDie_sectors (i : Nat) (c : Die → Die) : (m.updDie i c).sectors = m.sectors := rfl
@[simp] theorem Mod.updDie_fns (i : Nat) (c : Die → Die) : (m.updDie i c).fns = m.fns := rfl
@[simp] theorem Mod.updDie_queues (i : Nat) (c : Die → Die) : (m.updDie i c).queues = m.queues := rfl
@[simp] theorem Mod.updDie_mqs (i : Nat) (c : Die → Die) : (m.updDie i c).mqs = m.mqs := rfl
@[simp] theorem Mod.updDie_mqPath (i : Nat) (c : Die → Die) : (m.updDie i c).mqPath = m.mqPath := rfl
@[simp] theorem Mod.updDie_mqSector (i : Nat) (c : Die → Die) : (m.updDie i c).mqSector = m.mqSector := rfl
@[simp] theorem Mod.updDie_mqTurn (i : Nat) (c : Die → Die) : (m.updDie i c).mqTurn = m.mqTurn := rfl
@[simp] theorem Mod.updDie_ports (i : Nat) (c : Die → Die) : (m.updDie i c).ports = m.ports := rfl
@[simp] theorem Mod.updDie_eds (i : Nat) (c : Die → Die) : (m.updDie i c).eds = m.eds := rfl
@[simp] theorem Mod.updDie_engines (i : Nat) (c : Die → Die) : (m.updDie i c).engines = m.engines := rfl
@[simp] theorem Mod.updDie_groupRoute (i : Nat) (c : Die → Die) : (m.updDie i c).groupRoute = m.groupRoute := rfl
@[simp] theorem Mod.updDie_memberRoute (i : Nat) (c : Die → Die) : (m.updDie i c).memberRoute = m.memberRoute := rfl
@[simp] theorem Mod.updDie_inbox (i : Nat) (c : Die → Die) : (m.updDie i c).inbox = m.inbox := rfl
@[simp] theorem Mod.updDie_routeWait (i : Nat) (c : Die → Die) : (m.updDie i c).routeWait = m.routeWait := rfl
@[simp] theorem Mod.updDie_arrived (i : Nat) (c : Die → Die) : (m.updDie i c).arrived = m.arrived := rfl
@[simp] theorem Mod.updDie_txFlows (i : Nat) (c : Die → Die) : (m.updDie i c).txFlows = m.txFlows := rfl
@[simp] theorem Mod.updDie_rxFlows (i : Nat) (c : Die → Die) : (m.updDie i c).rxFlows = m.rxFlows := rfl
@[simp] theorem Mod.updDie_holdoff (i : Nat) (c : Die → Die) : (m.updDie i c).holdoff = m.holdoff := rfl
@[simp] theorem Mod.updDie_tender (i : Nat) (c : Die → Die) : (m.updDie i c).tender = m.tender := rfl
@[simp] theorem Mod.updDie_injections (i : Nat) (c : Die → Die) : (m.updDie i c).injections = m.injections := rfl
@[simp] theorem Mod.updDie_dieGens (i : Nat) (c : Die → Die) : (m.updDie i c).dieGens = m.dieGens := rfl
@[simp] theorem Mod.updDie_remotes (i : Nat) (c : Die → Die) : (m.updDie i c).remotes = m.remotes := rfl
@[simp] theorem Mod.updDie_nextCmd (i : Nat) (c : Die → Die) : (m.updDie i c).nextCmd = m.nextCmd := rfl
@[simp] theorem Mod.updDie_txns (i : Nat) (c : Die → Die) : (m.updDie i c).txns = m.txns := rfl
@[simp] theorem Mod.updDie_tagWait (i : Nat) (c : Die → Die) : (m.updDie i c).tagWait = m.tagWait := rfl
@[simp] theorem Mod.updDie_buckets (i : Nat) (c : Die → Die) : (m.updDie i c).buckets = m.buckets := rfl
@[simp] theorem Mod.updDie_ctlHot (i : Nat) (c : Die → Die) : (m.updDie i c).ctlHot = m.ctlHot := rfl
@[simp] theorem Mod.updDie_rtrHot (i : Nat) (c : Die → Die) : (m.updDie i c).rtrHot = m.rtrHot := rfl
@[simp] theorem Mod.updDie_cohError (i : Nat) (c : Die → Die) : (m.updDie i c).cohError = m.cohError := rfl
@[simp] theorem Mod.updDie_bursts (i : Nat) (c : Die → Die) : (m.updDie i c).bursts = m.bursts := rfl
@[simp] theorem Mod.updDie_keeperQueue (i : Nat) (c : Die → Die) : (m.updDie i c).keeperQueue = m.keeperQueue := rfl
@[simp] theorem Mod.updDie_keeperTurn (i : Nat) (c : Die → Die) : (m.updDie i c).keeperTurn = m.keeperTurn := rfl
@[simp] theorem Mod.updDie_keySlots (i : Nat) (c : Die → Die) : (m.updDie i c).keySlots = m.keySlots := rfl
@[simp] theorem Mod.updDie_models (i : Nat) (c : Die → Die) : (m.updDie i c).models = m.models := rfl
@[simp] theorem Mod.updDie_sessions (i : Nat) (c : Die → Die) : (m.updDie i c).sessions = m.sessions := rfl
@[simp] theorem Mod.updDie_scrubLast (i : Nat) (c : Die → Die) : (m.updDie i c).scrubLast = m.scrubLast := rfl
@[simp] theorem Mod.updDie_fills (i : Nat) (c : Die → Die) : (m.updDie i c).fills = m.fills := rfl
@[simp] theorem Mod.updDie_unlocked (i : Nat) (c : Die → Die) : (m.updDie i c).unlocked = m.unlocked := rfl
@[simp] theorem Mod.updDie_bootImage (i : Nat) (c : Die → Die) : (m.updDie i c).bootImage = m.bootImage := rfl
@[simp] theorem Mod.updDie_rootIndex (i : Nat) (c : Die → Die) : (m.updDie i c).rootIndex = m.rootIndex := rfl
@[simp] theorem Mod.updDie_starts (i : Nat) (c : Die → Die) : (m.updDie i c).starts = m.starts := rfl
@[simp] theorem Mod.updDie_svnFused (i : Nat) (c : Die → Die) : (m.updDie i c).svnFused = m.svnFused := rfl
@[simp] theorem Mod.updDie_svnRunning (i : Nat) (c : Die → Die) : (m.updDie i c).svnRunning = m.svnRunning := rfl
@[simp] theorem Mod.updDie_measurements (i : Nat) (c : Die → Die) : (m.updDie i c).measurements = m.measurements := rfl
@[simp] theorem Mod.updDie_harbourUp (i : Nat) (c : Die → Die) : (m.updDie i c).harbourUp = m.harbourUp := rfl
@[simp] theorem Mod.updDie_computeUp (i : Nat) (c : Die → Die) : (m.updDie i c).computeUp = m.computeUp := rfl
@[simp] theorem Mod.updDie_edgeLost (i : Nat) (c : Die → Die) : (m.updDie i c).edgeLost = m.edgeLost := rfl
@[simp] theorem Mod.updDie_fw (i : Nat) (c : Die → Die) : (m.updDie i c).fw = m.fw := rfl
@[simp] theorem Mod.updDie_power (i : Nat) (c : Die → Die) : (m.updDie i c).power = m.power := rfl
@[simp] theorem Mod.updDie_boot (i : Nat) (c : Die → Die) : (m.updDie i c).boot = m.boot := rfl
@[simp] theorem Mod.updDie_patrol (i : Nat) (c : Die → Die) : (m.updDie i c).patrol = m.patrol := rfl
@[simp] theorem Mod.updDie_lanes (i : Nat) (c : Die → Die) : (m.updDie i c).lanes = m.lanes := rfl
@[simp] theorem Mod.updDie_levels (i : Nat) (c : Die → Die) : (m.updDie i c).levels = m.levels := rfl
@[simp] theorem Mod.updDie_notices (i : Nat) (c : Die → Die) : (m.updDie i c).notices = m.notices := rfl
@[simp] theorem Mod.updDie_incoming (i : Nat) (c : Die → Die) : (m.updDie i c).incoming = m.incoming := rfl
@[simp] theorem Mod.updDie_remoteQ (i : Nat) (c : Die → Die) : (m.updDie i c).remoteQ = m.remoteQ := rfl
@[simp] theorem Mod.updDie_nextIncoming (i : Nat) (c : Die → Die) : (m.updDie i c).nextIncoming = m.nextIncoming := rfl
@[simp] theorem Mod.updDie_tap (i : Nat) (c : Die → Die) : (m.updDie i c).tap = m.tap := rfl
@[simp] theorem Mod.updDie_guest (i : Nat) (c : Die → Die) : (m.updDie i c).guest = m.guest := rfl
@[simp] theorem Mod.updDie_pcie (i : Nat) (c : Die → Die) : (m.updDie i c).pcie = m.pcie := rfl
@[simp] theorem Mod.updDie_iotlb (i : Nat) (c : Die → Die) : (m.updDie i c).iotlb = m.iotlb := rfl
@[simp] theorem Mod.updDie_adapterWait (i : Nat) (c : Die → Die) : (m.updDie i c).adapterWait = m.adapterWait := rfl
@[simp] theorem Mod.updDie_upstream (i : Nat) (c : Die → Die) : (m.updDie i c).upstream = m.upstream := rfl
@[simp] theorem Mod.updDie_linkLevels (i : Nat) (c : Die → Die) : (m.updDie i c).linkLevels = m.linkLevels := rfl
@[simp] theorem Mod.updDie_beacon (i : Nat) (c : Die → Die) : (m.updDie i c).beacon = m.beacon := rfl
@[simp] theorem Mod.updDie_sets (i : Nat) (c : Die → Die) : (m.updDie i c).sets = m.sets := rfl
@[simp] theorem Mod.updDie_errs (i : Nat) (c : Die → Die) : (m.updDie i c).errs = m.errs := rfl
@[simp] theorem Mod.updDie_events (i : Nat) (c : Die → Die) : (m.updDie i c).events = m.events := rfl
@[simp] theorem Mod.updDie_nextSeq (i : Nat) (c : Die → Die) : (m.updDie i c).nextSeq = m.nextSeq := rfl
@[simp] theorem Mod.updDie_overwritten (i : Nat) (c : Die → Die) : (m.updDie i c).overwritten = m.overwritten := rfl
@[simp] theorem Mod.updDie_keyEpochs (i : Nat) (c : Die → Die) : (m.updDie i c).keyEpochs = m.keyEpochs := rfl
@[simp] theorem Mod.updDie_reports (i : Nat) (c : Die → Die) : (m.updDie i c).reports = m.reports := rfl
@[simp] theorem Mod.updDie_out (i : Nat) (c : Die → Die) : (m.updDie i c).out = m.out := rfl
@[simp] theorem Mod.updDie_free (i : Nat) (c : Die → Die) : (m.updDie i c).free = m.free := rfl
@[simp] theorem Mod.updDie_core_at (i : Nat) (c : Die → Die) (n : Nat) : (m.updDie i c).core n = m.core n := rfl
@[simp] theorem Mod.updDie_cluster_at (i : Nat) (c : Die → Die) (n : Nat) : (m.updDie i c).cluster n = m.cluster n := rfl
@[simp] theorem Mod.updDie_queue_at (i : Nat) (c : Die → Die) (p : QRef) : (m.updDie i c).queue p = m.queue p := rfl
@[simp] theorem Mod.updDie_set_at (i : Nat) (c : Die → Die) (n : Nat) : Mod.set (m.updDie i c) n = Mod.set m n := rfl
@[simp] theorem Mod.updDie_region_at (i : Nat) (c : Die → Die) (n : Nat) : (m.updDie i c).region n = m.region n := rfl
@[simp] theorem Mod.updDie_mooring_at (i : Nat) (c : Die → Die) (n : Nat) : (m.updDie i c).mooring n = m.mooring n := rfl
@[simp] theorem Mod.updDie_ctl_at (i : Nat) (c : Die → Die) (n : Nat) : (m.updDie i c).ctl n = m.ctl n := rfl
@[simp] theorem Mod.updDie_err_at (i : Nat) (c : Die → Die) (n : Nat) : (m.updDie i c).err n = m.err n := rfl
@[simp] theorem Mod.updDie_slice_at (i : Nat) (c : Die → Die) (n : Nat) : (m.updDie i c).slice n = m.slice n := rfl
@[simp] theorem Mod.updDie_pdCore_at (i : Nat) (c : Die → Die) (n : Nat) : (m.updDie i c).pdCore n = m.pdCore n := rfl
@[simp] theorem Mod.updDie_reg_at (i : Nat) (c : Die → Die) (k l : Nat) (e : Word) : (m.updDie i c).reg k l e = m.reg k l e := rfl
@[simp] theorem Mod.updDie_sector_at (i : Nat) (c : Die → Die) (n : Nat) : (m.updDie i c).sector n = m.sector n := rfl
@[simp] theorem Mod.updDie_fn_at (i : Nat) (c : Die → Die) (k l : Nat) : (m.updDie i c).fn k l = m.fn k l := rfl
@[simp] theorem Mod.updDie_port_at (i : Nat) (c : Die → Die) (n : Nat) : (m.updDie i c).port n = m.port n := rfl
@[simp] theorem Mod.updDie_engine_at (i : Nat) (c : Die → Die) (n : Nat) : (m.updDie i c).engine n = m.engine n := rfl
@[simp] theorem Mod.updDie_die_at (i : Nat) (c : Die → Die) (j : Nat) : (m.updDie i c).die j = if j = i then c (m.die i) else m.die j := by
  simp only [Mod.updDie, Mod.die, Table.get_upd]
@[simp] theorem Mod.updDie_pciePort_at (i : Nat) (c : Die → Die) (n : Nat) : (m.updDie i c).pciePort n = m.pciePort n := rfl
@[simp] theorem Mod.updDie_bt_at (i : Nat) (c : Die → Die)  : (m.updDie i c).bt = m.bt := rfl

/-! ## updPcie -/
@[simp] theorem Mod.updPcie_part (i : Nat) (c : PciePort → PciePort) : (m.updPcie i c).part = m.part := rfl
@[simp] theorem Mod.updPcie_regs (i : Nat) (c : PciePort → PciePort) : (m.updPcie i c).regs = m.regs := rfl
@[simp] theorem Mod.updPcie_cores (i : Nat) (c : PciePort → PciePort) : (m.updPcie i c).cores = m.cores := rfl
@[simp] theorem Mod.updPcie_clusters (i : Nat) (c : PciePort → PciePort) : (m.updPcie i c).clusters = m.clusters := rfl
@[simp] theorem Mod.updPcie_posts (i : Nat) (c : PciePort → PciePort) : (m.updPcie i c).posts = m.posts := rfl
@[simp] theorem Mod.updPcie_dram (i : Nat) (c : PciePort → PciePort) : (m.updPcie i c).dram = m.dram := rfl
@[simp] theorem Mod.updPcie_poison (i : Nat) (c : PciePort → PciePort) : (m.updPcie i c).poison = m.poison := rfl
@[simp] theorem Mod.updPcie_regions (i : Nat) (c : PciePort → PciePort) : (m.updPcie i c).regions = m.regions := rfl
@[simp] theorem Mod.updPcie_moorings (i : Nat) (c : PciePort → PciePort) : (m.updPcie i c).moorings = m.moorings := rfl
@[simp] theorem Mod.updPcie_controllers (i : Nat) (c : PciePort → PciePort) : (m.updPcie i c).controllers = m.controllers := rfl
@[simp] theorem Mod.updPcie_hdm (i : Nat) (c : PciePort → PciePort) : (m.updPcie i c).hdm = m.hdm := rfl
@[simp] theorem Mod.updPcie_caches (i : Nat) (c : PciePort → PciePort) : (m.updPcie i c).caches = m.caches := rfl
@[simp] theorem Mod.updPcie_evictions (i : Nat) (c : PciePort → PciePort) : (m.updPcie i c).evictions = m.evictions := rfl
@[simp] theorem Mod.updPcie_slices (i : Nat) (c : PciePort → PciePort) : (m.updPcie i c).slices = m.slices := rfl
@[simp] theorem Mod.updPcie_pdCores (i : Nat) (c : PciePort → PciePort) : (m.updPcie i c).pdCores = m.pdCores := rfl
@[simp] theorem Mod.updPcie_sectors (i : Nat) (c : PciePort → PciePort) : (m.updPcie i c).sectors = m.sectors := rfl
@[simp] theorem Mod.updPcie_fns (i : Nat) (c : PciePort → PciePort) : (m.updPcie i c).fns = m.fns := rfl
@[simp] theorem Mod.updPcie_queues (i : Nat) (c : PciePort → PciePort) : (m.updPcie i c).queues = m.queues := rfl
@[simp] theorem Mod.updPcie_mqs (i : Nat) (c : PciePort → PciePort) : (m.updPcie i c).mqs = m.mqs := rfl
@[simp] theorem Mod.updPcie_mqPath (i : Nat) (c : PciePort → PciePort) : (m.updPcie i c).mqPath = m.mqPath := rfl
@[simp] theorem Mod.updPcie_mqSector (i : Nat) (c : PciePort → PciePort) : (m.updPcie i c).mqSector = m.mqSector := rfl
@[simp] theorem Mod.updPcie_mqTurn (i : Nat) (c : PciePort → PciePort) : (m.updPcie i c).mqTurn = m.mqTurn := rfl
@[simp] theorem Mod.updPcie_ports (i : Nat) (c : PciePort → PciePort) : (m.updPcie i c).ports = m.ports := rfl
@[simp] theorem Mod.updPcie_eds (i : Nat) (c : PciePort → PciePort) : (m.updPcie i c).eds = m.eds := rfl
@[simp] theorem Mod.updPcie_engines (i : Nat) (c : PciePort → PciePort) : (m.updPcie i c).engines = m.engines := rfl
@[simp] theorem Mod.updPcie_groupRoute (i : Nat) (c : PciePort → PciePort) : (m.updPcie i c).groupRoute = m.groupRoute := rfl
@[simp] theorem Mod.updPcie_memberRoute (i : Nat) (c : PciePort → PciePort) : (m.updPcie i c).memberRoute = m.memberRoute := rfl
@[simp] theorem Mod.updPcie_inbox (i : Nat) (c : PciePort → PciePort) : (m.updPcie i c).inbox = m.inbox := rfl
@[simp] theorem Mod.updPcie_routeWait (i : Nat) (c : PciePort → PciePort) : (m.updPcie i c).routeWait = m.routeWait := rfl
@[simp] theorem Mod.updPcie_arrived (i : Nat) (c : PciePort → PciePort) : (m.updPcie i c).arrived = m.arrived := rfl
@[simp] theorem Mod.updPcie_txFlows (i : Nat) (c : PciePort → PciePort) : (m.updPcie i c).txFlows = m.txFlows := rfl
@[simp] theorem Mod.updPcie_rxFlows (i : Nat) (c : PciePort → PciePort) : (m.updPcie i c).rxFlows = m.rxFlows := rfl
@[simp] theorem Mod.updPcie_holdoff (i : Nat) (c : PciePort → PciePort) : (m.updPcie i c).holdoff = m.holdoff := rfl
@[simp] theorem Mod.updPcie_tender (i : Nat) (c : PciePort → PciePort) : (m.updPcie i c).tender = m.tender := rfl
@[simp] theorem Mod.updPcie_injections (i : Nat) (c : PciePort → PciePort) : (m.updPcie i c).injections = m.injections := rfl
@[simp] theorem Mod.updPcie_dieGens (i : Nat) (c : PciePort → PciePort) : (m.updPcie i c).dieGens = m.dieGens := rfl
@[simp] theorem Mod.updPcie_remotes (i : Nat) (c : PciePort → PciePort) : (m.updPcie i c).remotes = m.remotes := rfl
@[simp] theorem Mod.updPcie_nextCmd (i : Nat) (c : PciePort → PciePort) : (m.updPcie i c).nextCmd = m.nextCmd := rfl
@[simp] theorem Mod.updPcie_txns (i : Nat) (c : PciePort → PciePort) : (m.updPcie i c).txns = m.txns := rfl
@[simp] theorem Mod.updPcie_tagWait (i : Nat) (c : PciePort → PciePort) : (m.updPcie i c).tagWait = m.tagWait := rfl
@[simp] theorem Mod.updPcie_buckets (i : Nat) (c : PciePort → PciePort) : (m.updPcie i c).buckets = m.buckets := rfl
@[simp] theorem Mod.updPcie_ctlHot (i : Nat) (c : PciePort → PciePort) : (m.updPcie i c).ctlHot = m.ctlHot := rfl
@[simp] theorem Mod.updPcie_rtrHot (i : Nat) (c : PciePort → PciePort) : (m.updPcie i c).rtrHot = m.rtrHot := rfl
@[simp] theorem Mod.updPcie_cohError (i : Nat) (c : PciePort → PciePort) : (m.updPcie i c).cohError = m.cohError := rfl
@[simp] theorem Mod.updPcie_bursts (i : Nat) (c : PciePort → PciePort) : (m.updPcie i c).bursts = m.bursts := rfl
@[simp] theorem Mod.updPcie_keeperQueue (i : Nat) (c : PciePort → PciePort) : (m.updPcie i c).keeperQueue = m.keeperQueue := rfl
@[simp] theorem Mod.updPcie_keeperTurn (i : Nat) (c : PciePort → PciePort) : (m.updPcie i c).keeperTurn = m.keeperTurn := rfl
@[simp] theorem Mod.updPcie_keySlots (i : Nat) (c : PciePort → PciePort) : (m.updPcie i c).keySlots = m.keySlots := rfl
@[simp] theorem Mod.updPcie_models (i : Nat) (c : PciePort → PciePort) : (m.updPcie i c).models = m.models := rfl
@[simp] theorem Mod.updPcie_sessions (i : Nat) (c : PciePort → PciePort) : (m.updPcie i c).sessions = m.sessions := rfl
@[simp] theorem Mod.updPcie_scrubLast (i : Nat) (c : PciePort → PciePort) : (m.updPcie i c).scrubLast = m.scrubLast := rfl
@[simp] theorem Mod.updPcie_fills (i : Nat) (c : PciePort → PciePort) : (m.updPcie i c).fills = m.fills := rfl
@[simp] theorem Mod.updPcie_unlocked (i : Nat) (c : PciePort → PciePort) : (m.updPcie i c).unlocked = m.unlocked := rfl
@[simp] theorem Mod.updPcie_bootImage (i : Nat) (c : PciePort → PciePort) : (m.updPcie i c).bootImage = m.bootImage := rfl
@[simp] theorem Mod.updPcie_rootIndex (i : Nat) (c : PciePort → PciePort) : (m.updPcie i c).rootIndex = m.rootIndex := rfl
@[simp] theorem Mod.updPcie_starts (i : Nat) (c : PciePort → PciePort) : (m.updPcie i c).starts = m.starts := rfl
@[simp] theorem Mod.updPcie_svnFused (i : Nat) (c : PciePort → PciePort) : (m.updPcie i c).svnFused = m.svnFused := rfl
@[simp] theorem Mod.updPcie_svnRunning (i : Nat) (c : PciePort → PciePort) : (m.updPcie i c).svnRunning = m.svnRunning := rfl
@[simp] theorem Mod.updPcie_measurements (i : Nat) (c : PciePort → PciePort) : (m.updPcie i c).measurements = m.measurements := rfl
@[simp] theorem Mod.updPcie_dies (i : Nat) (c : PciePort → PciePort) : (m.updPcie i c).dies = m.dies := rfl
@[simp] theorem Mod.updPcie_harbourUp (i : Nat) (c : PciePort → PciePort) : (m.updPcie i c).harbourUp = m.harbourUp := rfl
@[simp] theorem Mod.updPcie_computeUp (i : Nat) (c : PciePort → PciePort) : (m.updPcie i c).computeUp = m.computeUp := rfl
@[simp] theorem Mod.updPcie_edgeLost (i : Nat) (c : PciePort → PciePort) : (m.updPcie i c).edgeLost = m.edgeLost := rfl
@[simp] theorem Mod.updPcie_fw (i : Nat) (c : PciePort → PciePort) : (m.updPcie i c).fw = m.fw := rfl
@[simp] theorem Mod.updPcie_power (i : Nat) (c : PciePort → PciePort) : (m.updPcie i c).power = m.power := rfl
@[simp] theorem Mod.updPcie_boot (i : Nat) (c : PciePort → PciePort) : (m.updPcie i c).boot = m.boot := rfl
@[simp] theorem Mod.updPcie_patrol (i : Nat) (c : PciePort → PciePort) : (m.updPcie i c).patrol = m.patrol := rfl
@[simp] theorem Mod.updPcie_lanes (i : Nat) (c : PciePort → PciePort) : (m.updPcie i c).lanes = m.lanes := rfl
@[simp] theorem Mod.updPcie_levels (i : Nat) (c : PciePort → PciePort) : (m.updPcie i c).levels = m.levels := rfl
@[simp] theorem Mod.updPcie_notices (i : Nat) (c : PciePort → PciePort) : (m.updPcie i c).notices = m.notices := rfl
@[simp] theorem Mod.updPcie_incoming (i : Nat) (c : PciePort → PciePort) : (m.updPcie i c).incoming = m.incoming := rfl
@[simp] theorem Mod.updPcie_remoteQ (i : Nat) (c : PciePort → PciePort) : (m.updPcie i c).remoteQ = m.remoteQ := rfl
@[simp] theorem Mod.updPcie_nextIncoming (i : Nat) (c : PciePort → PciePort) : (m.updPcie i c).nextIncoming = m.nextIncoming := rfl
@[simp] theorem Mod.updPcie_tap (i : Nat) (c : PciePort → PciePort) : (m.updPcie i c).tap = m.tap := rfl
@[simp] theorem Mod.updPcie_guest (i : Nat) (c : PciePort → PciePort) : (m.updPcie i c).guest = m.guest := rfl
@[simp] theorem Mod.updPcie_iotlb (i : Nat) (c : PciePort → PciePort) : (m.updPcie i c).iotlb = m.iotlb := rfl
@[simp] theorem Mod.updPcie_adapterWait (i : Nat) (c : PciePort → PciePort) : (m.updPcie i c).adapterWait = m.adapterWait := rfl
@[simp] theorem Mod.updPcie_upstream (i : Nat) (c : PciePort → PciePort) : (m.updPcie i c).upstream = m.upstream := rfl
@[simp] theorem Mod.updPcie_linkLevels (i : Nat) (c : PciePort → PciePort) : (m.updPcie i c).linkLevels = m.linkLevels := rfl
@[simp] theorem Mod.updPcie_beacon (i : Nat) (c : PciePort → PciePort) : (m.updPcie i c).beacon = m.beacon := rfl
@[simp] theorem Mod.updPcie_sets (i : Nat) (c : PciePort → PciePort) : (m.updPcie i c).sets = m.sets := rfl
@[simp] theorem Mod.updPcie_errs (i : Nat) (c : PciePort → PciePort) : (m.updPcie i c).errs = m.errs := rfl
@[simp] theorem Mod.updPcie_events (i : Nat) (c : PciePort → PciePort) : (m.updPcie i c).events = m.events := rfl
@[simp] theorem Mod.updPcie_nextSeq (i : Nat) (c : PciePort → PciePort) : (m.updPcie i c).nextSeq = m.nextSeq := rfl
@[simp] theorem Mod.updPcie_overwritten (i : Nat) (c : PciePort → PciePort) : (m.updPcie i c).overwritten = m.overwritten := rfl
@[simp] theorem Mod.updPcie_keyEpochs (i : Nat) (c : PciePort → PciePort) : (m.updPcie i c).keyEpochs = m.keyEpochs := rfl
@[simp] theorem Mod.updPcie_reports (i : Nat) (c : PciePort → PciePort) : (m.updPcie i c).reports = m.reports := rfl
@[simp] theorem Mod.updPcie_out (i : Nat) (c : PciePort → PciePort) : (m.updPcie i c).out = m.out := rfl
@[simp] theorem Mod.updPcie_free (i : Nat) (c : PciePort → PciePort) : (m.updPcie i c).free = m.free := rfl
@[simp] theorem Mod.updPcie_core_at (i : Nat) (c : PciePort → PciePort) (n : Nat) : (m.updPcie i c).core n = m.core n := rfl
@[simp] theorem Mod.updPcie_cluster_at (i : Nat) (c : PciePort → PciePort) (n : Nat) : (m.updPcie i c).cluster n = m.cluster n := rfl
@[simp] theorem Mod.updPcie_queue_at (i : Nat) (c : PciePort → PciePort) (p : QRef) : (m.updPcie i c).queue p = m.queue p := rfl
@[simp] theorem Mod.updPcie_set_at (i : Nat) (c : PciePort → PciePort) (n : Nat) : Mod.set (m.updPcie i c) n = Mod.set m n := rfl
@[simp] theorem Mod.updPcie_region_at (i : Nat) (c : PciePort → PciePort) (n : Nat) : (m.updPcie i c).region n = m.region n := rfl
@[simp] theorem Mod.updPcie_mooring_at (i : Nat) (c : PciePort → PciePort) (n : Nat) : (m.updPcie i c).mooring n = m.mooring n := rfl
@[simp] theorem Mod.updPcie_ctl_at (i : Nat) (c : PciePort → PciePort) (n : Nat) : (m.updPcie i c).ctl n = m.ctl n := rfl
@[simp] theorem Mod.updPcie_err_at (i : Nat) (c : PciePort → PciePort) (n : Nat) : (m.updPcie i c).err n = m.err n := rfl
@[simp] theorem Mod.updPcie_slice_at (i : Nat) (c : PciePort → PciePort) (n : Nat) : (m.updPcie i c).slice n = m.slice n := rfl
@[simp] theorem Mod.updPcie_pdCore_at (i : Nat) (c : PciePort → PciePort) (n : Nat) : (m.updPcie i c).pdCore n = m.pdCore n := rfl
@[simp] theorem Mod.updPcie_reg_at (i : Nat) (c : PciePort → PciePort) (k l : Nat) (e : Word) : (m.updPcie i c).reg k l e = m.reg k l e := rfl
@[simp] theorem Mod.updPcie_sector_at (i : Nat) (c : PciePort → PciePort) (n : Nat) : (m.updPcie i c).sector n = m.sector n := rfl
@[simp] theorem Mod.updPcie_fn_at (i : Nat) (c : PciePort → PciePort) (k l : Nat) : (m.updPcie i c).fn k l = m.fn k l := rfl
@[simp] theorem Mod.updPcie_port_at (i : Nat) (c : PciePort → PciePort) (n : Nat) : (m.updPcie i c).port n = m.port n := rfl
@[simp] theorem Mod.updPcie_engine_at (i : Nat) (c : PciePort → PciePort) (n : Nat) : (m.updPcie i c).engine n = m.engine n := rfl
@[simp] theorem Mod.updPcie_die_at (i : Nat) (c : PciePort → PciePort) (n : Nat) : (m.updPcie i c).die n = m.die n := rfl
@[simp] theorem Mod.updPcie_pciePort_at (i : Nat) (c : PciePort → PciePort) (j : Nat) : (m.updPcie i c).pciePort j = if j = i then c (m.pciePort i) else m.pciePort j := by
  simp only [Mod.updPcie, Mod.pciePort, Table.get_upd]
@[simp] theorem Mod.updPcie_bt_at (i : Nat) (c : PciePort → PciePort)  : (m.updPcie i c).bt = m.bt := rfl

/-! ## emit -/
@[simp] theorem Mod.emit_part (c : Out) : (m.emit c).part = m.part := rfl
@[simp] theorem Mod.emit_regs (c : Out) : (m.emit c).regs = m.regs := rfl
@[simp] theorem Mod.emit_cores (c : Out) : (m.emit c).cores = m.cores := rfl
@[simp] theorem Mod.emit_clusters (c : Out) : (m.emit c).clusters = m.clusters := rfl
@[simp] theorem Mod.emit_posts (c : Out) : (m.emit c).posts = m.posts := rfl
@[simp] theorem Mod.emit_dram (c : Out) : (m.emit c).dram = m.dram := rfl
@[simp] theorem Mod.emit_poison (c : Out) : (m.emit c).poison = m.poison := rfl
@[simp] theorem Mod.emit_regions (c : Out) : (m.emit c).regions = m.regions := rfl
@[simp] theorem Mod.emit_moorings (c : Out) : (m.emit c).moorings = m.moorings := rfl
@[simp] theorem Mod.emit_controllers (c : Out) : (m.emit c).controllers = m.controllers := rfl
@[simp] theorem Mod.emit_hdm (c : Out) : (m.emit c).hdm = m.hdm := rfl
@[simp] theorem Mod.emit_caches (c : Out) : (m.emit c).caches = m.caches := rfl
@[simp] theorem Mod.emit_evictions (c : Out) : (m.emit c).evictions = m.evictions := rfl
@[simp] theorem Mod.emit_slices (c : Out) : (m.emit c).slices = m.slices := rfl
@[simp] theorem Mod.emit_pdCores (c : Out) : (m.emit c).pdCores = m.pdCores := rfl
@[simp] theorem Mod.emit_sectors (c : Out) : (m.emit c).sectors = m.sectors := rfl
@[simp] theorem Mod.emit_fns (c : Out) : (m.emit c).fns = m.fns := rfl
@[simp] theorem Mod.emit_queues (c : Out) : (m.emit c).queues = m.queues := rfl
@[simp] theorem Mod.emit_mqs (c : Out) : (m.emit c).mqs = m.mqs := rfl
@[simp] theorem Mod.emit_mqPath (c : Out) : (m.emit c).mqPath = m.mqPath := rfl
@[simp] theorem Mod.emit_mqSector (c : Out) : (m.emit c).mqSector = m.mqSector := rfl
@[simp] theorem Mod.emit_mqTurn (c : Out) : (m.emit c).mqTurn = m.mqTurn := rfl
@[simp] theorem Mod.emit_ports (c : Out) : (m.emit c).ports = m.ports := rfl
@[simp] theorem Mod.emit_eds (c : Out) : (m.emit c).eds = m.eds := rfl
@[simp] theorem Mod.emit_engines (c : Out) : (m.emit c).engines = m.engines := rfl
@[simp] theorem Mod.emit_groupRoute (c : Out) : (m.emit c).groupRoute = m.groupRoute := rfl
@[simp] theorem Mod.emit_memberRoute (c : Out) : (m.emit c).memberRoute = m.memberRoute := rfl
@[simp] theorem Mod.emit_inbox (c : Out) : (m.emit c).inbox = m.inbox := rfl
@[simp] theorem Mod.emit_routeWait (c : Out) : (m.emit c).routeWait = m.routeWait := rfl
@[simp] theorem Mod.emit_arrived (c : Out) : (m.emit c).arrived = m.arrived := rfl
@[simp] theorem Mod.emit_txFlows (c : Out) : (m.emit c).txFlows = m.txFlows := rfl
@[simp] theorem Mod.emit_rxFlows (c : Out) : (m.emit c).rxFlows = m.rxFlows := rfl
@[simp] theorem Mod.emit_holdoff (c : Out) : (m.emit c).holdoff = m.holdoff := rfl
@[simp] theorem Mod.emit_tender (c : Out) : (m.emit c).tender = m.tender := rfl
@[simp] theorem Mod.emit_injections (c : Out) : (m.emit c).injections = m.injections := rfl
@[simp] theorem Mod.emit_dieGens (c : Out) : (m.emit c).dieGens = m.dieGens := rfl
@[simp] theorem Mod.emit_remotes (c : Out) : (m.emit c).remotes = m.remotes := rfl
@[simp] theorem Mod.emit_nextCmd (c : Out) : (m.emit c).nextCmd = m.nextCmd := rfl
@[simp] theorem Mod.emit_txns (c : Out) : (m.emit c).txns = m.txns := rfl
@[simp] theorem Mod.emit_tagWait (c : Out) : (m.emit c).tagWait = m.tagWait := rfl
@[simp] theorem Mod.emit_buckets (c : Out) : (m.emit c).buckets = m.buckets := rfl
@[simp] theorem Mod.emit_ctlHot (c : Out) : (m.emit c).ctlHot = m.ctlHot := rfl
@[simp] theorem Mod.emit_rtrHot (c : Out) : (m.emit c).rtrHot = m.rtrHot := rfl
@[simp] theorem Mod.emit_cohError (c : Out) : (m.emit c).cohError = m.cohError := rfl
@[simp] theorem Mod.emit_bursts (c : Out) : (m.emit c).bursts = m.bursts := rfl
@[simp] theorem Mod.emit_keeperQueue (c : Out) : (m.emit c).keeperQueue = m.keeperQueue := rfl
@[simp] theorem Mod.emit_keeperTurn (c : Out) : (m.emit c).keeperTurn = m.keeperTurn := rfl
@[simp] theorem Mod.emit_keySlots (c : Out) : (m.emit c).keySlots = m.keySlots := rfl
@[simp] theorem Mod.emit_models (c : Out) : (m.emit c).models = m.models := rfl
@[simp] theorem Mod.emit_sessions (c : Out) : (m.emit c).sessions = m.sessions := rfl
@[simp] theorem Mod.emit_scrubLast (c : Out) : (m.emit c).scrubLast = m.scrubLast := rfl
@[simp] theorem Mod.emit_fills (c : Out) : (m.emit c).fills = m.fills := rfl
@[simp] theorem Mod.emit_unlocked (c : Out) : (m.emit c).unlocked = m.unlocked := rfl
@[simp] theorem Mod.emit_bootImage (c : Out) : (m.emit c).bootImage = m.bootImage := rfl
@[simp] theorem Mod.emit_rootIndex (c : Out) : (m.emit c).rootIndex = m.rootIndex := rfl
@[simp] theorem Mod.emit_starts (c : Out) : (m.emit c).starts = m.starts := rfl
@[simp] theorem Mod.emit_svnFused (c : Out) : (m.emit c).svnFused = m.svnFused := rfl
@[simp] theorem Mod.emit_svnRunning (c : Out) : (m.emit c).svnRunning = m.svnRunning := rfl
@[simp] theorem Mod.emit_measurements (c : Out) : (m.emit c).measurements = m.measurements := rfl
@[simp] theorem Mod.emit_dies (c : Out) : (m.emit c).dies = m.dies := rfl
@[simp] theorem Mod.emit_harbourUp (c : Out) : (m.emit c).harbourUp = m.harbourUp := rfl
@[simp] theorem Mod.emit_computeUp (c : Out) : (m.emit c).computeUp = m.computeUp := rfl
@[simp] theorem Mod.emit_edgeLost (c : Out) : (m.emit c).edgeLost = m.edgeLost := rfl
@[simp] theorem Mod.emit_fw (c : Out) : (m.emit c).fw = m.fw := rfl
@[simp] theorem Mod.emit_power (c : Out) : (m.emit c).power = m.power := rfl
@[simp] theorem Mod.emit_boot (c : Out) : (m.emit c).boot = m.boot := rfl
@[simp] theorem Mod.emit_patrol (c : Out) : (m.emit c).patrol = m.patrol := rfl
@[simp] theorem Mod.emit_lanes (c : Out) : (m.emit c).lanes = m.lanes := rfl
@[simp] theorem Mod.emit_levels (c : Out) : (m.emit c).levels = m.levels := rfl
@[simp] theorem Mod.emit_notices (c : Out) : (m.emit c).notices = m.notices := rfl
@[simp] theorem Mod.emit_incoming (c : Out) : (m.emit c).incoming = m.incoming := rfl
@[simp] theorem Mod.emit_remoteQ (c : Out) : (m.emit c).remoteQ = m.remoteQ := rfl
@[simp] theorem Mod.emit_nextIncoming (c : Out) : (m.emit c).nextIncoming = m.nextIncoming := rfl
@[simp] theorem Mod.emit_tap (c : Out) : (m.emit c).tap = m.tap := rfl
@[simp] theorem Mod.emit_guest (c : Out) : (m.emit c).guest = m.guest := rfl
@[simp] theorem Mod.emit_pcie (c : Out) : (m.emit c).pcie = m.pcie := rfl
@[simp] theorem Mod.emit_iotlb (c : Out) : (m.emit c).iotlb = m.iotlb := rfl
@[simp] theorem Mod.emit_adapterWait (c : Out) : (m.emit c).adapterWait = m.adapterWait := rfl
@[simp] theorem Mod.emit_upstream (c : Out) : (m.emit c).upstream = m.upstream := rfl
@[simp] theorem Mod.emit_linkLevels (c : Out) : (m.emit c).linkLevels = m.linkLevels := rfl
@[simp] theorem Mod.emit_beacon (c : Out) : (m.emit c).beacon = m.beacon := rfl
@[simp] theorem Mod.emit_sets (c : Out) : (m.emit c).sets = m.sets := rfl
@[simp] theorem Mod.emit_errs (c : Out) : (m.emit c).errs = m.errs := rfl
@[simp] theorem Mod.emit_events (c : Out) : (m.emit c).events = m.events := rfl
@[simp] theorem Mod.emit_nextSeq (c : Out) : (m.emit c).nextSeq = m.nextSeq := rfl
@[simp] theorem Mod.emit_overwritten (c : Out) : (m.emit c).overwritten = m.overwritten := rfl
@[simp] theorem Mod.emit_keyEpochs (c : Out) : (m.emit c).keyEpochs = m.keyEpochs := rfl
@[simp] theorem Mod.emit_reports (c : Out) : (m.emit c).reports = m.reports := rfl
@[simp] theorem Mod.emit_free (c : Out) : (m.emit c).free = m.free := rfl
@[simp] theorem Mod.emit_core_at (c : Out) (n : Nat) : (m.emit c).core n = m.core n := rfl
@[simp] theorem Mod.emit_cluster_at (c : Out) (n : Nat) : (m.emit c).cluster n = m.cluster n := rfl
@[simp] theorem Mod.emit_queue_at (c : Out) (p : QRef) : (m.emit c).queue p = m.queue p := rfl
@[simp] theorem Mod.emit_set_at (c : Out) (n : Nat) : Mod.set (m.emit c) n = Mod.set m n := rfl
@[simp] theorem Mod.emit_region_at (c : Out) (n : Nat) : (m.emit c).region n = m.region n := rfl
@[simp] theorem Mod.emit_mooring_at (c : Out) (n : Nat) : (m.emit c).mooring n = m.mooring n := rfl
@[simp] theorem Mod.emit_ctl_at (c : Out) (n : Nat) : (m.emit c).ctl n = m.ctl n := rfl
@[simp] theorem Mod.emit_err_at (c : Out) (n : Nat) : (m.emit c).err n = m.err n := rfl
@[simp] theorem Mod.emit_slice_at (c : Out) (n : Nat) : (m.emit c).slice n = m.slice n := rfl
@[simp] theorem Mod.emit_pdCore_at (c : Out) (n : Nat) : (m.emit c).pdCore n = m.pdCore n := rfl
@[simp] theorem Mod.emit_reg_at (c : Out) (k l : Nat) (e : Word) : (m.emit c).reg k l e = m.reg k l e := rfl
@[simp] theorem Mod.emit_sector_at (c : Out) (n : Nat) : (m.emit c).sector n = m.sector n := rfl
@[simp] theorem Mod.emit_fn_at (c : Out) (k l : Nat) : (m.emit c).fn k l = m.fn k l := rfl
@[simp] theorem Mod.emit_port_at (c : Out) (n : Nat) : (m.emit c).port n = m.port n := rfl
@[simp] theorem Mod.emit_engine_at (c : Out) (n : Nat) : (m.emit c).engine n = m.engine n := rfl
@[simp] theorem Mod.emit_die_at (c : Out) (n : Nat) : (m.emit c).die n = m.die n := rfl
@[simp] theorem Mod.emit_pciePort_at (c : Out) (n : Nat) : (m.emit c).pciePort n = m.pciePort n := rfl
@[simp] theorem Mod.emit_bt_at (c : Out)  : (m.emit c).bt = m.bt := rfl

/-! ## report -/
@[simp] theorem Mod.report_part (c : Domain) : (m.report c).part = m.part := rfl
@[simp] theorem Mod.report_regs (c : Domain) : (m.report c).regs = m.regs := rfl
@[simp] theorem Mod.report_cores (c : Domain) : (m.report c).cores = m.cores := rfl
@[simp] theorem Mod.report_clusters (c : Domain) : (m.report c).clusters = m.clusters := rfl
@[simp] theorem Mod.report_posts (c : Domain) : (m.report c).posts = m.posts := rfl
@[simp] theorem Mod.report_dram (c : Domain) : (m.report c).dram = m.dram := rfl
@[simp] theorem Mod.report_poison (c : Domain) : (m.report c).poison = m.poison := rfl
@[simp] theorem Mod.report_regions (c : Domain) : (m.report c).regions = m.regions := rfl
@[simp] theorem Mod.report_moorings (c : Domain) : (m.report c).moorings = m.moorings := rfl
@[simp] theorem Mod.report_controllers (c : Domain) : (m.report c).controllers = m.controllers := rfl
@[simp] theorem Mod.report_hdm (c : Domain) : (m.report c).hdm = m.hdm := rfl
@[simp] theorem Mod.report_caches (c : Domain) : (m.report c).caches = m.caches := rfl
@[simp] theorem Mod.report_evictions (c : Domain) : (m.report c).evictions = m.evictions := rfl
@[simp] theorem Mod.report_slices (c : Domain) : (m.report c).slices = m.slices := rfl
@[simp] theorem Mod.report_pdCores (c : Domain) : (m.report c).pdCores = m.pdCores := rfl
@[simp] theorem Mod.report_sectors (c : Domain) : (m.report c).sectors = m.sectors := rfl
@[simp] theorem Mod.report_fns (c : Domain) : (m.report c).fns = m.fns := rfl
@[simp] theorem Mod.report_queues (c : Domain) : (m.report c).queues = m.queues := rfl
@[simp] theorem Mod.report_mqs (c : Domain) : (m.report c).mqs = m.mqs := rfl
@[simp] theorem Mod.report_mqPath (c : Domain) : (m.report c).mqPath = m.mqPath := rfl
@[simp] theorem Mod.report_mqSector (c : Domain) : (m.report c).mqSector = m.mqSector := rfl
@[simp] theorem Mod.report_mqTurn (c : Domain) : (m.report c).mqTurn = m.mqTurn := rfl
@[simp] theorem Mod.report_ports (c : Domain) : (m.report c).ports = m.ports := rfl
@[simp] theorem Mod.report_eds (c : Domain) : (m.report c).eds = m.eds := rfl
@[simp] theorem Mod.report_engines (c : Domain) : (m.report c).engines = m.engines := rfl
@[simp] theorem Mod.report_groupRoute (c : Domain) : (m.report c).groupRoute = m.groupRoute := rfl
@[simp] theorem Mod.report_memberRoute (c : Domain) : (m.report c).memberRoute = m.memberRoute := rfl
@[simp] theorem Mod.report_inbox (c : Domain) : (m.report c).inbox = m.inbox := rfl
@[simp] theorem Mod.report_routeWait (c : Domain) : (m.report c).routeWait = m.routeWait := rfl
@[simp] theorem Mod.report_arrived (c : Domain) : (m.report c).arrived = m.arrived := rfl
@[simp] theorem Mod.report_txFlows (c : Domain) : (m.report c).txFlows = m.txFlows := rfl
@[simp] theorem Mod.report_rxFlows (c : Domain) : (m.report c).rxFlows = m.rxFlows := rfl
@[simp] theorem Mod.report_holdoff (c : Domain) : (m.report c).holdoff = m.holdoff := rfl
@[simp] theorem Mod.report_tender (c : Domain) : (m.report c).tender = m.tender := rfl
@[simp] theorem Mod.report_injections (c : Domain) : (m.report c).injections = m.injections := rfl
@[simp] theorem Mod.report_dieGens (c : Domain) : (m.report c).dieGens = m.dieGens := rfl
@[simp] theorem Mod.report_remotes (c : Domain) : (m.report c).remotes = m.remotes := rfl
@[simp] theorem Mod.report_nextCmd (c : Domain) : (m.report c).nextCmd = m.nextCmd := rfl
@[simp] theorem Mod.report_txns (c : Domain) : (m.report c).txns = m.txns := rfl
@[simp] theorem Mod.report_tagWait (c : Domain) : (m.report c).tagWait = m.tagWait := rfl
@[simp] theorem Mod.report_buckets (c : Domain) : (m.report c).buckets = m.buckets := rfl
@[simp] theorem Mod.report_ctlHot (c : Domain) : (m.report c).ctlHot = m.ctlHot := rfl
@[simp] theorem Mod.report_rtrHot (c : Domain) : (m.report c).rtrHot = m.rtrHot := rfl
@[simp] theorem Mod.report_cohError (c : Domain) : (m.report c).cohError = m.cohError := rfl
@[simp] theorem Mod.report_bursts (c : Domain) : (m.report c).bursts = m.bursts := rfl
@[simp] theorem Mod.report_keeperQueue (c : Domain) : (m.report c).keeperQueue = m.keeperQueue := rfl
@[simp] theorem Mod.report_keeperTurn (c : Domain) : (m.report c).keeperTurn = m.keeperTurn := rfl
@[simp] theorem Mod.report_keySlots (c : Domain) : (m.report c).keySlots = m.keySlots := rfl
@[simp] theorem Mod.report_models (c : Domain) : (m.report c).models = m.models := rfl
@[simp] theorem Mod.report_sessions (c : Domain) : (m.report c).sessions = m.sessions := rfl
@[simp] theorem Mod.report_scrubLast (c : Domain) : (m.report c).scrubLast = m.scrubLast := rfl
@[simp] theorem Mod.report_fills (c : Domain) : (m.report c).fills = m.fills := rfl
@[simp] theorem Mod.report_unlocked (c : Domain) : (m.report c).unlocked = m.unlocked := rfl
@[simp] theorem Mod.report_bootImage (c : Domain) : (m.report c).bootImage = m.bootImage := rfl
@[simp] theorem Mod.report_rootIndex (c : Domain) : (m.report c).rootIndex = m.rootIndex := rfl
@[simp] theorem Mod.report_starts (c : Domain) : (m.report c).starts = m.starts := rfl
@[simp] theorem Mod.report_svnFused (c : Domain) : (m.report c).svnFused = m.svnFused := rfl
@[simp] theorem Mod.report_svnRunning (c : Domain) : (m.report c).svnRunning = m.svnRunning := rfl
@[simp] theorem Mod.report_measurements (c : Domain) : (m.report c).measurements = m.measurements := rfl
@[simp] theorem Mod.report_dies (c : Domain) : (m.report c).dies = m.dies := rfl
@[simp] theorem Mod.report_harbourUp (c : Domain) : (m.report c).harbourUp = m.harbourUp := rfl
@[simp] theorem Mod.report_computeUp (c : Domain) : (m.report c).computeUp = m.computeUp := rfl
@[simp] theorem Mod.report_edgeLost (c : Domain) : (m.report c).edgeLost = m.edgeLost := rfl
@[simp] theorem Mod.report_fw (c : Domain) : (m.report c).fw = m.fw := rfl
@[simp] theorem Mod.report_power (c : Domain) : (m.report c).power = m.power := rfl
@[simp] theorem Mod.report_boot (c : Domain) : (m.report c).boot = m.boot := rfl
@[simp] theorem Mod.report_patrol (c : Domain) : (m.report c).patrol = m.patrol := rfl
@[simp] theorem Mod.report_lanes (c : Domain) : (m.report c).lanes = m.lanes := rfl
@[simp] theorem Mod.report_levels (c : Domain) : (m.report c).levels = m.levels := rfl
@[simp] theorem Mod.report_notices (c : Domain) : (m.report c).notices = m.notices := rfl
@[simp] theorem Mod.report_incoming (c : Domain) : (m.report c).incoming = m.incoming := rfl
@[simp] theorem Mod.report_remoteQ (c : Domain) : (m.report c).remoteQ = m.remoteQ := rfl
@[simp] theorem Mod.report_nextIncoming (c : Domain) : (m.report c).nextIncoming = m.nextIncoming := rfl
@[simp] theorem Mod.report_tap (c : Domain) : (m.report c).tap = m.tap := rfl
@[simp] theorem Mod.report_guest (c : Domain) : (m.report c).guest = m.guest := rfl
@[simp] theorem Mod.report_pcie (c : Domain) : (m.report c).pcie = m.pcie := rfl
@[simp] theorem Mod.report_iotlb (c : Domain) : (m.report c).iotlb = m.iotlb := rfl
@[simp] theorem Mod.report_adapterWait (c : Domain) : (m.report c).adapterWait = m.adapterWait := rfl
@[simp] theorem Mod.report_upstream (c : Domain) : (m.report c).upstream = m.upstream := rfl
@[simp] theorem Mod.report_linkLevels (c : Domain) : (m.report c).linkLevels = m.linkLevels := rfl
@[simp] theorem Mod.report_beacon (c : Domain) : (m.report c).beacon = m.beacon := rfl
@[simp] theorem Mod.report_sets (c : Domain) : (m.report c).sets = m.sets := rfl
@[simp] theorem Mod.report_errs (c : Domain) : (m.report c).errs = m.errs := rfl
@[simp] theorem Mod.report_events (c : Domain) : (m.report c).events = m.events := rfl
@[simp] theorem Mod.report_nextSeq (c : Domain) : (m.report c).nextSeq = m.nextSeq := rfl
@[simp] theorem Mod.report_overwritten (c : Domain) : (m.report c).overwritten = m.overwritten := rfl
@[simp] theorem Mod.report_keyEpochs (c : Domain) : (m.report c).keyEpochs = m.keyEpochs := rfl
@[simp] theorem Mod.report_out (c : Domain) : (m.report c).out = m.out := rfl
@[simp] theorem Mod.report_free (c : Domain) : (m.report c).free = m.free := rfl
@[simp] theorem Mod.report_core_at (c : Domain) (n : Nat) : (m.report c).core n = m.core n := rfl
@[simp] theorem Mod.report_cluster_at (c : Domain) (n : Nat) : (m.report c).cluster n = m.cluster n := rfl
@[simp] theorem Mod.report_queue_at (c : Domain) (p : QRef) : (m.report c).queue p = m.queue p := rfl
@[simp] theorem Mod.report_set_at (c : Domain) (n : Nat) : Mod.set (m.report c) n = Mod.set m n := rfl
@[simp] theorem Mod.report_region_at (c : Domain) (n : Nat) : (m.report c).region n = m.region n := rfl
@[simp] theorem Mod.report_mooring_at (c : Domain) (n : Nat) : (m.report c).mooring n = m.mooring n := rfl
@[simp] theorem Mod.report_ctl_at (c : Domain) (n : Nat) : (m.report c).ctl n = m.ctl n := rfl
@[simp] theorem Mod.report_err_at (c : Domain) (n : Nat) : (m.report c).err n = m.err n := rfl
@[simp] theorem Mod.report_slice_at (c : Domain) (n : Nat) : (m.report c).slice n = m.slice n := rfl
@[simp] theorem Mod.report_pdCore_at (c : Domain) (n : Nat) : (m.report c).pdCore n = m.pdCore n := rfl
@[simp] theorem Mod.report_reg_at (c : Domain) (k l : Nat) (e : Word) : (m.report c).reg k l e = m.reg k l e := rfl
@[simp] theorem Mod.report_sector_at (c : Domain) (n : Nat) : (m.report c).sector n = m.sector n := rfl
@[simp] theorem Mod.report_fn_at (c : Domain) (k l : Nat) : (m.report c).fn k l = m.fn k l := rfl
@[simp] theorem Mod.report_port_at (c : Domain) (n : Nat) : (m.report c).port n = m.port n := rfl
@[simp] theorem Mod.report_engine_at (c : Domain) (n : Nat) : (m.report c).engine n = m.engine n := rfl
@[simp] theorem Mod.report_die_at (c : Domain) (n : Nat) : (m.report c).die n = m.die n := rfl
@[simp] theorem Mod.report_pciePort_at (c : Domain) (n : Nat) : (m.report c).pciePort n = m.pciePort n := rfl
@[simp] theorem Mod.report_bt_at (c : Domain)  : (m.report c).bt = m.bt := rfl

/-! ## setQueue -/
@[simp] theorem Mod.setQueue_part (q : QRef) (c : Queue) : (m.setQueue q c).part = m.part := by cases q <;> rfl
@[simp] theorem Mod.setQueue_regs (q : QRef) (c : Queue) : (m.setQueue q c).regs = m.regs := by cases q <;> rfl
@[simp] theorem Mod.setQueue_cores (q : QRef) (c : Queue) : (m.setQueue q c).cores = m.cores := by cases q <;> rfl
@[simp] theorem Mod.setQueue_clusters (q : QRef) (c : Queue) : (m.setQueue q c).clusters = m.clusters := by cases q <;> rfl
@[simp] theorem Mod.setQueue_posts (q : QRef) (c : Queue) : (m.setQueue q c).posts = m.posts := by cases q <;> rfl
@[simp] theorem Mod.setQueue_dram (q : QRef) (c : Queue) : (m.setQueue q c).dram = m.dram := by cases q <;> rfl
@[simp] theorem Mod.setQueue_poison (q : QRef) (c : Queue) : (m.setQueue q c).poison = m.poison := by cases q <;> rfl
@[simp] theorem Mod.setQueue_regions (q : QRef) (c : Queue) : (m.setQueue q c).regions = m.regions := by cases q <;> rfl
@[simp] theorem Mod.setQueue_moorings (q : QRef) (c : Queue) : (m.setQueue q c).moorings = m.moorings := by cases q <;> rfl
@[simp] theorem Mod.setQueue_controllers (q : QRef) (c : Queue) : (m.setQueue q c).controllers = m.controllers := by cases q <;> rfl
@[simp] theorem Mod.setQueue_hdm (q : QRef) (c : Queue) : (m.setQueue q c).hdm = m.hdm := by cases q <;> rfl
@[simp] theorem Mod.setQueue_caches (q : QRef) (c : Queue) : (m.setQueue q c).caches = m.caches := by cases q <;> rfl
@[simp] theorem Mod.setQueue_evictions (q : QRef) (c : Queue) : (m.setQueue q c).evictions = m.evictions := by cases q <;> rfl
@[simp] theorem Mod.setQueue_slices (q : QRef) (c : Queue) : (m.setQueue q c).slices = m.slices := by cases q <;> rfl
@[simp] theorem Mod.setQueue_pdCores (q : QRef) (c : Queue) : (m.setQueue q c).pdCores = m.pdCores := by cases q <;> rfl
@[simp] theorem Mod.setQueue_sectors (q : QRef) (c : Queue) : (m.setQueue q c).sectors = m.sectors := by cases q <;> rfl
@[simp] theorem Mod.setQueue_fns (q : QRef) (c : Queue) : (m.setQueue q c).fns = m.fns := by cases q <;> rfl
@[simp] theorem Mod.setQueue_mqPath (q : QRef) (c : Queue) : (m.setQueue q c).mqPath = m.mqPath := by cases q <;> rfl
@[simp] theorem Mod.setQueue_mqSector (q : QRef) (c : Queue) : (m.setQueue q c).mqSector = m.mqSector := by cases q <;> rfl
@[simp] theorem Mod.setQueue_mqTurn (q : QRef) (c : Queue) : (m.setQueue q c).mqTurn = m.mqTurn := by cases q <;> rfl
@[simp] theorem Mod.setQueue_ports (q : QRef) (c : Queue) : (m.setQueue q c).ports = m.ports := by cases q <;> rfl
@[simp] theorem Mod.setQueue_eds (q : QRef) (c : Queue) : (m.setQueue q c).eds = m.eds := by cases q <;> rfl
@[simp] theorem Mod.setQueue_engines (q : QRef) (c : Queue) : (m.setQueue q c).engines = m.engines := by cases q <;> rfl
@[simp] theorem Mod.setQueue_groupRoute (q : QRef) (c : Queue) : (m.setQueue q c).groupRoute = m.groupRoute := by cases q <;> rfl
@[simp] theorem Mod.setQueue_memberRoute (q : QRef) (c : Queue) : (m.setQueue q c).memberRoute = m.memberRoute := by cases q <;> rfl
@[simp] theorem Mod.setQueue_inbox (q : QRef) (c : Queue) : (m.setQueue q c).inbox = m.inbox := by cases q <;> rfl
@[simp] theorem Mod.setQueue_routeWait (q : QRef) (c : Queue) : (m.setQueue q c).routeWait = m.routeWait := by cases q <;> rfl
@[simp] theorem Mod.setQueue_arrived (q : QRef) (c : Queue) : (m.setQueue q c).arrived = m.arrived := by cases q <;> rfl
@[simp] theorem Mod.setQueue_txFlows (q : QRef) (c : Queue) : (m.setQueue q c).txFlows = m.txFlows := by cases q <;> rfl
@[simp] theorem Mod.setQueue_rxFlows (q : QRef) (c : Queue) : (m.setQueue q c).rxFlows = m.rxFlows := by cases q <;> rfl
@[simp] theorem Mod.setQueue_holdoff (q : QRef) (c : Queue) : (m.setQueue q c).holdoff = m.holdoff := by cases q <;> rfl
@[simp] theorem Mod.setQueue_tender (q : QRef) (c : Queue) : (m.setQueue q c).tender = m.tender := by cases q <;> rfl
@[simp] theorem Mod.setQueue_injections (q : QRef) (c : Queue) : (m.setQueue q c).injections = m.injections := by cases q <;> rfl
@[simp] theorem Mod.setQueue_dieGens (q : QRef) (c : Queue) : (m.setQueue q c).dieGens = m.dieGens := by cases q <;> rfl
@[simp] theorem Mod.setQueue_remotes (q : QRef) (c : Queue) : (m.setQueue q c).remotes = m.remotes := by cases q <;> rfl
@[simp] theorem Mod.setQueue_nextCmd (q : QRef) (c : Queue) : (m.setQueue q c).nextCmd = m.nextCmd := by cases q <;> rfl
@[simp] theorem Mod.setQueue_txns (q : QRef) (c : Queue) : (m.setQueue q c).txns = m.txns := by cases q <;> rfl
@[simp] theorem Mod.setQueue_tagWait (q : QRef) (c : Queue) : (m.setQueue q c).tagWait = m.tagWait := by cases q <;> rfl
@[simp] theorem Mod.setQueue_aia (q : QRef) (c : Queue) : (m.setQueue q c).aia = m.aia := by cases q <;> rfl
@[simp] theorem Mod.setQueue_zeros (q : QRef) (c : Queue) : (m.setQueue q c).zeros = m.zeros := by cases q <;> rfl
@[simp] theorem Mod.setQueue_buckets (q : QRef) (c : Queue) : (m.setQueue q c).buckets = m.buckets := by cases q <;> rfl
@[simp] theorem Mod.setQueue_ctlHot (q : QRef) (c : Queue) : (m.setQueue q c).ctlHot = m.ctlHot := by cases q <;> rfl
@[simp] theorem Mod.setQueue_rtrHot (q : QRef) (c : Queue) : (m.setQueue q c).rtrHot = m.rtrHot := by cases q <;> rfl
@[simp] theorem Mod.setQueue_cohError (q : QRef) (c : Queue) : (m.setQueue q c).cohError = m.cohError := by cases q <;> rfl
@[simp] theorem Mod.setQueue_bursts (q : QRef) (c : Queue) : (m.setQueue q c).bursts = m.bursts := by cases q <;> rfl
@[simp] theorem Mod.setQueue_keeperQueue (q : QRef) (c : Queue) : (m.setQueue q c).keeperQueue = m.keeperQueue := by cases q <;> rfl
@[simp] theorem Mod.setQueue_keeperTurn (q : QRef) (c : Queue) : (m.setQueue q c).keeperTurn = m.keeperTurn := by cases q <;> rfl
@[simp] theorem Mod.setQueue_keySlots (q : QRef) (c : Queue) : (m.setQueue q c).keySlots = m.keySlots := by cases q <;> rfl
@[simp] theorem Mod.setQueue_models (q : QRef) (c : Queue) : (m.setQueue q c).models = m.models := by cases q <;> rfl
@[simp] theorem Mod.setQueue_sessions (q : QRef) (c : Queue) : (m.setQueue q c).sessions = m.sessions := by cases q <;> rfl
@[simp] theorem Mod.setQueue_scrubLast (q : QRef) (c : Queue) : (m.setQueue q c).scrubLast = m.scrubLast := by cases q <;> rfl
@[simp] theorem Mod.setQueue_fills (q : QRef) (c : Queue) : (m.setQueue q c).fills = m.fills := by cases q <;> rfl
@[simp] theorem Mod.setQueue_unlocked (q : QRef) (c : Queue) : (m.setQueue q c).unlocked = m.unlocked := by cases q <;> rfl
@[simp] theorem Mod.setQueue_bootImage (q : QRef) (c : Queue) : (m.setQueue q c).bootImage = m.bootImage := by cases q <;> rfl
@[simp] theorem Mod.setQueue_rootIndex (q : QRef) (c : Queue) : (m.setQueue q c).rootIndex = m.rootIndex := by cases q <;> rfl
@[simp] theorem Mod.setQueue_starts (q : QRef) (c : Queue) : (m.setQueue q c).starts = m.starts := by cases q <;> rfl
@[simp] theorem Mod.setQueue_svnFused (q : QRef) (c : Queue) : (m.setQueue q c).svnFused = m.svnFused := by cases q <;> rfl
@[simp] theorem Mod.setQueue_svnRunning (q : QRef) (c : Queue) : (m.setQueue q c).svnRunning = m.svnRunning := by cases q <;> rfl
@[simp] theorem Mod.setQueue_measurements (q : QRef) (c : Queue) : (m.setQueue q c).measurements = m.measurements := by cases q <;> rfl
@[simp] theorem Mod.setQueue_dies (q : QRef) (c : Queue) : (m.setQueue q c).dies = m.dies := by cases q <;> rfl
@[simp] theorem Mod.setQueue_harbourUp (q : QRef) (c : Queue) : (m.setQueue q c).harbourUp = m.harbourUp := by cases q <;> rfl
@[simp] theorem Mod.setQueue_computeUp (q : QRef) (c : Queue) : (m.setQueue q c).computeUp = m.computeUp := by cases q <;> rfl
@[simp] theorem Mod.setQueue_edgeLost (q : QRef) (c : Queue) : (m.setQueue q c).edgeLost = m.edgeLost := by cases q <;> rfl
@[simp] theorem Mod.setQueue_fw (q : QRef) (c : Queue) : (m.setQueue q c).fw = m.fw := by cases q <;> rfl
@[simp] theorem Mod.setQueue_power (q : QRef) (c : Queue) : (m.setQueue q c).power = m.power := by cases q <;> rfl
@[simp] theorem Mod.setQueue_boot (q : QRef) (c : Queue) : (m.setQueue q c).boot = m.boot := by cases q <;> rfl
@[simp] theorem Mod.setQueue_patrol (q : QRef) (c : Queue) : (m.setQueue q c).patrol = m.patrol := by cases q <;> rfl
@[simp] theorem Mod.setQueue_lanes (q : QRef) (c : Queue) : (m.setQueue q c).lanes = m.lanes := by cases q <;> rfl
@[simp] theorem Mod.setQueue_levels (q : QRef) (c : Queue) : (m.setQueue q c).levels = m.levels := by cases q <;> rfl
@[simp] theorem Mod.setQueue_notices (q : QRef) (c : Queue) : (m.setQueue q c).notices = m.notices := by cases q <;> rfl
@[simp] theorem Mod.setQueue_incoming (q : QRef) (c : Queue) : (m.setQueue q c).incoming = m.incoming := by cases q <;> rfl
@[simp] theorem Mod.setQueue_nextIncoming (q : QRef) (c : Queue) : (m.setQueue q c).nextIncoming = m.nextIncoming := by cases q <;> rfl
@[simp] theorem Mod.setQueue_tap (q : QRef) (c : Queue) : (m.setQueue q c).tap = m.tap := by cases q <;> rfl
@[simp] theorem Mod.setQueue_guest (q : QRef) (c : Queue) : (m.setQueue q c).guest = m.guest := by cases q <;> rfl
@[simp] theorem Mod.setQueue_pcie (q : QRef) (c : Queue) : (m.setQueue q c).pcie = m.pcie := by cases q <;> rfl
@[simp] theorem Mod.setQueue_iotlb (q : QRef) (c : Queue) : (m.setQueue q c).iotlb = m.iotlb := by cases q <;> rfl
@[simp] theorem Mod.setQueue_adapterWait (q : QRef) (c : Queue) : (m.setQueue q c).adapterWait = m.adapterWait := by cases q <;> rfl
@[simp] theorem Mod.setQueue_upstream (q : QRef) (c : Queue) : (m.setQueue q c).upstream = m.upstream := by cases q <;> rfl
@[simp] theorem Mod.setQueue_linkLevels (q : QRef) (c : Queue) : (m.setQueue q c).linkLevels = m.linkLevels := by cases q <;> rfl
@[simp] theorem Mod.setQueue_beacon (q : QRef) (c : Queue) : (m.setQueue q c).beacon = m.beacon := by cases q <;> rfl
@[simp] theorem Mod.setQueue_sets (q : QRef) (c : Queue) : (m.setQueue q c).sets = m.sets := by cases q <;> rfl
@[simp] theorem Mod.setQueue_errs (q : QRef) (c : Queue) : (m.setQueue q c).errs = m.errs := by cases q <;> rfl
@[simp] theorem Mod.setQueue_events (q : QRef) (c : Queue) : (m.setQueue q c).events = m.events := by cases q <;> rfl
@[simp] theorem Mod.setQueue_nextSeq (q : QRef) (c : Queue) : (m.setQueue q c).nextSeq = m.nextSeq := by cases q <;> rfl
@[simp] theorem Mod.setQueue_overwritten (q : QRef) (c : Queue) : (m.setQueue q c).overwritten = m.overwritten := by cases q <;> rfl
@[simp] theorem Mod.setQueue_keyEpochs (q : QRef) (c : Queue) : (m.setQueue q c).keyEpochs = m.keyEpochs := by cases q <;> rfl
@[simp] theorem Mod.setQueue_reports (q : QRef) (c : Queue) : (m.setQueue q c).reports = m.reports := by cases q <;> rfl
@[simp] theorem Mod.setQueue_out (q : QRef) (c : Queue) : (m.setQueue q c).out = m.out := by cases q <;> rfl
@[simp] theorem Mod.setQueue_free (q : QRef) (c : Queue) : (m.setQueue q c).free = m.free := by cases q <;> rfl
@[simp] theorem Mod.setQueue_core_at (q : QRef) (c : Queue) (n : Nat) : (m.setQueue q c).core n = m.core n := by cases q <;> rfl
@[simp] theorem Mod.setQueue_cluster_at (q : QRef) (c : Queue) (n : Nat) : (m.setQueue q c).cluster n = m.cluster n := by cases q <;> rfl
@[simp] theorem Mod.setQueue_queue_at (q : QRef) (c : Queue) (p : QRef) : (m.setQueue q c).queue p = if p = q then c else m.queue p := by
  cases q <;> cases p <;> simp [Mod.setQueue, Mod.queue, Fin.ext_iff]
@[simp] theorem Mod.setQueue_set_at (q : QRef) (c : Queue) (n : Nat) : Mod.set (m.setQueue q c) n = Mod.set m n := by cases q <;> rfl
@[simp] theorem Mod.setQueue_region_at (q : QRef) (c : Queue) (n : Nat) : (m.setQueue q c).region n = m.region n := by cases q <;> rfl
@[simp] theorem Mod.setQueue_mooring_at (q : QRef) (c : Queue) (n : Nat) : (m.setQueue q c).mooring n = m.mooring n := by cases q <;> rfl
@[simp] theorem Mod.setQueue_ctl_at (q : QRef) (c : Queue) (n : Nat) : (m.setQueue q c).ctl n = m.ctl n := by cases q <;> rfl
@[simp] theorem Mod.setQueue_err_at (q : QRef) (c : Queue) (n : Nat) : (m.setQueue q c).err n = m.err n := by cases q <;> rfl
@[simp] theorem Mod.setQueue_slice_at (q : QRef) (c : Queue) (n : Nat) : (m.setQueue q c).slice n = m.slice n := by cases q <;> rfl
@[simp] theorem Mod.setQueue_pdCore_at (q : QRef) (c : Queue) (n : Nat) : (m.setQueue q c).pdCore n = m.pdCore n := by cases q <;> rfl
@[simp] theorem Mod.setQueue_reg_at (q : QRef) (c : Queue) (k l : Nat) (e : Word) : (m.setQueue q c).reg k l e = m.reg k l e := by cases q <;> rfl
@[simp] theorem Mod.setQueue_sector_at (q : QRef) (c : Queue) (n : Nat) : (m.setQueue q c).sector n = m.sector n := by cases q <;> rfl
@[simp] theorem Mod.setQueue_fn_at (q : QRef) (c : Queue) (k l : Nat) : (m.setQueue q c).fn k l = m.fn k l := by cases q <;> rfl
@[simp] theorem Mod.setQueue_port_at (q : QRef) (c : Queue) (n : Nat) : (m.setQueue q c).port n = m.port n := by cases q <;> rfl
@[simp] theorem Mod.setQueue_engine_at (q : QRef) (c : Queue) (n : Nat) : (m.setQueue q c).engine n = m.engine n := by cases q <;> rfl
@[simp] theorem Mod.setQueue_die_at (q : QRef) (c : Queue) (n : Nat) : (m.setQueue q c).die n = m.die n := by cases q <;> rfl
@[simp] theorem Mod.setQueue_pciePort_at (q : QRef) (c : Queue) (n : Nat) : (m.setQueue q c).pciePort n = m.pciePort n := by cases q <;> rfl
@[simp] theorem Mod.setQueue_bt_at (q : QRef) (c : Queue)  : (m.setQueue q c).bt = m.bt := by cases q <;> rfl

@[simp] theorem Mod.emit_out (c : Out) : (m.emit c).out = c :: m.out := rfl
@[simp] theorem Mod.report_reports (c : Domain) : (m.report c).reports = m.reports ++ [c] := rfl

end Sys2Proof.Machine
end

