-- ==== Sys2Proof/Laws/Ops.lean ====
section
/-!
SUPPORT. What the operations that commands share can do, said once: issuing an instruction, a packet's command, an error record, an event.
-/
namespace Sys2Proof.Machine
open Sys2Proof

/-! ## Commands -/

/-- A meaning answers a next state with the waiting commands that waited. -/
theorem State.go_eq (s : State) (m : Mod) : s.go m = .next { s with toMod := m } := rfl

/-- A command whose packet is free to act, acts (R283, R338). -/
theorem Mod.command_acts (m : Mod) (p : PktRef) (opc : Nat) (act : List Word → Mod) (ws : List Word) (h : m.cmdWords p opc = some ws) :
    m.command p opc act = act ws := by simp only [Mod.command, h]

/-- A command whose packet is not free to act does nothing. -/
theorem Mod.command_waits (m : Mod) (p : PktRef) (opc : Nat) (act : List Word → Mod) (h : m.cmdWords p opc = none) :
    m.command p opc act = m := by simp only [Mod.command, h]

/-- A packet is free to act when the module works, and it is in flight, dispatched, and of the opcode. -/
theorem Mod.cmdWords_some (m : Mod) (p : PktRef) (opc : Nat) (ws : List Word) :
    m.cmdWords p opc = some ws ↔ m.working = true ∧ ∃ f, m.flight p = some f ∧ f.stage = .dispatched ∧ pktOpc f.words = opc ∧ f.words = ws := by
  unfold Mod.cmdWords
  split
  · next f hf => simp [hf, and_assoc]
  · next hf => simp [hf]

/-- A reply to a packet that is not in flight is none (R279). -/
theorem Mod.reply_none (m : Mod) (p : PktRef) (a b c : Nat) (h : m.flight p = none) : m.reply p a b c = m := by
  simp only [Mod.reply, h]

/-! ## Instructions -/

/-- A core that issues the instruction retires it at once (R68, R72). -/
theorem Mod.issue_ready (m : Mod) (id : CoreId) (i : Instr) (f : TCore → TCore) (h : m.fetches id i = true) :
    m.issue id i f = m.retire id (f (m.core id)) ((m.core id).pc + 1) := by simp only [Mod.issue, if_pos h]

/-- A core that does not issue the instruction is left as it is. -/
theorem Mod.issue_waits (m : Mod) (id : CoreId) (i : Instr) (f : TCore → TCore) (h : m.fetches id i = false) : m.issue id i f = m := by
  simp only [Mod.issue, h, Bool.false_eq_true, if_false]

/-! ## Error records and events -/

@[simp] theorem Mod.logEvent_part (m : Mod) (c u s d : Nat) (w : Word) : (m.logEvent c u s d w).part = m.part := rfl
@[simp] theorem Mod.logEvent_regs (m : Mod) (c u s d : Nat) (w : Word) : (m.logEvent c u s d w).regs = m.regs := rfl
@[simp] theorem Mod.logEvent_cores (m : Mod) (c u s d : Nat) (w : Word) : (m.logEvent c u s d w).cores = m.cores := rfl
@[simp] theorem Mod.logEvent_clusters (m : Mod) (c u s d : Nat) (w : Word) : (m.logEvent c u s d w).clusters = m.clusters := rfl
@[simp] theorem Mod.logEvent_posts (m : Mod) (c u s d : Nat) (w : Word) : (m.logEvent c u s d w).posts = m.posts := rfl
@[simp] theorem Mod.logEvent_dram (m : Mod) (c u s d : Nat) (w : Word) : (m.logEvent c u s d w).dram = m.dram := rfl
@[simp] theorem Mod.logEvent_poison (m : Mod) (c u s d : Nat) (w : Word) : (m.logEvent c u s d w).poison = m.poison := rfl
@[simp] theorem Mod.logEvent_regions (m : Mod) (c u s d : Nat) (w : Word) : (m.logEvent c u s d w).regions = m.regions := rfl
@[simp] theorem Mod.logEvent_moorings (m : Mod) (c u s d : Nat) (w : Word) : (m.logEvent c u s d w).moorings = m.moorings := rfl
@[simp] theorem Mod.logEvent_controllers (m : Mod) (c u s d : Nat) (w : Word) : (m.logEvent c u s d w).controllers = m.controllers := rfl
@[simp] theorem Mod.logEvent_hdm (m : Mod) (c u s d : Nat) (w : Word) : (m.logEvent c u s d w).hdm = m.hdm := rfl
@[simp] theorem Mod.logEvent_caches (m : Mod) (c u s d : Nat) (w : Word) : (m.logEvent c u s d w).caches = m.caches := rfl
@[simp] theorem Mod.logEvent_evictions (m : Mod) (c u s d : Nat) (w : Word) : (m.logEvent c u s d w).evictions = m.evictions := rfl
@[simp] theorem Mod.logEvent_slices (m : Mod) (c u s d : Nat) (w : Word) : (m.logEvent c u s d w).slices = m.slices := rfl
@[simp] theorem Mod.logEvent_pdCores (m : Mod) (c u s d : Nat) (w : Word) : (m.logEvent c u s d w).pdCores = m.pdCores := rfl
@[simp] theorem Mod.logEvent_sectors (m : Mod) (c u s d : Nat) (w : Word) : (m.logEvent c u s d w).sectors = m.sectors := rfl
@[simp] theorem Mod.logEvent_fns (m : Mod) (c u s d : Nat) (w : Word) : (m.logEvent c u s d w).fns = m.fns := rfl
@[simp] theorem Mod.logEvent_queues (m : Mod) (c u s d : Nat) (w : Word) : (m.logEvent c u s d w).queues = m.queues := rfl
@[simp] theorem Mod.logEvent_mqs (m : Mod) (c u s d : Nat) (w : Word) : (m.logEvent c u s d w).mqs = m.mqs := rfl
@[simp] theorem Mod.logEvent_mqPath (m : Mod) (c u s d : Nat) (w : Word) : (m.logEvent c u s d w).mqPath = m.mqPath := rfl
@[simp] theorem Mod.logEvent_mqSector (m : Mod) (c u s d : Nat) (w : Word) : (m.logEvent c u s d w).mqSector = m.mqSector := rfl
@[simp] theorem Mod.logEvent_mqTurn (m : Mod) (c u s d : Nat) (w : Word) : (m.logEvent c u s d w).mqTurn = m.mqTurn := rfl
@[simp] theorem Mod.logEvent_ports (m : Mod) (c u s d : Nat) (w : Word) : (m.logEvent c u s d w).ports = m.ports := rfl
@[simp] theorem Mod.logEvent_eds (m : Mod) (c u s d : Nat) (w : Word) : (m.logEvent c u s d w).eds = m.eds := rfl
@[simp] theorem Mod.logEvent_engines (m : Mod) (c u s d : Nat) (w : Word) : (m.logEvent c u s d w).engines = m.engines := rfl
@[simp] theorem Mod.logEvent_groupRoute (m : Mod) (c u s d : Nat) (w : Word) : (m.logEvent c u s d w).groupRoute = m.groupRoute := rfl
@[simp] theorem Mod.logEvent_memberRoute (m : Mod) (c u s d : Nat) (w : Word) : (m.logEvent c u s d w).memberRoute = m.memberRoute := rfl
@[simp] theorem Mod.logEvent_inbox (m : Mod) (c u s d : Nat) (w : Word) : (m.logEvent c u s d w).inbox = m.inbox := rfl
@[simp] theorem Mod.logEvent_routeWait (m : Mod) (c u s d : Nat) (w : Word) : (m.logEvent c u s d w).routeWait = m.routeWait := rfl
@[simp] theorem Mod.logEvent_arrived (m : Mod) (c u s d : Nat) (w : Word) : (m.logEvent c u s d w).arrived = m.arrived := rfl
@[simp] theorem Mod.logEvent_txFlows (m : Mod) (c u s d : Nat) (w : Word) : (m.logEvent c u s d w).txFlows = m.txFlows := rfl
@[simp] theorem Mod.logEvent_rxFlows (m : Mod) (c u s d : Nat) (w : Word) : (m.logEvent c u s d w).rxFlows = m.rxFlows := rfl
@[simp] theorem Mod.logEvent_holdoff (m : Mod) (c u s d : Nat) (w : Word) : (m.logEvent c u s d w).holdoff = m.holdoff := rfl
@[simp] theorem Mod.logEvent_tender (m : Mod) (c u s d : Nat) (w : Word) : (m.logEvent c u s d w).tender = m.tender := rfl
@[simp] theorem Mod.logEvent_injections (m : Mod) (c u s d : Nat) (w : Word) : (m.logEvent c u s d w).injections = m.injections := rfl
@[simp] theorem Mod.logEvent_dieGens (m : Mod) (c u s d : Nat) (w : Word) : (m.logEvent c u s d w).dieGens = m.dieGens := rfl
@[simp] theorem Mod.logEvent_remotes (m : Mod) (c u s d : Nat) (w : Word) : (m.logEvent c u s d w).remotes = m.remotes := rfl
@[simp] theorem Mod.logEvent_nextCmd (m : Mod) (c u s d : Nat) (w : Word) : (m.logEvent c u s d w).nextCmd = m.nextCmd := rfl
@[simp] theorem Mod.logEvent_txns (m : Mod) (c u s d : Nat) (w : Word) : (m.logEvent c u s d w).txns = m.txns := rfl
@[simp] theorem Mod.logEvent_tagWait (m : Mod) (c u s d : Nat) (w : Word) : (m.logEvent c u s d w).tagWait = m.tagWait := rfl
@[simp] theorem Mod.logEvent_buckets (m : Mod) (c u s d : Nat) (w : Word) : (m.logEvent c u s d w).buckets = m.buckets := rfl
@[simp] theorem Mod.logEvent_ctlHot (m : Mod) (c u s d : Nat) (w : Word) : (m.logEvent c u s d w).ctlHot = m.ctlHot := rfl
@[simp] theorem Mod.logEvent_rtrHot (m : Mod) (c u s d : Nat) (w : Word) : (m.logEvent c u s d w).rtrHot = m.rtrHot := rfl
@[simp] theorem Mod.logEvent_cohError (m : Mod) (c u s d : Nat) (w : Word) : (m.logEvent c u s d w).cohError = m.cohError := rfl
@[simp] theorem Mod.logEvent_bursts (m : Mod) (c u s d : Nat) (w : Word) : (m.logEvent c u s d w).bursts = m.bursts := rfl
@[simp] theorem Mod.logEvent_keeperQueue (m : Mod) (c u s d : Nat) (w : Word) : (m.logEvent c u s d w).keeperQueue = m.keeperQueue := rfl
@[simp] theorem Mod.logEvent_keeperTurn (m : Mod) (c u s d : Nat) (w : Word) : (m.logEvent c u s d w).keeperTurn = m.keeperTurn := rfl
@[simp] theorem Mod.logEvent_keySlots (m : Mod) (c u s d : Nat) (w : Word) : (m.logEvent c u s d w).keySlots = m.keySlots := rfl
@[simp] theorem Mod.logEvent_models (m : Mod) (c u s d : Nat) (w : Word) : (m.logEvent c u s d w).models = m.models := rfl
@[simp] theorem Mod.logEvent_sessions (m : Mod) (c u s d : Nat) (w : Word) : (m.logEvent c u s d w).sessions = m.sessions := rfl
@[simp] theorem Mod.logEvent_scrubLast (m : Mod) (c u s d : Nat) (w : Word) : (m.logEvent c u s d w).scrubLast = m.scrubLast := rfl
@[simp] theorem Mod.logEvent_fills (m : Mod) (c u s d : Nat) (w : Word) : (m.logEvent c u s d w).fills = m.fills := rfl
@[simp] theorem Mod.logEvent_unlocked (m : Mod) (c u s d : Nat) (w : Word) : (m.logEvent c u s d w).unlocked = m.unlocked := rfl
@[simp] theorem Mod.logEvent_bootImage (m : Mod) (c u s d : Nat) (w : Word) : (m.logEvent c u s d w).bootImage = m.bootImage := rfl
@[simp] theorem Mod.logEvent_rootIndex (m : Mod) (c u s d : Nat) (w : Word) : (m.logEvent c u s d w).rootIndex = m.rootIndex := rfl
@[simp] theorem Mod.logEvent_starts (m : Mod) (c u s d : Nat) (w : Word) : (m.logEvent c u s d w).starts = m.starts := rfl
@[simp] theorem Mod.logEvent_svnFused (m : Mod) (c u s d : Nat) (w : Word) : (m.logEvent c u s d w).svnFused = m.svnFused := rfl
@[simp] theorem Mod.logEvent_svnRunning (m : Mod) (c u s d : Nat) (w : Word) : (m.logEvent c u s d w).svnRunning = m.svnRunning := rfl
@[simp] theorem Mod.logEvent_measurements (m : Mod) (c u s d : Nat) (w : Word) : (m.logEvent c u s d w).measurements = m.measurements := rfl
@[simp] theorem Mod.logEvent_dies (m : Mod) (c u s d : Nat) (w : Word) : (m.logEvent c u s d w).dies = m.dies := rfl
@[simp] theorem Mod.logEvent_harbourUp (m : Mod) (c u s d : Nat) (w : Word) : (m.logEvent c u s d w).harbourUp = m.harbourUp := rfl
@[simp] theorem Mod.logEvent_computeUp (m : Mod) (c u s d : Nat) (w : Word) : (m.logEvent c u s d w).computeUp = m.computeUp := rfl
@[simp] theorem Mod.logEvent_edgeLost (m : Mod) (c u s d : Nat) (w : Word) : (m.logEvent c u s d w).edgeLost = m.edgeLost := rfl
@[simp] theorem Mod.logEvent_fw (m : Mod) (c u s d : Nat) (w : Word) : (m.logEvent c u s d w).fw = m.fw := rfl
@[simp] theorem Mod.logEvent_power (m : Mod) (c u s d : Nat) (w : Word) : (m.logEvent c u s d w).power = m.power := rfl
@[simp] theorem Mod.logEvent_boot (m : Mod) (c u s d : Nat) (w : Word) : (m.logEvent c u s d w).boot = m.boot := rfl
@[simp] theorem Mod.logEvent_patrol (m : Mod) (c u s d : Nat) (w : Word) : (m.logEvent c u s d w).patrol = m.patrol := rfl
@[simp] theorem Mod.logEvent_lanes (m : Mod) (c u s d : Nat) (w : Word) : (m.logEvent c u s d w).lanes = m.lanes := rfl
@[simp] theorem Mod.logEvent_levels (m : Mod) (c u s d : Nat) (w : Word) : (m.logEvent c u s d w).levels = m.levels := rfl
@[simp] theorem Mod.logEvent_notices (m : Mod) (c u s d : Nat) (w : Word) : (m.logEvent c u s d w).notices = m.notices := rfl
@[simp] theorem Mod.logEvent_incoming (m : Mod) (c u s d : Nat) (w : Word) : (m.logEvent c u s d w).incoming = m.incoming := rfl
@[simp] theorem Mod.logEvent_remoteQ (m : Mod) (c u s d : Nat) (w : Word) : (m.logEvent c u s d w).remoteQ = m.remoteQ := rfl
@[simp] theorem Mod.logEvent_nextIncoming (m : Mod) (c u s d : Nat) (w : Word) : (m.logEvent c u s d w).nextIncoming = m.nextIncoming := rfl
@[simp] theorem Mod.logEvent_tap (m : Mod) (c u s d : Nat) (w : Word) : (m.logEvent c u s d w).tap = m.tap := rfl
@[simp] theorem Mod.logEvent_guest (m : Mod) (c u s d : Nat) (w : Word) : (m.logEvent c u s d w).guest = m.guest := rfl
@[simp] theorem Mod.logEvent_pcie (m : Mod) (c u s d : Nat) (w : Word) : (m.logEvent c u s d w).pcie = m.pcie := rfl
@[simp] theorem Mod.logEvent_iotlb (m : Mod) (c u s d : Nat) (w : Word) : (m.logEvent c u s d w).iotlb = m.iotlb := rfl
@[simp] theorem Mod.logEvent_adapterWait (m : Mod) (c u s d : Nat) (w : Word) : (m.logEvent c u s d w).adapterWait = m.adapterWait := rfl
@[simp] theorem Mod.logEvent_upstream (m : Mod) (c u s d : Nat) (w : Word) : (m.logEvent c u s d w).upstream = m.upstream := rfl
@[simp] theorem Mod.logEvent_aia (m : Mod) (c u s d : Nat) (w : Word) : (m.logEvent c u s d w).aia = m.aia := rfl
@[simp] theorem Mod.logEvent_zeros (m : Mod) (c u s d : Nat) (w : Word) : (m.logEvent c u s d w).zeros = m.zeros := rfl
@[simp] theorem Mod.logEvent_linkLevels (m : Mod) (c u s d : Nat) (w : Word) : (m.logEvent c u s d w).linkLevels = m.linkLevels := rfl
@[simp] theorem Mod.logEvent_beacon (m : Mod) (c u s d : Nat) (w : Word) : (m.logEvent c u s d w).beacon = m.beacon := rfl
@[simp] theorem Mod.logEvent_sets (m : Mod) (c u s d : Nat) (w : Word) : (m.logEvent c u s d w).sets = m.sets := rfl
@[simp] theorem Mod.logEvent_errs (m : Mod) (c u s d : Nat) (w : Word) : (m.logEvent c u s d w).errs = m.errs := rfl
@[simp] theorem Mod.logEvent_keyEpochs (m : Mod) (c u s d : Nat) (w : Word) : (m.logEvent c u s d w).keyEpochs = m.keyEpochs := rfl
@[simp] theorem Mod.logEvent_reports (m : Mod) (c u s d : Nat) (w : Word) : (m.logEvent c u s d w).reports = m.reports := rfl
@[simp] theorem Mod.logEvent_out (m : Mod) (c u s d : Nat) (w : Word) : (m.logEvent c u s d w).out = m.out := rfl
@[simp] theorem Mod.logEvent_free (m : Mod) (c u s d : Nat) (w : Word) : (m.logEvent c u s d w).free = m.free := rfl

/-- What the interrupt controllers do stands in aia and out (R310, R311). -/
def Mod.InAia (m n : Mod) : Prop := ∃ a o, n = { m with aia := a, out := o }

theorem Mod.InAia.refl (m : Mod) : m.InAia m := ⟨_, _, rfl⟩

theorem Mod.InAia.trans {m n k : Mod} (h : m.InAia n) (g : n.InAia k) : m.InAia k := by
  obtain ⟨_, _, rfl⟩ := h
  obtain ⟨_, _, rfl⟩ := g
  exact ⟨_, _, rfl⟩

theorem Mod.forward_inAia (m : Mod) (k i : Nat) : m.InAia (m.forward k i) := by
  unfold Mod.forward Mod.sendMsi
  dsimp only
  split
  · repeat' split
    all_goals exact ⟨_, _, rfl⟩
  · exact .refl m

theorem Mod.pendSource_inAia (m : Mod) (k i : Nat) : m.InAia (m.pendSource k i) := by
  unfold Mod.pendSource
  dsimp only
  split
  · exact ⟨_, _, rfl⟩
  · exact .refl m

theorem Mod.raiseSource_inAia (m : Mod) (site i : Nat) : m.InAia (m.raiseSource site i) := by
  unfold Mod.raiseSource
  have h : m.InAia (m.emit (.aplic site i)) := ⟨_, _, rfl⟩
  dsimp only
  repeat' split
  all_goals first
    | exact h
    | exact (h.trans (pendSource_inAia _ _ _)).trans (forward_inAia _ _ _)

/-- A change in aia and out after one of the error rings and the event log. -/
theorem Mod.InAia.over {m n k : Mod} (h : n.InAia k)
    (g : ∃ e v x w a o, n = { m with errs := e, events := v, nextSeq := x, overwritten := w, aia := a, out := o }) :
    ∃ e v x w a o, k = { m with errs := e, events := v, nextSeq := x, overwritten := w, aia := a, out := o } := by
  obtain ⟨_, _, rfl⟩ := h
  obtain ⟨_, _, _, _, _, _, rfl⟩ := g
  exact ⟨_, _, _, _, _, _, rfl⟩

/-- A record changes its die's ring, the event log and what is told to a PD's interrupt controllers, and nothing else (R396, R408, R311). -/
theorem Mod.record_eq (m : Mod) (f : Fail) :
    ∃ e v n w a o, m.record f = { m with errs := e, events := v, nextSeq := n, overwritten := w, aia := a, out := o } := by
  unfold Mod.record
  dsimp only
  split
  · split
    · exact ⟨_, _, _, _, _, _, rfl⟩
    · exact ⟨_, _, _, _, _, _, rfl⟩
  · split
    · exact ⟨_, _, _, _, _, _, rfl⟩
    · split <;> split <;> first
        | exact ⟨_, _, _, _, _, _, rfl⟩
        | exact Mod.InAia.over (Mod.raiseSource_inAia _ _ _) ⟨_, _, _, _, _, _, rfl⟩

@[simp] theorem Mod.record_part (m : Mod) (f : Fail) : (m.record f).part = m.part := by obtain ⟨e, v, n, w, a, o, h⟩ := m.record_eq f; rw [h]
@[simp] theorem Mod.record_regs (m : Mod) (f : Fail) : (m.record f).regs = m.regs := by obtain ⟨e, v, n, w, a, o, h⟩ := m.record_eq f; rw [h]
@[simp] theorem Mod.record_cores (m : Mod) (f : Fail) : (m.record f).cores = m.cores := by obtain ⟨e, v, n, w, a, o, h⟩ := m.record_eq f; rw [h]
@[simp] theorem Mod.record_clusters (m : Mod) (f : Fail) : (m.record f).clusters = m.clusters := by obtain ⟨e, v, n, w, a, o, h⟩ := m.record_eq f; rw [h]
@[simp] theorem Mod.record_posts (m : Mod) (f : Fail) : (m.record f).posts = m.posts := by obtain ⟨e, v, n, w, a, o, h⟩ := m.record_eq f; rw [h]
@[simp] theorem Mod.record_dram (m : Mod) (f : Fail) : (m.record f).dram = m.dram := by obtain ⟨e, v, n, w, a, o, h⟩ := m.record_eq f; rw [h]
@[simp] theorem Mod.record_poison (m : Mod) (f : Fail) : (m.record f).poison = m.poison := by obtain ⟨e, v, n, w, a, o, h⟩ := m.record_eq f; rw [h]
@[simp] theorem Mod.record_regions (m : Mod) (f : Fail) : (m.record f).regions = m.regions := by obtain ⟨e, v, n, w, a, o, h⟩ := m.record_eq f; rw [h]
@[simp] theorem Mod.record_moorings (m : Mod) (f : Fail) : (m.record f).moorings = m.moorings := by obtain ⟨e, v, n, w, a, o, h⟩ := m.record_eq f; rw [h]
@[simp] theorem Mod.record_controllers (m : Mod) (f : Fail) : (m.record f).controllers = m.controllers := by obtain ⟨e, v, n, w, a, o, h⟩ := m.record_eq f; rw [h]
@[simp] theorem Mod.record_hdm (m : Mod) (f : Fail) : (m.record f).hdm = m.hdm := by obtain ⟨e, v, n, w, a, o, h⟩ := m.record_eq f; rw [h]
@[simp] theorem Mod.record_caches (m : Mod) (f : Fail) : (m.record f).caches = m.caches := by obtain ⟨e, v, n, w, a, o, h⟩ := m.record_eq f; rw [h]
@[simp] theorem Mod.record_evictions (m : Mod) (f : Fail) : (m.record f).evictions = m.evictions := by obtain ⟨e, v, n, w, a, o, h⟩ := m.record_eq f; rw [h]
@[simp] theorem Mod.record_slices (m : Mod) (f : Fail) : (m.record f).slices = m.slices := by obtain ⟨e, v, n, w, a, o, h⟩ := m.record_eq f; rw [h]
@[simp] theorem Mod.record_pdCores (m : Mod) (f : Fail) : (m.record f).pdCores = m.pdCores := by obtain ⟨e, v, n, w, a, o, h⟩ := m.record_eq f; rw [h]
@[simp] theorem Mod.record_sectors (m : Mod) (f : Fail) : (m.record f).sectors = m.sectors := by obtain ⟨e, v, n, w, a, o, h⟩ := m.record_eq f; rw [h]
@[simp] theorem Mod.record_fns (m : Mod) (f : Fail) : (m.record f).fns = m.fns := by obtain ⟨e, v, n, w, a, o, h⟩ := m.record_eq f; rw [h]
@[simp] theorem Mod.record_queues (m : Mod) (f : Fail) : (m.record f).queues = m.queues := by obtain ⟨e, v, n, w, a, o, h⟩ := m.record_eq f; rw [h]
@[simp] theorem Mod.record_mqs (m : Mod) (f : Fail) : (m.record f).mqs = m.mqs := by obtain ⟨e, v, n, w, a, o, h⟩ := m.record_eq f; rw [h]
@[simp] theorem Mod.record_mqPath (m : Mod) (f : Fail) : (m.record f).mqPath = m.mqPath := by obtain ⟨e, v, n, w, a, o, h⟩ := m.record_eq f; rw [h]
@[simp] theorem Mod.record_mqSector (m : Mod) (f : Fail) : (m.record f).mqSector = m.mqSector := by obtain ⟨e, v, n, w, a, o, h⟩ := m.record_eq f; rw [h]
@[simp] theorem Mod.record_mqTurn (m : Mod) (f : Fail) : (m.record f).mqTurn = m.mqTurn := by obtain ⟨e, v, n, w, a, o, h⟩ := m.record_eq f; rw [h]
@[simp] theorem Mod.record_ports (m : Mod) (f : Fail) : (m.record f).ports = m.ports := by obtain ⟨e, v, n, w, a, o, h⟩ := m.record_eq f; rw [h]
@[simp] theorem Mod.record_eds (m : Mod) (f : Fail) : (m.record f).eds = m.eds := by obtain ⟨e, v, n, w, a, o, h⟩ := m.record_eq f; rw [h]
@[simp] theorem Mod.record_engines (m : Mod) (f : Fail) : (m.record f).engines = m.engines := by obtain ⟨e, v, n, w, a, o, h⟩ := m.record_eq f; rw [h]
@[simp] theorem Mod.record_groupRoute (m : Mod) (f : Fail) : (m.record f).groupRoute = m.groupRoute := by obtain ⟨e, v, n, w, a, o, h⟩ := m.record_eq f; rw [h]
@[simp] theorem Mod.record_memberRoute (m : Mod) (f : Fail) : (m.record f).memberRoute = m.memberRoute := by obtain ⟨e, v, n, w, a, o, h⟩ := m.record_eq f; rw [h]
@[simp] theorem Mod.record_inbox (m : Mod) (f : Fail) : (m.record f).inbox = m.inbox := by obtain ⟨e, v, n, w, a, o, h⟩ := m.record_eq f; rw [h]
@[simp] theorem Mod.record_routeWait (m : Mod) (f : Fail) : (m.record f).routeWait = m.routeWait := by obtain ⟨e, v, n, w, a, o, h⟩ := m.record_eq f; rw [h]
@[simp] theorem Mod.record_arrived (m : Mod) (f : Fail) : (m.record f).arrived = m.arrived := by obtain ⟨e, v, n, w, a, o, h⟩ := m.record_eq f; rw [h]
@[simp] theorem Mod.record_txFlows (m : Mod) (f : Fail) : (m.record f).txFlows = m.txFlows := by obtain ⟨e, v, n, w, a, o, h⟩ := m.record_eq f; rw [h]
@[simp] theorem Mod.record_rxFlows (m : Mod) (f : Fail) : (m.record f).rxFlows = m.rxFlows := by obtain ⟨e, v, n, w, a, o, h⟩ := m.record_eq f; rw [h]
@[simp] theorem Mod.record_holdoff (m : Mod) (f : Fail) : (m.record f).holdoff = m.holdoff := by obtain ⟨e, v, n, w, a, o, h⟩ := m.record_eq f; rw [h]
@[simp] theorem Mod.record_tender (m : Mod) (f : Fail) : (m.record f).tender = m.tender := by obtain ⟨e, v, n, w, a, o, h⟩ := m.record_eq f; rw [h]
@[simp] theorem Mod.record_injections (m : Mod) (f : Fail) : (m.record f).injections = m.injections := by obtain ⟨e, v, n, w, a, o, h⟩ := m.record_eq f; rw [h]
@[simp] theorem Mod.record_dieGens (m : Mod) (f : Fail) : (m.record f).dieGens = m.dieGens := by obtain ⟨e, v, n, w, a, o, h⟩ := m.record_eq f; rw [h]
@[simp] theorem Mod.record_remotes (m : Mod) (f : Fail) : (m.record f).remotes = m.remotes := by obtain ⟨e, v, n, w, a, o, h⟩ := m.record_eq f; rw [h]
@[simp] theorem Mod.record_nextCmd (m : Mod) (f : Fail) : (m.record f).nextCmd = m.nextCmd := by obtain ⟨e, v, n, w, a, o, h⟩ := m.record_eq f; rw [h]
@[simp] theorem Mod.record_txns (m : Mod) (f : Fail) : (m.record f).txns = m.txns := by obtain ⟨e, v, n, w, a, o, h⟩ := m.record_eq f; rw [h]
@[simp] theorem Mod.record_tagWait (m : Mod) (f : Fail) : (m.record f).tagWait = m.tagWait := by obtain ⟨e, v, n, w, a, o, h⟩ := m.record_eq f; rw [h]
@[simp] theorem Mod.record_buckets (m : Mod) (f : Fail) : (m.record f).buckets = m.buckets := by obtain ⟨e, v, n, w, a, o, h⟩ := m.record_eq f; rw [h]
@[simp] theorem Mod.record_ctlHot (m : Mod) (f : Fail) : (m.record f).ctlHot = m.ctlHot := by obtain ⟨e, v, n, w, a, o, h⟩ := m.record_eq f; rw [h]
@[simp] theorem Mod.record_rtrHot (m : Mod) (f : Fail) : (m.record f).rtrHot = m.rtrHot := by obtain ⟨e, v, n, w, a, o, h⟩ := m.record_eq f; rw [h]
@[simp] theorem Mod.record_cohError (m : Mod) (f : Fail) : (m.record f).cohError = m.cohError := by obtain ⟨e, v, n, w, a, o, h⟩ := m.record_eq f; rw [h]
@[simp] theorem Mod.record_bursts (m : Mod) (f : Fail) : (m.record f).bursts = m.bursts := by obtain ⟨e, v, n, w, a, o, h⟩ := m.record_eq f; rw [h]
@[simp] theorem Mod.record_keeperQueue (m : Mod) (f : Fail) : (m.record f).keeperQueue = m.keeperQueue := by obtain ⟨e, v, n, w, a, o, h⟩ := m.record_eq f; rw [h]
@[simp] theorem Mod.record_keeperTurn (m : Mod) (f : Fail) : (m.record f).keeperTurn = m.keeperTurn := by obtain ⟨e, v, n, w, a, o, h⟩ := m.record_eq f; rw [h]
@[simp] theorem Mod.record_keySlots (m : Mod) (f : Fail) : (m.record f).keySlots = m.keySlots := by obtain ⟨e, v, n, w, a, o, h⟩ := m.record_eq f; rw [h]
@[simp] theorem Mod.record_models (m : Mod) (f : Fail) : (m.record f).models = m.models := by obtain ⟨e, v, n, w, a, o, h⟩ := m.record_eq f; rw [h]
@[simp] theorem Mod.record_sessions (m : Mod) (f : Fail) : (m.record f).sessions = m.sessions := by obtain ⟨e, v, n, w, a, o, h⟩ := m.record_eq f; rw [h]
@[simp] theorem Mod.record_scrubLast (m : Mod) (f : Fail) : (m.record f).scrubLast = m.scrubLast := by obtain ⟨e, v, n, w, a, o, h⟩ := m.record_eq f; rw [h]
@[simp] theorem Mod.record_fills (m : Mod) (f : Fail) : (m.record f).fills = m.fills := by obtain ⟨e, v, n, w, a, o, h⟩ := m.record_eq f; rw [h]
@[simp] theorem Mod.record_unlocked (m : Mod) (f : Fail) : (m.record f).unlocked = m.unlocked := by obtain ⟨e, v, n, w, a, o, h⟩ := m.record_eq f; rw [h]
@[simp] theorem Mod.record_bootImage (m : Mod) (f : Fail) : (m.record f).bootImage = m.bootImage := by obtain ⟨e, v, n, w, a, o, h⟩ := m.record_eq f; rw [h]
@[simp] theorem Mod.record_rootIndex (m : Mod) (f : Fail) : (m.record f).rootIndex = m.rootIndex := by obtain ⟨e, v, n, w, a, o, h⟩ := m.record_eq f; rw [h]
@[simp] theorem Mod.record_starts (m : Mod) (f : Fail) : (m.record f).starts = m.starts := by obtain ⟨e, v, n, w, a, o, h⟩ := m.record_eq f; rw [h]
@[simp] theorem Mod.record_svnFused (m : Mod) (f : Fail) : (m.record f).svnFused = m.svnFused := by obtain ⟨e, v, n, w, a, o, h⟩ := m.record_eq f; rw [h]
@[simp] theorem Mod.record_svnRunning (m : Mod) (f : Fail) : (m.record f).svnRunning = m.svnRunning := by obtain ⟨e, v, n, w, a, o, h⟩ := m.record_eq f; rw [h]
@[simp] theorem Mod.record_measurements (m : Mod) (f : Fail) : (m.record f).measurements = m.measurements := by obtain ⟨e, v, n, w, a, o, h⟩ := m.record_eq f; rw [h]
@[simp] theorem Mod.record_dies (m : Mod) (f : Fail) : (m.record f).dies = m.dies := by obtain ⟨e, v, n, w, a, o, h⟩ := m.record_eq f; rw [h]
@[simp] theorem Mod.record_harbourUp (m : Mod) (f : Fail) : (m.record f).harbourUp = m.harbourUp := by obtain ⟨e, v, n, w, a, o, h⟩ := m.record_eq f; rw [h]
@[simp] theorem Mod.record_computeUp (m : Mod) (f : Fail) : (m.record f).computeUp = m.computeUp := by obtain ⟨e, v, n, w, a, o, h⟩ := m.record_eq f; rw [h]
@[simp] theorem Mod.record_edgeLost (m : Mod) (f : Fail) : (m.record f).edgeLost = m.edgeLost := by obtain ⟨e, v, n, w, a, o, h⟩ := m.record_eq f; rw [h]
@[simp] theorem Mod.record_fw (m : Mod) (f : Fail) : (m.record f).fw = m.fw := by obtain ⟨e, v, n, w, a, o, h⟩ := m.record_eq f; rw [h]
@[simp] theorem Mod.record_power (m : Mod) (f : Fail) : (m.record f).power = m.power := by obtain ⟨e, v, n, w, a, o, h⟩ := m.record_eq f; rw [h]
@[simp] theorem Mod.record_boot (m : Mod) (f : Fail) : (m.record f).boot = m.boot := by obtain ⟨e, v, n, w, a, o, h⟩ := m.record_eq f; rw [h]
@[simp] theorem Mod.record_patrol (m : Mod) (f : Fail) : (m.record f).patrol = m.patrol := by obtain ⟨e, v, n, w, a, o, h⟩ := m.record_eq f; rw [h]
@[simp] theorem Mod.record_lanes (m : Mod) (f : Fail) : (m.record f).lanes = m.lanes := by obtain ⟨e, v, n, w, a, o, h⟩ := m.record_eq f; rw [h]
@[simp] theorem Mod.record_levels (m : Mod) (f : Fail) : (m.record f).levels = m.levels := by obtain ⟨e, v, n, w, a, o, h⟩ := m.record_eq f; rw [h]
@[simp] theorem Mod.record_notices (m : Mod) (f : Fail) : (m.record f).notices = m.notices := by obtain ⟨e, v, n, w, a, o, h⟩ := m.record_eq f; rw [h]
@[simp] theorem Mod.record_incoming (m : Mod) (f : Fail) : (m.record f).incoming = m.incoming := by obtain ⟨e, v, n, w, a, o, h⟩ := m.record_eq f; rw [h]
@[simp] theorem Mod.record_remoteQ (m : Mod) (f : Fail) : (m.record f).remoteQ = m.remoteQ := by obtain ⟨e, v, n, w, a, o, h⟩ := m.record_eq f; rw [h]
@[simp] theorem Mod.record_nextIncoming (m : Mod) (f : Fail) : (m.record f).nextIncoming = m.nextIncoming := by obtain ⟨e, v, n, w, a, o, h⟩ := m.record_eq f; rw [h]
@[simp] theorem Mod.record_tap (m : Mod) (f : Fail) : (m.record f).tap = m.tap := by obtain ⟨e, v, n, w, a, o, h⟩ := m.record_eq f; rw [h]
@[simp] theorem Mod.record_guest (m : Mod) (f : Fail) : (m.record f).guest = m.guest := by obtain ⟨e, v, n, w, a, o, h⟩ := m.record_eq f; rw [h]
@[simp] theorem Mod.record_pcie (m : Mod) (f : Fail) : (m.record f).pcie = m.pcie := by obtain ⟨e, v, n, w, a, o, h⟩ := m.record_eq f; rw [h]
@[simp] theorem Mod.record_iotlb (m : Mod) (f : Fail) : (m.record f).iotlb = m.iotlb := by obtain ⟨e, v, n, w, a, o, h⟩ := m.record_eq f; rw [h]
@[simp] theorem Mod.record_adapterWait (m : Mod) (f : Fail) : (m.record f).adapterWait = m.adapterWait := by obtain ⟨e, v, n, w, a, o, h⟩ := m.record_eq f; rw [h]
@[simp] theorem Mod.record_upstream (m : Mod) (f : Fail) : (m.record f).upstream = m.upstream := by obtain ⟨e, v, n, w, a, o, h⟩ := m.record_eq f; rw [h]
@[simp] theorem Mod.record_zeros (m : Mod) (f : Fail) : (m.record f).zeros = m.zeros := by obtain ⟨e, v, n, w, a, o, h⟩ := m.record_eq f; rw [h]
@[simp] theorem Mod.record_linkLevels (m : Mod) (f : Fail) : (m.record f).linkLevels = m.linkLevels := by obtain ⟨e, v, n, w, a, o, h⟩ := m.record_eq f; rw [h]
@[simp] theorem Mod.record_beacon (m : Mod) (f : Fail) : (m.record f).beacon = m.beacon := by obtain ⟨e, v, n, w, a, o, h⟩ := m.record_eq f; rw [h]
@[simp] theorem Mod.record_sets (m : Mod) (f : Fail) : (m.record f).sets = m.sets := by obtain ⟨e, v, n, w, a, o, h⟩ := m.record_eq f; rw [h]
@[simp] theorem Mod.record_keyEpochs (m : Mod) (f : Fail) : (m.record f).keyEpochs = m.keyEpochs := by obtain ⟨e, v, n, w, a, o, h⟩ := m.record_eq f; rw [h]
@[simp] theorem Mod.record_reports (m : Mod) (f : Fail) : (m.record f).reports = m.reports := by obtain ⟨e, v, n, w, a, o, h⟩ := m.record_eq f; rw [h]
@[simp] theorem Mod.record_free (m : Mod) (f : Fail) : (m.record f).free = m.free := by obtain ⟨e, v, n, w, a, o, h⟩ := m.record_eq f; rw [h]

end Sys2Proof.Machine
end

