-- ==== Sys2Proof/Tests/Slice0.lean ====
section
/-!
SUPPORT. Tests. For every statement of `Certificates/Slice0/Obligations.lean` that has hypotheses, theorems `wit_…` show a state and operands that meet
them, clause by clause where a statement has several. `test_…` are single steps whose results the specification gives.
-/
namespace Sys2Proof.Machine.Tests
set_option Elab.async false
set_option linter.all false
open Sys2Proof

/-- A K0 kernel of two instructions. -/
def kern : KImage :=
  { modes := 1, k1 := false, wide := false, entry := 0, argCount := 0, tileLive := 0, creditMask := 0, creditInit := [], insns := [0, 0] }

/-- A core at the first of two instructions, of sector 0, with one active group. -/
def ran : TCore :=
  { TCore.reset with st := .running, kernel := some kern, sector := some 0, vec := { VecState.reset with g := 1 } }
/-- A core whose kernel is an instruction and a NOP. -/
def onto (i : Instr) (c : TCore) : TCore := { c with kernel := some { kern with insns := [(kernelWord false i).getD 0, 0] } }

/-- The block after reset with core 0 as given. -/
def at0 (c : TCore) : State := { State.reset with cores := [(0, c)] }
/-- Core 0 issues an instruction, at the first place of its kernel. -/
theorem goes {i : Instr} {c : TCore} (h : ((at0 (onto i c)).fetches 0 i && decide (((at0 (onto i c)).core 0).pc + 1 < ((at0 (onto i c)).core 0).count)) = true) :
    (at0 (onto i c)).goesOn 0 i := by
  rw [Bool.and_eq_true] at h
  exact ⟨h.1, of_decide_eq_true h.2⟩

/-- Sector 0's region of 2 MiB at the first address of tier 1, on the first DDR5 channel. -/
def land : State := { State.reset with
  part := { Part.reset with dimm0 := 1 }
  regions := [(0, { Region.reset with w0 := BitVec.ofNat 64 (3 + 6 * 2 ^ 32), w1 := 0x80000000000, w2 := 1 })]
  controllers := [(80, { Controller.reset with owner := [(0, some 0)] })] }
/-- Its first address, and its first cell. -/
def base : Nat := 0x80000000000
def cell0 : Nat := 128 * lineNum 2560 0 0
/-- The block with bytes at the region's start, and core 0 as given. -/
def holds (bs : List Byte) (c : TCore) : State := { land with
  dram := (List.range bs.length).map (fun i => (cell0 + i, bs.getD i 0))
  cores := [(0, c)] }

/-! ## Instruction words (R59, R70 to R74, R97, R135, R151, R164) -/

/-- Words written bit by bit: class, OP, and the fields in their order from bit 51 on. -/
theorem test_words :
    kernelInsn false 0 0b0000_00000100_00001_00010_00011_00000_00000000000000000000000000000000#64 = some (.add 0 1 2 3) ∧
    kernelInsn false 0 0b0000_00001101_11111_00010_00000_00000_11111111111111111111111111111110#64 = some (.addi 0 31 2 0xFFFFFFFE) ∧
    kernelInsn false 0 0b0001_00000001_100000100000000011_0000000000000101_1_00000000000000000#64 = some (.tpost 0 0b100000100000000011 5 true) ∧
    kernelInsn false 0 0b0010_00000000_00001_00010_0000000000000100000000_011_1_000101_0000000000#64 =
      some (.mvin 0 { sa := 1, sl := 2, tile := 256, peer := 3, post := true, token := 5 }) ∧
    kernelInsn false 0 0b0011_00000000_00000000000001_00000000000010_00011_01_0000_00000_00000001#64 =
      some (.mma 0 { aBase := 1, bBase := 2, kReg := 3, acc := 1, fmt := 0, auxReg := 0, flags := 1 }) ∧
    kernelInsn false 0 0b0100_00000011_0000000101_0000000001_0000000010_0000000011_1001_00000000#64 =
      some (.vfma 0 { dst := 5, src1 := 1, src2 := 2, src3 := 3, maskOp := 9, mod := 0 }) ∧
    kernelInsn true 0 0b0100_00000011_000101_000001_000010_000011_1001_0000_00_000000000000000000#64 =
      some (.vfma 0 { dst := 5, src1 := 1, src2 := 2, src3 := 3, maskOp := 9, mod := 0 }) ∧
    kernelInsn false 0 0b0101_00000000_00000000000111_01_1_10_000000000000000000000000000000000#64 =
      some (.chain 0 { desc := 7, source := 1, acc := 2, clear := true }) := by decide +kernel
/-- A reserved bit, an OP beyond a class, and a class that is none. -/
theorem test_words_refused : kernelInsn false 0 0b0000_00000100_00001_00010_00011_00001_00000000000000000000000000000000#64 = none ∧
    kernelInsn false 0 0x01D0000000000000#64 = none ∧ kernelInsn false 0 0x6000000000000000#64 = none := by decide +kernel
/-- KernelWords: a post, a read of the last credit, matrix, chain and vector operands that the encodings admit, in K1 too. -/
theorem wit_KernelWords : (1#16) ≠ 0 ∧ tokReserved (BitVec.ofNat 18 (1 + 5 * 2 ^ 10)) = false ∧ (31#6).toNat < 32 ∧
    (let x : MatArgs := { aBase := 0, bBase := 0, kReg := 0, acc := 3, fmt := 0, auxReg := 0, flags := 0 }
     mmaLegal x = true ∧ accLegal x false = true ∧ accLegal x true = true ∧ accZeroLegal x = true) ∧ (1#2).toNat ≤ 1 ∧
    (let v : VecArgs := { dst := 63, src1 := 1, src2 := 2, src3 := 3, maskOp := 9, mod := 0 }
     vectorOp 3 0 v = some (.vfma 0 v) ∧ vecLegal 3 v = true ∧ k1Op 3 = true ∧ v.dst.toNat < 64 ∧ v.mod.toNat % 4 = 0) := by decide +kernel

/-! ## Scalar instructions, tokens, moves (R68 to R79) -/

theorem wit_ScalarResults : ∀ i ∈ [Instr.li 0 31 5, .lih 0 31 5, .add 0 31 1 2, .sub 0 31 1 2, .mul 0 31 1 2, .and 0 31 1 2, .or 0 31 1 2, .xor 0 31 1 2,
    .shl 0 31 1 2, .shr 0 31 1 2, .sra 0 31 1 2, .addi 0 0 1 5, .rdbt 0 31], (at0 (onto i ran)).goesOn 0 i := by
  intro i h; apply goes; revert i; decide +kernel
/-- A branch to the last instruction, and one back to the first. -/
theorem wit_Branches : ∀ n ∈ [1, 0], (∀ i ∈ [Instr.beq 0 1 2 (BitVec.ofNat 32 n), .bne 0 1 2 (BitVec.ofNat 32 n), .blt 0 1 2 (BitVec.ofNat 32 n),
      .bltu 0 1 2 (BitVec.ofNat 32 n), .jmp 0 (BitVec.ofNat 32 n), .loop 0 1 (BitVec.ofNat 32 n)], (at0 (onto i ran)).goesOn 0 i) ∧
    (((at0 ran).core 0).pc : Int) + (BitVec.ofNat 32 n).toInt = n ∧ n < ((at0 ran).core 0).count := by
  intro n h
  refine ⟨fun i k => goes ?_, ?_, ?_⟩ <;> (try revert i) <;> revert n <;> decide +kernel
/-- An instruction of the matrix class as it was issued, with its K. -/
def job (op : MatOp) (x : MatArgs) (k : Nat) : MatJob := { pc := 0, op := op, args := x, k := k, aux := 0, tile := TCore.reset.tile, done := 0, stack := [] }
def mat (fmt : BitVec 4) (flags : BitVec 8) : MatArgs := { aBase := 0, bBase := 0, kReg := 1, acc := 3, fmt := fmt, auxReg := 0, flags := flags }
/-- The last aligned double word of tile memory, where nothing waits, and the first, where an ACC_STORE writes and an ACC_LOAD reads. -/
theorem wit_TileLoadStore : (((at0 ran).core 0).reg 0 + (0x3FFFF8#32).signExtend 64).toNat = 0x3FFFF8 ∧ 0x3FFFF8 % 8 = 0 ∧
    (∀ i ∈ [Instr.lds 0 1 0 0x3FFFF8, .sts 0 0 1 0x3FFFF8], (at0 (onto i ran)).goesOn 0 i) ∧
    (∀ w ∈ [false, true], ran.clear (tileTouch (plainSpan 0x3FFFF8 8 w)) = true) ∧
    { ran with mat := [job .store (mat 13 0) 0] }.clear (tileTouch (plainSpan 0 8 false)) = false ∧
    { ran with mat := [job .load (mat 13 0) 0] }.clear (tileTouch (plainSpan 0 8 true)) = false := by
  refine ⟨by decide, by decide, fun i h => goes ?_, by decide, by decide, by decide⟩
  revert i; decide +kernel
/-- Each clause of KernelFlow: the last instruction, something outstanding, a misaligned address and the first beyond tile memory. -/
theorem wit_KernelFlow : (∀ i ∈ [Instr.nop 0, .fence 0], (at0 (onto i ran)).goesOn 0 i) ∧
    (∀ i ∈ [Instr.nop 0, .fence 0, .endKernel 0, .trap 0 9, .lds 0 1 0 4, .lds 0 1 0 0x400000, .sts 0 0 1 4, .sts 0 0 1 0x400000], (at0 (onto i ran)).fetches 0 i = true) ∧
    (at0 (onto (.nop 0) { ran with pc := 1 })).fetches 0 (.nop 0) = true ∧ ((at0 (onto (.nop 0) { ran with pc := 1 })).core 0).count = 2 ∧
    ((at0 ran).core 0).outstanding = false ∧ ((at0 { ran with mat := [job .zero (mat 0 0) 0] }).core 0).outstanding = true ∧
    (at0 (onto (.fence 0) { ran with mat := [job .zero (mat 0 0) 0] })).fetches 0 (.fence 0) = true ∧
    (((at0 ran).core 0).reg 0 + (4#32).signExtend 64).toNat % 8 ≠ 0 ∧ (((at0 ran).core 0).reg 0 + (0x400000#32).signExtend 64).toNat > 0x3FFFF8 := by
  refine ⟨fun i h => goes ?_, ?_⟩
  · revert i; decide +kernel
  · decide +kernel
theorem wit_KernelEnds : let s := at0 (onto (.endKernel 0) ran)
    s.fetches 0 (.endKernel 0) = true ∧ (s.core 0).outstanding = false ∧ (s.core 0).launch = none ∧ (s.core 0).queue = [] ∧ (s.core 0).saved = none := by
  decide +kernel
theorem wit_KernelFaultCore : (at0 (onto (.trap 0 9) ran)).fetches 0 (.trap 0 9) = true := by decide +kernel

/-- Tokens 3 and 4 asked for by 1, at counters that hold exactly that, and at counters that do not. -/
def ask : TwaitArgs := { tokA := 3, cntA := 1, tokB := 4, cntB := 1, crd := 0, cntC := 0 }
/-- A core whose counters 3 and 4 hold 1. -/
def posted : TCore := { ran with tokens := [(3, 1), (4, 1)] }
theorem need_small (c : TCore) (h3 : 1 ≤ c.token c.bank 3) (h4 : 1 ≤ c.token c.bank 4) :
    ∀ k, (if ask.tokA.val = k then ask.cntA.toNat else 0) + (if ask.tokB.val = k then ask.cntB.toNat else 0) ≤ c.token c.bank k := by
  intro k
  show (if 3 = k then 1 else 0) + (if 4 = k then 1 else 0) ≤ _
  by_cases a : 3 = k
  · subst a; simpa using h3
  · by_cases b : 4 = k
    · subst b; simpa using h4
    · simp [a, b]
theorem wit_TokenWaits_met : (at0 (onto (.twait 0 ask) posted)).goesOn 0 (.twait 0 ask) ∧
    (∀ k, (if ask.tokA.val = k then ask.cntA.toNat else 0) + (if ask.tokB.val = k then ask.cntB.toNat else 0) ≤
      ((at0 posted).core 0).token ((at0 posted).core 0).bank k) ∧ ask.cntC.toNat ≤ ((at0 posted).core 0).credit ((at0 posted).core 0).bank ask.crd :=
  ⟨goes (by decide +kernel), need_small _ (by decide) (by decide), by decide⟩
theorem wit_TokenWaits_waits : (at0 (onto (.twait 0 ask) ran)).goesOn 0 (.twait 0 ask) ∧
    ¬ (∀ k, (if ask.tokA.val = k then ask.cntA.toNat else 0) + (if ask.tokB.val = k then ask.cntB.toNat else 0) ≤
      ((at0 ran).core 0).token ((at0 ran).core 0).bank k) := ⟨goes (by decide +kernel), fun h => absurd (h 3) (by decide)⟩
/-- The waiting core of TWAIT_MET, with and without its counts. -/
theorem wit_TokenWaits_twaitMet : (∀ c ∈ [posted, ran], ((at0 { c with st := .waiting, wait := some ask }).core 0).st = .waiting ∧
    ((at0 { c with st := .waiting, wait := some ask }).core 0).wait = some ask) ∧ (at0 ran).working = true ∧
    ((at0 { posted with st := .waiting, wait := some ask }).core 0).pc + 1 < ((at0 { posted with st := .waiting, wait := some ask }).core 0).count := by decide
theorem wit_TokenReads : (∀ i ∈ [Instr.tread 0 1 63 false, .tread 0 1 31 true], (at0 (onto i ran)).goesOn 0 i) ∧
    (∀ c ∈ [ran, posted], (at0 (onto (.ttest 0 ask 1) c)).goesOn 0 (.ttest 0 ask 1)) := by
  refine ⟨fun i h => goes ?_, fun c h => goes ?_⟩
  · revert i; decide +kernel
  · revert c; decide +kernel

/-- A post to token 5 of core 1. -/
def tgt : BitVec 18 := BitVec.ofNat 18 (1 + 5 * 2 ^ 10)
def poster : TCore := { ran with s := [(1, BitVec.ofNat 64 (1 + 5 * 2 ^ 10 + 2 ^ 32))] }
theorem wit_Posts : (∀ i ∈ [Instr.tpost 0 tgt 1 false, .tposts 0 1 false],
      (∀ c ∈ [poster, { poster with mat := [job .zero (mat 0 0) 0] }, { poster with vecQ := 1 }], (at0 (onto i c)).goesOn 0 i)) ∧
    (poster.reg 1).extractLsb' 0 18 = tgt ∧ (poster.reg 1).extractLsb' 32 16 = 1#16 ∧ (1#16) ≠ 0 ∧ tokReserved tgt = false ∧
    poster.mat = [] ∧ poster.vecQ = 0 ∧ poster.chainQ = 0 ∧ poster.moves = [] ∧ { poster with mat := [job .zero (mat 0 0) 0] }.mat ≠ [] := by
  refine ⟨fun i h c k => goes ?_, by decide⟩
  revert c; revert i; decide +kernel
/-- An increment of 0, and the first reserved credit. -/
theorem wit_Posts_bad : (at0 (onto (.tposts 0 1 false) ran)).fetches 0 (.tposts 0 1 false) = true ∧
    tokReserved (BitVec.ofNat 18 (2 ^ 16 + 32 * 2 ^ 10)) = true ∧ (ran.reg 1).extractLsb' 32 16 = 0#16 := by decide +kernel
/-- Two posts on their way to token 5 of core 1, and one to another; the counter is one below where their sum saturates. -/
def postsOn : State := { at0 ran with
  cores := [(1, { ran with tokens := [(5, 65533)] })]
  posts := [{ target := tgt, incr := 1, sector := some 0 }, { target := 0, incr := 9, sector := some 0 }, { target := tgt, incr := 1, sector := some 0 }] }
theorem wit_PostsArrive : tokReserved tgt = false ∧ (postsOn.core (tokCore tgt)).sector = some 0 ∧ (postsOn.core (tokCore tgt)).st ≠ .fenced ∧
    (∀ p ∈ postsOn.posts.filter (fun p => p.target == tgt), p.sector = some 0) ∧ tokCredit tgt = false ∧
    (postsOn.core (tokCore tgt)).token (tokBank tgt) (tokCounter tgt) +
      (((postsOn.posts.filter (fun p => p.target == tgt)).take 2).map Post.incr).sum = 65535 := by decide
/-- The step on it: the counter of core 1 takes both posts, the other post stays on its way. -/
theorem test_postArrive : (match exec (.postArrive tgt 2) postsOn with
    | .next s => decide ((s.core 1).token false 5 = 65535) && decide (s.posts = [{ target := 0, incr := 9, sector := some 0 }])
    | _ => false) = true := by decide +kernel

/-- MVIN of 256 bytes from address 0x1000 and its likes. -/
def mv : MoveArgs := { sa := 1, sl := 2, tile := 0x3FFF00, peer := 1, post := false, token := 0 }
def mover (len : Nat) : TCore := { ran with s := [(1, 0x1000), (2, BitVec.ofNat 64 len)] }
/-- A fill of 4,097 bytes into tile memory 0x3FE000 on of core 0: two blocks. -/
def fillDesc : Desc :=
  { src := 0, srcSpace := 0, dst := 0x3FE000, dstSpace := 8, rowBytes := 4097, rows := 1, srcStride := 0, dstStride := 0, op := 1, last := true,
    order := false, post := true, hint := false, target := tgt, incr := 1, hintTarget := 0, pattern := 0x0807060504030201 }
def fillPart (done : List Nat) : MovePart := { desc := fillDesc.words, index := 0, base := 0, done := done, read := [] }
def fillJob (done : List Nat) : MoveJob := { serial := 0, pc := 0, parts := [fillPart done], next := none, total := 2, listPost := none }
def filling (done : List Nat) : State := at0 { ran with moves := [fillJob done] }
/-- A move that ends with tile memory, a move of nothing, one of 2^32 bytes, and a full move queue. -/
theorem wit_MovesQueue : (∀ i ∈ [Instr.mvin 0 mv, .mvout 0 mv, .mvt 0 mv], (∀ len ∈ [256, 0, 2 ^ 32], (at0 (onto i (mover len))).goesOn 0 i)) ∧
    (mover 256).moves.length < 16 ∧ (∀ w ∈ [true, false], (mover 256).clear (moveTouch (mover 256) mv w) = true) ∧
    0 < ((mover 256).reg mv.sl).toNat ∧ mv.tile.toNat + ((mover 256).reg mv.sl).toNat ≤ 0x400000 ∧ ((mover 256).reg mv.sa).toNat < 2 ^ 56 ∧
    ((mover 256).reg mv.sa).toNat % 2 ^ 22 + ((mover 256).reg mv.sl).toNat ≤ 0x400000 ∧
    (∀ len ∈ [0, 2 ^ 32], (mover len).clear (moveTouch (mover len) mv true) = true) ∧
    ((mover 0).reg mv.sl).toNat = 0 ∧ ((mover (2 ^ 32)).reg mv.sl).toNat ≥ 2 ^ 32 ∧ { ran with moves := List.replicate 16 (fillJob []) }.moves.length = 16 := by
  refine ⟨fun i h len k => goes ?_, by decide +kernel⟩
  revert len; revert i; decide +kernel
/-- The second block of the fill has one byte; with both blocks there, the move is complete. -/
theorem wit_FillBlocks : let d := Desc.ofWords (fillPart [0]).desc
    ((filling [0]).core 0).engines = true ∧ (filling [0]).moversRun = true ∧ ((filling [0]).core 0).moves = [fillJob [0]] ∧ (fillJob [0]).parts = [fillPart [0]] ∧
    (fillJob [0]).next = none ∧ (fillPart [0]).read = [] ∧ d.op = 1 ∧ 8 ≤ d.dstSpace ∧ (filling [0]).coreFenced 0 = false ∧ 1 < d.blocks ∧
    (fillPart [0]).done.contains 1 = false ∧ min 4096 (d.bytes - 4096 * 1) = 1 ∧ (∀ k < d.blocks, (fillPart [1, 0]).done.contains k = true) ∧
    (fillJob [1, 0]).listPost = none ∧ ((filling [1, 0]).core 0).fenceWait = false ∧ ((filling [1, 0]).core 0).endWait = false ∧
    ((filling [1, 0]).core 0).heldPosts = [] := by decide +kernel
/-- The second block's byte is the pattern's first, since 4,096 is a multiple of 8 (R78). -/
theorem test_fillBlock : (match exec (.moveBlockDone (.core 0 0) 1) (filling [0]) with
    | .next s => (s.core 0).tile.read 0x3FF000
    | _ => 0) = 1 := by decide +kernel

/-- A list whose one descriptor fills tile memory, at the region's start. -/
def lister : State := holds (fillDesc.words.flatMap wordBytes) (onto (.mlist 0 mv) { ran with s := [(1, BitVec.ofNat 64 base)] })
theorem wit_MovesQueue_mlist : lister.fetches 0 (.mlist 0 mv) = true ∧ (lister.core 0).pc + 1 < (lister.core 0).count ∧ (lister.core 0).moves.length < 16 ∧
    (lister.core 0).clear (tileTouch (wholeTile true)) = true ∧
    (match lister.toMod.readDesc (lister.core 0).sector ((lister.core 0).reg mv.sa).toNat with
     | (_, .ok ws) => ws == fillDesc.words && listFault ws 0 == none
     | _ => false) = true := by decide +kernel
/-- The same list while an LR window holds its line. -/
def windowed (s : State) : State := { s with pdCores := [(5, { PdCore.reset with window := some (lineNum 2560 0 0) })] }
theorem wit_MovesQueue_wait : (match (windowed lister).toMod.readDesc (lister.core 0).sector ((lister.core 0).reg mv.sa).toNat with
    | (_, .error .wait) => true
    | _ => false) = true := by decide +kernel

/-! ## The matrix engine (R91 to R104) -/

/-- A core whose matrix queue has one instruction. -/
def matCore (op : MatOp) (x : MatArgs) (k : Nat) : TCore := { ran with mat := [job op x k] }
theorem matCore_runs (op : MatOp) (x : MatArgs) (k : Nat) : (at0 (matCore op x k)).enginesRun 0 ∧ ((at0 (matCore op x k)).core 0).noneWaits ∧
    ((at0 (matCore op x k)).core 0).mat = [job op x k] ∧ (job op x k).tile = ((at0 (matCore op x k)).core 0).tile ∧ (job op x k).op = op :=
  ⟨⟨rfl, rfl⟩, ⟨rfl, rfl, rfl⟩, rfl, rfl, rfl⟩
/-- Each integer format, from its first product and from product 64 on. -/
theorem wit_IntegerMma : ∀ f ∈ [8#4, 9, 10, 11], (∀ z ∈ [0#8, 1], mmaLegal (mat f z) = true) ∧ 8 ≤ (mat f 0).fmt.toNat ∧ (job .mma (mat f 0) 1).done ≤ (job .mma (mat f 0) 1).k ∧
    { job .mma (mat f 0) 65 with done := 64 }.done ≤ { job .mma (mat f 0) 65 with done := 64 }.k := by decide
/-- The formats of 16 bits, those with weights of 8 and 4 bits, and REPRO with one block. -/
theorem wit_FloatMma : (∀ f ∈ [0#4, 1], (∀ z ∈ [0#8, 1, 2], mmaLegal (mat f z) = true) ∧ (mat f 2).repro = true ∧ (mat f 0).repro = false) ∧
    (∀ f ∈ [2#4, 3, 4], mmaLegal (mat f 0) = true ∧ (auxAddr 0 = some 0 ∧ auxRanges (mat f 0) (auxAt TCore.reset.tile 0) 1 = true)) ∧
    (∀ f ∈ [0#4, 1], auxRanges (mat f 2) (auxAt TCore.reset.tile 0) 64 = true) ∧ (job .mma (mat 0 2) 64).k ≤ 64 ∧ (job .mma (mat 0 2) 64).stack = [] := by
  decide +kernel
/-- One of each, with room in the queue, with streams that leave their half, and with a full queue. -/
theorem wit_MatrixIssue : (∀ i ∈ [Instr.mma 0 (mat 8 0), .accLoad 0 { mat 13 0 with kReg := 0 }, .accStore 0 { mat 13 0 with kReg := 0 },
      .accZero 0 { mat 0 0 with kReg := 0 }, .mma 0 { mat 8 0 with aBase := 0x3FFF }, .accLoad 0 { mat 13 0 with kReg := 0, aBase := 0x3FFF }],
      (at0 (onto i { ran with s := [(1, 2)] })).goesOn 0 i) ∧ ran.mat.length < 8 ∧ ran.pack = none ∧
    mmaStreams (mat 8 0) 0 2 = true ∧ mmaStreams { mat 8 0 with aBase := 0x3FFF } 0 4 = false ∧ streamOk 0 32768 = true ∧ streamOk (0x3FFF * 256) 32768 = false ∧
    { ran with mat := List.replicate 8 (job .zero (mat 0 0) 0) }.mat.length = 8 := by
  refine ⟨fun i h => goes ?_, by decide +kernel⟩
  revert i; decide +kernel
theorem wit_AccMoves : streamOk 0 32768 = true ∧ streamOk 0 16384 = true ∧ (mat 12 0).addFlag = false ∧ (mat 13 16).addFlag = true ∧ (mat 0 0).sr = false ∧
    (let x := { mat 0 4 with kReg := 0 }
     accLegal x true = true ∧ x.sr = true) ∧ auxAddr 0 = some 0 := by decide +kernel
theorem wit_QueueEntriesLeave : (at0 { ran with vecQ := 1, chainQ := 1 }).enginesRun 0 ∧ ((at0 { ran with vecQ := 1, chainQ := 1 }).core 0).noneWaits ∧
    0 < ((at0 { ran with vecQ := 1, chainQ := 1 }).core 0).vecQ ∧ 0 < ((at0 { ran with vecQ := 1, chainQ := 1 }).core 0).chainQ ∧
    ((at0 { ran with vecQ := 1, chainQ := 1 }).core 0).pack = none ∧ ((at0 ran).core 0).mat = [] ∧ ((at0 ran).core 0).vecQ = 0 ∧ ((at0 ran).core 0).chainQ = 0 :=
  ⟨⟨rfl, by decide⟩, ⟨rfl, rfl, rfl⟩, by decide, by decide, rfl, rfl, rfl, rfl⟩

/-! ## The vector engine (R127 to R161) -/

/-- Operand words: destination, sources, TYPE, and the other bits of MOD. -/
def vec (dst a b c : BitVec 10) (mod : BitVec 8) : VecArgs := { dst := dst, src1 := a, src2 := b, src3 := c, maskOp := 0, mod := mod }
theorem apart_one (v : VecArgs) (names : List (BitVec 10)) (c : TCore) (h : c.vec.g = 1) : c.apart v names := by
  intro g hg k hk ne
  rw [h] at hg hk
  omega
/-- Core 0 issues an instruction of the vector class and performs it. -/
theorem takes {i : Instr} {c : TCore} {t : Touch} (h : ((at0 (onto i c)).fetches 0 i &&
    decide (((at0 (onto i c)).core 0).pc + 1 < ((at0 (onto i c)).core 0).count)) = true)
    (room : c.vecQ + c.chainQ < 16 ∧ c.pack = none ∧ c.clear t = true) : (at0 (onto i c)).takes 0 i t := ⟨goes h, room⟩
theorem wit_vector : ran.sharedName 5 = false ∧ (at0 ran).core 0 = ran ∧ ran.vec.g = 1 ∧ ran.vecQ + ran.chainQ < 16 ∧ ran.pack = none ∧
    (∀ names, ran.apart (vec 5 1 2 3 0) names) := ⟨by decide, rfl, rfl, by decide, rfl, fun _ => apart_one _ _ _ rfl⟩
/-- Core 0 takes an instruction of the vector class that touches no tile memory. -/
def taken (i : Instr) (c : TCore) : Bool :=
  (at0 (onto i c)).fetches 0 i && decide (((at0 (onto i c)).core 0).pc + 1 < ((at0 (onto i c)).core 0).count) && decide (c.vecQ + c.chainQ < 16) &&
    decide (c.pack = none) && c.clear (tileTouch [])
theorem taken_takes {i : Instr} {c : TCore} (h : taken i c = true) : (at0 (onto i c)).takes 0 i (tileTouch []) := by
  simp only [taken, Bool.and_eq_true] at h
  exact takes (by rw [Bool.and_eq_true]; exact h.1.1.1) ⟨of_decide_eq_true h.1.1.2, of_decide_eq_true h.1.2, h.2⟩
/-- Each elementwise operation, at each TYPE the statement speaks of. -/
theorem wit_VectorElementwise :
    (∀ i ∈ [0, 0x10, 0x20, 0x30, 0x40].flatMap (fun ty => let v := vec 5 1 2 0 (BitVec.ofNat 8 ty)
        [Instr.vadd 0 v, .vsub 0 v, .vmul 0 v, .vmin 0 v, .vmax 0 v, .vand 0 v, .vor 0 v, .vxor 0 v]), taken i ran = true) ∧
    (∀ i ∈ [0, 0x10, 0x20, 0x30, 0x40].flatMap (fun ty => let v := vec 5 1 0 0 (BitVec.ofNat 8 ty)
        [Instr.vabs 0 v, .vneg 0 v, .vmov 0 v, .vfma 0 { v with src2 := 2, src3 := 3 }, .vsel 0 { v with src2 := 2, src3 := 3 }]), taken i ran = true) ∧
    (∀ i ∈ [0x30, 0x40].flatMap (fun ty => let v := vec 5 1 0 0 (BitVec.ofNat 8 ty)
        [Instr.vshl 0 { v with src2 := 2 }, .vshr 0 { v with src2 := 2 }, .vsra 0 { v with src2 := 2 }, .vcvtf 0 v, .vcvti 0 v]), taken i ran = true) ∧
    (∀ i ∈ [0x10, 0x20].flatMap (fun ty => let v := vec 5 1 0 0 (BitVec.ofNat 8 ty)
        [Instr.vunpkl 0 v, .vunpkh 0 v, .vpack 0 { v with src2 := 2 }]), taken i ran = true) ∧
    taken (.vtid 0 (vec 5 0 0 0 0x30)) ran = true ∧ (vec 5 1 2 0 0x10).sr = false := by decide +kernel
/-- 1 + 1 = 2 in FP32, thread by thread. -/
theorem test_vadd : (match exec (.vadd 0 (vec 5 1 1 0 0)) (at0 (onto (.vadd 0 (vec 5 1 1 0 0)) { ran with sram := { fill := .zero, words := [(64 + 3, 0x3F800000)] } })) with
    | .next s => ((s.core 0).operand 0 5 3, (s.core 0).operand 0 5 4)
    | _ => (0, 0)) = (0x40000000, 0) := by decide +kernel

/-- Slot 2 holds 7 in every thread; scalar registers for tile addresses. -/
def loaded : TCore := { ran with sram := { fill := .zero, words := (List.range 64).map (fun t => (128 + t, 7)) } }
/-- Every written thread divides by 7, signed and unsigned. -/
theorem wit_VectorDivision : (∀ g < loaded.vec.g, ∀ t < 64, (loaded.written (vec 5 1 2 0 0x30) g).getLsbD t = true → loaded.srcB (vec 5 1 2 0 0x30) g t ≠ 0) ∧
    (∀ i ∈ [0x30, 0x40].flatMap (fun ty => [Instr.vdiv 0 (vec 5 1 2 0 (BitVec.ofNat 8 ty)), .vrem 0 (vec 5 1 2 0 (BitVec.ofNat 8 ty))]), taken i loaded = true) := by
  decide +kernel
theorem wit_VectorFunctions : ∀ i ∈ [Instr.vexp2 0, .vlog2 0, .vrcp 0, .vrsqrt 0, .vsqrt 0, .vsinpi 0, .vcospi 0, .vtanh 0, .vsigmoid 0].map
    (fun f => f (vec 5 1 0 0 0)), taken i ran = true := by decide +kernel
theorem wit_VectorAcross : taken (.vshfl 0 (vec 5 1 2 0 0)) ran = true ∧ (∀ i ∈ [0, 0x30, 0x40].flatMap (fun ty =>
      [Instr.vred 0 (vec 5 1 0 0 (BitVec.ofNat 8 ty)), .vscan 0 (vec 5 1 0 0 (BitVec.ofNat 8 ty))]), taken i ran = true) ∧
    (vec 5 1 0 0 0x30).type = 3 ∧ (vec 5 1 0 0 0x40).type = 4 ∧ (vec 5 1 0 0 0x30).src2 = 0 := by decide +kernel
/-- 64 sevens make 448. -/
theorem test_vred : (match exec (.vred 0 (vec 5 2 0 0 0x30)) (at0 (onto (.vred 0 (vec 5 2 0 0 0x30)) loaded)) with
    | .next s => (s.core 0).operand 0 5 63
    | _ => 0) = 448 := by decide +kernel
/-- Predicates 0 and 7, the first and the last condition; a group all of whose threads are written, and one with none. -/
theorem wit_VectorCompare : (∀ i ∈ [Instr.vcmp 0 (vec 0 1 2 0 0x30), .vcmp 0 (vec 7 1 2 5 0x30)], taken i ran = true) ∧
    ran.written (vec 7 1 2 5 0x30) 0 ≠ 0 ∧
    { ran with vec := { ran.vec with groups := [(0, { Group.reset with mask := 0 })] } }.written (vec 7 1 2 5 0x30) 0 = 0 := by decide +kernel
/-- A row that ends with tile memory, and scattered addresses of 7 × 0 where slot 1 holds 0. -/
def rows : TCore := { ran with s := [(1, 0x3FFF00)] }
theorem wit_VectorLoads : (at0 (onto (.vld 0 (vec 5 1 2 0 0)) rows)).takes 0 (.vld 0 (vec 5 1 2 0 0)) (rows.rowSpans (vec 5 1 2 0 0) false) ∧
    (at0 (onto (.vgather 0 (vec 5 1 0 0 0)) rows)).takes 0 (.vgather 0 (vec 5 1 0 0 0)) (tileTouch (wholeTile false)) ∧
    (∀ g < rows.vec.g, ∀ t < 64, (rows.reg (nameReg 1) + BitVec.ofNat 64 g * rows.reg (nameReg 2) + BitVec.ofNat 64 (4 * t)).toNat % 4 = 0 ∧
      (rows.reg (nameReg 1) + BitVec.ofNat 64 g * rows.reg (nameReg 2) + BitVec.ofNat 64 (4 * t)).toNat ≤ 0x3FFFFC) ∧
    (∀ g < rows.vec.g, ∀ t < 64, ((rows.srcA (vec 5 1 0 0 0) g t).setWidth 22).toNat % 4 = 0 ∧ ((rows.srcA (vec 5 1 0 0 0) g t).setWidth 22).toNat ≤ 0x3FFFFC) :=
  ⟨takes (by decide +kernel) (by decide +kernel), takes (by decide +kernel) (by decide +kernel), by decide +kernel, by decide +kernel⟩
/-- One thread stores: thread 63, at the last word of tile memory for VST, at address 0 for VSCATTER. -/
def lone (mask : Word) : TCore := { rows with vec := { rows.vec with groups := [(0, { Group.reset with mask := mask })] } }
theorem wit_VectorStores : let c := lone 0x8000000000000000#64
    (at0 (onto (.vst 0 (vec 0 1 2 3 0)) c)).takes 0 (.vst 0 (vec 0 1 2 3 0)) (c.rowSpans (vec 0 1 2 3 0) true) ∧
    (at0 (onto (.vscatter 0 (vec 0 1 2 0 0)) c)).takes 0 (.vscatter 0 (vec 0 1 2 0 0)) (tileTouch (wholeTile true)) ∧
    (∀ t < 64, (c.written (vec 0 1 2 3 0) 0).getLsbD t = true → t = 63) ∧
    (c.reg (nameReg 1) + BitVec.ofNat 64 0 * c.reg (nameReg 2) + BitVec.ofNat 64 (4 * 63)).toNat = 0x3FFFFC ∧
    ((c.srcA (vec 0 1 2 3 0) 0 63).setWidth 22).toNat = 0 :=
  ⟨takes (by decide +kernel) (by decide +kernel), takes (by decide +kernel) (by decide +kernel), by decide +kernel, by decide +kernel, by decide +kernel⟩
/-- A full mask stack but one, and a stack of one. -/
def stacked (n : Nat) : TCore := { ran with vec := { ran.vec with groups := [(0, { Group.reset with stack := List.replicate n 5 })] } }
theorem wit_VectorMasks : taken (.vpush 0 (vec 0 1 0 0 0)) (stacked 15) = true ∧ (∀ g < (stacked 15).vec.g, ((stacked 15).group g).stack.length < 16) ∧
    taken (.velse 0 (vec 0 0 0 0 0)) (stacked 1) = true ∧ taken (.vpop 0 (vec 0 0 0 0 0)) (stacked 1) = true ∧
    (∀ g < (stacked 1).vec.g, ((stacked 1).group g).stack ≠ []) := by decide +kernel
/-- VCFG at G = 1 and 32 and the largest stride, a VLDS of the last slot in operand-cache mode, and the operations that count. -/
def cached : TCore := { ran with opCache := true, s := [(1, BitVec.ofNat 64 (32 + 1024 * 2 ^ 16 + 1024 * 2 ^ 32)), (2, 0x3FFF00)] }
theorem wit_VectorEngineOps : taken (.vcfg 0 (vec 0 1 0 0 0)) cached = true ∧ cached.reg (nameReg 1) = BitVec.ofNat 64 (32 + 1024 * 2 ^ 16 + 1024 * 2 ^ 32) ∧
    taken (.vabase 0 (vec 0 1 0 0 0)) cached = true ∧
    (at0 (onto (.vlds 0 (vec 1023 2 0 0 0)) cached)).takes 0 (.vlds 0 (vec 1023 2 0 0 0)) (tileTouch (plainSpan 0x3FFF00 256 false)) ∧
    ((cached.reg (nameReg 2)).setWidth 22).toNat = 0x3FFF00 ∧ 0x3FFF00 % 256 = 0 ∧ cached.opCache = true ∧
    taken (.vany 0 (vec 31 7 0 0 0)) cached = true ∧ taken (.vcount 0 (vec 31 7 0 0 0)) cached = true :=
  ⟨by decide +kernel, by decide +kernel, by decide +kernel, takes (by decide +kernel) (by decide +kernel), by decide +kernel⟩
/-- A stochastic VPACK on the last stream. -/
theorem wit_VectorPackStochastic : taken (.vpack 0 (vec 5 1 2 3 0x12)) ran = true ∧ (vec 5 1 2 3 0x12).sr = true := by decide +kernel
/-- One thread's atomic at the region's start, where memory holds 5. -/
def atomic : TCore := { lone 1 with vec := { (lone 1).vec with atomicBase := BitVec.ofNat 56 base } }
def atomics : State := holds [5, 0, 0, 0] atomic
theorem wit_VectorAtomics : let v := vec 5 1 2 0 0x30
    let free : Mod := { atomics.toMod with free := atomics.free + 1 }
    (atomics.core 0).sharedName 5 = false ∧ (atomics.core 0).vec.g = 1 ∧ (∀ u < 64, ((atomics.core 0).written v 0).getLsbD u = decide (u = 0)) ∧
    (atomics.core 0).vec.atomicBase.toNat + ((atomics.core 0).srcA v 0 0).toNat = base ∧ atomics.toMod.atomWaits 0 v = false ∧
    free.atomCheck 0 (atomics.core 0).sector [base] = none ∧
    (∀ i ∈ [Instr.vatomAdd 0 v, .vatomMin 0 v, .vatomMax 0 v, .vatomSwap 0 v, .vatomCas 0 { v with src3 := 3 }], taken i atomic = true) ∧
    (match (free.chargeAll (atomics.core 0).sector 0 (free.atomCells (atomics.core 0).sector [base])).homeAtomic (atomics.core 0).sector .add 4 base 0 0 with
     | .ok r => r.1 == 5
     | .error _ => false) = true := by decide +kernel
/-- One row that selects elements 0 and 63; its places lie apart. Destination 0x1000, source 0x2000, predicate 0x3000, count 0x4000. -/
def packer : TCore := { ran with
  s := [(1, 0x1000), (2, 0x2000), (3, 0x3000), (4, BitVec.ofNat 64 (1 + 0x4000 * 2 ^ 32))]
  tile := { fill := .zero, cells := [(0x3000, 1), (0x3007, 0x80)] } }
def packJob (op : Nat) : PackJob :=
  { pc := 0, op := op, fill := false, dst := 0x1000, src := 0x2000, pred := 0x3000, rows := 1, count := 0x4000, row := 0, run := 0 }
/-- Operands in range, and a predicate beyond tile memory. -/
theorem wit_PackingIssue : (at0 (onto (.compress 0 (vec 1 2 3 4 0)) packer)).takes 0 (.compress 0 (vec 1 2 3 4 0)) (packJob 0x58).touch ∧
    (at0 (onto (.compressIdx 0 (vec 1 2 3 4 0)) packer)).takes 0 (.compressIdx 0 (vec 1 2 3 4 0)) (packJob 0x59).touch ∧
    (at0 (onto (.expand 0 (vec 1 2 3 4 1)) packer)).takes 0 (.expand 0 (vec 1 2 3 4 1)) { packJob 0x5A with fill := true }.touch ∧
    (∀ op ∈ [0x58, 0x59, 0x5A], (packJob op).startOk packer.tile = true ∧ { packJob op with pred := 0x400000 }.startOk packer.tile = false) :=
  ⟨takes (by decide +kernel) (by decide +kernel), takes (by decide +kernel) (by decide +kernel), takes (by decide +kernel) (by decide +kernel), by decide +kernel⟩
/-- Each of them performed, from its first row. -/
theorem wit_PackingResults : (∀ op ∈ [0x58, 0x59, 0x5A], let c := { packer with vecQ := 1, pack := some (packJob op) }
      (at0 c).moversRun = true ∧ c.engines = true ∧ c.fenceWait = false ∧ c.endWait = false ∧ c.heldPosts = [] ∧ (packJob op).row ≤ (packJob op).rows) ∧
    (List.range 64).filter (fun e => (packer.tile.readNum (0x3000 + 8 * (e / 64)) 8).testBit (e % 64)) = [0, 63] ∧
    0x1000 + 4 * 2 ≤ 0x3000 ∧ 0x1000 + 4 * 2 ≤ 0x2000 ∧ 0x1000 + 256 ≤ 0x2000 := by decide +kernel
/-- R150's worked example: the indices 0, 1, 63 and 80 and a count of 4. -/
def example150 : TCore := { packer with
  tile := { fill := .zero, cells := [(0x3000, 3), (0x3007, 0x80), (0x300A, 1)] }
  vecQ := 1, pack := some { packJob 0x59 with rows := 2 } }
theorem test_compressIdx : (match exec (.vectorInstructionComplete 0) (at0 example150) with
    | .next s => ((List.range 4).map (fun k => (s.core 0).tile.readNum (0x1000 + 4 * k) 4), (s.core 0).tile.readNum 0x4000 8)
    | _ => ([], 0)) = ([0, 1, 63, 80], 4) := by decide +kernel
/-! ## Queues and packets (R270 to R300) -/

/-- A packet of an opcode: LEN, and parameter words from word 2 on. -/
def pkt (opc len : Nat) (ps : List Word) : List Word :=
  ([pack [(0, 12, opc), (16, 8, len)], 0] ++ ps ++ List.replicate 512 0).take (8 * len)
/-- An enabled admin queue with rings of 64 entries in the region. -/
def dq : Queue :=
  { Queue.reset with st := .enabled, ringLog2 := 6, replyLog2 := 6, prioCap := 4, admin := true, inFlightMax := 4, drainMs := 1
                     ring := BitVec.ofNat 64 (base + 0x1000), reply := BitVec.ofNat 64 (base + 0x3000) }
/-- Cluster 0 is sector 0's. -/
def owned : State := { land with clusters := [(0, { Cluster.reset with sector := some 0 })], sectors := [(0, { Sector.reset with st := 2 })] }
def q0 : QRef := .csq 0
def p0 : PktRef := { q := .csq 0, ix := 0 }
/-- Queue 0 in a state of its own. -/
def queued (x : Queue) : State := { owned with queues := [(0, x)] }
theorem wit_Bells : let x := { dq with producer := 0, fetch := 0xFFFFFFC0, replyPi := 2, replyCi := 0xFFFFFFFF }
    ((queued x).queue q0).st ≠ .free ∧ ((0#32) - ((queued x).queue q0).fetch).toNat = 2 ^ ((queued x).queue q0).ringLog2 ∧
    ((queued x).queue q0).st = .enabled ∧ 2 ^ ((queued x).queue q0).ringLog2 < ((1#32) - ((queued x).queue q0).fetch).toNat ∧
    ((2#32) - ((queued x).queue q0).replyCi).toNat = (((queued x).queue q0).replyPi - ((queued x).queue q0).replyCi).toNat ∧
    (owned.queue q0).st = .free := by decide +kernel
/-- A consumer index of REPLY_PI, and one beyond it. -/
theorem wit_ReplyBell : let x := (queued { dq with replyPi := 2, replyCi := 0xFFFFFFFF }).queue q0
    x.st ≠ .free ∧ ((2#32) - x.replyCi).toNat ≤ (x.replyPi - x.replyCi).toNat ∧ (x.replyPi - x.replyCi).toNat < ((3#32) - x.replyCi).toNat := by decide +kernel
theorem test_csqBellRq : (match exec (.csqBellRq q0 3) (queued { dq with replyPi := 2 }) with
    | .next s => decide ((s.queue q0).replyCi = 0) && decide ((s.err 0).pending = 1)
    | _ => false) = true := by decide +kernel
/-- NOP-like packets whose LEN is 1 and 64, and out of range; rings in host memory and in device memory. -/
def hq (pi : BitVec 32) : State := { queued { dq with producer := pi } with
  queues := [(0, { dq with producer := pi, host := true, checkSeq := true, lastSeq := some 0xFFFF })]
  sectors := [(0, { Sector.reset with st := 2, attached := true, hostPort := 0 })]
  fns := [(1, { Fn.reset with active := true, bme := true })] }
theorem wit_Acceptance_host : (∀ pi ∈ [0, 1, 64, 65], (hq (BitVec.ofNat 32 pi)).mayFetch q0 = true) ∧ ((hq 0).queue q0).producer = ((hq 0).queue q0).fetch ∧
    2 ^ ((hq 65).queue q0).ringLog2 < (((hq 65).queue q0).producer - ((hq 65).queue q0).fetch).toNat ∧
    (((hq 64).queue q0).producer - ((hq 64).queue q0).fetch).toNat = 2 ^ ((hq 64).queue q0).ringLog2 ∧ ((hq 64).queue q0).host = true ∧
    (∀ n ∈ [1, 64], (pkt 0x011 n []).length = 8 * pktLen (pkt 0x011 n []) ∧ pktLen (pkt 0x011 n []) = n) ∧
    ((hq 64).queue q0).lastSeq = some (pktSeq (pkt 0x011 1 []) - 1) ∧ pktSeq ((pkt 0x011 1 []).set 1 7) ≠ 0xFFFF + 1 ∧
    pktLen [0] = 0 ∧ 64 < pktLen [0x410000] := by decide +kernel
/-- A packet of one entry in the region. -/
def fetches : State := { queued { dq with producer := 1 } with
  dram := (List.range 64).map (fun i => (cell0 + 0x1000 + i, ((pkt 0x011 1 []).flatMap wordBytes).getD i 0)) }
theorem wit_Acceptance_device : fetches.mayFetch q0 = true ∧ (fetches.queue q0).host = false ∧ fetches.toMod.entriesWait q0 0 1 = false ∧
    (fetches.toMod.touchEntries q0 0 1).entriesWait q0 0 1 = false ∧
    ({ fetches with pdCores := [(5, { PdCore.reset with window := some (lineNum 2560 0 0 + 32) })] } : State).toMod.entriesWait q0 0 1 = true ∧
    (match (fetches.toMod.touchEntries q0 0 1).readEntries q0 0 1 with
     | .ok hdr => hdr == pkt 0x011 1 [] && pktLen hdr == 1
     | .error _ => false) = true ∧
    (match ((fetches.toMod.touchEntries q0 0 1).touchEntries q0 0 1).readEntries q0 0 1 with | .ok all => all == pkt 0x011 1 [] | .error _ => false) = true := by
  decide +kernel

/-- A packet on queue 0 at a stage, free to act unless said otherwise. -/
def flightOf (ws : List Word) (st : Stage) (w : Work) : Flight := { ix := 0, words := ws, stage := st, past := false, progress := 0, work := w, ports := [], effect := none }
def accepts (ws : List Word) : State := queued { dq with flights := [flightOf ws .accepted .none] }
/-- KERNEL_PREEMPT, a packet of no opcode, a QUEUE_DISABLE of cluster 1's queue, a SECTOR_CREATE, and a STAGE_BEGIN. -/
theorem wit_Dispatching :
    (∀ ws ∈ [pkt 0x102 1 [32], pkt 0x777 1 [], pkt 0x011 1 [128], pkt 0x021 1 [], pkt 0x400 1 []],
      (accepts ws).working = true ∧ (accepts ws).power.paused = false ∧ (accepts ws).fw.seqPause = false ∧
      (accepts ws).ready q0 = some (flightOf ws .accepted .none) ∧ (accepts ws).nextQueue q0 = some q0 ∧
      ((accepts ws).toMod.turned q0).fabricNode q0 = none ∧ ((accepts ws).toMod.turned q0).issuer q0 = some (.sector 0)) ∧
    ((accepts (pkt 0x777 1 [])).toMod.turned q0).formatFault (pkt 0x777 1 []) = some (0x0102, 0) ∧
    (∀ ws ∈ [pkt 0x102 1 [32], pkt 0x011 1 [128], pkt 0x021 1 [], pkt 0x400 1 []], ((accepts ws).toMod.turned q0).formatFault ws = none) ∧
    (∀ ws ∈ [pkt 0x102 1 [32], pkt 0x400 1 []], ((accepts ws).toMod.turned q0).stateFault p0 ws = none) ∧
    ((accepts (pkt 0x021 1 [])).toMod.turned q0).forbidden q0 (pkt 0x021 1 []) = true ∧
    (∀ ws ∈ [pkt 0x102 1 [32], pkt 0x011 1 [128], pkt 0x400 1 []], ((accepts ws).toMod.turned q0).forbidden q0 ws = false) ∧
    ((accepts (pkt 0x011 1 [128])).toMod.turned q0).ownerFault (.sector 0) (pkt 0x011 1 [128]) = some 16 ∧
    (∀ ws ∈ [pkt 0x102 1 [32], pkt 0x400 1 []], ((accepts ws).toMod.turned q0).ownerFault (.sector 0) ws = none) ∧
    keeperBound (pktOpc (pkt 0x102 1 [32])) = false ∧ keeperBound (pktOpc (pkt 0x400 1 [])) = true := by decide +kernel
/-- Queue 0's packet is the one that goes next, and is sound up to its state's own checks. -/
def atTurn (s : State) (ws : List Word) : Bool :=
  let m := s.toMod.turned q0
  s.working && !s.power.paused && !s.fw.seqPause && decide (s.ready q0 = some (flightOf ws .accepted .none)) && decide (s.nextQueue q0 = some q0) &&
    (m.fabricNode q0).isNone && (m.formatFault ws).isNone && !m.forbidden q0 ws && decide (m.issuer q0 = some (.sector 0)) && (m.ownerFault (.sector 0) ws).isNone
/-- A packet of queue 0 beside what refuses it: queue 1, core 1 and engine 0 as given. -/
def against (ws : List Word) (x : Queue) (c : TCore) (e : Engine) : State :=
  { accepts ws with queues := [(0, { dq with flights := [flightOf ws .accepted .none] }), (1, x)], cores := [(1, c)], engines := [(0, e)] }
/-- A load of slot 0 which core 1's kernel has, a launch from it while it is empty, posts and starts for generation 1, a plan for an engine that runs. -/
theorem wit_DispatchRefusals :
    (let ws := pkt 0x100 1 [0, BitVec.ofNat 64 base]
     let s := against ws Queue.reset { ran with launch := some p0 } Engine.reset
     atTurn s ws = true ∧ (s.toMod.turned q0).slotUser 0 0 = some 1) ∧
    (let ws := pkt 0x101 1 [32]
     let s := against ws Queue.reset TCore.reset Engine.reset
     atTurn s ws = true ∧ Table.get none (s.cluster 0).slots (bits (wordAt ws 2) 4 0) = none) ∧
    (let ws := pkt 0x103 1 [BitVec.ofNat 64 (1 + 2 ^ 32 + 2 ^ 48 + 2 ^ 56)]
     atTurn (against ws Queue.reset TCore.reset Engine.reset) ws = true ∧ bit (wordAt ws 2) 48 = true ∧ bits (wordAt ws 2) 63 56 ≠ TCore.reset.gen.toNat) ∧
    (let ws := pkt 0x300 1 [0, BitVec.ofNat 64 base]
     let e := { Engine.reset with sector := some 0, st := .running }
     atTurn (against ws Queue.reset TCore.reset e) ws = true ∧ e.active = true) ∧
    (let ws := pkt 0x301 1 [BitVec.ofNat 64 (2 ^ 8 + 2 ^ 16)]
     let e := { Engine.reset with sector := some 0, st := .idle }
     atTurn (against ws Queue.reset TCore.reset e) ws = true ∧ bit (wordAt ws 2) 8 = true ∧ bits (wordAt ws 2) 23 16 ≠ e.gen.toNat) ∧
    (let ws := pkt 0x010 1 [BitVec.ofNat 64 (1 + 6 * 2 ^ 14 + 6 * 2 ^ 19 + 2 ^ 31 + 2 ^ 24), 0, 0, 0, 2 ^ 32]
     let s := against ws dq TCore.reset Engine.reset
     atTurn s ws = true ∧ (s.queueSector (.csq 1)).isSome ∧ (s.queue (.csq 1)).st ≠ .free) ∧
    (let ws := pkt 0x012 1 [1]
     let s := against ws { dq with st := .disabling, enable := some (some p0, none) } TCore.reset Engine.reset
     atTurn s ws = true ∧ (s.queue (.csq 1)).st = .disabling ∧ (s.queue (.csq 1)).enable.isSome = true) := by decide +kernel
def atKeeper : State := { queued { dq with flights := [flightOf (pkt 0x400 1 []) .keeper .none] } with keeperQueue := [p0] }
theorem wit_KeeperServes : atKeeper.keeperWaits (some (turnIssuer (0 : Fin 17))) = p0 :: [] ∧
    (∀ k : Fin 17, k ≠ 0 → atKeeper.keeperWaits (some (turnIssuer k)) = []) := by decide +kernel
/-- The Keeper's turn frees the command. -/
theorem test_keeperCommandServe : (match exec .keeperCommandServe atKeeper with
    | .next s => decide ((s.queue q0).flights.map Flight.stage = [.dispatched]) && decide (s.keeperTurn = 1)
    | _ => false) = true := by decide +kernel
/-- A reply of SUCCESS. -/
def done : Reply := { tag := 0, seq := 0, status := 0, detail := 0, progress := 0, bt := 0, notify := false, ix := 0, past := false }
def running1 : List Flight := [flightOf (pkt 0x200 2 []) .running (.move (fillJob []) 0)]
/-- A notification with and without a port to flush, a held reply, a move at DRAIN_MS. -/
def upLink (s : State) : State := { s with pcie := [(0, { PciePort.reset with linkUp := true })] }
theorem wit_RepliesAndDrains :
    (∀ x ∈ [{ dq with notifyPending := true }, { dq with notifyPending := true, replyPort := some (0, 0) }], x.notifyPending = true ∧ x.held = [] ∧ x.host = false ∧ x.notifyWait = false) ∧
    (upLink (queued { dq with notifyPending := true, replyPort := some (0, 0) })).flushGoes 0 0 = true ∧ (queued dq).working = true ∧
    (∀ f ∈ running1, f.answered = false) ∧
    ((upLink (queued { dq with notifyPending := true, replyPort := some (0, 0) })).flushRead (.notify q0) 0 0).isSome = true ∧
    ((queued { dq with notifyPending := true }).queue q0).replyPort = none ∧
    ((queued { dq with held := [done] }).queue q0).held = [done] ∧ ((queued { dq with held := [done] }).queue q0).st = .enabled ∧
    ((queued { dq with held := [done] }).queue q0).disables = [] ∧
    (Mod.putReply ((queued { dq with held := [done] }).toMod.setQueue q0 { dq with held := [] }) q0 done).isSome = true ∧
    ((queued { dq with st := .disabling, flights := running1 }).queue q0).st = .disabling ∧
    ((queued { dq with st := .disabling, flights := running1 }).queue q0).flights = running1 := by decide +kernel
theorem wit_ReplyEntries : ((queued dq).queue q0).host = false ∧ ((queued dq).toMod.putReply q0 done).isSome = true := by decide +kernel

/-! ## Commands (R46 to R50, R65 to R68, R172, R188 to R192, R290 to R295, R305) -/

/-- A packet free to act on queue 0, on top of a state. -/
def sends (s : State) (ws : List Word) : State := { s with queues := [(0, { dq with flights := [flightOf ws .dispatched .none] })] }
/-- Before its dispatch a packet is no command of any opcode. -/
theorem wit_UndispatchedCommandsWait : ∀ opc, (accepts (pkt 0x011 1 [])).cmdWords p0 opc = none := by
  intro opc
  simp [Mod.cmdWords, Mod.flight, accepts, queued, Mod.queue, Table.get, Table.find, flightOf, p0]
/-- Queue 1 beside the issuing queue 0. -/
def beside (s : State) (ws : List Word) (x : Queue) : State := { sends s ws with queues := [(0, { dq with flights := [flightOf ws .dispatched .none] }), (1, x)] }
theorem wit_QueueCommands :
    let create := pkt 0x010 2 [BitVec.ofNat 64 (1 + 6 * 2 ^ 14 + 6 * 2 ^ 19 + 2 ^ 31)]
    (beside owned create Queue.reset).cmdWords p0 0x010 = some create ∧ bits (wordAt create 2) 13 0 = 1 ∧
    ((beside owned create Queue.reset).cluster (1 / 128)).sector = some 0 ∧ ((beside owned create Queue.reset).queue (.csq 1)).st = .free ∧
    hostFault create 2 ((beside owned create Queue.reset).sector 0).attached = none ∧
    (beside owned (pkt 0x012 1 [1]) { dq with st := .disabled }).cmdWords p0 0x012 = some (pkt 0x012 1 [1]) ∧
    ((beside owned (pkt 0x012 1 [1]) { dq with st := .disabled }).queue (.csq 1)).st = .disabled ∧
    ((beside owned (pkt 0x012 1 [1]) dq).queue (.csq 1)).st = .enabled ∧
    (beside owned (pkt 0x011 1 [1]) dq).cmdWords p0 0x011 = some (pkt 0x011 1 [1]) ∧ ((beside owned (pkt 0x011 1 [1]) dq).queue (.csq 1)).flights = [] ∧
    ((beside owned (pkt 0x011 1 [1]) dq).queue (.csq 1)).enable = none ∧ p0.q ≠ .csq 1 ∧
    (beside owned (pkt 0x013 1 [1]) { dq with st := .disabled }).cmdWords p0 0x013 = some (pkt 0x013 1 [1]) ∧
    ((beside owned (pkt 0x013 1 [1]) { dq with st := .disabled }).queue (.csq 1)).held = [] ∧ q0 ≠ .csq 1 ∧
    (beside owned (pkt 0x011 1 [1]) { dq with st := .disabled }).cmdWords p0 0x011 = some (pkt 0x011 1 [1]) ∧
    ((beside owned (pkt 0x011 1 [1]) { dq with st := .disabled }).queue (.csq 1)).st = .disabled := by decide +kernel
/-- KERNEL_LOAD of an image of one END at the region's start, KERNEL_LAUNCH on core 7 with the kernel of `kern`, KERNEL_PREEMPT, TOKEN_POST. -/
def image : List Byte :=
  ([BitVec.ofNat 64 (0x4B45524E + 2 * 2 ^ 32 + 2 ^ 40), 1] ++ List.replicate 14 (0 : Word) ++ [BitVec.ofNat 64 (2 ^ 52)]).flatMap wordBytes
def loads : State := { sends owned (pkt 0x100 1 [0, BitVec.ofNat 64 base]) with dram := (List.range 136).map (fun i => (cell0 + i, image.getD i 0)) }
theorem wit_KernelCommands_load : (sends owned (pkt 0x100 1 [0, 0])).cmdWords p0 0x100 = some (pkt 0x100 1 [0, 0]) ∧ loads.loadAhead p0 0 0 = false ∧ loads.holdsOff (loads.queueSector q0) false base 128 = false ∧
    (loads.toMod.touchRead (loads.queueSector q0) base 128).holdsOff (loads.queueSector q0) false (base + 128) 8 = false ∧
    loads.cmdWords p0 0x100 = some (pkt 0x100 1 [0, BitVec.ofNat 64 base]) ∧
    (match (loads.toMod.touchRead (loads.queueSector q0) base 128).readPhys (loads.queueSector q0) base 128 with
     | .error _ => false
     | .ok hb =>
       let two := (loads.toMod.touchRead (loads.queueSector q0) base 128).touchRead (loads.queueSector q0) (base + 128) 8
       decide (headerFault (wordsOf 16 hb) = none) && decide (kernelPages (bits (wordAt (wordsOf 16 hb) 1) 15 0) ≤ (two.cluster 0).freePages) &&
       (match two.readPhys (loads.queueSector q0) (base + 128) 8 with
        | .error _ => false
        | .ok ib => insnOk (bit (wordAt (wordsOf 16 hb) 0) 42) 1 0 (wordAt (wordsOf 1 ib) 0))) = true := by decide +kernel
/-- A second load of the slot, dispatched after the first. -/
def loadsTwo : State := { sends owned [] with
  queues := [(0, { dq with flights := [{ flightOf (pkt 0x100 1 [0, 0]) .dispatched .none with ix := 1 }, { flightOf (pkt 0x100 1 [0, 0]) .dispatched .none with order := 1 }] })] }
theorem wit_KernelCommands_loadsInOrder : loadsTwo.cmdWords p0 0x100 = some (pkt 0x100 1 [0, 0]) ∧ loadsTwo.loadAhead p0 0 0 = true := by decide +kernel
def launches : State := { owned with
  queues := [(0, { dq with flights := [{ flightOf (pkt 0x101 4 [BitVec.ofNat 64 (2 ^ 12)]) .dispatched .none with image := some kern }] })]
  clusters := [(0, { Cluster.reset with sector := some 0, slots := [(0, some kern)] })] }
theorem wit_KernelCommands_launch : let ws := pkt 0x101 4 [BitVec.ofNat 64 (2 ^ 12)]
    launches.cmdWords p0 0x101 = some ws ∧ (launches.flight p0).bind Flight.image = some kern ∧
    launches.badLaunch p0 ws 0 (some kern) = none ∧ bits (wordAt ws 2) 12 5 = 2 ^ 7 ∧ (launches.core 7).st = .idle ∧ (launches.core 7).hold = none ∧
    (launches.core 7).saved = none ∧ (launches.core 7).queue = [] := by decide +kernel
/-- The launched core runs, with its numbers in s30 and s31 (R68). -/
theorem test_kernelLaunch : (match exec (.kernelLaunch p0) launches with
    | .next s => decide ((s.core 7).st = .running ∧ (s.core 7).reg 31 = 7 ∧ (s.core 7).reg 30 = 7)
    | _ => false) = true := by decide +kernel
theorem wit_KernelCommands_others :
    (sends owned (pkt 0x102 1 [BitVec.ofNat 64 (2 ^ 17 + 2 ^ 5)])).cmdWords p0 0x102 = some (pkt 0x102 1 [BitVec.ofNat 64 (2 ^ 17 + 2 ^ 5)]) ∧
    bit (wordAt (pkt 0x102 1 [BitVec.ofNat 64 (2 ^ 17 + 2 ^ 5)]) 2) 17 = true ∧ bit (wordAt (pkt 0x102 1 [32]) 2) 17 = false ∧
    (sends owned (pkt 0x102 1 [32])).cmdWords p0 0x102 = some (pkt 0x102 1 [32]) ∧ bits (wordAt (pkt 0x102 1 [32]) 2) 12 5 = 2 ^ 0 ∧
    ((sends owned (pkt 0x102 1 [32])).core 0).hold = none ∧ ((sends owned (pkt 0x102 1 [32])).core 0).st = .idle ∧
    (sends owned (pkt 0x103 1 [BitVec.ofNat 64 (2 ^ 32)])).cmdWords p0 0x103 = some (pkt 0x103 1 [BitVec.ofNat 64 (2 ^ 32)]) ∧
    bit (wordAt (pkt 0x103 1 [BitVec.ofNat 64 (2 ^ 32)]) 2) 48 = false := by decide +kernel
/-- MOVE within tile memory and FILL of two blocks, from the first block on and past the end; MOVE_LIST of a list in the region. -/
def moveWords (op : Nat) (start : Nat) (d : Desc) : List Word := pkt op 2 ([BitVec.ofNat 64 start, 0, 0, 0, 0, 0] ++ d.words)
def moveDesc : Desc := { fillDesc with op := 0, srcSpace := 9, pattern := 0 }
theorem wit_MoveCommands :
    (∀ x ∈ [(moveWords 0x200 0 moveDesc, 0x200), (moveWords 0x202 2 fillDesc, 0x202)], descFault ((x.1.drop 8).take 8) = none ∧
      (sends owned x.1).cmdWords p0 x.2 = some x.1) ∧
    (Desc.ofWords (((moveWords 0x200 0 moveDesc).drop 8).take 8)).op = 0 ∧ (Desc.ofWords (((moveWords 0x202 2 fillDesc).drop 8).take 8)).op = 1 ∧
    0 < (Desc.ofWords moveDesc.words).blocks ∧ (Desc.ofWords fillDesc.words).blocks ≤ 2 ∧
    (sends lister (pkt 0x201 1 [0, BitVec.ofNat 64 base])).cmdWords p0 0x201 = some (pkt 0x201 1 [0, BitVec.ofNat 64 base]) ∧
    (match ({ sends lister (pkt 0x201 1 [0, BitVec.ofNat 64 base]) with clusters := owned.clusters } : State).readDesc (some 0) base with
     | (_, .ok ws) => listFault ws 0 == none
     | _ => false) = true ∧
    (sends owned (pkt 0x203 1 [0xFF])).cmdWords p0 0x203 = some (pkt 0x203 1 [0xFF]) := by decide +kernel
/-- The same fill without a post, in the command's flight, with ORDERED_VISIBLE or without. -/
def plainFill : Desc := { fillDesc with post := false }
def plainPart (done : List Nat) : MovePart := { fillPart done with desc := plainFill.words }
def plainJob (done : List Nat) : MoveJob := { fillJob done with parts := [plainPart done] }
def moveFlight (ordered : Bool) (done : List Nat) : Flight :=
  flightOf ((moveWords 0x202 0 plainFill).set 1 (if ordered then 0x40000 else 0)) .running (.move (plainJob done) 0)
def movesOn (ordered : Bool) (done : List Nat) : State := queued { dq with flights := [moveFlight ordered done] }
/-- The second block of the command's fill in either mode, out of order, and the fill with both blocks there. -/
theorem wit_MoveCommands_blocks : (∀ o ∈ [false, true], (movesOn o [0]).flight p0 = some (moveFlight o [0]) ∧ (movesOn o [0]).moversRun = true ∧
      pktOrdered (moveFlight o [0]).words = o ∧
      (match (movesOn o [0]).toMod.jobBlock 0 ((movesOn o [0]).queueSector q0) 0 1 (plainJob [0]) with
       | .ok _ => true
       | .error _ => false) = true) ∧
    1 = leadingBlocks (plainJob [0]) 0 ∧ 1 ≠ leadingBlocks (plainJob []) 0 ∧
    (plainJob [1, 0]).parts = [plainPart [1, 0]] ∧ (plainJob [1, 0]).next = none ∧ (plainPart [1, 0]).finished 0 = true ∧
    (Desc.ofWords (plainPart [1, 0]).desc).post = false := by decide +kernel
/-- A command that wrote through port 0 and ends, and one whose read is on its way. -/
def wrote (w : Work) (ports : List (Nat × Nat)) : State := upLink (queued { dq with flights := [{ moveFlight false [1, 0] with work := w, ports := ports }] })
theorem wit_FlushBeforeReply : let s := wrote (.move (plainJob [1, 0]) 0) [(0, tierBase 2)]
    s.flight p0 = some { moveFlight false [1, 0] with ports := [(0, tierBase 2)] } ∧ (∀ u ∈ s.upstream, u.flush ≠ some (.cmd p0)) ∧
    s.flushGoes 0 (tierBase 2) = true ∧ s.upstreamTag 0 = some 0 ∧
    (wrote (.flushing 0 0 2) []).flight p0 = some { moveFlight false [1, 0] with work := .flushing 0 0 2, ports := [] } ∧ (wrote (.flushing 0 0 2) []).upstream = [] := by
  decide +kernel

/-- A set in a state, for the issuer of queue 0. -/
def staged (ws : List Word) (x : StagedSet) (locked : Bool) : State := { sends owned ws with
  sets := [(0, x)]
  beacon := { State.reset.beacon with st := if locked then .masterLocked else .free } }
def opened : StagedSet := { StagedSet.reset with st := .opened, owner := some (.sector 0) }
/-- The management queue's. -/
def granted : StagedSet := { opened with owner := some .mgmt }
/-- APPLY_AT at the first and the last instant that it takes, one tick too early and one too late, and with the beacon not locked. -/
def applyAt (t : Nat) : List Word := pkt 0x403 1 [0, BitVec.ofNat 64 t]
theorem wit_StagingCommands : (sends owned (pkt 0x400 1 [])).cmdWords p0 0x400 = some (pkt 0x400 1 []) ∧ (sends owned (pkt 0x400 1 [])).issuer q0 = some (.sector 0) ∧
    (∀ k < 4, (Mod.set (sends owned (pkt 0x400 1 [])).toMod k).st = .empty) ∧
    (let ws := pkt 0x401 2 [BitVec.ofNat 64 (2 ^ 8)]
     (staged ws opened true).cmdWords p0 0x401 = some ws ∧ (staged ws opened true).ownsSet p0 0 = true ∧ opened.entries.length + bits (wordAt ws 2) 14 8 ≤ 4096 ∧
     (∀ e ∈ stageEntries ws, (staged ws granted true).notGranted granted.owner e = false)) ∧
    (staged (pkt 0x402 1 []) opened true).cmdWords p0 0x402 = some (pkt 0x402 1 []) ∧ (staged (pkt 0x402 1 []) opened true).toMod.checkSets [0] = none ∧
    (staged (pkt 0x402 1 []) { opened with entries := [.write 0 0 0] } true).toMod.checkSets [0] = some (0, 0) ∧
    (∀ t ∈ [65536, 2 ^ 36], (staged (applyAt t) { opened with st := .checked } true).cmdWords p0 0x403 = some (applyAt t) ∧
      (staged (applyAt t) { opened with st := .checked } true).beacon.locked = true ∧
      (staged (applyAt t) { opened with st := .checked } true).bt + 65536 ≤ (wordAt (applyAt t) 3).toNat ∧
      (wordAt (applyAt t) 3).toNat ≤ (staged (applyAt t) { opened with st := .checked } true).bt + 2 ^ 36 ∧
      (staged (applyAt t) { opened with st := .checked } true).clashingSet 0 t = none) ∧
    (wordAt (applyAt 64512) 3).toNat < (staged (applyAt 64512) { opened with st := .checked } true).bt + 65536 ∧
    (staged (applyAt 0) { opened with st := .checked } true).bt + 2 ^ 36 < (wordAt (applyAt (2 ^ 36 + 1024)) 3).toNat ∧
    (staged (applyAt 0) { opened with st := .checked } false).beacon.locked = false ∧
    (staged (pkt 0x404 1 []) opened true).cmdWords p0 0x404 = some (pkt 0x404 1 []) ∧
    (∀ ws ∈ [pkt 0x401 1 [], pkt 0x402 1 [], pkt 0x403 1 [], pkt 0x404 1 []], (staged ws granted true).ownsSet p0 0 = false ∧
      (staged ws granted true).cmdWords p0 (pktOpc ws) = some ws) := by decide +kernel
/-- The armed set 32 ticks before its instant, at its instant, and applying. -/
def armed (t : Nat) (checked : Bool) (es : List StageEntry) : State := { owned with
  sets := [(3, { opened with st := .armed, instant := BitVec.ofNat 64 t, finalChecked := checked, entries := es })] }
def applying : State := { owned with sets := [(3, { opened with st := .applying })] }
theorem wit_StagedSetsApply : (∀ j : Fin 4, j ≠ 3 → (Mod.set (armed 32768 false []).toMod j).st = .empty) ∧ (Mod.set (armed 32768 false []).toMod 3).st = .armed ∧
    (Mod.set (armed 32768 false []).toMod 3).instant.toNat ≤ (armed 32768 false []).bt + 32768 ∧ (armed 32768 false []).toMod.checkSets [3] = none ∧
    (armed 32768 false [.write 0 0 0]).toMod.checkSets [3] = some (3, 0) ∧ (Mod.set (armed 0 true []).toMod 3).instant.toNat ≤ (armed 0 true []).bt ∧
    (∀ j : Fin 4, j ≠ 3 → (Mod.set applying.toMod j).st = .empty) := by decide +kernel
theorem wit_SetsLeave : (Mod.set applying.toMod 3).st = .applying ∧ (Mod.set applying.toMod 3).fencedSite = none ∧ (Mod.set applying.toMod 3).apply = none ∧
    (Mod.set applying.toMod 3).owner = some (.sector 0) ∧ (applying.sector 0).st ≠ 4 ∧ (∀ j : Fin 4, j ≠ 3 → (Mod.set applying.toMod j).st ≠ .applying) := by decide +kernel
/-- A second region behind the first, one that overlaps it, a clear, a preserve mark, a mooring in the first region, and its clear. -/
def regionWords (b off : Nat) : List Word :=
  pkt 0x500 1 [1, BitVec.ofNat 64 (2 + 6 * 2 ^ 32), BitVec.ofNat 64 b, 1, BitVec.ofNat 64 off]
def moorWords : List Word := pkt 0x501 1 [0, 0, 0, BitVec.ofNat 64 base, 512]
theorem wit_TableCommands_create : (let s := sends owned (regionWords (base + 0x200000) 512)
     let r : Region := { w0 := (wordAt (regionWords (base + 0x200000) 512) 3 &&& ~~~0x2008000#64) ||| 1, w1 := wordAt (regionWords (base + 0x200000) 512) 4
                         w2 := wordAt (regionWords (base + 0x200000) 512) 5, w3 := wordAt (regionWords (base + 0x200000) 512) 6 &&& 0xFFFFFFFF#64, chans := [] }
     s.cmdWords p0 0x500 = some (regionWords (base + 0x200000) 512) ∧ bit (wordAt (regionWords (base + 0x200000) 512) 2) 12 = false ∧
     bit (wordAt (regionWords (base + 0x200000) 512) 2) 13 = false ∧ (s.region 1).valid = false ∧ s.regionsUsed r.sector < bits (s.quotaReg r.sector) 20 8 ∧
     (s.toMod.setRegion 1 { r with chans := s.listOf r }).firstCondition 1 = none) ∧
    (let s := sends owned (regionWords base 512)
     let r : Region := { w0 := (wordAt (regionWords base 512) 3 &&& ~~~0x2008000#64) ||| 1, w1 := wordAt (regionWords base 512) 4
                         w2 := wordAt (regionWords base 512) 5, w3 := wordAt (regionWords base 512) 6 &&& 0xFFFFFFFF#64, chans := [] }
     (s.toMod.setRegion 1 { r with chans := s.listOf r }).firstCondition 1 = some 4) := by decide +kernel
theorem wit_TableCommands_others : (sends owned (pkt 0x500 1 [4096])).cmdWords p0 0x500 = some (pkt 0x500 1 [4096]) ∧ bit (wordAt (pkt 0x500 1 [4096]) 2) 12 = true ∧
    (owned.region 0).valid = true ∧ (owned.region 0).preserve = false ∧ owned.mooringIn (owned.region 0) = none ∧
    (sends owned (pkt 0x503 1 [4096])).cmdWords p0 0x503 = some (pkt 0x503 1 [4096]) ∧
    (let x : Mooring := { w0 := wordAt moorWords 3 ||| 8, w1 := wordAt moorWords 4, w2 := wordAt moorWords 5, w3 := wordAt moorWords 6 }
     (sends owned moorWords).cmdWords p0 0x501 = some moorWords ∧ bit (wordAt moorWords 2) 10 = false ∧ (owned.mooring 0).valid = false ∧ x.reservedValue = false ∧
     owned.mooringsUsed x.sector < bits (owned.quotaReg x.sector) 31 21 ∧ owned.moored x = true ∧
     owned.moorings.find? (fun y => y.2.valid && y.2.clashes x) = none) ∧
    (sends owned (pkt 0x502 1 [0])).cmdWords p0 0x502 = some (pkt 0x502 1 [0]) ∧
    (({ owned with moorings := [(0, { w0 := 8, w1 := 0, w2 := BitVec.ofNat 64 base, w3 := 512 })] } : State).mooring 0).valid = true := by decide +kernel

/-! ## Sectors, models, sessions, phases, tests, notices (R334 to R351, R359, R394, R409) -/

/-- SECTOR_CREATE of detached sector 1 with cluster 1, PD core 0 and PKEY 1, and of the ACTIVE sector 0. -/
def createWords (n : Nat) : List Word :=
  pkt 0x020 8 ([BitVec.ofNat 64 (n + 256), BitVec.ofNat 64 (128 + 6 * 2 ^ 14 + 6 * 2 ^ 19 + 2 ^ 31), 0, 0, 0, 0, 2, 0, 1])
def booted : State := { owned with boot := { owned.boot with phase := 7 } }
/-- A packet free to act on management queue 1. -/
def p1 : PktRef := { q := .mq 1, ix := 0 }
def asks (s : State) (ws : List Word) : State := { s with mqs := [(1, { dq with flights := [flightOf ws .dispatched .none] })] }
theorem wit_SectorLife_create : (asks booted (createWords 1)).cmdWords p1 0x020 = some (createWords 1) ∧ (asks booted (createWords 1)).boot.phase = 7 ∧
    ((asks booted (createWords 1)).sector 1).st ≠ 4 ∧ ((asks booted (createWords 1)).sector 1).st ≠ 5 ∧
    (asks booted (createWords 1)).createFault 1 (createWords 1) = none ∧ (asks booted (createWords 0)).createFault 0 (createWords 0) = some (0x0202, 0) := by
  decide +kernel
/-- TEARDOWN of a FREE sector and of an ACTIVE one; assignments of PD core 0, which is free or another sector's, of cluster 0 to its own sector, and of cluster 1. -/
theorem wit_SectorLife_others : (asks booted (pkt 0x021 1 [1])).cmdWords p1 0x021 = some (pkt 0x021 1 [1]) ∧ ((asks booted (pkt 0x021 1 [1])).sector 1).st = 0 ∧
    ((asks booted (pkt 0x021 1 [0])).sector 0).st = 2 ∧
    (asks booted (pkt 0x022 2 [256, 1])).cmdWords p1 0x022 = some (pkt 0x022 2 [256, 1]) ∧ bit (wordAt (pkt 0x022 2 [256, 1]) 2) 4 = false ∧
    (asks booted (pkt 0x022 2 [0, 2])).releasing (assignMask (pkt 0x022 2 [0, 2]) 0) = false ∧ bits (wordAt (pkt 0x022 2 [256, 1]) 2) 10 8 < 6 ∧
    (assignMask (pkt 0x022 2 [256, 1]) 1).find? (fun i => (asks booted (pkt 0x022 2 [256, 1])).taken 1 i 0) = none ∧
    (asks booted (pkt 0x022 2 [0, 1])).releasing (assignMask (pkt 0x022 2 [0, 1]) 0) = false ∧
    (asks booted (pkt 0x022 2 [0, 1])).settled (assignMask (pkt 0x022 2 [0, 1]) 0) 0 = true ∧
    (asks booted (pkt 0x022 2 [0, 2])).settled (assignMask (pkt 0x022 2 [0, 2]) 0) 0 = false ∧
    (let s : State := { asks booted (pkt 0x022 2 [256, 1]) with pdCores := [(0, { PdCore.reset with owner := some 1 })] }
     (assignMask (pkt 0x022 2 [256, 1]) 1).find? (fun i => s.taken 1 i 0) = some 0) ∧
    (let s : State := { asks booted (pkt 0x022 2 [256, 1]) with sectors := [(0, { Sector.reset with st := 2, attached := true })] }
     (s.sector 0).st = 2 ∧ bits (wordAt (pkt 0x022 2 [256, 1]) 2) 10 8 = 1 ∧ (s.sector 0).attached = true ∧ assignMask (pkt 0x022 2 [256, 1]) 1 ≠ []) := by decide +kernel
/-- A create that waits for its instant, at that instant. -/
def creating : State := { booted with
  mqs := [(1, { dq with flights := [flightOf (createWords 1) .running (.instant 0)] })]
  sectors := [(0, { Sector.reset with st := 2 }), (1, { Sector.reset with st := 1, firstQueue := 128, pkey := 1, words := createWords 1 })] }
theorem wit_ActivationGrants : creating.flight p1 = some (flightOf (createWords 1) .running (.instant 0)) ∧ (0#64).toNat ≤ creating.bt ∧
    pktOpc (createWords 1) = 0x020 ∧ (creating.sector 1).reserved = [] ∧ (creating.sector 1).teardowns = [] ∧ (creating.sector 1).attached = false ∧
    (creating.sector 1).words = createWords 1 ∧ (creating.sector 1).firstQueue < 16384 ∧ bits (wordAt (createWords 1) 2) 3 0 = 1 := by decide +kernel
/-- The activation up to its measurement. -/
def activated : Mod :=
  let m := [0, 1, 2, 3, 4, 5].foldl (fun (m : Mod) (k : Nat) => m.grantKind k 1 (createMask (createWords 1) k)) creating.toMod
  let m := m.setRegs edSites (0x100 + 1 * 8) 0 (pack [(0, 16, 1), (16, 1, 1)])
  let m := m.setRegs edSites (0x200 + 1 * 8) 0 (pack [(0, 12, bits (wordAt (createWords 1) 2) 35 24)])
  let m := m.setRegs edSites (0x300 + 1 * 8) 0 (wordAt (createWords 1) 63 &&& 0x7FF03FF#64)
  let m := m.setQueue (.csq (Fin.ofNat 16384 128)) ((m.queue (.csq (Fin.ofNat 16384 128))).configured (createWords 1) 3 true .enabled)
  let m := m.setSector 1 { m.sector 1 with reserved := [] }
  m.sectorState 1 2 0x020
theorem wit_SectorLife_instants : (((creating.activate 1).endCmd p1 0 0 0).sector 1).teardowns = [] ∧
    pktOpc (pkt 0x022 2 [256, 1]) = 0x022 ∧ pktOpc (pkt 0x701 1 []) = 0x701 := by
  refine ⟨?_, by decide, by decide⟩
  show (((activated.measure (16 + 1) (Config.digest (activated.sectorRecord 1))).endCmd p1 0 0 0).sector 1).teardowns = []
  unfold Mod.measure
  by_cases h : Table.get 0 activated.measurements (16 + 1) = Config.digest (activated.sectorRecord 1)
  · rw [if_pos h]; decide +kernel
  · rw [if_neg h]; decide +kernel
/-- A sector whose scrub is complete; deferred fills of a channel and of granules. -/
theorem wit_SectorLife_scrub : let s : State := { booted with sectors := [(2, { Sector.reset with st := 5 })], fills := [.channel 3, .granules 0 1] }
    (s.sector 2).st = 5 ∧ (s.sector 2).create = none ∧ (s.sector 2).teardowns = [] ∧ s.fills[0]? = some (.channel 3) ∧ s.fills[1]? = some (.granules 0 1) := by decide

/-- A key blob without extensions at the region's start, on a session of sector 0. -/
def blob : List Byte :=
  ([0x4C, 0x41, 0x45, 0x53, 1, 0, 0, 0] ++ [1, 0, 0, 0, 0, 0, 0, 0] ++ List.replicate 8 0 ++ [4, 0, 0, 0, 0, 0, 0, 0] ++ List.replicate 60 0 : List Byte)
def installWords : List Word := pkt 0x601 1 [BitVec.ofNat 64 (7 * 2 ^ 32), BitVec.ofNat 64 base, 92]
def installs : State := { sends owned installWords with
  dram := (List.range 92).map (fun i => (cell0 + i, blob.getD i 0)), sessions := [{ id := 7, owner := .sector 0, authed := true, link := none, ems := 5 }] }
theorem wit_ModelsAndSessions_install : installs.queueSector q0 = some 0 ∧ installs.cmdWords p0 0x601 = some installWords ∧ installs.loading 0 0 = false ∧
    installs.sessions.find? (fun x => x.id == (wordAt installWords 2).extractLsb' 32 32) = some { id := 7, owner := .sector 0, authed := true, link := none, ems := 5 } ∧
    installs.toMod.holdsOff (some 0) false base 92 = false ∧
    bits (wordAt (pkt 0x601 1 []) 3) 55 0 = 0 ∧ (sends owned (pkt 0x601 1 [])).cmdWords p0 0x601 = some (pkt 0x601 1 []) ∧
    (match (installs.touchRead (some 0) base 92).readPhys (some 0) base 92 with | .ok bs => !installs.blobFault bs | .error _ => false) = true := by decide +kernel
/-- The same blob with another tag. -/
def opens (t : List Byte) : State := { sends owned installWords with
  dram := (List.range 92).map (fun i => (cell0 + i, (blob.take 76 ++ t).getD i 0)) }
set_option maxRecDepth 100000 in
theorem opens_reads (t : List Byte) (h : t.length = 16) : (opens t).toMod.readPhys (some 0) base 92 = .ok (blob.take 76 ++ t) := by
  match t, h with
  | [a, b, c, d, e, f, g, i, j, k, l, m, n, o, p, q], _ => cbv
/-- The tag that the blob's key gives it under a session's secret, and that tag with every byte changed. -/
def blobTag (ems : Nat) : List Byte :=
  (List.range 16).map (fun k => Config.gcm (wrapKey ems 0) (List.replicate 12 0) (blob.take 44) (gcmPlain (wrapKey ems 0) (List.replicate 12 0) (List.replicate 32 0)) (32 + k))
theorem unwrap_tag (ems : Nat) (t : List Byte) (h : t.length = 16) : (unwrapBlob ems 0 (blob.take 76 ++ t)).2 = (t == blobTag ems) := by
  match t, h with
  | [a, b, c, d, e, f, g, i, j, k, l, m, n, o, p, q], _ => rfl
theorem wit_ModelsAndSessions_tags (ems : Nat) : (unwrapBlob ems 0 (blob.take 76 ++ blobTag ems)).2 = true ∧
    (unwrapBlob ems 0 (blob.take 76 ++ (blobTag ems).map (· + 1))).2 = false ∧ (blobTag ems).length = 16 ∧ ((blobTag ems).map (· + 1)).length = 16 := by
  have l : (blobTag ems).length = 16 := by simp [blobTag]
  have l' : ((blobTag ems).map (· + 1)).length = 16 := by simp [l]
  refine ⟨?_, ?_, l, l'⟩
  · rw [unwrap_tag _ _ l]; simp
  · rw [unwrap_tag _ _ l', beq_eq_false_iff_ne]
    intro h
    have := congrArg (fun x => x[0]?) h
    simp only [List.getElem?_map] at this
    rw [List.getElem?_eq_getElem (by omega)] at this
    simp at this
/-- A region of 16 MiB, and a model of one chunk whose load is the whole second half of it. -/
def wide : State := { owned with regions := [(0, { Region.reset with w0 := BitVec.ofNat 64 (3 + 6 * 2 ^ 32), w1 := 0x80000000000, w2 := 8 })] }
def model1 : Model := { modelId := 1, maxChunks := 4, key := List.replicate 32 0, session := 7 }
def loadWords : List Word := pkt 0x602 1 [0, BitVec.ofNat 64 base, BitVec.ofNat 64 (base + 0x800000), 1]
theorem wit_ModelsAndSessions_load : let s : State := { sends wide loadWords with models := [(0, some model1)] }
    s.cmdWords p0 0x602 = some loadWords ∧ Table.get none s.models 0 = some model1 ∧ bits (wordAt loadWords 2) 63 32 + bits (wordAt loadWords 5) 31 0 ≤ model1.maxChunks ∧
    s.loadFits 0 (bits (wordAt loadWords 4) 55 0 + bits (wordAt loadWords 2) 63 32 * 4194304)
      (bits (wordAt loadWords 4) 55 0 + (bits (wordAt loadWords 2) 63 32 + bits (wordAt loadWords 5) 31 0) * 4194304) (s.regions.length + 1) = true := by decide +kernel
theorem wit_Sessions : spdmOwner (.doe 0 0) = some .mgmt ∧ spdmOwner (.doe 0 1) = some (.sector 0) ∧ owned.sessions.length < 32 ∧ (∀ x ∈ owned.sessions, x.id ≠ 7) ∧
    owned.measurement 2 none = some 0 := by decide +kernel
/-- A session of a fabric link in place of the port's one, while another port's stays. -/
theorem wit_Sessions_link : let s : State := { owned with sessions := [{ id := 7, owner := .mgmt, authed := true, link := some 3 }, { id := 8, owner := .mgmt, authed := true, link := some 4 }] }
    (∀ x ∈ s.sessions, x.link ≠ some 3 → x.id ≠ 7) ∧ s.responderSessions.length = 0 := by decide
theorem wit_PhasesAndTests : (asks booted (pkt 0x700 1 [0x80])).cmdWords p1 0x700 = some (pkt 0x700 1 [0x80]) ∧ (asks booted (pkt 0x700 1 [0x80])).issuer p1.q = some .mgmt ∧
    (asks booted (pkt 0x701 1 [])).cmdWords p1 0x701 = some (pkt 0x701 1 []) ∧ (asks booted (pkt 0x800 1 [0, 127])).cmdWords p1 0x800 = some (pkt 0x800 1 [0, 127]) ∧
    bits (wordAt (pkt 0x800 1 [0, 127]) 2) 3 0 = 0 ∧ (asks booted (pkt 0x800 1 [0, 127])).clusterQueues 127 = [] ∧
    (asks booted (pkt 0x800 1 [0, 127])).underTest 0 127 = false := by decide +kernel
def testing : State := { booted with mqs := [(1, { dq with flights := [flightOf (pkt 0x800 1 [0, 127]) .running (.busy 6 127)] })] }
theorem wit_PhasesAndTests_done : testing.flight p1 = some (flightOf (pkt 0x800 1 [0, 127]) .running (.busy 6 127)) ∧ 127 < 2 ^ 32 := by decide +kernel
theorem wit_PhasesAndTests_mapOut : (asks booted (pkt 0x801 1 [0, 127])).cmdWords p1 0x801 = some (pkt 0x801 1 [0, 127]) ∧
    ((asks booted (pkt 0x801 1 [0, 127])).cluster 127).sector = none ∧ (asks booted (pkt 0x801 1 [0, 127])).underTest 0 127 = false ∧
    (asks booted (pkt 0x801 1 [0, 127])).claimed 0 127 = false ∧
    (let s : State := { asks booted (pkt 0x801 1 [1, 79]) with sets := [(0, opened)] }
     s.cmdWords p1 0x801 = some (pkt 0x801 1 [1, 79]) ∧ bits (wordAt (pkt 0x801 1 [1, 79]) 2) 3 0 = 1 ∧ s.stackFitted 79 = true ∧
     (Mod.set s.toMod 0).st = .opened ∧ (Mod.set s.toMod 0).entries.length < 4096) := by decide +kernel
/-- A notice whose marks hold the level between them, at both ends. -/
def noticeWords : List Word := pkt 0x802 1 [0, BitVec.ofNat 64 (5 + 5 * 2 ^ 32)]
theorem wit_Notices_arm : let s : State := { asks booted noticeWords with levels := [(0, 5)] }
    s.cmdWords p1 0x802 = some noticeWords ∧ s.issuer p1.q = some .mgmt ∧ s.noticeOf .mgmt 0 = none ∧ bit (wordAt noticeWords 2) 12 = false ∧
    bit (wordAt noticeWords 2) 13 = false ∧ s.notices = [] ∧ bits (wordAt noticeWords 3) 63 32 ≤ 5 ∧ 5 ≤ bits (wordAt noticeWords 3) 31 0 := by decide +kernel
def arm0 (a : Bool) : Mark := { armed := a, fired := false, mark := 5, crossings := 0, extreme := 0, bt := 0 }
theorem wit_Notices_fire : let x : Notice := { source := 0, owner := .mgmt, current := 5, up := arm0 true, down := arm0 false }
    let s : State := { booted with notices := [(0, some x)] }
    s.notices = [(0, some x)] ∧ x.owner = .mgmt ∧ x.up.armed = true ∧ x.up.fired = false ∧ x.down.armed = false ∧ x.down.fired = false := by decide

/-! ## Chains, plans, routing, packets, flows, bookings (R151 to R158, R239 to R265) -/

def chainArgs : ChainArgs := { desc := 0, source := 0, acc := 3, clear := false }
/-- No stage is no descriptor; one addition into the stream at 0; a stream that leaves its half. -/
def chained (n dst : Nat) : TCore :=
  { ran with vecQ := 14, chainQ := 1
             tile := { fill := .zero, cells := [(0, BitVec.ofNat 8 n), (16, BitVec.ofNat 8 dst), (17, BitVec.ofNat 8 (dst / 256)), (18, BitVec.ofNat 8 (dst / 65536))] } }
theorem wit_Chains : (∀ n ∈ [0, 1], ∀ d ∈ [0, 0x3FF800], (at0 (onto (.chain 0 chainArgs) (chained n d))).goesOn 0 (.chain 0 chainArgs)) ∧
    (chained 1 0).vecQ + (chained 1 0).chainQ < 16 ∧ (∀ n ∈ [0, 1], ∀ d ∈ [0, 0x3FF800], (chained n d).clear (chainTouch chainArgs) = true) ∧
    (chainDesc (chained 0 0).tile 0).legal chainArgs = false ∧ (chainDesc (chained 1 0x3FF800).tile 0).legal chainArgs = true ∧
    (chainDesc (chained 1 0x3FF800).tile 0).ranges chainArgs = false ∧
    (let d := chainDesc (chained 1 0).tile 0
     d.legal chainArgs = true ∧ d.ranges chainArgs = true ∧ d.inFmt = 0 ∧ d.outFmt = 0 ∧ d.sr = false ∧ d.redOp = 0 ∧
     d.stages = [{ op := 0, bKind := 0, cKind := 0, b := 0, c := 0, reserved := false }]) := by
  refine ⟨fun n a d b => goes ?_, by decide +kernel⟩
  revert d; revert n; decide +kernel
/-- A plan of one WAIT_TOKEN at the region's start. -/
def planBytes : List Byte :=
  ([BitVec.ofNat 64 (0x504C414E + 2 ^ 32 + 1 * 2 ^ 40), 1, 0, 0, 0, 0, 0, 0] ++ [BitVec.ofNat 64 (4 + 2 ^ 16), 0, 0, 0] : List Word).flatMap wordBytes
def planned (e : Engine) (s : State) : State := { s with engines := [(0, e)] }
def eng : Engine := { Engine.reset with sector := some 0, st := .running, steps := [[BitVec.ofNat 64 (4 + 2 ^ 16), 0, 0, 0], [0, 0, 0, 0]], stepTo := 1 }
theorem wit_PlanCommands_load : let s : State := { sends owned (pkt 0x300 1 [0, BitVec.ofNat 64 base]) with dram := (List.range 96).map (fun i => (cell0 + i, planBytes.getD i 0)) }
    let one := s.toMod.touchRead (s.queueSector q0) base 64
    s.cmdWords p0 0x300 = some (pkt 0x300 1 [0, BitVec.ofNat 64 base]) ∧ (s.engine 0).active = false ∧ (s.engine 0).queue = [] ∧
    s.toMod.holdsOff (s.queueSector q0) false base 64 = false ∧ one.holdsOff (s.queueSector q0) false (base + 64) 32 = false ∧
    (match one.readPhys (s.queueSector q0) base 64, (one.touchRead (s.queueSector q0) (base + 64) 32).readPhys (s.queueSector q0) (base + 64) 32 with
     | .ok hb, .ok sb => wordsOf 8 hb == [BitVec.ofNat 64 (0x504C414E + 2 ^ 32 + 1 * 2 ^ 40), 1, 0, 0, 0, 0, 0, 0] &&
         stepOk 0 ((stepsOf 1 (wordsOf 4 sb)).getD 0 [])
     | _, _ => false) = true := by decide +kernel
/-- PLAN_START on an engine with a plan, on a running one, and on a fenced one. -/
theorem wit_PlanCommands_start : (sends owned (pkt 0x301 1 [])).cmdWords p0 0x301 = some (pkt 0x301 1 []) ∧ bit (wordAt (pkt 0x301 1 []) 2) 8 = false ∧
    eng.active = true ∧ { eng with st := .idle }.active = false ∧ { eng with st := .idle }.steps ≠ [] ∧ { eng with st := .fenced }.st = .fenced := by
  decide +kernel
/-- A step of each operation under way on engine 0, with the counters that it needs and without. -/
def stepping (w : List Word) (e : Engine) : State := planned { e with steps := [w, [0, 0, 0, 0]] } owned
theorem wit_PlanSteps : (∀ x ∈ [([BitVec.ofNat 64 (2 + 8 * 2 ^ 32), 0, 0, 0], 2), ([BitVec.ofNat 64 (4 + 2 ^ 16), 0, 0, 0], 4), ([6, 0, 0, 0], 6),
      ([BitVec.ofNat 64 (7 + 2 ^ 32), BitVec.ofNat 64 (2 ^ 32), 0, 0], 7), ([BitVec.ofNat 64 (5 + 2 ^ 16), 0, 0, 0], 5)],
      (stepping x.1 eng).working = true ∧ (stepping x.1 eng).fw.edgePause = false ∧ ((stepping x.1 eng).engine 0).st = .running ∧
      ((stepping x.1 eng).engine 0).failing = false ∧ ((stepping x.1 eng).engine 0).steps[((stepping x.1 eng).engine 0).step]? = some x.1 ∧
      bits (wordAt x.1 0) 3 0 = x.2 ∧ bit (wordAt x.1 0) 6 = false ∧ ((stepping x.1 eng).engine 0).step + 1 < ((stepping x.1 eng).engine 0).steps.length) ∧
    bits (wordAt [BitVec.ofNat 64 (2 + 8 * 2 ^ 32), 0, 0, 0] 0) 63 32 ≤ Table.get 0 { eng with arrive := [(0, 8)] }.arrive 0 ∧
    Table.get 0 { eng with arrive := [(0, 7)] }.arrive 0 < 8 ∧ 1 ≤ Table.get 0 { eng with tokens := [(0, 1)] }.tokens 0 ∧ Table.get 0 eng.tokens 0 < 1 ∧
    (wordAt [6, 0, 0, 0] 3).toNat ≤ owned.bt ∧ owned.bt < (wordAt [6, 0, 0, 1] 3).toNat ∧
    bits (wordAt [BitVec.ofNat 64 (7 + 2 ^ 32), BitVec.ofNat 64 (2 ^ 32), 0, 0] 1) 63 32 ≠ 0 := by decide +kernel
def transfer1 : Transfer :=
  { num := 1, step := 0, reduce := false, redOp := 0, redFmt := 0, laddr := base, raddr := base, len := 128, chan := 0, dst := 5, dstAgent := 0
    booked := false, bookId := 0, sent := 1 }
theorem wit_PlanSteps_others : ((planned { eng with transfers := [transfer1] } owned).engine 0).active = true ∧
    ((planned { eng with transfers := [transfer1] } owned).engine 0).step = (0 : Fin 256) ∧ ((planned eng owned).engine 0).st ≠ .fenced ∧
    ((planned { eng with st := .fenced } owned).engine 0).st = .fenced := by decide
/-- A SEND of one line of the region, and one of no byte; a transfer whose one packet is acknowledged. -/
def sendWords (op len : Nat) : List Word := [BitVec.ofNat 64 (op + len * 2 ^ 32), BitVec.ofNat 64 base, 5, BitVec.ofNat 64 base]
theorem uninjected_of (m : Mod) (h : ∀ p ∈ m.controllers, p.2.inject = []) : m.uninjected := by
  intro k
  have g : ∀ t : Table Controller, (∀ p ∈ t, p.2.inject = []) → (Table.get Controller.reset t k).inject = [] := by
    intro t
    induction t with
    | nil => intro _; rfl
    | cons p t ih =>
      intro h
      obtain ⟨i, c⟩ := p
      unfold Table.get Table.find
      split
      · exact h (i, c) (by simp)
      · exact ih (fun q hq => h q (by simp [hq]))
  exact g _ h
theorem wit_PlanTransfers : (∀ op ∈ [1, 3], (stepping (sendWords op 128) eng).stepping 0 op (sendWords op 128)) ∧ (stepping (sendWords 1 128) eng).uninjected ∧
    bit (wordAt (sendWords 1 128) 0) 4 = false ∧ bit (wordAt (sendWords 1 128) 0) 5 = false ∧ bit (wordAt (sendWords 1 128) 0) 7 = false ∧ eng.transfers = [] ∧
    bits (wordAt (sendWords 1 0) 0) 63 32 = 0 ∧ ((stepping (sendWords 1 128) eng).txFlow 0 5 0).unacked.length < 256 ∧
    (match (stepping (sendWords 1 128) eng).readPhys (some 0) base 128 with | .ok _ => true | .error _ => false) = true ∧
    transfer1.sent = transfer1.total ∧ ((planned { eng with transfers := [transfer1] } owned).txFlow 0 5 0).unacked = [] := by
  refine ⟨?_, uninjected_of _ (by decide +kernel), by decide +kernel⟩
  unfold Mod.stepping
  decide +kernel

/-- A packet of 128 bytes from node 5 to node 9, agent 0, as ED 0 receives it from a port; node 9 is the module's. -/
def tpkt (dst hops kind seq : Nat) : TPkt := mkPkt dst 5 hops true kind seq 0 1 0 base 0 0 0 0 0 (List.replicate 128 1)
def entering (p : Option PortId) (t : TPkt) : Entering := { ed := 0, port := p, vc := 3, sector := none, pkt := t }
def node9 : State := { owned with
  regs := [(edSite 0 * 2 ^ 32, BitVec.ofNat 64 (9 + 2 ^ 24)), (edSite 0 * 2 ^ 32 + 0x100, BitVec.ofNat 64 (1 + 2 ^ 16))]
  memberRoute := [(7, BitVec.ofNat 64 (3 + 2 ^ 28))]
  engines := [(0, eng)] }
def routed (p : Option PortId) (t : TPkt) (active : Bool) : State := { node9 with
  inbox := [entering p t], ports := if active then [(3, { Port.reset with st := .active })] else [] }
theorem wit_Routing : (routed (some 0) (tpkt 9 1 0 0) true).nodeId 0 = some 9 ∧ (tpkt 9 1 0 0).malformed = false ∧ (tpkt 9 1 0 0).dst = 9 ∧
    (tpkt 7 0 0 0).dst ≠ 9 ∧ (tpkt 7 0 0 0).hops = 0 ∧ (tpkt 7 1 0 0).hops ≠ 0 ∧ node9.route 9 6 = none ∧ node9.route 9 7 = some (BitVec.ofNat 64 (3 + 2 ^ 28)) ∧
    (routed none (tpkt 7 1 0 0) true).holdoff = false ∧ (entering none (tpkt 7 1 0 0)).vc ≠ 2 ∧
    (routePorts (BitVec.ofNat 64 (3 + 2 ^ 28))).filter (routed none (tpkt 7 1 0 0) true).portActive = [3] ∧
    (routePorts (BitVec.ofNat 64 (3 + 2 ^ 28))).filter (routed none (tpkt 7 1 0 0) false).portActive = [] ∧
    bits (BitVec.ofNat 64 (3 + 2 ^ 28)) 27 26 = 0 ∧ (routed none (tpkt 7 1 0 0) true).routeWait = [] ∧ (entering none (tpkt 7 1 0 0)).sector = none ∧
    (let s := { routed none (tpkt 7 1 0 0) true with inbox := [], routeWait := [entering (some 0) (tpkt 7 1 0 0)] }
     s.routeWait = [entering (some 0) (tpkt 7 1 0 0)] ∧ s.nodeId 0 = some 9 ∧ s.route 9 7 = some (BitVec.ofNat 64 (3 + 2 ^ 28)) ∧
     (routePorts (BitVec.ofNat 64 (3 + 2 ^ 28))).filter s.portActive ≠ []) := by decide +kernel
/-- A packet that has arrived, of each kind, with the right PKEY and with another; at a fenced engine. -/
def arrived (kind pkey : Nat) (e : Engine) : State := { node9 with
  engines := [(0, e)], arrived := [entering (some 0) (mkPkt 9 5 1 true kind 0 0 pkey 0 base 0 0 0 0 0 (List.replicate 128 1))] }
theorem wit_PacketsReceived : (arrived 0 1 eng).working = true ∧ ((arrived 0 1 eng).engine 0).st ≠ .fenced ∧ ((arrived 0 1 eng).engine 0).sector = some 0 ∧
    bit ((arrived 0 1 eng).pkeyReg 0 0) 16 = true ∧ (arrived 0 1 eng).rxFlow 5 0 0 = none ∧
    (∀ e ∈ (arrived 0 1 eng).arrived, e.ed = 0 ∧ e.pkt.dstAgent < 64 ∧ e.pkt.kind = 0 ∧ e.pkt.last = true ∧ bits ((arrived 0 1 eng).pkeyReg 0 0) 15 0 = e.pkt.pkey) ∧
    (∀ e ∈ (arrived 1 2 eng).arrived, e.pkt.kind = 1 ∧ bits ((arrived 1 2 eng).pkeyReg 0 0) 15 0 ≠ e.pkt.pkey) ∧
    (∀ k ∈ [0, 1, 2], ∀ e ∈ (arrived k 1 eng).arrived, (arrived k 1 eng).payloadWaits e = false) ∧
    (∀ e ∈ (arrived 2 1 eng).arrived, e.pkt.kind = 2 ∧ bit e.pkt.word 63 = false) ∧ ((arrived 0 1 { eng with st := .fenced }).engine 0).st = .fenced ∧
    (match (arrived 0 1 eng).writePhys (some 0) base (List.replicate 128 1) with | .ok _ => true | .error _ => false) = true ∧
    (match (arrived 1 1 eng).reduceLines 0 .sum true base 1 (List.replicate 128 1) with | .ok _ => true | .error _ => false) = true := by decide +kernel
/-- A flow with one unacknowledged packet of transfer 1, answered by an ACK and by a NACK; a receive flow that owes an ACK. -/
def unacked1 : TxPkt := { seq := 0, transfer := 1, index := 0, pkt := tpkt 5 1 0 0 }
def flowing (kind : Nat) (ts : List Transfer) : State := { node9 with
  engines := [(0, { eng with transfers := ts })]
  txFlows := [{ agent := 0, src := 9, dst := 5, dstAgent := 0, gen := 0, next := 1, unacked := [unacked1], backlog := [] }]
  rxFlows := [{ src := 5, srcAgent := 0, dstAgent := 0, gen := 0, base := 0, got := [], since := 1, ed := 0 }]
  arrived := [entering (some 0) (mkPkt 9 5 1 true kind 0 0 0 0 0 0 0 0 0 0 [])] }
theorem wit_FlowsAnswered : (∀ kind ∈ [3, 4], ∀ e ∈ (flowing kind [transfer1]).arrived, e.ed = 0 ∧ e.pkt.dstAgent = 0 ∧
      e.pkt.gen = ((flowing kind []).engine 0).gen ∧ e.pkt.src = 5 ∧ e.pkt.srcAgent = 0 ∧ e.pkt.kind = kind ∧ e.pkt.ackSeq = unacked1.seq) ∧
    ((flowing 3 []).engine 0).transfers = [] ∧
    ((flowing 4 [transfer1]).txFlow 0 5 0).unacked.find? (fun y => y.seq == unacked1.seq) = some unacked1 ∧ unacked1.transfer ≠ 0 ∧
    ((flowing 4 [transfer1]).engine 0).transfers.find? (fun y => y.num == unacked1.transfer) = some transfer1 ∧ ((flowing 4 [transfer1]).engine 0).active = true ∧
    ((flowing 4 [transfer1]).engine 0).failing = false ∧
    (match (flowing 4 [transfer1]).readPhys (some 0) (transfer1.laddr + 4096 * unacked1.index) (min 4096 (transfer1.len - 4096 * unacked1.index)) with
     | .ok _ => true
     | .error _ => false) = true ∧
    ({ eng with failing := true } : Engine).failing = true ∧ ({ eng with st := .faulted } : Engine).st = .faulted ∧ (flowing 4 [transfer1]).working = true ∧
    ((flowing 3 []).rxFlow 5 0 0).map (fun f => decide (0 < f.since)) = some true := by decide +kernel
/-- A BOOK of port 3 with room and without it, too early and with an unaligned start; an UNBOOK of it; its frame. -/
def bookWords (vol start : Nat) : List Word := pkt 0x302 1 [BitVec.ofNat 64 (1 + 7 * 2 ^ 24), 1, BitVec.ofNat 64 vol, BitVec.ofNat 64 start]
def booking1 (pk : Option PktRef) : Booking :=
  { port := 3, sector := 0, bookId := 1, volume := 8, mask := 1, start := 65536, admitBt := 0, served := 0, used := 0, usedAt := 0, dst := 7, pkt := pk, unbook := [], ending := none }
def booker (ws : List Word) (books : Table (Option Booking)) : State := { sends (routed none (tpkt 7 1 0 0) true) ws with
  eds := [(0, { EdState.reset with slotCap := [(3 * 64, 8), (3, 8)], books := books })]
  beacon := { State.reset.beacon with st := .masterLocked } }
theorem wit_Bookings : let s := booker (bookWords 8 65536) []
    s.cmdWords p0 0x302 = some (bookWords 8 65536) ∧ s.beacon.locked = true ∧ s.bt + 65536 ≤ 65536 ∧ s.nodeId 0 = some 9 ∧ s.portActive 3 = true ∧
    s.route 9 (bits (wordAt (bookWords 8 65536) 2) 47 24) = some (BitVec.ofNat 64 (3 + 2 ^ 28)) ∧ s.bookings = [] ∧
    Table.get none (s.ed 0).books 0 = none ∧ Table.get 0 (s.ed 0).slotCap 3 = 8 ∧ slotUse ((s.ed 0).onPort 3) 0 + 8 ≤ 8 ∧ 8 < slotUse ((s.ed 0).onPort 3) 0 + 9 ∧
    (owned.beacon.locked = false) ∧ ({ s with ports := [] } : State).portActive 3 = false ∧
    (booker (pkt 0x303 1 [1]) [(0, some (booking1 none))]).cmdWords p0 0x303 = some (pkt 0x303 1 [1]) ∧
    (booker (pkt 0x303 1 [1]) [(0, some (booking1 none))]).bookings = [(0, 0, booking1 none)] ∧
    (booker (pkt 0x303 1 [1]) [(0, some (booking1 none))]).issuer q0 = some (.sector 0) := by decide +kernel
theorem wit_Bookings_frame : let s : State := { booker [] [(0, some (booking1 none))] with beacon := { State.reset.beacon with st := .locked, bt := 65537 } }
    s.bookings = [(0, 0, booking1 none)] ∧ Table.get none (s.ed 0).books 0 = some (booking1 none) ∧ s.beacon.st = .locked ∧ (booking1 none).start < s.bt ∧
    (∀ k < 32, (s.port k).capChanged = false) ∧ s.nodeId 0 = some 9 ∧ s.route 9 (booking1 none).dst = some (BitVec.ofNat 64 (3 + 2 ^ 28)) := by decide +kernel

/-! ## The beacon, power, restarts and the phases of a start (R32 to R44, R358 to R377, R432 to R446) -/

def flit1 : BeaconFlit := { bt := 2048, masterId := 7, idHash := 0, hop := 0x3FF, traceable := true }
/-- The beacon unit in a state, with one flit heard on port 0, which alone is trained. -/
def heard (st : BcnSt) (err : Int) (f : Beacon → Beacon) : State := { owned with
  ports := [(0, { Port.reset with st := .active })]
  beacon := f { State.reset.beacon with st := st, events := [.flit 0 flit1 err] } }
theorem trained_one (st : BcnSt) (err : Int) (f : Beacon → Beacon) (q : Nat) (h : q ≠ 0) : (heard st err f).trained q = false := by
  simp [Mod.trained, Mod.port, heard, Table.get, Table.find, Ne.symm h, Port.reset]
/-- Each lock state, at the boundaries of 20, 100 and 250 ns, with the 63rd good flit and the third bad one before. -/
theorem wit_BeaconTicks : (∀ st ∈ [BcnSt.acquiring, .locked, .holdover, .free], (heard st 20 id).beacon.stepWaiting = none ∧
      (heard st 20 id).beacon.events = [.flit 0 flit1 20] ∧ (heard st 20 id).beacon.isMaster = false ∧ (heard st 20 id).trained 0 = true ∧
      ((heard st 20 id).port 0).ethernet = false ∧ (heard st 20 id).beacon.st = st) ∧ (∀ st err f q, q ≠ 0 → (heard st err f).trained q = false) ∧
    (heard .acquiring 20 (fun b => { b with acquired := true, good := 63 })).beacon.acquired = true ∧ (heard .acquiring 20 id).beacon.acquired = false ∧
    (heard .locked 101 (fun b => { b with bad := 3 })).beacon.bad = 3 ∧ (heard .holdover 250 (fun b => { b with errBound := 250 })).beacon.growing = false ∧
    (∀ k < 4, (Mod.set (heard .holdover 250 id).toMod k).st ≠ .armed) ∧ owned.beacon.events = [] :=
  ⟨by decide +kernel, trained_one, by decide +kernel, by decide +kernel, by decide +kernel, by decide +kernel, by decide +kernel, by decide +kernel⟩
/-- The 64th good flit locks the unit. -/
theorem test_beaconTick : (match exec .beaconTick (heard .acquiring 20 (fun b => { b with acquired := true, good := 63 })) with
    | .next s => decide (s.beacon.st = .locked) && decide (s.beacon.bt = 1024)
    | _ => false) = true := by decide +kernel
theorem wit_BeaconEvents : (heard .locked 0 id).trained 0 = true ∧ owned.trained 0 = false ∧ owned.beacon.quiet < 8 ∧
    8 ≤ (heard .locked 0 (fun b => { b with quiet := 8 })).beacon.quiet ∧ (heard .locked 0 id).beacon.st = .locked ∧ (heard .holdover 0 id).beacon.st = .holdover ∧
    250 < (heard .holdover 0 (fun b => { b with errBound := 251 })).beacon.errBound ∧ (heard .free 0 (fun b => { b with source := 1 })).beacon.source = 1 ∧
    (heard .free 0 (fun b => { b with source := 2 })).beacon.source = 2 ∧ owned.beacon.source ≠ 1 ∧ owned.beacon.source ≠ 2 ∧ (2#2) ≠ 3 ∧
    (heard .free 0 (fun b => { b with conflict := true })).beacon.conflict = true := by decide +kernel

/-- The block in a power state. -/
def powered (st : PwrSt) : State := { owned with power := { owned.power with st := st } }
/-- A module that would draw 5 W and TD 0 as much again, at every point. -/
def sample0 : PowerSample := { inputW := 10, rest := 5000, temps := [], dies := [{ site := 0, draw := [5000] }] }
theorem wit_PowerTicks : (∀ st ∈ [PwrSt.run, .hold, .holdEntry], (powered st).power.st = st ∧ (powered st).power.member = 0) ∧ (powered .run).power.forced = 0 ∧
    (∀ n < 32, sample0.total n ≤ (powered .run).capDraw) ∧ (∀ y ∈ sample0.dies, ∀ n < 32, y.at n ≤ dieDrawLimit y.site) ∧ sample0.demand = 10000 ∧
    sample0.demand ≤ ({ powered .run with power := { (powered .run).power with allow := 10000 } } : State).power.allow ∧ (powered .run).power.allow < sample0.demand ∧
    sample0.temps = [] ∧ (∀ site < 25, ((powered .run).die site).tj ≤ (powered .run).tjLimit) ∧ Table.rising (powered .run).dies = true ∧
    ((powered .run).cluster (8 * (0 : Fin 16).val + (0 : Fin 8).val)).sector = some 0 ∧ (powered .run).clusterPhases 0 = [] := by decide +kernel
/-- A member of group 5, with a vote for tick 1 of the ceiling 3. -/
def voteWords : List Word := [3, BitVec.ofNat 64 (5 + 3 * 2 ^ 16 + 7 * 2 ^ 32), 1024, 9]
def member (f : Power → Power) (bt : Nat) : State := { node9 with
  regs := [(kdSite * 2 ^ 32 + 0x60020, BitVec.ofNat 64 (5 + 2 ^ 16 + 20 * 2 ^ 32 + 2 ^ 40))]
  power := f { owned.power with member := 1, ceiling := 3 }
  beacon := { State.reset.beacon with st := .masterLocked, bt := BitVec.ofNat 64 bt }
  arrived := [entering (some 0) (mkPkt 9 5 1 true 5 0 0 0 0 0 0 0 0 0 0 (voteWords.flatMap wordBytes))] }
def vote1 : Vote := { tick := 1, ceiling := 3, result := 0, adopt := false }
theorem wit_IsophaseVotes : (member id 0).power.member = 1 ∧ (member id 0).beacon.takesPart = true ∧ (member id 0).isoGroup = 5 ∧
    (∀ e ∈ (member id 0).arrived, e.pkt.kind = 5 ∧ e.pkt.payload.length = 32 ∧ bits (wordAt (wordsOf 4 e.pkt.payload) 0) 7 0 = 3 ∧
      bits (wordAt (wordsOf 4 e.pkt.payload) 1) 15 0 = 5) ∧
    (9, 7) ∈ (member (fun p => { p with seen := [(9, 7)] }) 0).power.seen ∧ (9, 7) ∉ (member id 0).power.seen ∧
    (member (fun p => { p with votes := [vote1] }) 1024).power.votes = [vote1] ∧ vote1.tick ≤ (member (fun p => { p with votes := [vote1] }) 1024).tick ∧
    (member (fun p => { p with votes := [vote1] }) 0).tick < vote1.tick ∧ (member id 0).power.blocked (member id 0).tick = false ∧
    (member id 0).power.ceiling ≤ (member id 0).groupMax ∧
    (member (fun p => { p with votes := [vote1] }) 1024).power.blocked (member (fun p => { p with votes := [vote1] }) 1024).tick = true := by decide +kernel
theorem wit_AlertsAndDroop : (powered .run).power.st = .run ∧ (powered .run).power.forced.getLsbD 15 = false ∧ (powered .hold).power.st = .hold ∧
    ({ (powered .run).power with asserted := 1 }.asserted.getLsbD 0 = true) ∧ (powered .run).power.asserted.getLsbD 0 = false ∧ (∃ k < 16, tdSite k = (0 : Site).val) ∧
    (∃ k < 4, pdSite k = (6 : Site).val) := by decide +kernel
/-- Each state, with its rails up or not, something pending or not, and the start before and after phase 5. -/
theorem wit_PowerStates : (∀ st ∈ [PwrSt.poweringUp, .run, .poweringDown, .holdEntry, .hold, .resuming, .standby], (powered st).power.st = st ∧
      (powered st).power.pending = none ∧ (powered st).boot.request = none ∧ (powered st).boot.warnLow = false ∧ (powered st).boot.parked = false ∧
      Table.rising (powered st).controllers = true) ∧
    ({ (powered .run).boot with railsGood := 0xFFFF }).railsGood = 0xFFFF ∧ (powered .run).boot.railsGood ≠ 0xFFFF ∧ (powered .run).boot.phase < 5 ∧
    5 ≤ ({ (powered .run).boot with phase := 5 }).phase ∧ ({ (powered .run).power with paused := true }).paused = true ∧ (powered .resuming).power.laterForced = 0 ∧
    (∀ e < 64, ((powered .resuming).engine e).active = false) ∧ (powered .standby).boot.phase = 0 ∧ ({ (powered .standby).boot with phase := 1 }).phase ≠ 0 ∧
    ({ powered .standby with tap := { (powered .standby).tap with ir := 2 } } : State).onRefused = false ∧
    ({ powered .standby with power := { (powered .standby).power with thermtrip := true } } : State).onRefused = true := by decide +kernel
def bootIn (st : PwrSt) (f : Boot → Boot) : State := { powered st with boot := f (powered st).boot }
theorem wit_RestartsAndPins : (bootIn .run (fun b => { b with lost := true })).boot.lost = true ∧ (bootIn .run id).boot.count = 0 ∧
    (bootIn .run (fun b => { b with count := 1 })).boot.count ≠ 0 ∧ (bootIn .run (fun b => { b with modResetLow := true })).boot.modResetLong = false ∧
    5 ≤ (bootIn .run (fun b => { b with modResetLow := true, phase := 5 })).boot.phase ∧
    (bootIn .run (fun b => { b with modResetLow := true, modResetLong := true })).boot.modResetLong = true ∧ ((bootIn .run id).queue (.mq 0)).st = .free ∧
    ((bootIn .run id).queue (.mq 0)).held = [] ∧ (bootIn .run id).boot.request = none ∧ (bootIn .run (fun b => { b with kind := 2, phase := 6 })).boot.phase < 7 ∧
    (bootIn .run (fun b => { b with request := some (true, 4) })).boot.request = some (true, 4) ∧
    (bootIn .hold (fun b => { b with request := some (false, 4) })).power.st = .hold := by decide +kernel
def report0 : BootReport :=
  { images := [], level := 0, noMgmt := false, noFab := false, noPcie := false, lanes := [], channels := [], cores := [], failed := false, untrained := [], hdm := [] }
/-- A sound image of a component of this part, and one of another component. -/
def img (component : Nat) : ImageReport :=
  let id := Part.reset.word
  { magic := 0x4B57494D, hdrVersion := 1, component := BitVec.ofNat 8 component, svn := 1, version := 1, member := BitVec.ofNat 8 (bits id 7 0)
    archGen := BitVec.ofNat 8 (bits id 11 8), steppingMin := 0, rootKey := 0, reservedZero := true, bodyOk := true, keysOk := true, ecdsaOk := true
    mldsaOk := true, digest := 0 }
def startingAt (phase kind : Nat) : State := bootIn .run (fun b => { b with phase := phase, kind := kind, count := 1 })
/-- An edge of which one module is left, with both its spares used. -/
def lastLanes : State := { bootIn .run id with
  lanes := (List.range 11).map (fun k => (laneKey 39 true k, { LaneMap.reset with disabled := true })) ++
    [(laneKey 39 true 11, { fused := [0], soft := [1], disabled := false })] }
theorem wit_StartPhases : (∀ n ∈ [0, 1, 2, 3, 4, 5, 6], ∀ k ∈ [1, 2], (startingAt n k).starting = true ∧ (startingAt n k).power.st = .run ∧
      (startingAt n k).boot.phase = n ∧ (startingAt n k).boot.kind = k ∧ (startingAt n k).lanes = [] ∧ (startingAt n k).boot.patrol = [] ∧
      (startingAt n k).boot.lost = false) ∧
    (∀ c < 4, (startingAt 0 2).imageOk c (img (c + 1)) = true ∧ (startingAt 0 2).imageOk c (img 5) = false) ∧
    { report0 with images := [some (img 1)] }.images.head? = some (some (img 1)) ∧
    { report0 with images := [some (img 2), some (img 3), some (img 4)] }.images.take 3 = [some (img 2), some (img 3), some (img 4)] ∧
    report0.failed = false ∧ { report0 with failed := true }.failed = true ∧ report0.lanes = [] ∧ report0.untrained = [] ∧ report0.images = [] ∧
    (bootIn .run id).starting = false ∧
    (∀ edge ∈ [(19, 23), (20, 11)], edge.2 < (if edge.1 < 20 then 24 else 12)) ∧
    ((bootIn .run id).laneMap 39 true 11).disabled = false ∧ 65 ∉ ((bootIn .run id).laneMap 39 true 11).fused ∧ 65 ∉ ((bootIn .run id).laneMap 39 true 11).soft ∧
    (({ bootIn .run id with lanes := [(laneKey 39 true 11, { fused := [0], soft := [1], disabled := false })] } : State).laneMap 39 true 11).fused.length = 1 ∧
    lastLanes.meshEdge 39 = true ∧ (lastLanes.laneMap 39 true 11).disabled = false ∧ lastLanes.edgeDead 39 = false ∧
    (lastLanes.failLanes 39 true 11 [65] false).edgeDead 39 = true := by
  decide +kernel


/-! ## Coherence, memory (R169 to R215, R308, R383, R387 to R400) -/

def line0 : Nat := lineNum 2560 0 0
def pa0 : PAddr := BitVec.ofNat 56 base
def held (st : LineSt) : CacheLine := { st := st, data := List.replicate 128 1 }
/-- Two PD cores of sector 0, with copies of the region's first line. -/
def cohere (caches : List (Nat × CacheLine)) (f : PdCore → PdCore) : State := { owned with
  pdCores := [(0, f { PdCore.reset with owner := some 0, running := true }), (1, { PdCore.reset with owner := some 0, running := true })]
  caches := caches.map (fun p => (cacheKey p.1 line0, p.2)) }
/-- No register's bit 32 is set: no bucket is enabled. -/
theorem unregulated_of (m : Mod) (h : ∀ p ∈ m.regs, bit p.2 32 = false) : m.unregulated := by
  have g : ∀ t : Table Word, (∀ p ∈ t, bit p.2 32 = false) → ∀ k, bit ((Table.find t k).getD 0x400000) 32 = false := by
    intro t
    induction t with
    | nil => intro _ _; exact (by decide : bit (0x400000 : Word) 32 = false)
    | cons p t ih =>
      intro h k
      unfold Table.find
      split
      · exact h _ (by simp)
      · exact ih (fun q hq => h q (by simp [hq])) k
  intro k sector
  unfold Mod.regulated Mod.memReg
  split <;> exact g _ h _
theorem resting (s : State) (h : lineChan line0 < 2576 ∧ line0 < 2 ^ 60 ∧ s.txnOn line0 = none ∧ (s.slice (s.homeOf line0)).waiting = [] ∧
    (s.slice (s.homeOf line0)).txns.length < 1024 ∧ s.txns = [] ∧ s.windowOn line0 = false ∧ s.lineFenced line0 = false ∧ s.evictions = [] ∧ (∀ p ∈ s.controllers, p.2.inject = []) ∧
    s.poisoned line0 = false ∧ (s.filterEntries (s.homeOf line0)).length < 16 ∧ (∀ p ∈ s.regs, bit p.2 32 = false)) : s.atRest line0 := by
  obtain ⟨a, b, c, d, e, n, f, o, g, i, j, k, l⟩ := h
  exact ⟨a, b, c, d, e, n, f, o, g, uninjected_of _ i, j, unregulated_of _ l, k⟩
theorem noWaiting (t : Table Slice) (h : ∀ p ∈ t, p.2.waiting = []) (d : Nat) : (Table.get Slice.reset t d).waiting = [] := by
  induction t with
  | nil => rfl
  | cons p t ih =>
    obtain ⟨i, c⟩ := p
    unfold Table.get Table.find
    split
    · exact h (i, c) (by simp)
    · exact ih (fun q hq => h q (by simp [hq]))
theorem quiet_of (m : Mod) (h : (∀ p ∈ m.slices, p.2.waiting = []) ∧ (∀ t ∈ m.txns, t.waiting = false) ∧ m.tagWait = [] ∧ m.freedSnoops = []) (d : m.queues = []) (e : m.mqs = [])
    (g : m.remoteQ.flights = []) : m.quiet :=
  ⟨noWaiting _ h.1, h.2.1, h.2.2.1, h.2.2.2, by intro f hf; simp [d, e, g] at hf⟩
theorem reaching (s : State) (a : AgentId) (h : s.agentSector a = some (some 0))
    (d : (match s.decode (some 0) base with | .ok c => decide (c = cell0) | .error _ => false) = true) : s.reaches a base line0 := by
  cases e : s.decode (some 0) base with
  | error _ => rw [e] at d; cases d
  | ok c =>
    rw [e] at d
    exact ⟨some 0, c, h, e, by rw [of_decide_eq_true d]; decide +kernel⟩
/-- No copy; a copy of another; a sole sharer; an owner in each state; with the reservation and without. -/
theorem wit_ProcessorRequests_rest : (∀ caches ∈ [[], [(1, held .modified)], [(0, held .shared)], [(0, held .modified)], [(0, held .exclusive)]],
    (cohere caches id).reaches 0 base line0 ∧ (cohere caches id).atRest line0) ∧
    ((cohere [(0, held .modified)] (fun x => { x with reservation := some line0 })).reaches 0 base line0 ∧
      (cohere [(0, held .modified)] (fun x => { x with reservation := some line0 })).atRest line0) := by
  have e : pa0.toNat = base := by decide +kernel
  refine ⟨?_, reaching _ _ (by decide +kernel) (by decide +kernel), resting _ (by decide +kernel)⟩
  intro caches h
  simp only [List.mem_cons, List.not_mem_nil, or_false] at h
  rcases h with rfl | rfl | rfl | rfl | rfl <;>
    exact ⟨reaching _ _ (by decide +kernel) (by decide +kernel), resting _ (by decide +kernel)⟩
theorem wit_ProcessorRequests : pa0.toNat = base ∧ (cohere [] id).copyAt (0 : AgentId) line0 = none ∧ (cohere [] id).copies line0 = [] ∧
    (cohere [(1, held .modified)] id).copyAt (0 : AgentId) line0 = none ∧ (cohere [(1, held .modified)] id).copies line0 = [(1, held .modified)] ∧
    (cohere [(0, held .shared)] id).copies line0 = [(0, held .shared)] ∧ (cohere [(0, held .shared)] id).copyAt (0 : AgentId) line0 = some (held .shared) ∧
    (∀ st ∈ [LineSt.modified, .exclusive], (cohere [(0, held st)] id).copyAt (0 : AgentId) line0 = some (held st) ∧ (cohere [(0, held st)] id).copies line0 = [(0, held st)]) ∧
    (∀ st ∈ [LineSt.shared, .modified], ∀ x ∈ (cohere [(0, held st)] id).recorded line0, x = (0 : AgentId).val) ∧
    ((cohere [] id).pdCore 0).window = none ∧ ((cohere [] (fun x => { x with reservation := some line0 })).pdCore 0).reservation = some line0 ∧
    ((cohere [] id).pdCore 0).reservation ≠ some line0 ∧ base % 128 + 8 ≤ 128 ∧
    ((cohere [] (fun x => { x with window := some line0 })).pdCore 0).window = some line0 ∧ (cohere [] (fun x => { x with window := some line0 })).txnOn line0 = none := by
  decide +kernel
theorem wit_ProcessorRequests_window : (cohere [] (fun x => { x with window := some line0 })).quiet := quiet_of _ (by decide) rfl rfl rfl
/-- A read of core 0 that waits for core 1's answer, or another request. -/
def txn1 (req : HomeReq) (answers : List (Nat × SnoopAns)) : HomeTxn :=
  { wait := { line := line0, pa := base, sector := some 0, entry := some 0, req := req }, waitFor := [1], held := [], answers := answers, owner := none, wbWait := []
    carried := none, supplied := false }
def snooping (req : HomeReq) (caches : List (Nat × CacheLine)) (answers : List (Nat × SnoopAns)) : State :=
  { cohere caches id with slices := [(owned.homeOf line0, { Slice.reset with txns := [(line0, some (txn1 req answers))] })] }
theorem answered (s : State) (t : HomeTxn) (b : AgentId) (h : s.txnOn line0 = some t ∧ t.wait.line = line0 ∧ t.waitFor = [b.val] ∧ t.wbWait = [] ∧ t.owner = none ∧
    s.evictions = [] ∧ lineChan line0 < 2576 ∧ line0 < 2 ^ 60 ∧ (∀ p ∈ s.controllers, p.2.inject = []) ∧ s.poisoned line0 = false ∧ s.toMod.tagWait = [] ∧ s.freedSnoops = [] ∧
    (∀ p ∈ s.slices, p.2.waiting = []) ∧ (∀ t ∈ s.txns, t.waiting = false) ∧ (s.filterEntries (s.homeOf line0)).length < 16)
    (a : ∃ ans, t.answers = [(b.val, ans)] ∧ ans ≠ .writeback) (d : s.queues = []) (e : s.mqs = []) (g : s.remoteQ.flights = []) : s.lastAnswer line0 t b := by
  obtain ⟨h1, h2, h3, h4, h5, h6, h7, h8, h9, h10, h11, h15, h12, h13, h14⟩ := h
  exact ⟨h1, h2, h3, h4, h5, a, h6, h7, h8, uninjected_of _ h9, h10, quiet_of _ ⟨h12, h13, h11, h15⟩ d e g, h14⟩
theorem wit_SnoopsAndEvictions : (let s := snooping (.read 0) [(1, held .modified)] []
     s.lineAt base = some line0 ∧ s.txnOn line0 = some (txn1 (.read 0) []) ∧ (1 : Nat) ∈ (txn1 (.read 0) []).waitFor ∧
     s.copyAt (1 : AgentId) line0 = some (held .modified) ∧ (s.pdCore 1).window ≠ some line0) ∧
    (let s := snooping (.read 0) [(1, held .owned)] [(1, .owner)]
     s.lineAt base = some line0 ∧ s.txnOn line0 = some (txn1 (.read 0) [(1, .owner)]) ∧ s.copyAt (1 : AgentId) line0 = some (held .owned) ∧
     s.copies line0 = [(1, held .owned)] ∧ (txn1 (.read 0) [(1, .owner)]).carried = none) ∧
    (cohere [(1, held .modified)] id).copies line0 = [(1, held .modified)] ∧ (held .modified).st.dirty = true ∧ (held .shared).st.dirty = false ∧
    (cohere [(1, held .shared)] id).copies line0 = [(1, held .shared)] ∧
    ({ cohere [] id with evictions := [(cacheKey 1 line0, { line := held .modified, owed := false, arrived := true, acked := true })] } : State).evictionAt (1 : AgentId) line0 =
      some { line := held .modified, owed := false, arrived := true, acked := true } ∧
    (txn1 (.read 0) []).wait.req = .read (0 : AgentId) ∧ (cohere [] id).txnOn line0 = none ∧ (cohere [] id).lineAt base = some line0 ∧
    ((cohere [] id).slice ((cohere [] id).homeOf line0)).waiting = [] ∧ (snooping (.clean 0 true) [(1, held .modified)] []).txnOn line0 = some (txn1 (.clean 0 true) []) ∧
    (cohere [] id).working = true := by decide +kernel
theorem wit_SnoopsAndEvictions_rest : (∀ st ∈ [LineSt.modified, .shared], (cohere [(1, held st)] id).atRest line0 ∧ (cohere [(1, held st)] id).quiet) ∧
    (snooping (.read 0) [(1, held .owned)] [(1, .owner)]).lastAnswer line0 (txn1 (.read 0) [(1, .owner)]) 1 := by
  refine ⟨?_, answered _ _ _ (by decide +kernel) ⟨.owner, rfl, by decide⟩ rfl rfl rfl⟩
  intro st h
  simp only [List.mem_cons, List.not_mem_nil, or_false] at h
  rcases h with rfl | rfl <;> exact ⟨resting _ (by decide +kernel), quiet_of _ (by decide) rfl rfl rfl⟩
/-- The beat that the home holds of a burst, and a home request of core 7's tensor that waits for PD core 1's answer. -/
def beat1 (en : BitVec 128) : BurstBeat := { line := line0, entry := some 0, pa := base, enables := en, data := List.replicate 128 1 }
def homeReqs : List HomeReq := [.write (.core 0) (List.replicate 128 1) 0, .write (.core 0) [1] 0, .reduce (.core 0) .sum true (List.replicate 128 1), .atomic (.core 0) .add 4 1 0]
theorem wit_NonCachingAccess : owned.atRest line0 ∧ (∀ n ∈ [1, 4, 8, 127, 128], (match owned.decodeN (owned.requesterSector (.core 0)) base n with
      | .ok cs => decide (cs = cellsFrom line0 base n)
      | .error _ => false) = true) ∧ base % 128 = 0 ∧ base % 8 = 0 ∧ (1 : BitVec 128) ≠ BitVec.allOnes 128 ∧ owned.burst (.core 0) 0 = none ∧ owned.mayIssue (.core 0) = true ∧ inBlocks base = false ∧ inBlocks (base / 128 * 128) = false ∧
    (match owned.decodeN (owned.requesterSector (.core 0)) (2 * base) 4 with | .ok _ => false | .error _ => true) = true ∧ owned.ownerOf line0 = none ∧
    owned.recorded line0 = [] ∧ (owned.entryAt base).map (·.1) = some 0 ∧
    ({ owned with bursts := [{ req := .core 0, id := 0, sector := owned.requesterSector (.core 0), beats := [beat1 1] }] } : State).bursts =
      [{ req := .core 0, id := 0, sector := owned.requesterSector (.core 0), beats := [beat1 1] }] ∧ (∀ m : Mod, m.queues = [] → m.mqs = [] → m.remoteQ.flights = [] → m.noDrains) :=
  ⟨resting _ (by decide +kernel), by decide +kernel, by decide +kernel, by decide +kernel, by decide +kernel, by decide +kernel, by decide +kernel, by decide +kernel,
    by decide +kernel, by decide +kernel, by decide +kernel, by decide +kernel, by decide +kernel, rfl, fun m d e g f hf => by simp [d, e, g] at hf⟩
/-- A line with a copy is snooped; with the last answer the request is served. -/
theorem wit_NonCachingAccess_snooped : (cohere [(1, held .shared)] id).atRest line0 ∧ (cohere [(1, held .shared)] id).recorded line0 = [1] ∧
    (∀ req ∈ homeReqs, (snooping req [(1, held .shared)] [(1, .sharer)]).lastAnswer line0 (txn1 req [(1, .sharer)]) 1 ∧
      (snooping req [(1, held .shared)] [(1, .sharer)]).lineAt base = some line0 ∧ (txn1 req []).wait.pa = base) := by
  refine ⟨resting _ (by decide +kernel), by decide +kernel, fun req h => ?_⟩
  simp only [homeReqs, List.mem_cons, List.not_mem_nil, or_false] at h
  rcases h with rfl | rfl | rfl | rfl <;>
    exact ⟨answered _ _ _ (by decide +kernel) ⟨.sharer, rfl, by decide⟩ rfl rfl rfl, by decide +kernel, rfl⟩
/-- A transaction of core 0 with tag 0, and with the tags up to 1 taken. -/
def txn0 (tag : Nat) (r : Requester) : Txn :=
  { req := r, tag := tag, sector := none, entry := some 0, mooring := none, cells := [cell0], write := none, data := [1], poison := false, waiting := false
    gen := 0, hint := 0, outerTag := 5, pa := base, prio := 0, route := [], act := none }
/-- A read of core 0 that waits for a tag. -/
def tagged : TagWait := { req := .core 0, sector := some 0, mooring := none, hint := 0, outerTag := none, pa := base, n := 4, write := none, act := none }
/-- Sector 0's core, with its transactions; the first DDR5 channel regulated, with a bucket of 1,024 bytes that holds as many. -/
def asking (ts : List Txn) (regulated : Option Nat) : State := { owned with
  cores := [(0, { TCore.reset with sector := some 0 })]
  txns := ts
  regs := if regulated.isSome then [(pdSite 0 * 2 ^ 32 + 0x2400100, BitVec.ofNat 64 (2 ^ 16 + 2 ^ 32 + 1))] else []
  buckets := if regulated.isSome then [(80 * 16, regulated)] else [] }
theorem wit_MemoryRequests : (∀ k ∈ [0, 1, 47], let s := asking ((List.range k).map (fun i => txn0 i (.core 0))) none
      k < tagLimit (.core 0) ∧ (∀ x ∈ s.txns, samePool x.req (.core 0) = true → x.tag ≠ k) ∧ (∀ j < k, ∃ x ∈ s.txns, samePool x.req (.core 0) = true ∧ x.tag = j)) ∧
    (let s := asking ((List.range (tagLimit (.core 0))).map (fun i => txn0 i (.core 0))) none
     ∀ k < tagLimit (.core 0), ∃ x ∈ s.txns, samePool x.req (.core 0) = true ∧ x.tag = k) ∧
    (asking [] none).working = true ∧ inBlocks base = false ∧ (asking [] none).tagWait = [] ∧ (asking [] none).requesterSector (.core 0) = some 0 ∧
    (match (asking [] none).decodeN (some 0) base 4 with | .ok cs => decide (cs = cellsFrom line0 base 4) | .error _ => false) = true ∧
    (match (asking [] none).decodeN (some 0) (2 * base) 4 with | .ok _ => false | .error _ => true) = true ∧
    linesOf (cellsFrom line0 base 4) = [line0] ∧ (asking [] none).lineBusy line0 (asking [] none).nextStamp = false ∧ (asking [] none).mayIssue (.core 0) = true ∧
    ({ asking [] none with cores := [(0, { TCore.reset with sector := some 0, st := .fenced })] } : State).mayIssue (.core 0) = false ∧ (asking [] none).lineFenced line0 = false ∧ (asking [] none).prioAt base = 0 ∧
    (let m := ((asking [] none).meshPath (orderedReq (.core 0)) (requesterUnit (.core 0)).1 ((asking [] none).lineSite line0)).2
     [line0].any (m.channelRead [line0]).poisoned = false ∧ [line0].any ((m.setBucket 80 0 0).channelRead [line0]).poisoned = false) ∧
    (∀ c ∈ cellsFrom line0 base 4, c / 128 = line0) ∧ lineChan line0 < 2576 ∧ (asking [] (some 3)).fromMemory line0 = true ∧
    (chanCtl (lineChan line0)).1 = (80 : Fin 96).val ∧ (∀ k ∈ [3, 4], (asking [] (some k)).regulated 80 0 = true ∧ (asking [] (some k)).bucket 80 0 = k) ∧
    min (cellsFrom line0 base 4).length ((asking [] (some 3)).bucketDepth 80 0) = 4 ∧
    ({ asking [] none with slices := [(owned.homeOf line0, { Slice.reset with txns := [(line0, some (txn1 (.read 0) []))] })] } : State).lineBusy line0 0 = true ∧ (∀ x ∈ (asking [txn0 0 (.core 0)] none).txns, x.waiting = false) ∧
    (asking [txn0 0 (.pcie 1)] none).txns = [txn0 0 (.pcie 1)] ∧ (txn0 0 (.pcie 1)).gen = (asking [] none).requesterGen (.pcie 1) ∧
    ({ txn0 0 (.core 0) with gen := 1 } : Txn).gen ≠ (asking [] none).requesterGen (.core 0) ∧ samePool tagged.req (.core 0) = true := by decide +kernel
theorem wit_MemoryRequests_sound : (asking [] none).unregulated ∧ (asking [] none).quiet := ⟨unregulated_of _ (by decide), quiet_of _ (by decide) rfl rfl rfl⟩
def injectedLine : State := { owned with controllers := [(80, { Controller.reset with owner := [(0, some 0)], inject := [(line0, base, true)] })] }
/-- A slice whose way 3 is cleaned of one line. -/
def cleaned : State := { owned with slices := [(owned.homeOf line0, { Slice.reset with
  cleaning := 8, lines := [(line0, some { sector := 0, way := 3, cells := wholeLine (List.replicate 128 1), filled := true })] })] }
theorem wit_MemoryUnits : owned.lineAt base = some line0 ∧ 2560 ≤ lineChan line0 ∧ lineChan line0 < 2576 ∧ owned.working = true ∧ owned.fromMemory line0 = true ∧
    (injectedLine.ctl (chanCtl (lineChan line0)).1).inject = [(line0, pa0.toNat, true)] ∧ injectedLine.fromMemory line0 = true ∧ Table.rising owned.regions = true ∧
    (let l : SliceLine := { sector := 0, way := 3, cells := wholeLine (List.replicate 128 1), filled := true }
     let x := cleaned.slice (cleaned.homeOf line0)
     cleaned.homeOf line0 < 20 ∧ x.cleaning.getLsbD 3 = true ∧ x.lines.filter (fun p => p.2.any (fun l => l.way == 3)) = [(line0, some l)] ∧
     cleaned.sliceLine line0 = some l ∧ x.cleaning.getLsbD 2 = false) ∧
    (let s : State := { State.reset with regions := [(0, { Region.reset with w0 := 1, w1 := 0, w2 := BitVec.ofNat 64 (1 + 2 ^ 32) })]
                                         controllers := [(0, { Controller.reset with owner := [(0, some 0)] })] }
     (s.region 0).valid = true ∧ (s.region 0).tier = 0 ∧ (∃ ch ∈ s.chanList (s.region 0), ch / 32 = (0 : StackId).val)) := by decide +kernel
theorem wit_MemoryUnits_sound : owned.uninjected ∧ cleaned.quiet ∧ ∀ k, cleaned.stackFenced k = false :=
  ⟨uninjected_of _ (by decide +kernel), quiet_of _ (by decide) rfl rfl rfl, fun _ => rfl⟩

/-! ## Fabric ports (R216 to R238, R292) -/

/-- Port 0 in a state, before and after a good training. -/
def porting (st : PortSt) (f : Port → Port) : State := { owned with ports := [(0, f { Port.reset with st := st })] }
/-- A policy that admits none but those it lists, with its first entry. -/
def policed (policy : Word) (w : Word) : State := { porting .auth id with regs := [(kdSite * 2 ^ 32 + 0x85000, policy), (kdSite * 2 ^ 32 + 0x85100, w)] }
theorem wit_PortStates : (∀ st ∈ [PortSt.disabled, .active, .probe, .speed, .equalize, .align, .linkMgmt, .auth, .refused, .retrain, .reset], ((porting st id).port 0).st = st) ∧
    (porting .disabled id).boot.noFab = false ∧ ({ porting .disabled id with boot := { owned.boot with noFab := true } } : State).boot.noFab = true ∧
    ((porting .probe id).port 0).absentLogged = false ∧ ((porting .speed id).port 0).ethernet = false ∧ ((porting .equalize id).port 0).bad = 0 ∧
    (porting .equalize id).leastWidth 0 ≤ 1 ∧ (1 : BitVec 8).getLsbD 0 = true ∧ (∀ l < 8, 1 ≤ l → (1 : BitVec 8).getLsbD l = false) ∧
    ((porting .retrain id).port 0).nextLanes = none ∧
    ((porting .retrain id).port 0).unacked = [] ∧ ((porting .retrain id).port 0).waiting = [] ∧ (porting .reset id).edgeFenced ((0 : PortId).val / 8) = false ∧
    ((porting .reset (fun x => { x with shutting := true })).port 0).shutting = true ∧ ((porting .reset (fun x => { x with shutting := true })).port 0).deferred = false ∧
    ((porting .reset id).port 0).shutting = false ∧ ((porting .reset (fun x => { x with shutting := true, deferred := true })).port 0).deferred = true := by
  decide +kernel
/-- A partner that no entry names, one that an entry denies, and a K1 partner where none is admitted. -/
theorem wit_PortStates_policy : ((porting .auth id).port 0).k1Partner = false ∧ (porting .auth (fun x => { x with partnerRoot := true })).linkAdmits 0 = true ∧
    (porting .auth id).linkAdmits 0 = false ∧ (policed 0 0).linkAdmits 0 = false ∧
    (∀ n < 64, (let w := (porting .auth id).reg kdSite (0x85100 + n * 8) 0
      ¬ (bit w 56 = true ∧ bits w 55 0 = ((porting .auth id).port 0).partnerHash.toNat % 2 ^ 56))) ∧
    (let w := (policed 1 (BitVec.ofNat 64 (2 ^ 56 + 2 ^ 58))).reg kdSite (0x85100 + 0 * 8) 0
     bit w 56 = true ∧ bits w 55 0 = ((policed 1 (BitVec.ofNat 64 (2 ^ 56 + 2 ^ 58))).port 0).partnerHash.toNat % 2 ^ 56 ∧ bit w 58 = true) ∧
    ((porting .auth (fun x => { x with k1Partner := true })).port 0).k1Partner = true ∧ bit ((porting .auth id).reg kdSite 0x85000 1) 1 = false := by decide +kernel

/-- A link packet of 160 bytes of body on virtual channel 1, and the flit that carries it. -/
def linkHeader (ctr : Nat) (start : Bool) (vc : Nat) : Word := BitVec.ofNat 64 (vc + (if start then 8 else 0) + 160 * 2 ^ 4 + ctr * 2 ^ 32)
def rx0 (ctr : Nat) (start : Bool) (vc : Nat) : RxPkt := { hdr := linkHeader ctr start vc, bytes := List.replicate 176 0 }
def packetBytes : List Byte := wordBytes (linkHeader 0 false 1) ++ List.replicate 176 0
def linked (f : Port → Port) : State := porting .active (fun x => f { x with open_ := true })
/-- A flit whose TYPE is one of the four and whose reserved bits are 0 is sound with the CRC that it is sent with, and with no other. -/
theorem soundFlit (k start : Nat) (n a : BitVec 16) (x y : Nat × Nat) (bs : List Byte)
    (h : (decide ((mkFlit k n a start x y bs).kind ≤ 3) && !(mkFlit k n a start x y bs).reserved) = true) : flitSound (mkFlit k n a start x y bs) = true := by
  have c : (mkFlit k n a start x y bs).crc = crc64 (mkFlit k n a start x y bs).covered := rfl
  rw [flitSound, c, BEq.rfl, Bool.true_and]; exact h
theorem falseFlit (k : Nat) (bs : List Byte) : let f := mkFlit k 0 0 0 (7, 0) (7, 0) bs; flitSound { f with crc := f.crc + 1 } = false := by
  intro f
  have c : ({ f with crc := f.crc + 1 } : Flit).covered = f.covered := rfl
  have d : f.crc = crc64 f.covered := rfl
  have e : (f.crc + 1 == f.crc) = false := by simp
  rw [flitSound, c, ← d, e]; rfl
/-- Each kind of flit at the FSEQ expected, and with a false CRC. -/
theorem wit_FlitsReceived : (∀ st ∈ [PortSt.linkMgmt, .auth, .active, .refused], ((porting st id).port 0).flowing = true) ∧
    (∀ k ∈ [0, 1, 2, 3], let f := mkFlit k 0 0 0 (7, 0) (7, 0) packetBytes
      flitSound f = true ∧ (f.kind = k ∧ f.fseq = ((linked id).port 0).expected ∧ f.start = 0 ∧ f.payload = packetBytes ++ List.replicate 54 0) ∧
      flitSound { f with crc := f.crc + 1 } = false) ∧
    (mkFlit 0 0xFFFF 0 0 (7, 0) (7, 0) []).fseq = ((linked (fun x => { x with expected := 0xFFFF })).port 0).expected ∧
    (mkFlit 1 1 0 0 (7, 0) (7, 0) []).fseq ≠ ((linked id).port 0).expected ∧
    ((linked id).port 0).waiting = [] ∧ ((linked id).port 0).rxPart = [] ∧ ((linked id).port 0).ethernet = false ∧
    24 ≤ packetBytes.length ∧ headerMalformed (bytesWord (packetBytes.take 8)) = false ∧ packetBytes.length = bits (bytesWord (packetBytes.take 8)) 16 4 + 24 ∧
    Table.get 0 ((linked id).port 0).rxUsed 1 + headerCredits (bytesWord (packetBytes.take 8)) ≤ Table.get 0 fullCredits 1 ∧
    ackedBy ((linked (fun x => { x with unacked := [{ fseq := 3, start := 0, payload := [] }] })).port 0).unacked (mkFlit 2 0 3 0 (7, 0) (7, 0) []).ack = [] ∧
    ((linked id).port 0).naked = false ∧ ((linked id).port 0).rxFreed = [] ∧ ((linked (fun x => { x with naked := true })).port 0).naked = true ∧
    ((linked (fun x => { x with unacked := [{ fseq := 3, start := 0, payload := [] }] })).port 0).unacked ≠ [] ∧ ((linked id).port 0).resendRun = 0 := by
  refine ⟨by decide +kernel, fun k h => ⟨soundFlit _ _ _ _ _ _ _ ?_, ?_, falseFlit _ _⟩, by decide +kernel⟩ <;> revert k <;> decide +kernel
theorem wit_FlitFields : 3 < 16 ∧ 255 < 256 ∧ 7 < 8 ∧ 4095 < 4096 ∧ (List.replicate 238 (1 : Byte)).length ≤ 238 :=
  ⟨by decide, by decide, by decide, by decide, Nat.le_of_eq List.length_replicate⟩
/-- Packets: the expected one, the first of an epoch and one that is not, one behind, one ahead, one that does not open; before keys; and the epoch checks. -/
theorem wit_LinkTraffic : (let x := (linked (fun x => { x with rx := [rx0 0 false 1] })).port 0
     x.rx = rx0 0 false 1 :: [] ∧ x.st = .active ∧ bit (rx0 0 false 1).hdr 3 = false ∧ bits (rx0 0 false 1).hdr 63 32 = bits x.rxExpected 31 0 ∧
     (tpkt 9 1 0 0).body = bits (rx0 0 false 1).hdr 16 4 ∧ x.rxFreed = [] ∧ x.ethernet = false ∧ bits (rx0 0 false 1).hdr 2 0 < 6 ∧
     0 < headerCredits (rx0 0 false 1).hdr ∧ headerCredits (rx0 0 false 1).hdr ≤ 4095 ∧ x.runAuth < 15 ∧ bits x.rxExpected 31 0 < bits (rx0 1 false 1).hdr 63 32) ∧
    bit (rx0 0 true 1).hdr 3 = true ∧ bits (rx0 0 true 1).hdr 63 32 = 0 ∧ bits (rx0 1 true 1).hdr 63 32 ≠ 0 ∧
    bits (rx0 0 false 1).hdr 63 32 < bits ((linked (fun x => { x with rxExpected := 1 })).port 0).rxExpected 31 0 ∧
    (∀ st ∈ [PortSt.linkMgmt, .auth, .refused], ((porting st (fun x => { x with rx := [rx0 0 false 0] })).port 0).rx = rx0 0 false 0 :: [] ∧
      ((porting st id).port 0).st = st) ∧ bits (rx0 0 false 0).hdr 2 0 = 0 ∧ bits (rx0 0 false 1).hdr 2 0 ≠ 0 ∧
    (let s : State := { porting .auth id with beacon := { State.reset.beacon with bt := 1000000 } }
     (s.port 0).mgmtSince + 1000000 ≤ s.bt) ∧ ((linked id).port 0).rx = [] ∧
    (let x := (linked (fun x => { x with credits := [(3, 72)] })).port 0
     x.waiting = [] ∧ x.mayStart 3 (tpkt 9 1 0 0) = true) ∧ ((linked id).port 0).open_ = true ∧
    ((linked id).port 0).injectLane = none ∧ (0 : Nat) ≤ bits ((linked id).fabReg 0 0x18 fabThreshReset) 47 32 ∧
    ((linked id).port 0).runRetry ≤ bits ((linked id).fabReg 0 0x18 fabThreshReset) 63 48 ∧ (∀ n ∈ [0x40000, 0], n ≤ bits ((linked id).fabReg 0 0x18 fabThreshReset) 31 0) ∧
    bits ((linked id).fabReg 0 0x18 fabThreshReset) 47 32 < 17 ∧
    (let s := linked (fun x => { x with width := 2 })
     (s.port 0).width = 2 ∧ (s.port 0).group = 0 ∧ (s.port 0).bad = 0 ∧ s.leastWidth 0 = 0) ∧
    (let o : LinkOut := { vc := 2, pkt := tpkt 9 1 0 0, sector := none, admitted := false }
     let x := (linked (fun x => { x with waiting := [o] })).port 0
     ∃ o' ∈ x.waiting, o'.vc = (2 : Fin 6).val ∧ Table.get 0 x.credits 2 < o'.pkt.creditCount) ∧ ((porting .retrain id).port 0).injectLane = none := by decide +kernel
/-- A port in Ethernet mode of address 2^64 + 2, peer 3, with priority flow control and without. -/
def etherPort (w : Word) : State := linked (fun x => { x with ethernet := true, eth := [(0x100, w), (0x118, 1), (0x120, 2), (0x130, 3)] })
def datagram1 (length flits : Nat) : Datagram :=
  { length := length, dst := BitVec.ofNat 128 (2 ^ 64 + 2), src := 3, udpPort := 0, shim0 := BitVec.ofNat 64 (1 + flits * 2 ^ 8), shim1 := 0
    flits := List.replicate flits (mkFlit 1 0 0 0 (7, 0) (7, 0) []) }
theorem wit_EthernetFrames : ((linked id).port 0).ethernet = false ∧ ((etherPort 0).port 0).ethernet = true ∧ ((etherPort 0).port 0).st = .active ∧
    (BitVec.ofNat 128 (2 ^ 64 + 2)).toNat = (((etherPort 0).port 0).ethReg 0x118).toNat * 2 ^ 64 + (((etherPort 0).port 0).ethReg 0x120).toNat ∧
    (0 : BitVec 128).toNat ≠ (((etherPort 0).port 0).ethReg 0x118).toNat * 2 ^ 64 + (((etherPort 0).port 0).ethReg 0x120).toNat ∧
    (∀ len ∈ [64, 9216], ∀ k ∈ [0, 1], let d := datagram1 len k
      64 ≤ d.length ∧ d.length ≤ 9216 ∧ d.dst.toNat = (((etherPort 0).port 0).ethReg 0x118).toNat * 2 ^ 64 + (((etherPort 0).port 0).ethReg 0x120).toNat ∧
      d.src.toNat = (((etherPort 0).port 0).ethReg 0x128).toNat * 2 ^ 64 + (((etherPort 0).port 0).ethReg 0x130).toNat ∧
      d.udpPort.toNat = bits (((etherPort 0).port 0).ethReg 0x100) 15 0 ∧ bits d.shim0 7 0 = 1 ∧ bits d.shim0 15 8 = k) ∧
        (mkFlit 1 0 0 0 (7, 0) (7, 0) []).fseq = ((etherPort 0).port 0).expected ∧ ((etherPort 0).port 0).waiting = [] ∧
    ¬ 64 ≤ (datagram1 63 1).length ∧ 32 < bits (datagram1 64 33).shim0 15 8 ∧
    bit (((etherPort (BitVec.ofNat 64 (2 ^ 38))).port 0).ethReg 0x100) 38 = true ∧ bit (((etherPort 0).port 0).ethReg 0x100) 38 = false ∧
    (datagram1 64 1).flits = [mkFlit 1 0 0 0 (7, 0) (7, 0) []] ∧ flitSound (mkFlit 1 0 0 0 (7, 0) (7, 0) []) = true := by
  refine ⟨?_, ?_, ?_, ?_, ?_, ?_, ?_, ?_, ?_, ?_, ?_, ?_, rfl, soundFlit _ _ _ _ _ _ _ (by decide +kernel)⟩ <;> decide +kernel

/-! ## Functions of hosts, and requests through the PCIe/CXL ports (R188, R311 to R332) -/

def fn1 : Fn := { Fn.reset with active := true, bme := true, mse := true, msixEnable := true }
/-- Sector 0 in a state, on function 1 of port 0, or on none, with nothing else of its own. -/
def hosted (st : Nat) (attached : Bool) (f : Fn → Fn) (g : Sector → Sector) : State := { State.reset with
  sectors := [(0, g { Sector.reset with st := st, attached := attached })]
  fns := [(1, f fn1)] }
theorem wit_HostFunctions : ((hosted 0 false id id).fn 0 1).bme = true ∧ (hosted 0 false id id).fnSector 0 1 = none ∧
    ((hosted 0 false (fun f => { f with bme := false }) id).fn 0 1).bme = false ∧ ((hosted 0 false id id).fn 0 1).resetting = false ∧
    (let s := hosted 3 true id (fun x => { x with resetKind := 1 })
     s.fnSector 0 1 = some (0 : SectorId).val ∧ (s.sector 0).st = 3 ∧ (s.sector 0).resetKind = 1 ∧ (s.sector 0).attached = true ∧ s.sectorClusters 0 = [] ∧ s.sectorEngines 0 = []) ∧
    (let s := hosted 2 true id id
     s.fnSector 0 1 = some (0 : SectorId).val ∧ (s.sector 0).st = 2 ∧ s.sectorClusters 0 = [] ∧ s.sectorEngines 0 = [] ∧ s.sets = [] ∧ s.regions = [] ∧ s.moorings = [] ∧
     s.eds = [] ∧ s.funcOpen 0 = true ∧ (s.queue (.csq (Fin.ofNat 16384 (s.sector 0).firstQueue))).st = .free) ∧
    (∀ k < 16, (hosted 0 false id id).fnSector 0 (1 + k) = none) ∧ ((hosted 2 true id id).sector 0).st ≠ 3 ∧
    (((hosted 2 true (fun f => { f with adminCfg := BitVec.ofNat 64 (6 + 6 * 2 ^ 5 + 4 * 2 ^ 17), adminMisc := BitVec.ofNat 64 (2 ^ 32) }) id).fn 0 1).adminQueue Queue.reset).sound = true ∧
    (let s : State := { hosted 2 true id id with queues := [(0, dq)] }
     s.funcOpen 0 = true ∧ (s.queue (.csq (Fin.ofNat 16384 (s.sector 0).firstQueue))).st = .enabled ∧
     (s.queue (.csq (Fin.ofNat 16384 (s.sector 0).firstQueue))).flights = [] ∧ (s.queue (.csq (Fin.ofNat 16384 (s.sector 0).firstQueue))).held = [] ∧ (s.queue (.csq (Fin.ofNat 16384 (s.sector 0).firstQueue))).enable = none) ∧
    (((hosted 2 true id id).fn 0 1).adminQueue Queue.reset).sound = false ∧ (hosted 3 true id id).applies 0 = false ∧
    ({ hosted 3 true id id with sets := [(2, { StagedSet.reset with st := .applying, owner := some (.sector 0) })] } : State).applies 0 = true ∧
    (hosted 2 false id id).funcOpen 0 = false ∧ (2047 : Fin 2048).val ∉ ((hosted 2 true id id).fn 0 1).unmasked ∧
    (2047 : Fin 2048).val ∉ ((hosted 2 true id id).fn 0 1).pendingVec ∧
    (let f := (hosted 2 true (fun f => { f with pendingVec := [3] }) id).fn 0 1
     (3 : Fin 2048).val ∉ f.unmasked ∧ (3 : Fin 2048).val ∈ f.pendingVec ∧ f.reachable = true ∧ f.msixEnable = true) ∧
    (hosted 2 true id id).fw.platformNew = false ∧ (hosted 2 false id id).sectorClusters 0 = [] ∧ ((hosted 2 false id id).sector 0).attached = false := by decide +kernel
theorem test_eds (s : State) (h : s.eds = []) : ∀ e, (s.ed e).books = [] := by intro e; simp [Mod.ed, h, Table.get, Table.find, EdState.reset]
def linkUp1 (up own : Bool) : LinkReport := { up := up, ownClock := own, rate := 6, width := 16, protocol := 0, ide := false, devices := 0 }
/-- Port 0 in a mode, its link up. -/
def hostPort (mode : Nat) (f : State → State) : State := f { owned with
  pcie := [(0, { PciePort.reset with mode := mode, linkUp := true, aptBase := 0x1000000000000, aptGib := 1 })]
  fns := [(0, { Fn.reset with active := true }), (1, fn1)] }
theorem wit_HostFunctions_links : (linkUp1 true false).up = true ∧ (linkUp1 false false).up = false ∧
    (∀ mode ∈ [1, 2], (hostPort mode id).trains 0 (linkUp1 true false) = true) ∧ (hostPort 0 id).trains 0 (linkUp1 true false) = false ∧
    (hostPort 2 id).boot.noPcie = false ∧ (linkUp1 true true).ownClock = true ∧ (linkUp1 true false).ownClock = false ∧
    (hostPort 2 (fun s => { s with boot := { s.boot with noPcie := true } })).boot.noPcie = true ∧ (hostPort 2 id).edgeFenced ((0 : PcieId).val / 2) = false ∧
    ((hostPort 2 id).pciePort 0).mode ≠ 1 ∧ ((hostPort 1 id).pciePort 0).mode = 1 ∧
    (hostPort 2 (fun s => { s with tender := { s.tender with fenced := [.edge 0] } })).edgeFenced ((0 : PcieId).val / 2) = true := by decide +kernel
/-- Port 0 takes memory requests under IDE alone, which its link has not. -/
def sealedPort (mode : Nat) : State := hostPort mode (fun s => { s with regs := [(edSite 0 * 2 ^ 32 + 0x4800000, 0x1F1C)] })
theorem wit_PortRequests_endpoint : ((hostPort 2 id).pciePort 0).mode = 2 ∧ ((hostPort 2 id).pciePort 0).linkUp = true ∧ (hostPort 2 id).portTakes 0 = true ∧
    (hostPort 2 id).barOpen 0 .none = false ∧ (hostPort 2 id).barOpen 0 (.bar0 ⟨1, by omega⟩ 0x4800010) = true ∧
    (hostPort 2 id).barOpen 0 (.bar0 ⟨2, by omega⟩ 0x4800010) = false ∧ ((hostPort 2 id).fn 0 0).active = true ∧ ((hostPort 2 id).fn 0 0).resetting = false ∧
    ((hostPort 2 id).fn 0 1).resetting = false ∧ ((hostPort 2 (fun s => { s with fns := [(1, { fn1 with resetting := true })] })).fn 0 1).resetting = true ∧
    ((hostPort 2 (fun s => { s with fns := [] })).fn 0 0).active = false ∧ (List.replicate 8 (1 : Byte)).length = 8 ∧ ((hostPort 1 id).pciePort 0).mode ≠ 2 ∧
    (∀ mode ∈ [1, 2], (sealedPort mode).portTakes 0 = false ∧ ((sealedPort mode).pciePort 0).mode = mode ∧ ((sealedPort mode).pciePort 0).linkUp = true) ∧
    owned.boot.noMgmt = false ∧ ({ owned with boot := { owned.boot with noMgmt := true } } : State).boot.noMgmt = true := by
  decide +kernel
/-- A mooring of sector 0 for every requester of port 0: 4 KiB at bus address 0x10000, on the region, read and write. -/
def moor1 : Mooring := { w0 := BitVec.ofNat 64 (8 + 16 + 32), w1 := 0x10000, w2 := BitVec.ofNat 64 base, w3 := 1 }
def mooredAt : State := hostPort 1 (fun s => { s with moorings := [(5, moor1)] })
theorem wit_PortRequests_adapter : (hostPort 1 id).working = true ∧ (hostPort 1 id).portTakes 0 = true ∧ (0x10004 : Word).toNat % 8 ≠ 0 ∧
    (hostPort 1 id).mooringFor 0 0 0x10000 = none ∧ mooredAt.mooringFor 0 0 0x10000 = some (5, moor1) ∧
    0x10000 + 8 ≤ moor1.bus + moor1.size ∧ bit moor1.w0 4 = true ∧ bit moor1.w0 5 = true ∧
    (let r : Mooring := { moor1 with w0 := 8 + 16 }
     (hostPort 1 (fun s => { s with moorings := [(5, r)] })).mooringFor 0 0 0x10000 = some (5, r) ∧ (bit r.w0 4 && bit r.w0 5) = false) ∧
    (∀ q < 8, mooredAt.inAperture q moor1.phys (moor1.phys + 4096) = false) ∧ 0x10000 + 4096 ≤ moor1.bus + moor1.size ∧
    mooredAt.mooringFor 0 0 0x10FF9 = some (5, moor1) ∧ moor1.bus + moor1.size < 0x10FF9 + 8 ∧ 0x20000 % 4096 + 4096 ≤ 4096 ∧ mooredAt.iotlb = [] ∧
    mooredAt.mooringFor 0 0 0x20000 = none ∧
    (let t : Iotlb := { port := 0, rid := 0, page := 0x20, phys := 1, write := false }
     ({ mooredAt with iotlb := [t] } : State).iotlb = [t] ∧ t.rid = (0 : BitVec 16).toNat ∧ t.page = (0x20000 : Word).toNat / 4096) := by decide +kernel
/-- An adapter's request that waits for the walk of its page, and requests of the module into port 0's aperture. -/
def walking : AdapterReq := { port := 0, rid := 0, addr := 0x20010, n := 16, write := none, tag := 3 }
def aperture : State := hostPort 1 (fun s => { s with
  regs := [(edSite 0 * 2 ^ 32 + 0x4800000, 0xC)], hdm := [(0, 2 ^ 30)], regions := [(0, { Region.reset with w0 := 5, w1 := 0x1000000000000, w2 := 1 })] })
def upstream1 (fn : Nat) : Upstream := { port := 0, tag := some 3, fn := fn, gen := 1, req := .kd, pa := 0x1000000000000, n := 4, write := none, flush := none, entry := none }
theorem wit_PortRequests_aperture : ({ hostPort 1 id with adapterWait := [walking] } : State).adapterWait = [walking] ∧ walking.rid = (0 : BitVec 16).toNat ∧
    walking.addr / 4096 = (0x20 : BitVec 52).toNat ∧ walking.write = none ∧ (hostPort 1 id).iotlb = [] ∧
    aperture.working = true ∧ aperture.inAperture (0 : Fin 9) 0x1000000000000 0x1000000000001 = true ∧
    (match aperture.decodeN (aperture.requesterSector .kd) 0x1000000000000 4 with | .ok cs => decide (cs.length = 4) | .error _ => false) = true ∧
    (∀ u ∈ aperture.upstream, u.port ≠ (0 : Fin 9).val) ∧ ({ aperture with upstream := [upstream1 0] } : State).upstream = [upstream1 0] ∧
    (upstream1 0).tag = some (3 : BitVec 14).toNat ∧ (upstream1 0).flush = none ∧ aperture.queues = [] ∧ aperture.mqs = [] ∧ aperture.remoteQ.flights = [] ∧ (upstream1 0).fn = 0 ∧ (upstream1 1).fn ≠ 0 ∧ (aperture.fn 0 (upstream1 1).fn).gen ≠ (upstream1 1).gen := by decide +kernel

/-! ## Errors, watchdogs and recoveries (R215, R381 to R400, R408) -/

def fail1 (sev : Nat) : Fail :=
  { site := 6, cls := 9, sev := sev, unit := 1, code := 2, addr := 3, detail := 4, sector := none, injected := false }
def errRec1 : ErrRec :=
  { cls := 9, sev := 2, injected := false, sector := none, gen := 0, unit := 1, code := 2, addr := 0, bt := 0, detail := 0, count := 1 }
/-- A record that merges; a full ring; one with room, at both boundaries of a severity that is copied. -/
theorem wit_ErrorRecords : let ring : ErrRing := { ErrRing.reset with recs := [(63, some errRec1)], pending := 1, oldest := 63 }
    ({ owned with errs := [(6, ring)] } : State).err (fail1 2).site = ring ∧ ring.mergeAt (fail1 2) 1048575 = some 63 ∧ Table.get none ring.recs 63 = some errRec1 ∧
    ring.mergeAt (fail1 2) 1048576 = none ∧ ring.pending < 64 ∧ { ErrRing.reset with pending := 64 }.mergeAt (fail1 2) 0 = none ∧
    64 ≤ ({ ErrRing.reset with pending := 64 } : ErrRing).pending ∧ { ErrRing.reset with pending := 63 }.mergeAt (fail1 2) 0 = none ∧
    (fail1 1).sev < 2 ∧ 2 ≤ (fail1 2).sev := by decide +kernel
/-- The Tender at a step with a domain under recovery, others queued, and increments of tags. -/
def tended (current : Option Domain) (queue fenced : List Domain) (step : Nat) (incs : List (Domain × Nat)) : State := { owned with
  cores := [(5, { TCore.reset with sector := some 0 })]
  tender := { State.reset.tender with step := step, current := current, queue := queue, fenced := fenced, increments := incs }
  reports := [.core 5] }
def storm (d : Domain) (n : Nat) : List (Domain × Nat) := List.replicate n (d, 0)
theorem wit_FaultReports : ({ tended none [] [] 0 [] with tender := { State.reset.tender with stopped := true } } : State).tender.stopped = true ∧
    (let s := tended none [] [] 0 []
     s.tender.stopped = false ∧ s.tender.current = none ∧ (∀ y ∈ s.tender.queue, Domain.covers y (.core 5) = false) ∧ s.storming (.core 5) = false) ∧
    (let s := tended (some (.core 6)) [.cluster 1] [] 3 []
     s.tender.current = some (.core 6) ∧ Domain.covers (.core 6) (.core 5) = false ∧ (∀ y ∈ s.tender.queue, Domain.covers y (.core 5) = false) ∧
     s.storming (.core 5) = false ∧ s.tender.queue.length < 64) ∧
    (tended (some (.cluster 0)) [] [] 3 []).tender.current = some (.cluster 0) ∧ Domain.cluster 0 ≠ .core 5 ∧ Domain.covers (.cluster 0) (.core 5) = true ∧
    (tended (some (.core 5)) [] [] 3 []).tender.current = some (.core 5) ∧ (tended (some (.core 5)) [] [] 3 []).storming (.cluster (Fin.ofNat 128 ((5 : CoreId).val / 8))) = false ∧
    (let s := tended none [] [] 0 (storm (.core 5) 16)
     s.tender.current = none ∧ s.tender.queue = [] ∧ s.storming (.core 5) = true ∧ s.storming (.cluster (Fin.ofNat 128 ((5 : CoreId).val / 8))) = false) ∧
    (tended none [] [] 0 (storm (.core 5) 15)).storming (.core 5) = false ∧ booted.boot.phase = 7 ∧ booted.boot.request = none ∧
    booted.slices = [] ∧ booted.tender.stopped = false := by decide +kernel
theorem wit_Recoveries : (let s := tended (some (.core 5)) [.core 6] [.core 5] 3 []
     s.tender.current = some (.core 5) ∧ s.tender.stopped = false ∧ s.tender.step = 3 ∧ (s.core 5).launch = none ∧ (s.core 5).saved = none ∧ (s.core 5).hold = none ∧
     (∀ q ∈ s.clusterQueues ((5 : CoreId).val / 8), q.2.flights = []) ∧ s.tender.step ≠ 6) ∧
    (let s := tended (some (.core 5)) [] [.core 5] 6 []
     s.tender.step = 6 ∧ (s.core 5).queue = [] ∧ s.tender.fenced = [.core 5] ∧ s.tender.step ≠ 3) ∧ (tended none [] [] 0 []).tender.current = none := by decide +kernel
theorem wit_Recoveries_quiet : (tended (some (.core 5)) [.core 6] [.core 5] 3 []).quiet := quiet_of _ (by decide) rfl rfl rfl
theorem wit_CoherentDomainEnds : (let s : State := { booted with cohError := true, caches := [(cacheKey 1 line0, held .owned)] }
     Table.rising s.slices = true ∧ Table.rising s.pdCores = true ∧ s.boot.phase = 7 ∧ s.boot.request = none ∧ s.tender.stopped = false ∧ s.cohError = true ∧
     line0 ∈ s.ownedLines) ∧ booted.cohError = false := by decide +kernel
/-- Cores that run or wait; a queue with work; a watched command; a request without its answer. -/
theorem wit_Watchdogs : (∀ st ∈ [CoreSt.running, .waiting], ((at0 { ran with st := st }).core 0).st = st) ∧ (at0 ran).working = true ∧
    ((at0 TCore.reset).core 0).st ≠ .running ∧ ((at0 TCore.reset).core 0).st ≠ .waiting ∧ owned.fw.seqPause = false ∧
    (queued { dq with producer := 1 }).holdsWork ((0 : ClusterId)) = true ∧ owned.holdsWork ((0 : ClusterId)) = false ∧
    (let f := flightOf (pkt 0x200 2 []) .running .none
     (queued { dq with flights := [f] }).flight p0 = some f ∧ f.stage ≠ .accepted ∧ watched (pktOpc f.words) = true) ∧ owned.flight p0 = none ∧
    owned.txns.find? (fun y => samePool y.req (.core 0) && y.tag == 0) = none ∧
    (asking [txn0 0 (.core 0)] none).tagWait = [] ∧ (asking [txn0 0 (.core 0)] none).txns.find? (fun y => samePool y.req (.core 0) && y.tag == 0) = some (txn0 0 (.core 0)) ∧
    lineChan ((txn0 0 (.core 0)).cells.headD 0 / 128) < 2576 ∧
    (let t := { txn0 0 (.pcie 1) with cells := [128 * lineNum 2583 0 0] }
     (asking [t] none).txns.find? (fun y => samePool y.req (.pcie 1) && y.tag == 0) = some t ∧ t.req = .pcie 1 ∧ lineChan (t.cells.headD 0 / 128) = 2583 ∧
     (asking [t] none).queues = [] ∧ (asking [t] none).mqs = [] ∧ (asking [t] none).remoteQ.flights = []) ∧ (powered .standby).mustBeCold = true ∧
    (let s := bootIn .run (fun b => { b with phase := 5 })
     s.mustBeCold = false ∧ s.power.st = .run ∧ 5 ≤ s.boot.phase) := by decide +kernel
/-- An injection armed on a die, of each class the statement names; and the refusals. -/
def injecting (site cls unit addr : Nat) : State := { owned with injections := [(site, some ⟨cls, unit, addr, 0⟩)] }
theorem wit_Injections : Table.get none (injecting 12 0x15 0 0).injections (12 : Site).val ≠ none ∧ Table.get none owned.injections (12 : Site).val = none ∧
    bit (0 : Word) 24 = false ∧ bit (BitVec.ofNat 64 (0xFF + 2 ^ 24)) 24 = true ∧ owned.injectOk 12 (bits (BitVec.ofNat 64 (0xFF + 2 ^ 24)) 7 0) 0 = false ∧
    (let v := BitVec.ofNat 64 (0x15 + 2 ^ 19 + 2 ^ 24 + 2 ^ 25)
     let s : State := { owned with regs := [(12 * 2 ^ 32 + 0x20030, 1)] }
     bit v 24 = true ∧ s.injectOk 12 (bits v 7 0) (bits v 23 8) = true ∧ bit v 25 = true ∧ s.bt < (s.reg (12 : Site) 0x20030 0).toNat) ∧
    Table.get none (injecting 12 0x15 0 0).injections (12 : Site).val = some { (⟨0, 0, 0, 0⟩ : Injection) with cls := 0x15, unit := 0 } ∧
    (∃ site : Site, site.val = edSite ((0 : PortId).val / 8) ∧ Table.get none (injecting site.val 0x0E (0x500 + (0 : PortId).val % 8) 3).injections site.val =
      some { (⟨0, 0, 3, 0⟩ : Injection) with cls := 0x0E, unit := 0x500 + (0 : PortId).val % 8 }) ∧
    (∃ site : Site, site.val = coreSite (5 : CoreId).val ∧ Table.get none (injecting site.val 0x09 ((5 : CoreId).val % 64) 0).injections site.val =
      some { (⟨0, 0, 0, 0⟩ : Injection) with cls := 0x09, unit := (5 : CoreId).val % 64 }) ∧
    (injecting 6 0x06 0 base).lineAt base = some line0 ∧ lineChan line0 < 2576 := by decide +kernel

/-! ## Management, firmware, the TAP (R343, R345, R354, R402 to R421, R448) -/

def mq1 (st : QSt) (f : Queue → Queue) : State := { owned with mqs := [(1, f { dq with st := st })] }
theorem wit_ManagementQueues : (∀ st ∈ [QSt.free, .disabled, .enabled, .disabling, .error, .fenced], ((mq1 st id).queue (.mq 1)).st = st) ∧
    ((mq1 .free id).queue (.mq 1)).sound = true ∧ ((mq1 .free id).queue (.mq 1)).notifyAddr.toNat % 4 = 0 ∧
    ((mq1 .free (fun q => { q with ringLog2 := 5 })).queue (.mq 1)).sound = false ∧ ((mq1 .free (fun q => { q with notifyAddr := 1 })).queue (.mq 1)).notifyAddr.toNat % 4 ≠ 0 ∧
    ((mq1 .enabled id).queue (.mq 1)).flights = [] ∧ ((mq1 .enabled id).queue (.mq 1)).enable = none ∧
    ((mq1 .disabling (fun q => { q with enable := some (none, none) })).queue (.mq 1)).enable ≠ none ∧
    ((mq1 .error (fun q => { q with flights := [flightOf (pkt 0x000 1 []) .accepted .none] })).queue (.mq 1)).flights ≠ [] ∧
    ((mq1 .error id).queue (.mq 1)).flights = [] ∧ ((mq1 .error id).queue (.mq 1)).held = [] ∧
    ((mq1 .error (fun q => { q with held := [{ tag := 0, seq := 0, status := 0, detail := 0, progress := 0, bt := 0, notify := false, ix := 0, past := false }] })).queue (.mq 1)).held ≠ [] := by
  decide +kernel
/-- A management message from node 5 for the Keeper, of a kind and a body. -/
def message (kind len : Nat) (rest : List Word) (f : State → State) : State := f { node9 with
  regs := node9.regs ++ [(kdSite * 2 ^ 32 + 0x85400, BitVec.ofNat 64 (2 ^ 48))]
  arrived := [entering (some 0) (mkPkt 9 5 1 true 5 0 0 0 64 0 0 0 64 0 0 (([pack [(0, 8, kind), (32, 32, 77)], 0] ++ rest ++ List.replicate 64 0).flatMap wordBytes |>.take len))] }
theorem wit_KeeperMessages_command : let s := message 1 80 (pkt 0x012 1 [0]) (fun s => { s with queues := [(0, { dq with st := .disabled })] })
    (∀ e ∈ s.arrived, e.pkt.kind = 5 ∧ bits (bytesWord (e.pkt.payload.take 8)) 7 0 = 1 ∧ commandSize e.pkt = true ∧
      ({ s with arrived := [] } : State).toMod.flowOf e = some (RxFlow.adopt e) ∧ e.pkt.seq = (RxFlow.adopt e).base ∧ (RxFlow.adopt e).base < 2 ^ 32 ∧
      (RxFlow.adopt e).got = [] ∧ s.toMod.mgmtSource e.pkt.src = true ∧ (wordsOf (e.pkt.payload.length / 8) e.pkt.payload).drop 2 = pkt 0x012 1 [0]) ∧
    s.arrived.length = 1 ∧ s.working = true ∧ s.power.paused = false ∧ s.incoming = [] ∧ s.remoteQ.flights = [] ∧ (∀ e ∈ s.arrived,
      let all := wordsOf (e.pkt.payload.length / 8) e.pkt.payload
      let taken : Mod := { ({ s with arrived := [] } : State).toMod with
        nextIncoming := s.nextIncoming + 1
        incoming := [{ ix := s.nextIncoming, src := e.pkt.src, cmdId := BitVec.ofNat 32 (bits (wordAt all 0) 63 32), queue := bits (wordAt all 1) 13 0 }]
        remoteQ := { s.remoteQ with flights := [{ ix := s.nextIncoming, words := all.drop 2, stage := .accepted, past := false, progress := 0, work := .none, ports := [], effect := none }] } }
      taken.mgmtSource e.pkt.src = true ∧ taken.formatFault (all.drop 2) = none ∧ taken.forbidden .remote (all.drop 2) = false ∧
      taken.ownerFault .mgmt (all.drop 2) = none ∧ taken.stateFault ⟨.remote, s.nextIncoming⟩ (all.drop 2) = none) ∧ keeperBound (pktOpc (pkt 0x012 1 [0])) = false := by decide +kernel
def remote1 : RemoteCmd := { id := 77, pkt := p1, dst := 5, seq := 0, acked := true }
def reply1 : Reply := { tag := 0, seq := 0, status := 0, detail := 0, progress := 0, bt := 0, notify := false, ix := 0, past := false }
theorem wit_KeeperMessages_reply : (let s := message 2 48 [] id
     (∀ e ∈ s.arrived, e.pkt.kind = 5 ∧ bits (bytesWord (e.pkt.payload.take 8)) 7 0 = 2 ∧ e.pkt.payload.length = 48 ∧
       ({ s with arrived := [] } : State).toMod.flowOf e = some (RxFlow.adopt e) ∧
       BitVec.ofNat 32 (bits (wordAt (wordsOf 6 e.pkt.payload) 0) 63 32) = remote1.id ∧ e.pkt.src = remote1.dst) ∧
     s.arrived.length = 1 ∧ s.remotes = [] ∧ s.flight p1 = none) ∧
    (let g := flightOf (pkt 0x000 1 []) .running .none
     let s := message 2 48 [] (fun s => { s with remotes := [remote1], mqs := [(1, { dq with flights := [g], held := [reply1] })] })
     s.remotes.find? (fun r => r.id == 77 && r.dst == 5) = some remote1 ∧ remote1.pkt.q = .mq 1 ∧ s.flight remote1.pkt = some g ∧ (s.queue (.mq 1)).held ≠ [] ∧
     (s.queue (.mq 1)).st = .enabled ∧ (s.queue (.mq 1)).disables = [] ∧ s.remotes.find? (fun x => x.id == 77 && x.acked) = some remote1) ∧
    owned.remotes.find? (fun x => x.id == 77 && x.acked) = none := by decide +kernel
/-- HELLO at the boundaries: a level one above and one below the module's own, two above, and below the least. -/
theorem wit_KeeperMessages_hello : let s := fun (theirs : Word) (least : Nat) => message 4 16 [] (fun s => { s with
      regs := s.regs ++ [(kdSite * 2 ^ 32 + 0x84018, BitVec.ofNat 64 least)], ports := [(0, { Port.reset with st := .active })], fw := { s.fw with level := 3 }
      arrived := s.arrived.map (fun e => { e with pkt := { e.pkt with payload := (e.pkt.payload.take 8) ++ wordBytes theirs } }) })
    (∀ x ∈ [((4 : Word), 0), (2, 2)], (∀ e ∈ (s x.1 x.2).arrived, e.pkt.kind = 5 ∧ bits (bytesWord (e.pkt.payload.take 8)) 7 0 = 4 ∧ e.pkt.payload.length = 16 ∧
        e.port = some 0 ∧ bits (bytesWord (e.pkt.payload.drop 8)) 15 0 ≤ (s x.1 x.2).fw.level + 1 ∧ (s x.1 x.2).fw.level ≤ bits (bytesWord (e.pkt.payload.drop 8)) 15 0 + 1 ∧
        bits ((s x.1 x.2).reg kdSite 0x84018 0) 15 0 ≤ bits (bytesWord (e.pkt.payload.drop 8)) 15 0) ∧ (s x.1 x.2).portActive 0 = true) ∧
    (∀ e ∈ (s 5 0).arrived, (s 5 0).fw.level + 1 < bits (bytesWord (e.pkt.payload.drop 8)) 15 0) ∧
    (∀ e ∈ (s 1 0).arrived, bits (bytesWord (e.pkt.payload.drop 8)) 15 0 + 1 < (s 1 0).fw.level) ∧
    (∀ e ∈ (s 3 4).arrived, bits (bytesWord (e.pkt.payload.drop 8)) 15 0 < bits ((s 3 4).reg kdSite 0x84018 0) 15 0) := by decide +kernel
def four : List ImageReport := [img 1, img 2, img 3, img 4]
theorem wit_FirmwareRollout : owned.fw.verifying = false ∧ ({ owned.fw with verifying := true }).verifying = true ∧ owned.imagesOk [] = false ∧ owned.imagesOk four = true ∧
    owned.fw.trial = false ∧ ({ owned.fw with trial := true }).trial = true ∧ owned.boot.request = none ∧ owned.engines = [] := by decide +kernel
theorem engines_idle (s : State) (h : s.engines = []) : ∀ e, (s.engine e).active = false := by intro e; simp [Mod.engine, h, Table.get, Table.find, Engine.reset, Engine.active]
theorem wit_TapInstructions : (powered .standby).power.st = .standby ∧ (powered .run).power.st ≠ .standby ∧ ({ owned with unlocked := true } : State).unlocked = true ∧
    owned.unlocked = false ∧ owned.guestAt (18 : Site) = false ∧ ({ owned with part := { owned.part with guestSite := true } } : State).guestAt (18 : Site) = true ∧
    (0 : BitVec 384) = owned.part.idHash ∧ (1 : BitVec 384) ≠ owned.part.idHash ∧
    owned.imageOk 4 (img 5) = true ∧ owned.imageOk 4 (img 1) = false := by decide +kernel

/-- The load of the model's one chunk under way, and its bytes, which are too many to evaluate (R349 to R351). -/
def loadsAt : State := { sends wide loadWords with
  models := [(0, some model1)]
  queues := [(0, { dq with flights := [flightOf loadWords .running (.busy 5 0)] })] }
/-- A module whose memory is laid out so: 16 MiB of sector 0 at the first address of tier 1, nothing held of it or set about it. -/
structure laidOut (m : Mod) : Prop where
  regions : m.regions = loadsAt.regions
  part : m.part = loadsAt.part
  controllers : m.controllers = loadsAt.controllers
  slices : m.slices = []
  regs : m.regs = []
  caches : m.caches = []
  evictions : m.evictions = []
  pdCores : m.pdCores = []
  poison : m.poison = []
  fenced : m.tender.fenced = []
  sectors : m.sectors = loadsAt.sectors
  txns : m.txns = []
theorem laidOut_ctl {m : Mod} (g : laidOut m) (k : Nat) : m.ctl k = loadsAt.ctl k := by unfold Mod.ctl; rw [g.controllers]
theorem laidOut_bytes {m : Mod} (g : laidOut m) : m.chanBytes = loadsAt.chanBytes := by
  funext ch; unfold Mod.chanBytes Mod.stackFitted Mod.dimmBytes; rw [g.part]
theorem laidOut_inService {m : Mod} (g : laidOut m) : m.chanInService = loadsAt.chanInService := by
  funext ch; unfold Mod.chanInService; rw [laidOut_bytes g, laidOut_ctl g]
theorem laidOut_decode {m : Mod} (g : laidOut m) (pa : Nat) (h : base ≤ pa) (h2 : pa < base + 0x1000000) : ∃ c, m.decode (some 0) pa = .ok c := by
  have t : m.tierOf pa = some 1 := by
    unfold Mod.tierOf
    rw [if_neg (by unfold base at h; omega), if_pos (by unfold base at h h2; simp; omega), if_pos]
    have : m.mappedLength 1 = 2 ^ 32 := by
      have : loadsAt.mappedLength 1 = 2 ^ 32 := by decide +kernel
      unfold Mod.mappedLength at this ⊢
      rw [laidOut_inService g, laidOut_bytes g]; exact this
    rw [this]; unfold base at h h2; omega
  have e : m.entryAt pa = some (0, { Region.reset with w0 := BitVec.ofNat 64 (3 + 6 * 2 ^ 32), w1 := 0x80000000000, w2 := 8 }) := by
    have b : ({ Region.reset with w0 := BitVec.ofNat 64 (3 + 6 * 2 ^ 32), w1 := 0x80000000000, w2 := 8 } : Region).base = base := by decide +kernel
    have z : ({ Region.reset with w0 := BitVec.ofNat 64 (3 + 6 * 2 ^ 32), w1 := 0x80000000000, w2 := 8 } : Region).size = 0x1000000 := by decide +kernel
    have v : ({ Region.reset with w0 := BitVec.ofNat 64 (3 + 6 * 2 ^ 32), w1 := 0x80000000000, w2 := 8 } : Region).valid = true := by decide +kernel
    have r : loadsAt.regions = [(0, { Region.reset with w0 := BitVec.ofNat 64 (3 + 6 * 2 ^ 32), w1 := 0x80000000000, w2 := 8 })] := rfl
    unfold Mod.entryAt
    rw [g.regions, r, List.find?_cons_of_pos]
    unfold Region.covers
    rw [b, z, v]
    simp; omega
  obtain ⟨r, hr⟩ : ∃ r, r = ({ Region.reset with w0 := BitVec.ofNat 64 (3 + 6 * 2 ^ 32), w1 := 0x80000000000, w2 := 8 } : Region) := ⟨_, rfl⟩
  have t1 : r.tier = 1 := by rw [hr]; decide +kernel
  have l : m.chanList r = [2560] := by
    have l : loadsAt.chanList r = [2560] := by rw [hr]; decide +kernel
    unfold Mod.chanList Mod.stackChans Mod.chanOwner at l ⊢
    rw [laidOut_inService g]
    have e : m.sector = loadsAt.sector := by funext k; unfold Mod.sector; rw [g.sectors]
    simp only [laidOut_ctl g, e]; exact l
  have mo : r.mode ≠ 5 := by rw [hr]; decide +kernel
  have se : ((0 : SectorId).val == r.sector) = true := by rw [hr]; decide +kernel
  rw [← hr] at e
  unfold Mod.decode
  rw [t]
  dsimp only
  rw [e]
  dsimp only
  rw [if_pos se]
  have k : r.key < 64 := by rw [hr]; decide +kernel
  have b : r.base = base := by rw [hr]; decide +kernel
  have o : r.chOff = 0 := by rw [hr]; decide +kernel
  have c : m.cellIn r pa = some (128 * lineNum 2560 r.key (pa - base) + (pa - base) % 128) := by
    unfold Mod.cellIn
    rw [if_neg (by omega), l]
    unfold Region.place
    simp [mo, o, b, Nat.mod_one, Nat.div_add_mod']
  rw [c]
  dsimp only
  have u : m.outside ((128 * lineNum 2560 r.key (pa - base) + (pa - base) % 128) / 128) = false := by
    have : lineChan ((128 * lineNum 2560 r.key (pa - base) + (pa - base) % 128) / 128) = 2560 := by
      unfold lineChan lineNum
      omega
    unfold Mod.outside
    rw [this]
    rfl
  rw [u]
  exact ⟨_, rfl⟩
theorem laidOut_decodeN {m : Mod} (g : laidOut m) (n pa : Nat) (h : base ≤ pa) (h2 : pa + n ≤ base + 0x1000000) : ∃ cs, m.decodeN (some 0) pa n = .ok cs := by
  induction n generalizing pa with
  | zero => exact ⟨[], rfl⟩
  | succ n ih =>
    obtain ⟨c, hc⟩ := laidOut_decode g pa h (by omega)
    obtain ⟨cs, hcs⟩ := ih (pa + 1) (by omega) (by omega)
    exact ⟨c :: cs, by unfold Mod.decodeN; rw [hc]; dsimp only; rw [hcs]⟩
theorem laidOut_found {m : Mod} (g : laidOut m) (k : Nat) : (m.ctl k).lost = none ∧ (m.ctl k).inject = [] := by
  have e : m.controllers = [(80, { Controller.reset with owner := [(0, some 0)] })] := g.controllers
  unfold Mod.ctl; rw [e]; unfold Table.get Table.find
  split <;> exact ⟨rfl, rfl⟩
theorem laidOut_slice {m : Mod} (g : laidOut m) (k : Nat) : m.slice k = Slice.reset := by unfold Mod.slice; rw [g.slices]; rfl
theorem laidOut_line {m : Mod} (g : laidOut m) (line : Nat) : m.sliceLine line = none ∧ m.txnOn line = none ∧ m.dirtyCopy line = none ∧ m.fromMemory line = true ∧
    m.lineFenced line = false ∧ m.allocWay line = none := by
  have a : m.sliceLine line = none := by unfold Mod.sliceLine; rw [laidOut_slice g]; rfl
  have b : m.txnOn line = none := by unfold Mod.txnOn; rw [laidOut_slice g]; rfl
  have d : m.dirtyCopy line = none := by
    unfold Mod.dirtyCopy Mod.copies Mod.owedCopies; rw [g.caches, g.evictions, b]; rfl
  have e : m.lineFenced line = false := by unfold Mod.lineFenced Mod.stackFenced; rw [g.fenced]; simp
  refine ⟨a, b, d, by unfold Mod.fromMemory Mod.copies; rw [a, d, g.caches]; rfl, e, ?_⟩
  unfold Mod.allocWay
  split
  · rfl
  · have w : ∀ s, m.wayMask (m.homeOf line) s = 0 := by intro s; unfold Mod.wayMask Mod.reg; rw [g.regs]; rfl
    have n : ∀ l : List Nat, l.find? (fun _ => false) = none := fun l => by simp
    simp [w, n]
theorem laidOut_sound {m : Mod} (g : laidOut m) (line : Nat) : m.poisoned line = false := by
  unfold Mod.poisoned Mod.spoiled Mod.unavailable Mod.lostLine
  rw [g.poison, (laidOut_found g _).1, (laidOut_line g line).2.2.2.2.1]
  simp
theorem laidOut_read {m : Mod} (g : laidOut m) (n pa : Nat) (h : base ≤ pa) (h2 : pa + n ≤ base + 0x1000000) :
    ∃ bs, m.readPhys (some 0) pa n = .ok bs := by
  obtain ⟨cs, e⟩ := laidOut_decodeN g n pa h h2
  unfold Mod.readPhys
  rw [e]
  dsimp only
  rw [if_neg (by simp [laidOut_sound g])]
  exact ⟨_, rfl⟩
/-- The bytes of memory alone, and what has left the module. -/
theorem laidOut_with {m : Mod} (g : laidOut m) (d : List Host.Cell) (o : List Out) : laidOut { m with dram := d, out := o } :=
  ⟨g.regions, g.part, g.controllers, g.slices, g.regs, g.caches, g.evictions, g.pdCores, g.poison, g.fenced, g.sectors, g.txns⟩
theorem laidOut_toMemory {m : Mod} (g : laidOut m) (line : Nat) (new : Table Byte) (full : Bool) : laidOut (m.toMemory line new full) := by
  unfold Mod.toMemory
  split
  · unfold Mod.noteWritten
    have e := fun d => (laidOut_found (laidOut_with g d m.out) (chanCtl (lineChan line)).1).1
    simp only [e]
    exact laidOut_with g _ m.out
  · exact laidOut_with g _ m.out
theorem laidOut_rest {m : Mod} (g : laidOut m) (line : Nat) (new : Table Byte) (alloc : Bool) : laidOut (m.rest line new alloc) := by
  have k : m.dropSliceKeys line = m := by
    unfold Mod.dropSliceKeys Mod.setSlice
    dsimp only
    rw [laidOut_slice g]
    show ({ m with slices := Table.set Slice.reset m.slices (m.homeOf line) Slice.reset } : Mod) = m
    rw [g.slices, Table.set, if_pos rfl]
    show ({ m with slices := [] } : Mod) = m
    rw [← g.slices]
  unfold Mod.rest
  dsimp only
  rw [k]
  split
  · unfold Mod.toSlice
    rw [(laidOut_line g line).1, (laidOut_line g line).2.2.2.2.2]
    dsimp only
    split
    · contradiction
    · exact laidOut_toMemory g _ _ _
  · exact laidOut_toMemory g _ _ _
theorem laidOut_dropCopies {m : Mod} (g : laidOut m) (line : Nat) : m.dropCopies line = m := by
  have r : m.dropReservations line = m := by
    unfold Mod.dropReservations
    rw [g.pdCores]
    show ({ m with pdCores := [] } : Mod) = m
    rw [← g.pdCores]
  have d : m.dropCarried line = m := by unfold Mod.dropCarried; rw [(laidOut_line g line).2.1]
  unfold Mod.dropCopies
  dsimp only
  rw [r, d, g.caches, g.evictions]
  show ({ m with caches := [], evictions := [] } : Mod) = m
  have c := g.caches
  have e := g.evictions
  cases m
  dsimp only at c e
  subst c
  subst e
  rfl
theorem laidOut_foldl {α : Type} {f : Mod → α → Mod} (h : ∀ m a, laidOut m → laidOut (f m a)) (l : List α) {m : Mod} (g : laidOut m) : laidOut (l.foldl f m) := by
  induction l generalizing m with
  | nil => exact g
  | cons a l ih => exact ih (h m a g)
theorem laidOut_findError {m : Mod} (g : laidOut m) (line : Nat) : m.findError line = m := by
  unfold Mod.findError; dsimp only; rw [(laidOut_found g _).2]; rfl
theorem laidOut_channelRead {m : Mod} (g : laidOut m) (lines : List Nat) : m.channelRead lines = m := by
  unfold Mod.channelRead
  induction lines with
  | nil => rfl
  | cons a l ih =>
    rw [List.foldl_cons]
    have f := laidOut_findError g a
    rw [(laidOut_line g a).1]
    dsimp only
    rw [f, ite_self]
    exact ih
theorem laidOut_unpoison {m : Mod} (g : laidOut m) (which : Nat → Bool) : laidOut (m.unpoison which) := by
  have c : m.controllers = [(80, { Controller.reset with owner := [(0, some 0)] })] := g.controllers
  refine ⟨g.regions, g.part, ?_, g.slices, g.regs, g.caches, g.evictions, g.pdCores, ?_, g.fenced, g.sectors, g.txns⟩
  · unfold Mod.unpoison
    dsimp only
    rw [c, ← g.controllers, c]
    rfl
  · unfold Mod.unpoison
    dsimp only
    rw [g.poison]
    rfl
theorem laidOut_writeLine {m : Mod} (g : laidOut m) (line : Nat) (bytes : List (Nat × Byte)) : laidOut (m.writeLine line bytes 0) := by
  have b : m.lostLine line = false := by
    unfold Mod.lostLine
    rw [(laidOut_found g _).1]
    simp
  unfold Mod.writeLine
  dsimp only
  rw [laidOut_channelRead g, laidOut_findError g, ite_self, laidOut_dropCopies g, b, (laidOut_line g line).2.2.1]
  split
  · exact laidOut_toMemory g _ _ _
  · split
    · exact laidOut_rest (laidOut_unpoison g _) _ _ _
    · exact laidOut_rest g _ _ _
theorem laidOut_writeHinted {m : Mod} (g : laidOut m) (cells : List Nat) (bs : List Byte) : laidOut (m.writeHinted cells bs 0) := by
  unfold Mod.writeHinted
  dsimp only
  refine laidOut_foldl (fun m l g => laidOut_writeLine g _ _) _ ?_
  unfold Mod.writeOutside
  exact laidOut_foldl (fun m l g => by
    dsimp only
    split
    · exact g
    · exact laidOut_with g m.dram _) _ g
theorem laidOut_chargeAll {m : Mod} (g : laidOut m) (cells : List Nat) : m.chargeAll (some 0) 0 cells = m := by
  have e : ∀ l : List Nat, (Mod.throughCtl m 0 0 l).1 = m := by
    intro l
    unfold Mod.throughCtl
    have : ∀ (k : List Nat) (x : Mod × List (Nat × Nat)), (k.foldl (fun (x : Mod × List (Nat × Nat)) (a : Nat) =>
        (x.1, x.2 ++ [((chanCtl (lineChan a)).1, (l.filter (· / 128 == a)).length)])) x).1 = x.1 := by
      intro k
      induction k with
      | nil => intro x; rfl
      | cons a k ih => intro x; rw [List.foldl_cons]; exact ih _
    exact this _ (m, [])
  unfold Mod.chargeAll
  dsimp only
  rw [List.filter_eq_nil_iff.mpr (by intro x _; rw [unregulated_of _ (by rw [g.regs]; simp)]; simp)]
  exact e cells
theorem laidOut_plain (m : Mod) (pa n : Nat) (h : base ≤ pa) (h2 : pa ≤ base + 0x1000000) : m.noteBlock (some 0) pa n = m := by
  unfold Mod.noteBlock
  rw [if_neg]
  unfold inBlocks cbBase
  unfold base at h h2
  simp only [Bool.and_eq_true, decide_eq_true_eq, not_and]
  omega
theorem laidOut_touchRead {m : Mod} (g : laidOut m) (n pa : Nat) (h : base ≤ pa) (h2 : pa ≤ base + 0x1000000) (z : m.prioAt pa = 0) : m.touchRead (some 0) pa n = m := by
  unfold Mod.touchRead
  split
  · rw [z, laidOut_chargeAll g, laidOut_channelRead g, laidOut_plain _ _ _ h h2]
  · rfl
theorem laidOut_write {m : Mod} (g : laidOut m) (bs : List Byte) (pa : Nat) (h : base ≤ pa) (h2 : pa + bs.length ≤ base + 0x1000000) :
    ∃ n, m.writePhys (some 0) pa bs = .ok n ∧ laidOut n := by
  obtain ⟨cs, e⟩ := laidOut_decodeN g bs.length pa h h2
  unfold Mod.writePhys
  rw [e]
  refine ⟨_, rfl, ?_⟩
  rw [laidOut_chargeAll g, laidOut_plain _ _ _ h (by omega)]
  exact laidOut_writeHinted g _ _
theorem laidOut_writeParts {m : Mod} (g : laidOut m) (l : List (Nat × List Byte)) (h : ∀ p ∈ l, p.1 + p.2.length ≤ 0x1000000) :
    ∃ n, m.writeParts (some 0) base l = .ok n := by
  induction l generalizing m with
  | nil => exact ⟨m, rfl⟩
  | cons p l ih =>
    obtain ⟨off, bs⟩ := p
    have := h (off, bs) List.mem_cons_self
    obtain ⟨m', e, g'⟩ := laidOut_write g bs (base + off) (by omega) (by dsimp only at this; omega)
    obtain ⟨n, e'⟩ := ih g' (fun p hp => h p (List.mem_cons_of_mem _ hp))
    exact ⟨n, by unfold Mod.writeParts; rw [e]; exact e'⟩
theorem laidOut_readParts {m : Mod} (g : laidOut m) (l : List (Nat × Nat)) (h : ∀ p ∈ l, p.1 + p.2 ≤ 0x1000000) :
    ∃ parts, m.readParts (some 0) base l = .ok parts := by
  induction l with
  | nil => exact ⟨[], rfl⟩
  | cons q l ih =>
    obtain ⟨off, n⟩ := q
    have := h (off, n) List.mem_cons_self
    obtain ⟨bs, e⟩ := laidOut_read g n (base + off) (by omega) (by dsimp only at this; omega)
    obtain ⟨r, e'⟩ := ih (fun p hp => h p (List.mem_cons_of_mem _ hp))
    exact ⟨(off, bs) :: r, by unfold Mod.readParts; rw [e]; dsimp only; rw [e']⟩
theorem laidOut_free {m : Mod} (g : laidOut m) (write : Bool) (n pa : Nat) (h : base ≤ pa) (h2 : pa + n ≤ base + 0x1000000) :
    m.holdsOff (some 0) write pa n = false := by
  obtain ⟨cs, e⟩ := laidOut_decodeN g n pa h h2
  have l : ∀ line stamp, m.lineBusy line stamp = false := by
    intro line stamp
    unfold Mod.lineBusy Mod.windowOn
    rw [(laidOut_line g line).2.1, laidOut_slice g, g.pdCores]; rfl
  have w : ∀ line, m.wayless line = false := by
    intro line
    unfold Mod.wayless
    rw [(laidOut_line g line).2.2.2.2.1]; rfl
  unfold Mod.holdsOff Mod.passNow Mod.pass
  rw [e]
  dsimp only
  rw [if_neg (by simp [l, w, Mod.behind, g.txns])]
  unfold Mod.charge
  dsimp only
  rw [List.filter_eq_nil_iff.mpr (by intro x _; rw [unregulated_of _ (by rw [g.regs]; simp)]; simp)]
  rfl
theorem loadsAt_laidOut : laidOut loadsAt.toMod := ⟨rfl, rfl, rfl, rfl, rfl, rfl, rfl, rfl, rfl, rfl, rfl, rfl⟩
/-- The chunk of 4 MiB and its tag are read, and the plaintext or zeros written. -/
theorem wit_ModelsAndSessions_chunk : loadsAt.flight p0 = some (flightOf loadWords .running (.busy 5 0)) ∧ Table.get none loadsAt.models 0 = some model1 ∧
    bits (wordAt loadWords 3) 55 0 = base ∧ bits (wordAt loadWords 4) 55 0 = base + 0x800000 ∧ chunkBytes = 0x400000 := by decide +kernel
theorem wit_ModelsAndSessions_bytes : let one := loadsAt.toMod.touchRead (some 0) base (0x400000 + 16)
    loadsAt.toMod.holdsOff (some 0) false base (0x400000 + 16) = false ∧ one.holdsOff (some 0) true (base + 0x800000) 0x400000 = false ∧
    (∃ bs, one.readPhys (some 0) base (0x400000 + 16) = .ok bs) ∧
    ∀ bs : List Byte, bs.length = 0x400000 → ∃ m, one.writePhys (some 0) (base + 0x800000) bs = .ok m := by
  intro one
  have e : one = loadsAt.toMod := laidOut_touchRead loadsAt_laidOut _ _ (by omega) (by omega) (by decide +kernel)
  rw [e]
  exact ⟨laidOut_free loadsAt_laidOut _ _ _ (by omega) (by omega), laidOut_free loadsAt_laidOut _ _ _ (by omega) (by omega),
    laidOut_read loadsAt_laidOut _ _ (by omega) (by omega), fun bs e =>
    (laidOut_write loadsAt_laidOut bs _ (by omega) (by omega)).imp fun _ h => h.1⟩

/-! ## Preemption (R81 to R89) -/

theorem bytesOf_len (n v : Nat) : (bytesOf n v).length = n := by
  induction n generalizing v with
  | zero => rfl
  | succ n ih => unfold bytesOf; simp [ih]
theorem wordBytes_len (w : WMem) (n : Nat) : (w.bytes n).length = 4 * n := by
  unfold WMem.bytes
  rw [List.length_flatMap, List.map_congr_left (g := fun _ => 4) (fun a _ => bytesOf_len 4 _)]
  simp [List.map_const', Nat.mul_comm]
/-- A preempted core of sector 0 whose save area begins at the region's first address, and the launch it makes way for. -/
def yields (st : CoreSt) (f : TCore → TCore) : State := { loadsAt with cores := [(0, f { ran with st := st, saveBase := 0x8000000, saveValid := true })] }
def preempting : LaunchWait := { pkt := p0, words := [], prio := 2, image := kern }
theorem wit_Preemption : (∀ l ∈ [none, some p0], let c := (yields .stopping (fun c => { c with launch := l })).core 0
      c.st = .stopping ∧ c.hold = none ∧ c.launch = l ∧ c.moves = [] ∧ c.engineProgress = { count := 0, kind := 0 }) ∧
    (let c := (yields .saving (fun c => { c with preemptFor := some preempting, queue := [preempting] })).core 0
     c.st = .saving ∧ c.hold = none ∧ c.preemptFor = some preempting ∧ preempting ∈ c.queue) ∧
    (let x := ({ ran with saveBase := 0x8000000 } : TCore).context
     let c := (yields .restoring (fun c => { c with saved := some x })).core 0
     c.st = .restoring ∧ c.saved = some x ∧ x.overflow = false ∧ { x with overflow := true }.overflow = true) ∧
    (let c := (yields .stopping (fun c => { c with moves := [{ fillJob [0] with parts := [{ fillPart [0] with read := [(1, [1])] }] }] })).core 0
     ∃ j ∈ c.moves, ∃ p ∈ j.parts, p.read ≠ []) := by decide +kernel
/-- An MMA of 128 products at its boundary, between two, and at its end; with REPRO and without. -/
theorem wit_Preemption_mma : ∀ z ∈ [0#8, 2], let j := job .mma (mat 0 z) 128
    let c := (yields .stopping (fun c => { c with mat := [j] })).core 0
    c.mat = j :: [] ∧ j.op = .mma ∧ 64 % 64 = 0 ∧ j.done ≤ 64 ∧ 64 < j.k ∧ (j.runMma c 0 64).isSome = true ∧ 63 % 64 ≠ 0 ∧ j.k ≤ 128 := by
  intro z h
  simp only [List.mem_cons, List.not_mem_nil, or_false] at h
  rcases h with rfl | rfl <;> decide +kernel
/-- A save area and a read of one are too long to evaluate. -/
theorem wit_Preemption_save : let s := yields .saving (fun c => { c with preemptFor := some preempting, queue := [preempting] })
    ∃ m, Mod.writeParts { s.toMod with free := s.free + 1 } (s.core 0).sector ((s.core 0).saveBase.toNat * 65536) ((s.core 0).saveParts (s.free + 3)) = .ok m := by
  intro s
  have b : (s.core 0).saveBase.toNat * 65536 = base := by decide +kernel
  have l : (bitsSet ((s.core 0).kernel.elim 0 (fun k => k.tileLive.toNat)) 64) = [] := by decide +kernel
  rw [b]
  refine laidOut_writeParts (m := { s.toMod with free := s.free + 1 }) ⟨rfl, rfl, rfl, rfl, rfl, rfl, rfl, rfl, rfl, rfl, rfl, rfl⟩ _ (fun p hp => ?_)
  unfold TCore.saveParts at hp
  rw [l] at hp
  simp only [List.map_nil, List.append_nil, List.mem_cons, List.not_mem_nil, or_false] at hp
  rcases hp with rfl | rfl | rfl
  · simp [recordBytes]
  · simp only [wordBytes_len]; omega
  · simp only [wordBytes_len]; omega
theorem wit_Preemption_restore : let x := ({ ran with saveBase := 0x8000000 } : TCore).context
    let s := yields .restoring (fun c => { c with saved := some x })
    let area := [(0, 0x5000), (0x5000, 0x20000), (0x25000, 0x40000)] ++
      (bitsSet (x.kernel.elim 0 (fun k => k.tileLive.toNat)) 64).map (fun i => (0x65000 + i * 0x10000, 0x10000))
    ∃ parts, (area.foldl (fun (n : Mod) q => n.touchRead (s.core 0).sector (x.base + q.1) q.2) s.toMod).readParts (s.core 0).sector x.base area = .ok parts := by
  intro x s area
  have b : x.base = base := by decide +kernel
  have l : area = [(0, 0x5000), (0x5000, 0x20000), (0x25000, 0x40000)] := by decide +kernel
  have g : laidOut s.toMod := ⟨rfl, rfl, rfl, rfl, rfl, rfl, rfl, rfl, rfl, rfl, rfl, rfl⟩
  have t : ∀ off n, off ∈ [0, 0x5000, 0x25000] → s.toMod.touchRead (some 0) (base + off) n = s.toMod := by
    intro off n h
    refine laidOut_touchRead g n _ (by omega) ?_ ?_
    · simp only [List.mem_cons, List.not_mem_nil, or_false] at h; omega
    · revert off; decide +kernel
  have c : (s.core 0).sector = some 0 := by decide +kernel
  rw [b, l, c, List.foldl_cons, List.foldl_cons, List.foldl_cons, List.foldl_nil, t 0 _ (by simp), t 0x5000 _ (by simp), t 0x25000 _ (by simp)]
  exact laidOut_readParts g _ (by decide +kernel)

/-! ## The guest, control-block registers, the machine (R8, R10, R26, R27, R449 to R456) -/

def guesting (site : Bool) (ctrl : Word) (f : Guest → Guest) (regs : Table Word) : State := { owned with
  part := { owned.part with guestSite := site }
  regs := (18 * 2 ^ 32 + 0x30008, ctrl) :: regs
  guest := f owned.guest }
theorem wit_GuestAdmission : (∀ n ∈ [0, 1, 2, 3, 4, 5, 6, 7], ((guesting true 0 (fun g => { g with st := n }) []).guest.st = n)) ∧ (guesting true 0 id []).part.guestSite = true ∧
    (guesting false 0 id []).part.guestSite = false ∧ (guesting true 0 id []).guest.edges = 0 ∧ (guesting true 0 (fun g => { g with edges := 8 }) []).guest.edges ≠ 0 ∧
    (guesting true (BitVec.ofNat 64 (2 ^ 16)) id []).guestSetting 0 1 = true ∧ (guesting true (BitVec.ofNat 64 (2 ^ 16)) id []).guestSetting 1 1 = false ∧
    (guesting true (BitVec.ofNat 64 (2 ^ 16 + 5 * 2 ^ 12)) id []).guestSetting 5 1 = true ∧ (guesting true (BitVec.ofNat 64 (2 ^ 16 + 7 * 2 ^ 12)) id []).guestSetting 6 1 = false ∧
    (0 : Fin 73).val = 0 ∧ (72 : Fin 73).val ≠ 0 ∧
    (BitVec.ofNat 384 (2 ^ 320 * 7)).toNat = (guesting true 2 id [(18 * 2 ^ 32 + 0x30038, 7)]).guestHash 0x30010 ∧
    (1 : BitVec 384).toNat ≠ (guesting true 2 id []).guestHash 0x30010 ∧ bit (guesting true 2 id []).guestCtrl 1 = true ∧ bit (guesting true 0 id []).guestCtrl 1 = false ∧
    (1 : BitVec 384).toNat ≠ (guesting true 2 id []).guestHash 0x30040 ∧ (0 : BitVec 384).toNat = (guesting true 2 id []).guestHash 0x30040 := by decide +kernel
theorem wit_GuestAdmission_states : (guesting true 0 id []).power.st ≠ .hold ∧
    ({ guesting true 0 id [] with power := { (guesting true 0 id []).power with st := .hold } } : State).power.st = .hold := by decide +kernel
/-- An admitted guest of sector 0. -/
def admitted (f : Guest → Guest) : State := guesting true 0 (fun g => f { g with st := 5, protocol := 1 }) []
theorem wit_GuestMessages : (guesting false 0 id []).part.guestSite = false ∧ (guesting true 0 id []).guest.st ≠ 5 ∧ (admitted id).guest.st = 5 ∧ (admitted id).working = true ∧
    (admitted (fun g => { g with protocol := 2 })).guest.protocol = 2 ∧ (admitted id).guest.protocol ≠ 2 ∧ (1 : BitVec 8) ≠ (admitted id).guest.gen ∧
    (0 : BitVec 8) = (admitted id).guest.gen ∧ (admitted (fun g => { g with malformedRun := 14 })).guest.malformedRun < 15 ∧
    (admitted (fun g => { g with malformedRun := 15 })).guest.malformedRun = 15 ∧ (3071 : BitVec 12).toNat < 3072 ∧ 3072 ≤ (3072 : BitVec 12).toNat ∧
    (admitted id).guestSector = some 0 ∧ guestForbidden pa0.toNat = false ∧ guestForbidden (0xFFF00000000000 : PAddr).toNat = true ∧
    (1 : BitVec 16) ≠ 0 ∧ ¬((0 : BitVec 18).getLsbD 16 = true ∧ (0 : BitVec 18).getLsbD 15 = true) := by decide +kernel
/-- Reads of one line, with and without poison, and one that does not decode. -/
theorem wit_GuestMessages_reads : (∀ x ∈ (admitted id).txns, x.waiting = false) ∧ (admitted id).prioAt pa0.toNat = 0 ∧
    (match (admitted id).decodeN (some 0) base 128 with
     | .ok cs => decide (cs = cellsFrom line0 0 128) && (linesOf cs).all (fun l => !(admitted id).lineBusy l (admitted id).nextStamp) &&
        !(linesOf cs).any (((admitted id).meshPath false 18 ((admitted id).lineSite (cs.headD 0 / 128))).2.channelRead (linesOf cs)).poisoned
     | .error _ => false) = true ∧
    (let s := ({ admitted id with poison := [line0] } : State)
     (match s.decodeN (some 0) base 128 with
     | .ok cs => (linesOf cs).any ((s.meshPath false 18 (s.lineSite (cs.headD 0 / 128))).2.channelRead (linesOf cs)).poisoned
     | .error _ => false) = true) ∧
    (match (admitted id).decodeN (some 0) (base + 0x200000) 128 with | .ok _ => false | .error e => decide (e = .regionFault)) = true ∧
    guestForbidden 0xFFF01900000000 = false ∧ (match (admitted id).decodeN (some 0) 0xFFF01900000000 128 with | .ok _ => false | .error e => decide (e = .addressError)) = true := by decide +kernel
/-- Writes and atomics at a line at rest. -/
theorem wit_GuestMessages_rest : (admitted id).unregulated ∧ (admitted id).atRest line0 ∧ (admitted id).lineFenced line0 = false ∧
    guestAtom (10 : BitVec 4).toNat = some .cas ∧ guestAtom (11 : BitVec 4).toNat = none ∧ pa0.toNat % 8 = 0 ∧
    (match (admitted id).decodeN (some 0) base 8 with | .ok cs => decide (cs = cellsFrom line0 base 8) | .error _ => false) = true :=
  ⟨unregulated_of _ (by decide +kernel), resting _ (by decide +kernel), by decide +kernel, by decide +kernel, by decide +kernel, by decide +kernel, by decide +kernel⟩

/-- Writes of a wrong size, of a wrong place, without the right, at no register; and a router's register. -/
theorem wit_RegisterWrites : (∀ o ∈ [0x28, 0x84008, 4], owned.cbRange (12 : Site) o = .registers) ∧ (4 : Nat) ≠ 8 ∧ 4 % 8 ≠ 0 ∧
    owned.mayWrite (.sector 0) (12 : Site) 0x28 = false ∧ owned.readReg none (12 : Site) 0xFFF8 = none ∧ owned.cbRange (12 : Site) 0xFFF8 = .registers ∧
    owned.guestAt (0 : Site) = false ∧ (owned.regDef (0 : Site) 0x3100000).isSome = true := by decide +kernel
/-- Bytes over two lines, each of its own cell; two lines of one place do not stand in them. -/
theorem wit_MemoryReadsBack : (match owned.decodeN (some 0) (base + 126) 4 with
    | .ok cs => decide cs.Nodup && cs.all (fun c => !owned.outside (c / 128) && !blockLine (c / 128) &&
        cs.all (fun d => decide (lineChan (c / 128) = lineChan (d / 128) → lineOff (c / 128) = lineOff (d / 128) → c / 128 = d / 128)))
    | .error _ => false) = true ∧ inBlocks (base + 126) = false := by decide +kernel
theorem wit_MemoryReadsBack_errors : owned.uninjected := uninjected_of _ (by decide)
/-- The first command of a queue of two runs, and the second waits. -/
theorem test_step : (match step { booted with pending := [.idcode, .readmit] } with
    | .next s => decide (s.pending = [.readmit]) && decide (s.tap.ir = 2) && decide (s.out = [.answer 2 [2, 0x17250767]])
    | _ => false) = true := by decide +kernel
/-- The cold start begins with the input's return (R432). -/
theorem test_inputReturn : (match exec .inputReturn State.reset with
    | .next s => decide (s.power.st = .standby) && decide (s.boot.kind = 0) && decide (s.boot.cause = 0) && decide (s.boot.count = 1)
    | _ => false) = true := by decide +kernel
theorem wit_NothingUndone : State.reset.Sound := ⟨by decide +kernel, by decide +kernel⟩

/-! ## Further clauses of the statements above -/

/-- VPACK in both types, with and without a draw, and the block of an MMA whose descriptor was read at its start. -/
theorem wit_VectorPack : (at0 (onto (.vpack 0 (vec 5 1 2 3 0x12)) ran)).takes 0 (.vpack 0 (vec 5 1 2 3 0x12)) (packTouch (vec 5 1 2 3 0x12)) ∧
    (at0 (onto (.vpack 0 (vec 5 1 2 0 0x10)) ran)).takes 0 (.vpack 0 (vec 5 1 2 0 0x10)) (packTouch (vec 5 1 2 0 0x10)) ∧ (vec 5 1 2 0 0x10).sr = false :=
  ⟨takes (by decide +kernel) (by decide +kernel), takes (by decide +kernel) (by decide +kernel), by decide +kernel⟩
theorem wit_FloatMma_resumed : let j := { job .mma (mat 2 0) 65 with done := 64, desc := some (auxAt TCore.reset.tile 0) }
    j.done ≤ j.k ∧ j.done ≠ 0 ∧ j.desc = some (auxAt TCore.reset.tile 0) ∧ auxRanges (mat 2 0) (auxAt TCore.reset.tile 0) 65 = true ∧
    (job .mma (mat 0 0) 1).desc = none ∧ mmaLegal (mat 2 0) = true := by decide +kernel
/-- R160, R161: exact results and special values of the functions. -/
theorem test_functionValues : Func.eval .exp2 0x40400000 = 0x41000000 ∧ Func.eval .exp2 0 = 0x3F800000 ∧ Func.eval .sqrt 0x40800000 = 0x40000000 ∧
    Func.eval .sqrt 0xBF800000 = 0x7FC00000 ∧ Func.eval .sinpi 0 = 0 ∧ Func.eval .log2 0 = 0xFF800000 ∧ Func.eval .rcp 0x80000000 = 0xFF800000 ∧
    Func.eval .rsqrt 0x7F800000 = 0 ∧ Func.eval .tanh 0x7F800000 = 0x3F800000 ∧ Func.eval .sigmoid 0 = 0x3F000000 ∧
    (∀ f ∈ [Func.exp2, .log2, .rcp, .rsqrt, .sqrt, .sinpi, .cospi, .tanh, .sigmoid], Func.eval f 0x7FC00001 = 0x7FC00000) := by decide +kernel
/-- A nonce that is the one drawn, and one that is not. -/
theorem wit_TapInstructions_nonce : (∃ nonce : Nat, nonce = (Config.unlockNonce owned.starts).toNat) ∧
    (∃ nonce : Nat, nonce ≠ (Config.unlockNonce owned.starts).toNat) := ⟨⟨_, rfl⟩, ⟨_, Nat.succ_ne_self _⟩⟩
/-- A function-level reset under way; a pending vector that goes out as access returns, and one as it is unmasked. -/
def vectors (f : Fn → Fn) : State := hostPort 2 (fun s => { s with fns := [(0, { Fn.reset with active := true }), (1, f fn1)] })
theorem wit_HostFunctions_vectors : (let s := hosted 3 true id (fun x => { x with flr := true })
     s.fnSector 0 1 = some (0 : SectorId).val ∧ (s.sector 0).st = 3 ∧ (s.sector 0).flr = true) ∧
    (let s := vectors (fun f => { f with bme := false, withdrawn := true, unmasked := [3], pendingVec := [3] })
     (s.fn 0 1).resetting = false ∧ (s.fn 0 1).pendingVec = [(3 : Fin 2048).val] ∧ (3 : Fin 2048).val ∈ (s.fn 0 1).unmasked ∧ (s.fn 0 1).active = true ∧
     (s.fn 0 1).msixEnable = true ∧ s.portCarries (0 : Fin 9).val = true ∧ s.repliesHeld 0 1 = false) ∧
    (let s := vectors (fun f => { f with pendingVec := [3, 4] })
     (3 : Fin 2048).val ∉ (s.fn 0 1).unmasked ∧ (s.fn 0 1).pendingVec.filter (fun v => (s.fn 0 1).unmasked.contains v || v == (3 : Fin 2048).val) = [(3 : Fin 2048).val] ∧
     (s.fn 0 1).reachable = true ∧ (s.fn 0 1).msixEnable = true ∧ s.portCarries (0 : Fin 9).val = true ∧ s.repliesHeld 0 1 = false) ∧
    (vectors (fun f => { f with bme := false })).fn 0 1 = { fn1 with bme := false } := by decide +kernel
theorem wit_HostFunctions_none (mode : Nat) : ∀ k, ((hostPort mode (fun s => { s with fns := [] })).fn 0 k).pendingVec = [] := fun _ => rfl
/-- A source of PD 0 in its M-level domain: held pending where the domain's IE is clear, an MSI to core 0's file where it is set. -/
def domain (ie : Bool) : State := { owned with aia := { Aia.reset with
  domains := [(0, { Aplic.reset with ie := ie, source := [(63, 4)], enabled := [63], target := [(63, 63)] })] } }
theorem wit_Interrupts : Table.get 0 ((domain true).aplic 0).source 63 < 1024 ∧ 4 ≤ Table.get 0 ((domain true).aplic 0).source 63 % 8 ∧
    ((domain false).aplic 0).ie = false ∧ ((domain true).aplic 0).ie = true ∧ 63 ∈ ((domain true).aplic 0).enabled ∧
    1 ≤ Table.get 0 ((domain true).aplic 0).target 63 % 2048 ∧ Table.get 0 ((domain true).aplic 0).target 63 % 2048 ≤ 63 := by decide +kernel
/-- Requests into port 0's aperture: one that leaves the port, and one to the root port's own configuration space. -/
theorem wit_PortRequests_out : (aperture.mayIssue .kd = true ∧ (0x1000000000000 : PAddr).toNat = 0x1000000000000) ∧
    (∃ off ∈ [0, 0x1000, 0x10000000, 0x20000000], aperture.inAperture 0 (0x1000000000000 + off) (0x1000000000000 + off + 1) = true ∧
      (aperture.outAt 0 (0x1000000000000 + off)).1 = 1) ∧
    (∃ off ∈ [0, 0x1000, 0x10000000, 0x20000000], aperture.inAperture 0 (0x1000000000000 + off) (0x1000000000000 + off + 1) = true ∧
      (aperture.outAt 0 (0x1000000000000 + off)).1 = 0 ∧ (aperture.outAt 0 (0x1000000000000 + off)).2 < 4096) ∧
    (∃ off ∈ [0, 0x1000, 0x10000000, 0x20000000], aperture.inAperture 0 (0x1000000000000 + off) (0x1000000000000 + off + 1) = true ∧
      ¬ ((aperture.outAt 0 (0x1000000000000 + off)).1 = 0 ∧ (aperture.outAt 0 (0x1000000000000 + off)).2 < 4096)) := by decide +kernel
theorem wit_WatchdogFindings_upstream : (let u := { upstream1 0 with req := .pd 5 }
    aperture.working = true ∧ aperture.txns = [] ∧ ({ aperture with upstream := [u] } : State).upstream = [u] ∧ u.flush = none ∧ samePool u.req (.pd 5) = true ∧
      u.tag = some 3 ∧ u.req = .pd 5 ∧ aperture.queues = [] ∧ aperture.mqs = [] ∧ aperture.remoteQ.flights = []) ∧
    aperture.upstream.find? (fun y => y.flush.isNone && samePool y.req (.pd 5) && y.tag == some 3) = none := by decide +kernel
/-- A relay's ring in host memory, and one in device memory. -/
def relay (host : Bool) : State := { owned with
  regs := [(kdSite * 2 ^ 32 + (0x80040 + 9 * 0x80), 3)], mqs := [(9, { dq with st := .free, host := host })] }
theorem wit_ManagementQueues_relay : (∀ h ∈ [false, true], 9 ≤ (9 : Fin 64).val ∧ bits ((relay h).reg kdSite (0x80040 + (9 : Fin 64).val * 0x80) 0) 1 0 = 3 ∧
      ((relay h).queue (.mq 9)).st = .free ∧ ((relay h).queue (.mq 9)).host = h) ∧ ((relay false).queue (.mq 9)).sound = true ∧
    ((mq1 .error (fun q => { q with flights := [flightOf (pkt 0x000 1 []) .accepted .none] })).queue (.mq 1)).owed ≠ [] ∧
    ((mq1 .error id).queue (.mq 1)).owed = [] := by decide +kernel
/-- A port that holds a frame back under PFC. -/
theorem wit_EthernetFrames_held : (let x := ((etherPort (BitVec.ofNat 64 (2 ^ 38))).port 0)
    bit (x.ethReg 0x100) 38 = true ∧ x.waiting = [] ∧ x.st = .active ∧ x.ethernet = true) ∧
    ((linked (fun x => { x with ethernet := true, paused := true, heldFrames := [List.replicate 64 0] })).port 0).heldFrames ≠ [] ∧
    (owned.working = true) ∧ (linked id).working = true := by decide +kernel

/-! ## Ill-formed commands (WellFormed) -/

theorem test_illFormed_requests : (Instr.memRequest .kd 0 0 (some [])).wf = false ∧ (Instr.memRequest .kd 0 1 (some (List.replicate 4097 0))).wf = false ∧
    (Instr.inboundEndpointRequest 0 0 .none 0 0 (some [])).wf = false ∧ (Instr.inboundAdapterRequest 0 0 0 0 0 (some [])).wf = false ∧
    (Instr.apertureRequest .kd 0 0 (some [])).wf = false ∧ (Instr.atomicop 0 0 0 0 .fetchAdd 2 0 0).wf = false ∧
    (Instr.pcieCompletion 0 0 true (List.replicate 4097 0)).wf = false := by decide +kernel
theorem test_illFormed_lines : (Instr.fullLineWrite .kd 0 (List.replicate 127 0) 0).wf = false ∧ (Instr.partialWrite .kd 127 [0, 0] 0).wf = false ∧
    (Instr.partialWrite .kd 0 [] 0).wf = false ∧ (Instr.reduceInto .kd .sum true 0 []).wf = false ∧ (Instr.burstBeat .kd 0 0 0 []).wf = false ∧
    (Instr.guestWrite 0 0 true 0 [] true).wf = false ∧ (Instr.guestWrite 0 0 true 0 [(0, [])] true).wf = false ∧
    (Instr.guestWrite 0 0 true 0 (List.replicate 17 (0, List.replicate 128 0)) true).wf = false := by decide +kernel
theorem test_illFormed_reports : (Instr.telemetrySample (List.replicate 17 (0, 0, 0))).wf = false ∧ (Instr.portEpochCheck 0 [] 0).wf = false ∧
    (Instr.flashWindowWrite 67108863 [0, 0]).wf = false ∧ (Instr.registerWrite (.mgmt 0) 0 0 3 0).wf = false ∧
    (Instr.dieToDieLaneFailure 0 true 0 (List.replicate 67 0)).wf = false ∧ (Instr.fwVerifyDone (List.replicate 5 (img 1)) 0).wf = false := by decide +kernel
end Sys2Proof.Machine.Tests
end

section
/-!
PROOFS. The die grid: where a global index lies, and the cluster that owns a queue (R13).
-/
namespace Sys2Proof.Machine
open Sys2Proof

/-- The TD of a global cluster index is its quotient by a TD's 8 clusters. -/
theorem clusterSite_tdIndex (td : Nat) {cluster : Nat} (h : cluster < 8) : clusterSite (td * 8 + cluster) = tdSite td := by
  have td_of : (td * 8 + cluster) / 8 = td := by omega
  rw [clusterSite, td_of]

/-- The TD of a global core index is its quotient by a TD's 64 cores. -/
theorem coreSite_tdIndex (td : Nat) {core : Nat} (h : core < 64) : coreSite (td * 64 + core) = tdSite td := by
  have td_of : (td * 64 + core) / 64 = td := by omega
  rw [coreSite, td_of]

/-- A field of a number that fits a word: the quotient by the places below it, cut to the field's width. -/
theorem bits_ofNat {n : Nat} (fits : n < 2 ^ 64) (hi lo : Nat) : bits (BitVec.ofNat 64 n) hi lo = n / 2 ^ lo % 2 ^ (hi + 1 - lo) := by
  rw [bits, BitVec.toNat_ofNat, Nat.mod_eq_of_lt fits, Nat.shiftRight_eq_div_pow]

/-- Bits [13:7] of a queue's number leave out only its queue within the cluster: no bit stands above them (R270). -/
theorem bits_queueNumber (q : Fin 16384) : bits (BitVec.ofNat 64 q.val) 13 7 = q.val / 128 := by
  have fits : q.val < 2 ^ 64 := by omega
  have index : q.val / 128 < 128 := by omega
  calc bits (BitVec.ofNat 64 q.val) 13 7
    _ = q.val / 128 % 128 := bits_ofNat fits 13 7
    _ = q.val / 128 := Nat.mod_eq_of_lt index

/-- A command queue's sector is the one that owns the queue's cluster. -/
theorem Mod.queueSector_csq (m : Mod) (q : Fin 16384) : m.queueSector (.csq q) = (m.cluster (q.val / 128)).sector := rfl

/-- Settles O55: the quotients of the indices are the TD's number, and the queue's cluster is its number's quotient by 128, which bits [13:7] are. -/
theorem globalIndices : Obligations.GlobalIndices := by
  intro td cluster core q s htd hcluster hcore
  have owner : s.queueSector (.csq q) = (s.cluster (bits (BitVec.ofNat 64 q.val) 13 7)).sector := by
    rw [bits_queueNumber, Mod.queueSector_csq]
  have clusterBound : td * 8 + cluster < 128 := by omega
  have coreBound : td * 64 + core < 1024 := by omega
  have clusterOfCore : (td * 64 + core) / 8 = td * 8 + core / 8 := by omega
  exact ⟨clusterSite_tdIndex td hcluster, coreSite_tdIndex td hcore, clusterBound, coreBound, clusterOfCore, owner⟩

end Sys2Proof.Machine
end

section
/-!
PROOFS. The order of floating-point operands: NaNs and signed zeros under comparison, maximum and minimum (R111).
-/
namespace Sys2Proof.Machine
open Sys2Proof

/-! ## Zeros in a format -/

/-- A zero is read as a zero of its sign, in any format that has exponent bits: without them the exponent field of an infinity is 0 too. -/
theorem Fmt.read_zeroBits {f : Fmt} (expBits : 0 < f.eb) (neg : Bool) : f.read (f.zeroBits neg) = .fin neg 0 0 := by
  have sign : f.zeroBits neg / 2 ^ (f.eb + f.fb) = flag neg := Nat.mul_div_cancel _ (Nat.two_pow_pos _)
  have exponent : f.zeroBits neg / 2 ^ f.fb % 2 ^ f.eb = 0 := by
    rw [zeroBits, Nat.pow_add, ← Nat.mul_assoc, Nat.mul_div_cancel _ (Nat.two_pow_pos _), Nat.mul_mod_left]
  have notSpecial : 0 ≠ 2 ^ f.eb - 1 := by
    have := Nat.one_lt_two_pow (Nat.ne_of_gt expBits)
    omega
  simp only [read, sign, exponent, if_neg notSpecial, if_true]
  cases neg <;> rfl

/-- A result of magnitude 0 is delivered as the zero of its sign, at any exponent. -/
@[simp] theorem Fmt.write_zero (f : Fmt) (neg : Bool) (exp : Int) : f.write (.fin neg 0 exp) = f.zeroBits neg := by
  rw [write, if_pos rfl]

/-! ## Comparison, maximum and minimum of operands -/

/-- Two operands have no order exactly where one of them is a NaN. -/
theorem Fp.cmp_eq_none {a b : Fp} : a.cmp b = none ↔ a = .nan ∨ b = .nan := by
  cases a <;> cases b <;> simp [cmp]

/-- Zeros are equal, whatever their signs. -/
@[simp] theorem Fp.cmp_zeros (s t : Bool) (e g : Int) : Fp.cmp (.fin s 0 e) (.fin t 0 g) = some 0 := by
  simp [cmp, alignTo]

theorem Fp.max_of_nan {a b : Fp} (h : a = .nan ∨ b = .nan) : a.max b = .nan := by rw [max, cmp_eq_none.2 h]

theorem Fp.min_of_nan {a b : Fp} (h : a = .nan ∨ b = .nan) : a.min b = .nan := by rw [min, cmp_eq_none.2 h]

/-- The maximum of two zeros is −0 only where both are. -/
theorem Fp.max_zeros (s t : Bool) : Fp.max (.fin s 0 0) (.fin t 0 0) = .fin (s && t) 0 0 := by
  cases s <;> simp [max, isNeg]

/-- The minimum of two zeros is −0 where either is. -/
theorem Fp.min_zeros (s t : Bool) : Fp.min (.fin s 0 0) (.fin t 0 0) = .fin (s || t) 0 0 := by
  cases s <;> simp [min, isNeg]

/-! ## Maximum and minimum on bits -/

section
variable {f : Fmt} {a b : Nat} (h : f.read a = .nan ∨ f.read b = .nan)
include h

theorem Fmt.max_of_nan : f.max a b = f.nanBits := by rw [max, op2, Fp.max_of_nan h, write]

theorem Fmt.min_of_nan : f.min a b = f.nanBits := by rw [min, op2, Fp.min_of_nan h, write]
end

section
variable {f : Fmt} (expBits : 0 < f.eb) (s t : Bool)
include expBits

theorem Fmt.max_zeroBits : f.max (f.zeroBits s) (f.zeroBits t) = f.zeroBits (s && t) := by
  rw [max, op2, read_zeroBits expBits, read_zeroBits expBits, Fp.max_zeros, write_zero]

theorem Fmt.min_zeroBits : f.min (f.zeroBits s) (f.zeroBits t) = f.zeroBits (s || t) := by
  rw [min, op2, read_zeroBits expBits, read_zeroBits expBits, Fp.min_zeros, write_zero]
end

/-! ## VCMP on FP32 elements -/

/-- Without an order only ≠ (condition 1) holds. -/
theorem vcmp_fp32_of_nan {a b : Half} (cond : Nat) (h : fp32.read a.toNat = .nan ∨ fp32.read b.toNat = .nan) :
    vcmp 0 cond a b = decide (cond = 1) := by
  simp only [vcmp, if_true, Fp.cmp_eq_none.2 h]
  rfl

/-- Between equal operands the conditions ≠, < and > (1, 2 and 4) fail and every other one holds. -/
theorem vcmp_fp32_of_eq {a b : Half} (cond : Nat) (h : (fp32.read a.toNat).cmp (fp32.read b.toNat) = some 0) :
    vcmp 0 cond a b = decide (cond ∉ [1, 2, 4]) := by
  simp only [vcmp, if_true, h]
  split <;> simp_all

/-- Words that are zeros of either sign are equal. -/
theorem vcmp_fp32_zeros {a b : Half} {s t : Bool} (cond : Nat) (ha : a.toNat = fp32.zeroBits s) (hb : b.toNat = fp32.zeroBits t) :
    vcmp 0 cond a b = decide (cond ∉ [1, 2, 4]) := by
  have expBits : 0 < fp32.eb := by decide
  apply vcmp_fp32_of_eq
  rw [ha, hb, Fmt.read_zeroBits expBits, Fmt.read_zeroBits expBits, Fp.cmp_zeros]

/-- Settles O56: a NaN leaves operands without an order, and zeros of any sign compare as equal, so that only the sign chooses between them. -/
theorem floatOrder : Obligations.FloatOrder := by
  have pos : (0x00000000#32).toNat = fp32.zeroBits false := by decide
  have neg : (0x80000000#32).toNat = fp32.zeroBits true := by decide
  have equal (cond : Nat) : vcmp 0 cond 0 0 = decide (cond ∉ [1, 2, 4]) := vcmp_fp32_zeros cond pos pos
  refine ⟨?maxMin, ?nan, ?signedZeros, equal 0, equal 1, equal 2, equal 3, equal 4, equal 5⟩
  case maxMin =>
    intro f hf a b
    have expBits : 0 < f.eb := by
      have formats : ∀ f ∈ [fp32, fp16, bf16], 0 < f.eb := by decide
      exact formats f hf
    exact ⟨fun h => ⟨Fmt.max_of_nan h, Fmt.min_of_nan h⟩, Fmt.max_zeroBits expBits true false, Fmt.max_zeroBits expBits false true,
      Fmt.min_zeroBits expBits true false, Fmt.min_zeroBits expBits false true⟩
  case nan => exact fun a b cond h => vcmp_fp32_of_nan cond h
  case signedZeros =>
    intro cond _
    rw [equal]
    exact ⟨vcmp_fp32_zeros cond neg pos, vcmp_fp32_zeros cond pos neg⟩

end Sys2Proof.Machine
end

section
/-!
PROOFS. The bell of the reply ring: the consumer indexes it takes, and those it ignores and records (R276).
-/
namespace Sys2Proof.Machine
open Sys2Proof

/-! ## Queues under an error record -/

/-- An error record leaves every queue as it was. -/
@[simp] theorem Mod.record_queue_at (m : Mod) (f : Fail) (p : QRef) : (m.record f).queue p = m.queue p := by
  obtain ⟨e, v, n, w, a, o, h⟩ := m.record_eq f
  rw [h]
  cases p <;> rfl

/-! ## Where a command queue's bell errors are recorded -/

/-- The TD of a command queue is its number's quotient by a TD's 1024 queues (R13, R270). -/
theorem queueSite_csq (n : Fin 16384) : queueSite (.csq n) = tdSite (n.val / 1024) := by
  have td_of : n.val / 128 / 8 = n.val / 1024 := Nat.div_div_eq_div_mul ..
  rw [queueSite, clusterSite, td_of]

/-- The pages of a TD's queues follow each other by queue, cluster after cluster (R274). -/
theorem bellPage_csq (n : Fin 16384) : bellPage (.csq n) = cbBase (tdSite (n.val / 1024)) + 0x10000000 + n.val % 1024 * 0x1000 := by
  have td_of : n.val / 128 / 8 = n.val / 1024 := Nat.div_div_eq_div_mul ..
  rw [bellPage, clusterSite, td_of]
  omega

/-- A bell of a command queue that is ignored is recorded on its TD, under its cluster (R276, R397). -/
theorem Mod.bellError_csq (m : Mod) (n : Fin 16384) (off : Nat) :
    m.bellError (.csq n) off =
      m.record { site := tdSite (n.val / 1024), cls := 0x11, sev := 1, unit := 0x0100 + n.val / 128 % 8, code := 0,
                 addr := cbBase (tdSite (n.val / 1024)) + 0x10000000 + n.val % 1024 * 0x1000 + off, detail := 0,
                 sector := (m.cluster (n.val / 128)).sector, injected := false } := by
  rw [bellError, queueSite_csq, bellPage_csq, queueUnit, queueSector_csq]

/-- An ignored bell changes no queue. -/
@[simp] theorem Mod.bellError_queue_at (m : Mod) (q : QRef) (off : Nat) (p : QRef) : (m.bellError q off).queue p = m.queue p :=
  m.record_queue_at _ p

/-! ## CSQ_BELL_RQ -/

section
variable {m : Mod} {q : QRef} {ci : BitVec 32}

/-- The bell of a FREE queue, and a consumer index beyond REPLY_PI, are ignored and recorded. -/
theorem Mod.bellRq_ignored
    (h : (m.queue q).st = .free ∨ ((m.queue q).replyPi - (m.queue q).replyCi).toNat < (ci - (m.queue q).replyCi).toNat) :
    m.bellRq q ci = m.bellError q 8 := by
  simp only [bellRq, Bool.or_eq_true, decide_eq_true_eq, gt_iff_lt, if_pos h]

/-- A consumer index up to REPLY_PI is taken; both are counted from the consumer index before it, so that they may wrap. -/
theorem Mod.bellRq_taken (used : (m.queue q).st ≠ .free)
    (within : (ci - (m.queue q).replyCi).toNat ≤ ((m.queue q).replyPi - (m.queue q).replyCi).toNat) :
    m.bellRq q ci = m.setQueue q { m.queue q with replyCi := ci } := by
  simp only [bellRq, Bool.or_eq_true, decide_eq_true_eq, gt_iff_lt, if_neg (not_or.2 ⟨used, Nat.not_lt.2 within⟩)]
end

/-- CSQ_BELL_RQ always completes, with what its bell leaves. -/
theorem becomes_csqBellRq (q : QRef) (ci : BitVec 32) (s : State) : Becomes (.csqBellRq q ci) s (s.toMod.bellRq q ci) := rfl

/-- Settles O20: a consumer index up to REPLY_PI replaces its queue's and no other queue; any other bell only writes the TD's error record. -/
theorem replyBell : Obligations.ReplyBell := by
  intro s n ci q x
  refine ⟨fun used within => ?taken, fun ignored => ?ignored⟩
  case taken =>
    have left := Mod.bellRq_taken used within
    refine ⟨_, becomes_csqBellRq q ci s, ?_, fun p other => ?_⟩
    · rw [left, Mod.setQueue_queue_at, if_pos rfl]
    · rw [left, Mod.setQueue_queue_at, if_neg other]
  case ignored =>
    have left := Mod.bellRq_ignored ignored
    refine ⟨_, becomes_csqBellRq q ci s, fun p => ?_, ?_⟩
    · rw [left, Mod.bellError_queue_at]
    · rw [left, Mod.bellError_csq]

end Sys2Proof.Machine
end
